-- ==== Sys2Proof/Word.lean ====
section
/-! DEFINITION. The machine's word types and their plainest arithmetic: widths as the spec fixes them (00_scope.md R6, R7, R12). -/

namespace Sys2Proof

/-- A byte of memory (R8). -/
abbrev Byte := BitVec 8
/-- A lane register word, a mask register, EXM, DEADM, SIG (R12, Table 10-1). -/
abbrev W32 := BitVec 32
/-- A scalar register, a special register, a control register (R12). -/
abbrev W64 := BitVec 64

/-- The value read as two's complement (R2). -/
abbrev W64.signed (x : W64) : Int := x.toInt

/-- A flag as a 64-bit number. -/
def boolW (b : Bool) : W64 := if b then 1 else 0

end Sys2Proof
end

