-- ==== Sys2Proof/Syntax.lean ====
section
/-! DEFINITION. The instructions and device steps of the HX-1536: one constructor of `Instr` for each row of the table of operations and events. The operand names of the encoded instructions are those of 17_formats_and_map.md; a device step has no encoding and no fields in the table, and takes the operands its rule names from `EvArgs`. -/

namespace Sys2Proof

/-- Masters that write control registers (R55, Table 4-6): the host PF, the board management controller, the peer controller, and virtual function `n` (1-64). -/
inductive Master where
  | host
  | bmc
  | peer
  | vf (n : Nat)
  deriving DecidableEq, Repr

/-- What an access from outside does (R46, R51). -/
inductive AccessKind where
  | read
  | write
  | atomic (aop : Nat)
  deriving DecidableEq, Repr

/-- An inbound access (R46) or a BAR4 access (R51): `addr` is a physical address, or an aperture offset for BAR4.
`len` bytes are read; a write carries `data`; an atomic carries its operand in `data`. -/
structure Access where
  kind : AccessKind
  addr : Nat
  len : Nat
  data : List Byte
  compare : List Byte := []
  deriving DecidableEq, Repr

/-- The fields of an LR lane word below its op10 (Table 17-7). -/
structure LR where
  d : BitVec 8 := 0
  a : BitVec 9 := 0
  b : BitVec 9 := 0
  c : BitVec 9 := 0
  kd : BitVec 4 := 0
  typ : BitVec 4 := 0
  rnd : BitVec 3 := 0
  sat : Bool := false
  ftz : Bool := false
  neg : BitVec 3 := 0
  abs : BitVec 2 := 0
  fs : Bool := false
  imm : W32 := 0
  deriving DecidableEq, Repr

/-- The fields of an LM lane word below its op10 (Table 17-8). -/
structure LM where
  d : BitVec 8 := 0
  b : BitVec 4 := 0
  i : BitVec 9 := 0
  w : BitVec 3 := 0
  scope : BitVec 3 := 0
  hint : BitVec 2 := 0
  fs : Bool := false
  kd : BitVec 4 := 0
  aux : BitVec 20 := 0
  off : W32 := 0
  deriving DecidableEq, Repr

/-- The fields of a matrix command below its CMD byte (Table 22-7). -/
structure MxFields where
  res : BitVec 16 := 0
  a : BitVec 8 := 0
  x : W32 := 0
  y : W32 := 0
  res0 : W32 := 0
  deriving DecidableEq, Repr

/-- The operands of a device step: which ones a step reads, and as what, its meaning says. They stand in the state while the step runs (the agenda supplies them). -/
structure EvArgs where
  who : Master := .host
  x : Nat := 0
  y : Nat := 0
  z : Nat := 0
  val : W64 := 0
  ok : Bool := true
  yes : Bool := false
  bytes : List Byte := []
  access : Access := { kind := .read, addr := 0, len := 0, data := [] }
  deriving DecidableEq, Repr

/-- Every instruction of the scalar stream, of the lane cursor and of the matrix sequencer, and every device step. -/
inductive Instr where
  /-- `UDF` (R304): The all-ones scalar word faults ILLOP. -/
  | udf
  /-- `SADD` (R327): S(d) gets S(a) + S(b) modulo 2^64. -/
  | sadd (d a b : BitVec 6)
  /-- `SSUB` (R327): S(d) gets S(a) - S(b). -/
  | ssub (d a b : BitVec 6)
  /-- `SAND` (R327): Bitwise AND. -/
  | sand (d a b : BitVec 6)
  /-- `SOR` (R327): Bitwise OR. -/
  | sor (d a b : BitVec 6)
  /-- `SXOR` (R327): Bitwise XOR. -/
  | sxor (d a b : BitVec 6)
  /-- `SSHL` (R327): Shift left by S(b)[5:0]. -/
  | sshl (d a b : BitVec 6)
  /-- `SSHR` (R327): Logical shift right by S(b)[5:0]. -/
  | sshr (d a b : BitVec 6)
  /-- `SSRA` (R327): Arithmetic shift right by S(b)[5:0]. -/
  | ssra (d a b : BitVec 6)
  /-- `SMUL` (R327): Low 64 bits of the product. -/
  | smul (d a b : BitVec 6)
  /-- `SMULH` (R327): High 64 bits of the signed product. -/
  | smulh (d a b : BitVec 6)
  /-- `SMULHU` (R327): High 64 bits of the unsigned product. -/
  | smulhu (d a b : BitVec 6)
  /-- `SMIN` (R327): Signed minimum. -/
  | smin (d a b : BitVec 6)
  /-- `SMAX` (R327): Signed maximum. -/
  | smax (d a b : BitVec 6)
  /-- `SMINU` (R327): Unsigned minimum. -/
  | sminu (d a b : BitVec 6)
  /-- `SMAXU` (R327): Unsigned maximum. -/
  | smaxu (d a b : BitVec 6)
  /-- `SSLT` (R327): 1 if S(a) < S(b) signed, else 0. -/
  | sslt (d a b : BitVec 6)
  /-- `SSLTU` (R327): 1 if S(a) < S(b) unsigned, else 0. -/
  | ssltu (d a b : BitVec 6)
  /-- `SSEQ` (R327): 1 if S(a) = S(b), else 0. -/
  | sseq (d a b : BitVec 6)
  /-- `SDIV` (R328): Signed quotient truncated toward zero, with the edge cases of Table 18-2. -/
  | sdiv (d a b : BitVec 6)
  /-- `SDIVU` (R328): Unsigned quotient. -/
  | sdivu (d a b : BitVec 6)
  /-- `SREM` (R328): Signed remainder. -/
  | srem (d a b : BitVec 6)
  /-- `SREMU` (R328): Unsigned remainder. -/
  | sremu (d a b : BitVec 6)
  /-- `SPOPC` (R327): Count of set bits of S(a). -/
  | spopc (d a : BitVec 6)
  /-- `SCLZ` (R327): Leading zero bits of S(a). -/
  | sclz (d a : BitVec 6)
  /-- `SCTZ` (R327): Trailing zero bits of S(a). -/
  | sctz (d a : BitVec 6)
  /-- `SBREV` (R327): Bit-reversed S(a). -/
  | sbrev (d a : BitVec 6)
  /-- `SADDI` (R329): Add a sign-extended immediate. -/
  | saddi (d a : BitVec 6) (i : BitVec 14)
  /-- `SANDI` (R329): AND with a zero-extended immediate. -/
  | sandi (d a : BitVec 6) (i : BitVec 14)
  /-- `SORI` (R329): OR with a zero-extended immediate. -/
  | sori (d a : BitVec 6) (i : BitVec 14)
  /-- `SXORI` (R329): XOR with a zero-extended immediate. -/
  | sxori (d a : BitVec 6) (i : BitVec 14)
  /-- `SSHLI` (R329): Shift left by an immediate count. -/
  | sshli (d a s : BitVec 6)
  /-- `SSHRI` (R329): Logical shift right by an immediate count. -/
  | sshri (d a s : BitVec 6)
  /-- `SSRAI` (R329): Arithmetic shift right by an immediate count. -/
  | ssrai (d a s : BitVec 6)
  /-- `SSLTI` (R329): 1 if S(a) is below the signed immediate. -/
  | sslti (d a : BitVec 6) (i : BitVec 14)
  /-- `SMOVI` (R330): S(d) gets the sign-extended 20-bit immediate. -/
  | smovi (d : BitVec 6) (i : BitVec 20)
  /-- `SHORI` (R330): S(d) gets (S(d) << 20) OR imm20. -/
  | shori (d : BitVec 6) (i : BitVec 20)
  /-- `SLD` (R406): Scalar load of z bytes through a buffer record. -/
  | sld (d : BitVec 6) (b : BitVec 4) (z : BitVec 2) (i : BitVec 14)
  /-- `SLDX` (R406): Indexed scalar load. -/
  | sldx (d : BitVec 6) (b : BitVec 4) (z : BitVec 2) (a : BitVec 6) (i : BitVec 8)
  /-- `SST` (R406): Scalar store of z bytes through a buffer record. -/
  | sst (d : BitVec 6) (b : BitVec 4) (z : BitVec 2) (i : BitVec 14)
  /-- `SSTX` (R406): Indexed scalar store. -/
  | sstx (d : BitVec 6) (b : BitVec 4) (z : BitVec 2) (a : BitVec 6) (i : BitVec 8)
  /-- `SLDH` (R406): Scalar load of the home's folded contents. -/
  | sldh (d : BitVec 6) (b : BitVec 4) (z : BitVec 2) (i : BitVec 14)
  /-- `SATOM` (R408): Scalar atomic on element 0 of a record, returning the old value. -/
  | satom (d : BitVec 6) (b : BitVec 4) (a : BitVec 6) (o : BitVec 4) (s : BitVec 2) (c r : BitVec 1)
  /-- `BRLD` (R404): Load a 32-byte buffer record into a B register. -/
  | brld (d s : BitVec 4) (i : BitVec 14)
  /-- `BRBASE` (R405): Copy a record and set word 0 from S(a). -/
  | brbase (d : BitVec 4) (a : BitVec 6) (s : BitVec 4)
  /-- `BROFF` (R405): Copy a record and add a signed byte offset to BASE. -/
  | broff (d : BitVec 4) (a : BitVec 6) (s : BitVec 4)
  /-- `BREXT` (R405): Copy a record and set EXTENT. -/
  | brext (d : BitVec 4) (a : BitVec 6) (s : BitVec 4)
  /-- `BRSTR` (R405): Copy a record and set STRIDE. -/
  | brstr (d : BitVec 4) (a : BitVec 6) (s : BitVec 4)
  /-- `BRSWZ` (R405): Copy a record and set SWZ, OOB and SCOPE. -/
  | brswz (d : BitVec 4) (a : BitVec 6) (s : BitVec 4)
  /-- `BRFLG` (R405): Copy a record and set RDONLY, POOL, STRICT and CNT. -/
  | brflg (d : BitVec 4) (a : BitVec 6) (s : BitVec 4)
  /-- `BRCPY` (R405): Copy a record unchanged. -/
  | brcpy (d s : BitVec 4)
  /-- `BZ` (R331): Branch if S(a) = 0. -/
  | bz (a : BitVec 6) (o : BitVec 16)
  /-- `BNZ` (R331): Branch if S(a) ≠ 0. -/
  | bnz (a : BitVec 6) (o : BitVec 16)
  /-- `BLTZ` (R331): Branch if S(a) < 0. -/
  | bltz (a : BitVec 6) (o : BitVec 16)
  /-- `BGEZ` (R331): Branch if S(a) ≥ 0. -/
  | bgez (a : BitVec 6) (o : BitVec 16)
  /-- `BLEZ` (R331): Branch if S(a) ≤ 0. -/
  | blez (a : BitVec 6) (o : BitVec 16)
  /-- `BGTZ` (R331): Branch if S(a) > 0. -/
  | bgtz (a : BitVec 6) (o : BitVec 16)
  /-- `BKANY` (R332): Branch if any live active lane's K bit is set. -/
  | bkany (k : BitVec 4) (o : BitVec 20)
  /-- `BKALL` (R332): Branch if every live active lane's K bit is set. -/
  | bkall (k : BitVec 4) (o : BitVec 20)
  /-- `BKNONE` (R332): Branch if no live active lane's K bit is set. -/
  | bknone (k : BitVec 4) (o : BitVec 20)
  /-- `BRA` (R333): PC-relative branch. -/
  | bra (o : BitVec 26)
  /-- `CALL` (R333): Branch and link in S63. -/
  | call (o : BitVec 26)
  /-- `JR` (R334): Jump to S(a). -/
  | jr (a : BitVec 6)
  /-- `CALLR` (R334): Call S(a), linking in S63. -/
  | callr (a : BitVec 6)
  /-- `RET` (R334): Jump to S(a), S63 by default. -/
  | ret (a : BitVec 6)
  /-- `RET_S0` (R340): Arrive at the junction of the top CALLV entry. -/
  | retS0
  /-- `CALLV` (R339): Per-lane call through lane registers, checking entry words and dividing into paths. -/
  | callv (v : BitVec 8)
  /-- `DIVG` (R172): Divide live lanes by a mask condition into paths, pushing a reconvergence entry. -/
  | divg (k : BitVec 4) (c : BitVec 1) (o : BitVec 20)
  /-- `DIVG_LOOP` (R173): Push a loop entry recording the loop's exit PC. -/
  | divgLoop (o : BitVec 20)
  /-- `JUNC` (R174): Arrive at a junction; take a deferred path, wait for siblings, or couple the paths and check lineage. -/
  | junc
  /-- `BRKL` (R173): Remove the lanes meeting a mask condition from the loop. -/
  | brkl (k : BitVec 4) (c : BitVec 1)
  /-- `CLS` (R342): Enqueue a clause with its register snapshot. -/
  | cls (w : BitVec 24)
  /-- `CLSR` (R343): Enqueue the clause whose offset is in S(a). -/
  | clsr (a : BitVec 6)
  /-- `KAND` (R345): K(d) gets K(a) AND K(b). -/
  | kand (d a b : BitVec 4)
  /-- `KOR` (R345): K(d) gets K(a) OR K(b). -/
  | kor (d a b : BitVec 4)
  /-- `KXOR` (R345): K(d) gets K(a) XOR K(b). -/
  | kxor (d a b : BitVec 4)
  /-- `KANDN` (R345): K(d) gets K(a) AND NOT K(b). -/
  | kandn (d a b : BitVec 4)
  /-- `KNOT` (R345): K(d) gets NOT K(a). -/
  | knot (d a : BitVec 4)
  /-- `KMOV` (R345): K(d) gets K(a). -/
  | kmov (d a : BitVec 4)
  /-- `KSETEXM` (R346): EXM gets K(a) AND PM AND NOT DEADM. -/
  | ksetexm (a : BitVec 4)
  /-- `KGETEXM` (R345): K(d) gets EXM. -/
  | kgetexm (d : BitVec 4)
  /-- `KLIVE` (R345): K(d) gets EXM AND NOT DEADM. -/
  | klive (d : BitVec 4)
  /-- `KCLR` (R345): K(d) gets 0. -/
  | kclr (d : BitVec 4)
  /-- `KONES` (R345): K(d) gets all ones. -/
  | kones (d : BitVec 4)
  /-- `KTOS` (R347): S(d) gets K(a) zero-extended. -/
  | ktos (d : BitVec 6) (a : BitVec 4)
  /-- `STOK` (R347): K(d) gets S(a)[31:0]. -/
  | stok (d : BitVec 4) (a : BitVec 6)
  /-- `KPOPC` (R347): S(d) gets the population count of K(a). -/
  | kpopc (d : BitVec 6) (a : BitVec 4)
  /-- `KFFS` (R347): S(d) gets the index of the lowest set bit of K(a), or 32. -/
  | kffs (d : BitVec 6) (a : BitVec 4)
  /-- `SETFMT` (R348): Set FMT from an immediate in the issuing portion. -/
  | setfmt (f : BitVec 18)
  /-- `GETFMT` (R349): S(d) gets FMT. -/
  | getfmt (d : BitVec 6)
  /-- `PUTFMT` (R349): FMT gets S(a)[17:0]. -/
  | putfmt (a : BitVec 6)
  /-- `MFS` (R350): Read a special register into S(d). -/
  | mfs (d : BitVec 6) (s : BitVec 8)
  /-- `MTS` (R351): Write a special register from the register in d6. -/
  | mts (d : BitVec 6) (s : BitVec 8)
  /-- `WAITF` (R352): Hold the scalar stream until the named flags clear. -/
  | waitf (m : BitVec 12)
  /-- `SIGC` (R354): Check SIG and LINEAGE against a pool word, trap SIGMIS or reset SIG. -/
  | sigc (p : BitVec 16)
  /-- `SIGR` (R355): Reset SIG to 0 without a check. -/
  | sigr
  /-- `NOP` (R353): No operation. -/
  | nop
  /-- `SPAWN` (R427): Create a child task from a launch record, transferring its grant. -/
  | spawn (d a : BitVec 6)
  /-- `SPAWNF` (R427): Acquire a token, then create a child whose trains also acquire it. -/
  | spawnf (d a b : BitVec 6)
  /-- `JOIN_SELF` (R431): Release at .pkg, wait for outstanding accesses and end the train. -/
  | joinSelf
  /-- `JOIN_CHILD` (R430): Park until the named child is DONE and return its result word. -/
  | joinChild (d a : BitVec 6)
  /-- `JOINANY` (R430): Park until a child is on the done list and return the oldest. -/
  | joinany (d b : BitVec 6)
  /-- `GRANT` (R126): Move au to a direct child. -/
  | grant (d a b : BitVec 6)
  /-- `CUT` (R126): Unwind a direct child with status CUT. -/
  | cut (d a : BitVec 6)
  /-- `TSTAT` (R430): Return a task's ALW and state. -/
  | tstat (d a : BitVec 6)
  /-- `BARR` (R432): Arrive at a route barrier and wait for its phase to complete. -/
  | barr (r : BitVec 8) (s : BitVec 1)
  /-- `ARRIVE` (R432): Arrive at a route barrier and continue. -/
  | arrive (r : BitVec 8)
  /-- `WAITB` (R432): Park until the phase of the latest arrival completes. -/
  | waitb (r : BitVec 8)
  /-- `ARRIVE_STAGE` (R433): Set a producer's ARRIVED bit in a stage full word. -/
  | arriveStage (a : BitVec 6) (p : BitVec 4)
  /-- `ARRIVE_STAGE_CLOSE` (R433): Set a producer's CLOSED bit in a stage full word. -/
  | arriveStageClose (a : BitVec 6) (p : BitVec 4)
  /-- `WAITA` (R419): Park until a watched element meets a condition. -/
  | waita (d a b : BitVec 6)
  /-- `WAITM` (R421): Park until a scratchpad word covers a mask. -/
  | waitm (d a b : BitVec 6)
  /-- `REL` (R215): Release: publish the log and return a token. -/
  | rel (d : BitVec 6) (s : BitVec 2)
  /-- `ACQ` (R219): Acquire one or more tokens. -/
  | acq (a : BitVec 6) (s : BitVec 2) (n : BitVec 5)
  /-- `STREL` (R418): Release and atomically store the token. -/
  | strel (d : BitVec 6) (b : BitVec 4) (s : BitVec 2) (i : BitVec 5)
  /-- `LDACQ` (R418): Atomically load a value and acquire it as a token. -/
  | ldacq (d : BitVec 6) (b : BitVec 4) (s : BitVec 2) (i : BitVec 5)
  /-- `FENCE` (R226): Order earlier accesses and report held log errors. -/
  | fence (d : BitVec 6) (s : BitVec 2)
  /-- `ACQALL` (R222): Wait for every earlier publication to fold and discard the view. -/
  | acqall (s : BitVec 2)
  /-- `RESIZE` (R197): Set the task's scratchpad and stash way counts on the core. -/
  | resize (d a b : BitVec 6)
  /-- `CONT` (R436): Register a continuation on a completion bitmap word. -/
  | cont (d a b c : BitVec 6)
  /-- `TRAP` (R443): Write a system-call record and park until the host replies. -/
  | trap (i : BitVec 16)
  /-- `FBP` (R151): Record a flashback point of the live set. -/
  | fbp (w : BitVec 24)
  /-- `RFLT` (R162): Restore the handler bank and replay the faulting instruction for the handler's lanes. -/
  | rflt
  /-- `MAPPG` (R446): Map a page to a zeroed frame from the page pool. -/
  | mappg (d a b : BitVec 6)
  /-- `IVPG` (R447): Invalidate a page and wait until complete. -/
  | ivpg (a b : BitVec 6)
  /-- `HALT` (R162): Restore the handler bank and send the handler's lanes to the Host route. -/
  | halt
  /-- `MXFORK` (R437): Fork a matrix program on the pair. -/
  | mxfork (a : BitVec 6)
  /-- `RDV` (R438): Collect the oldest uncollected matrix program and refund its unspent bound. -/
  | rdv (d : BitVec 6)
  /-- `WQRY` (R439): Query the work distributor for the next tile. -/
  | wqry (a b : BitVec 6) (f : BitVec 4)
  /-- `COLL` (R440): Submit a collective job. -/
  | coll (a b : BitVec 6)
  /-- `REPACK` (R434): Repack live lanes of the route's resident trains. -/
  | repack (r : BitVec 8)
  /-- `LNOP` (R360): Lane no-operation. -/
  | lnop (o : LR)
  /-- `IADD` (R361): Lane integer add. -/
  | iadd (o : LR)
  /-- `ISUB` (R361): Lane integer subtract. -/
  | isub (o : LR)
  /-- `IMUL` (R361): Lane integer multiply. -/
  | imul (o : LR)
  /-- `IMULH` (R362): High half of the lane product. -/
  | imulh (o : LR)
  /-- `IMAD` (R361): Lane multiply-add. -/
  | imad (o : LR)
  /-- `IABS` (R362): Lane absolute value. -/
  | iabs (o : LR)
  /-- `INEG` (R362): Lane negate. -/
  | ineg (o : LR)
  /-- `IMIN` (R361): Lane minimum. -/
  | imin (o : LR)
  /-- `IMAX` (R361): Lane maximum. -/
  | imax (o : LR)
  /-- `AND` (R361): Lane bitwise AND. -/
  | lAnd (o : LR)
  /-- `OR` (R361): Lane bitwise OR. -/
  | lOr (o : LR)
  /-- `XOR` (R361): Lane bitwise XOR. -/
  | lXor (o : LR)
  /-- `ANDN` (R361): Lane AND NOT. -/
  | andn (o : LR)
  /-- `NOT` (R361): Lane bitwise NOT. -/
  | lNot (o : LR)
  /-- `SHL` (R363): Lane shift left. -/
  | shl (o : LR)
  /-- `SHR` (R363): Lane logical shift right. -/
  | shr (o : LR)
  /-- `SRA` (R363): Lane arithmetic shift right. -/
  | sra (o : LR)
  /-- `ROTL` (R363): Lane rotate left. -/
  | rotl (o : LR)
  /-- `BFE` (R364): Lane bit-field extract. -/
  | bfe (o : LR)
  /-- `BFI` (R364): Lane bit-field insert. -/
  | bfi (o : LR)
  /-- `POPC` (R361): Lane population count. -/
  | popc (o : LR)
  /-- `CLZ` (R361): Lane count of leading zeros. -/
  | clz (o : LR)
  /-- `BREV` (R361): Lane bit reverse. -/
  | brev (o : LR)
  /-- `PERMB` (R365): Lane byte permute. -/
  | permb (o : LR)
  /-- `ICMP` (R366): Lane integer compare into a mask. -/
  | icmp (o : LR)
  /-- `SEL` (R367): Lane select by mask. -/
  | sel (o : LR)
  /-- `MOV` (R361): Lane move. -/
  | lMov (o : LR)
  /-- `IDIV` (R368): Lane integer division, long-latency. -/
  | idiv (o : LR)
  /-- `IREM` (R368): Lane integer remainder, long-latency. -/
  | irem (o : LR)
  /-- `SHFL` (R370): Shuffle from an indexed lane. -/
  | shfl (o : LR)
  /-- `SHFLUP` (R370): Shuffle from a lower lane. -/
  | shflup (o : LR)
  /-- `SHFLDN` (R370): Shuffle from a higher lane. -/
  | shfldn (o : LR)
  /-- `SHFLX` (R370): Shuffle by XOR of the lane index. -/
  | shflx (o : LR)
  /-- `VOTE` (R371): Write a mask of lanes whose operand is non-zero. -/
  | vote (o : LR)
  /-- `REDU` (R374): Reduce over live active lanes. -/
  | redu (o : LR)
  /-- `SCAN` (R374): Prefix scan over live active lanes. -/
  | scan (o : LR)
  /-- `ELECT` (R372): Elect the lowest live active lane into a mask. -/
  | elect (o : LR)
  /-- `FADD` (R381): Floating add. -/
  | fadd (o : LR)
  /-- `FSUB` (R381): Floating subtract. -/
  | fsub (o : LR)
  /-- `FMUL` (R381): Floating multiply. -/
  | fmul (o : LR)
  /-- `FFMA` (R381): Fused multiply-add with one rounding. -/
  | ffma (o : LR)
  /-- `FMIN` (R383): Floating minimum. -/
  | fmin (o : LR)
  /-- `FMAX` (R383): Floating maximum. -/
  | fmax (o : LR)
  /-- `FCMP` (R384): Floating compare into a mask. -/
  | fcmp (o : LR)
  /-- `FCLASS` (R385): Floating classify. -/
  | fclass (o : LR)
  /-- `FRND` (R386): Round to an integral value. -/
  | frnd (o : LR)
  /-- `FRCP` (R388): Reciprocal, long-latency. -/
  | frcp (o : LR)
  /-- `FRSQ` (R388): Reciprocal square root, long-latency. -/
  | frsq (o : LR)
  /-- `FSQRT` (R388): Square root, long-latency. -/
  | fsqrt (o : LR)
  /-- `FEXP2` (R388): Base-2 exponential, long-latency. -/
  | fexp2 (o : LR)
  /-- `FLOG2` (R388): Base-2 logarithm, long-latency. -/
  | flog2 (o : LR)
  /-- `FSINPI` (R388): sin(πa), long-latency. -/
  | fsinpi (o : LR)
  /-- `FCOSPI` (R388): cos(πa), long-latency. -/
  | fcospi (o : LR)
  /-- `FDIV` (R388): Floating divide, long-latency. -/
  | fdiv (o : LR)
  /-- `FSCALE` (R387): Multiply by a power of two. -/
  | fscale (o : LR)
  /-- `CVT` (R390): Convert between lane data types. -/
  | cvt (o : LR)
  /-- `QSX` (R393): Quantise lane values to SX lane codes. -/
  | qsx (o : LR)
  /-- `PKSX` (R394): Pack lane codes into an SX block. -/
  | pksx (o : LR)
  /-- `UPSX` (R395): Unpack an SX block into lane codes. -/
  | upsx (o : LR)
  /-- `DQSX` (R396): Decode lane codes to FP32. -/
  | dqsx (o : LR)
  /-- `OUTL` (R398): Append outlier entries to a list. -/
  | outl (o : LM)
  /-- `LD` (R410): Lane load. -/
  | ld (o : LM)
  /-- `ST` (R411): Lane store, logged for global spaces. -/
  | st (o : LM)
  /-- `LDC` (R412): Consuming load of counted lines. -/
  | ldc (o : LM)
  /-- `STC` (R411): Counted store. -/
  | stc (o : LM)
  /-- `LDH` (R410): Lane load of the home's folded contents. -/
  | ldh (o : LM)
  /-- `PREF` (R413): Prefetch into the view or stash. -/
  | pref (o : LM)
  /-- `ATOM` (R414): Lane atomic. -/
  | atom (o : LM)
  /-- `TCP` (R435): Start a tensor copy job on the yard's copy engine. -/
  | tcp (o : LR)
  /-- `MLDB` (R274): Load B columns from a ring stage. -/
  | mldb (f : MxFields)
  /-- `MSTRM` (R274): Stream A rows from a stage into the accumulators. -/
  | mstrm (f : MxFields)
  /-- `MZERO` (R274): Zero accumulator rows. -/
  | mzero (f : MxFields)
  /-- `MDRAIN` (R276): Drain accumulator rows through a drain descriptor. -/
  | mdrain (f : MxFields)
  /-- `MLOOP` (R274): Loop back to a target command. -/
  | mloop (f : MxFields)
  /-- `MRDV` (R274): Wait for copy steps to complete. -/
  | mrdv (f : MxFields)
  /-- `MEND` (R274): End the matrix program with status OK. -/
  | mend (f : MxFields)
  /-- `PART_RESET` (R31): Reset of the part: every group goes OFF, slot 0 becomes RUNNING, stamps and registers take their reset values and the peer group trains for management traffic. -/
  | partReset
  /-- `FIRMWARE_STAGE_VERIFY` (R59): A loaded firmware image stage is checked for magic, parameter set, key hash, signature, body hash and SVN, and is accepted or refused. -/
  | firmwareStageVerify
  /-- `DIE_TRAINING_COMPLETE` (R30): A die or its stack finishes training; the die becomes usable once both have trained, or DIEFAIL is set if training fails. -/
  | dieTrainingComplete
  /-- `DIERET_WRITE` (R62): The owner retires dies that are not usable by writing SVCSTAT.DIERET, which can start full service. -/
  | dieretWrite
  /-- `THERMAL_EVENT` (R29): A die junction reaches 110 °C: issue stops on the die, its contexts are force-reset and a thermal event goes to the owner. -/
  | thermalEvent
  /-- `THERMAL_EVENT_CLEAR` (R29): The owner clears the thermal event at 95 °C or less, and the die resumes issue. -/
  | thermalEventClear
  /-- `MAIN_LINE_MESSAGE` (R25): A main-line message arrives at a port and is delivered in order per source, home slice and traffic class, or retried when it fails its link check. -/
  | mainLineMessage
  /-- `MAIN_LINE_TIMEOUT` (R26): A port fails to deliver a message within 10 µs; the owner gets an uncorrectable main-line error and the requester the outcome of R80. -/
  | mainLineTimeout
  /-- `LGCTL_GO` (R40): A GO write to a group's LGCTL is refused with BUSY or SAME, or starts the switch sequence toward TGT. -/
  | lgctlGo
  /-- `DRAIN_COMPLETE` (R41): The drain of QUIESCING ends and the group enters FENCED. -/
  | drainComplete
  /-- `QUIESCE_TIMEOUT` (R42): QUIESCING reaches 500 µs: unanswered non-posted requests time out, ERR becomes DRAINTIMEOUT and the sequence continues. -/
  | quiesceTimeout
  /-- `FENCE_COMPLETE` (R41): FENCED ends with the group's link-port logs empty, and the group enters RETRAIN or REMAP. -/
  | fenceComplete
  /-- `RETRAIN_COMPLETE` (R41): The lanes finish training and link bring-up for TGT, and the group enters REMAP. -/
  | retrainComplete
  /-- `RETRAIN_TIMEOUT` (R42): RETRAIN does not finish within 1,300 µs: the group becomes OFF with TRAINFAIL and REMAP still runs. -/
  | retrainTimeout
  /-- `REMAP` (R45): REMAP installs the pending descriptors naming the group, invalidates cached copies of changed windows and ends the sequence in ACTIVE or OFF, issuing held requests. -/
  | remap
  /-- `LINK_INBOUND_REQUEST` (R46): An inbound request through a group is checked against access table, address map, FOT and poison, then served or answered with the standard's error completion. -/
  | linkInboundRequest
  /-- `INBOUND_HOME_TIMEOUT` (R46): An inbound request gets no answer from its home within 1 ms and is answered with an error completion and logged. -/
  | inboundHomeTimeout
  /-- `OUTBOUND_COMPLETION` (R47): A completion for an outbound link or host-link request arrives; an error completion faults LINKERR, fails the fold or fails the engine step. -/
  | outboundCompletion
  /-- `OUTBOUND_TIMEOUT` (R47): An outbound request gets no completion within 1 ms and takes the LINKTIMEOUT outcome. -/
  | outboundTimeout
  /-- `BAR4_ACCESS` (R51): A host access through BAR4 of a PF or VF is checked, then a write enters the inbound log or a read returns the home's folded contents. -/
  | bar4Access
  /-- `HWD_WRITE` (R52): A 64-bit write to a host window descriptor takes effect at once, and the whole descriptor is judged valid or EN is cleared with the status bit set. -/
  | hwdWrite
  /-- `CLAIMGO` (R56): A master writes CLAIMGO to submit a claim, or is refused with CLERR when its CLAIMKEY copy is incomplete. -/
  | claimgo
  /-- `ARBITRATION_INTERVAL_END` (R56): A 100 ns arbitration interval ends and elects the winning claimant of the first interval holding a complete claim. -/
  | arbitrationIntervalEnd
  /-- `HANDOFF` (R57): The owner names a successor in HANDOFF, or cancels a pending one with 0. -/
  | handoff
  /-- `HANDACK` (R57): The named successor's HANDACK transfers ownership at the instant it is accepted. -/
  | handack
  /-- `HANDOFF_TIMEOUT` (R57): 100 ms pass after HANDOFF without HANDACK, and the pending handoff is cancelled. -/
  | handoffTimeout
  /-- `OWNER_PATH_LOSS` (R58): The owner's path is down for 1 s continuously, and ownership becomes vacant. -/
  | ownerPathLoss
  /-- `ATTGO` (R60): A requester writes ATTGO to queue an attestation request, or is ignored when its request is pending or ATTDONE is set. -/
  | attgo
  /-- `ATTESTATION_SIGNED` (R60): Signing finishes, the report is written to the requester's trust mailbox and ATTDONE is set. -/
  | attestationSigned
  /-- `REGISTER_WRITE` (R55): A write to a register with no behaviour of its own stores its RW fields, after the owner and access-table checks. -/
  | registerWrite
  /-- `PCTL_STOP` (R65): A stop request on a RUNNING slot moves it to STOPPING and starts pre-emption of its contexts. -/
  | pctlStop
  /-- `PCTL_RUN` (R65): A run request validates the slot against other slots and makes it RUNNING, restoring its saved trains, or sets ERR. -/
  | pctlRun
  /-- `PCTL_FREE` (R65): A free request on a STOPPED slot with no owned frames makes it FREE and clears its bitmaps, or sets ERR 8. -/
  | pctlFree
  /-- `SQUOTA_WRITE` (R68): A write to a slice quota register is refused on an illegal assignment, or writes back lost ways and then takes effect. -/
  | squotaWrite
  /-- `PIN_SET` (R70): Setting EN in a PIN register pins the frame and starts its fill, or leaves EN 0 with FAIL. -/
  | pinSet
  /-- `PIN_CLEAR` (R70): Clearing EN writes back the frame's dirty sectors, unpins it and takes the new FRAME value. -/
  | pinClear
  /-- `PIN_FILL_COMPLETE` (R70): The 256 lines of a pinned frame finish filling and are locked, and waiting accesses proceed. -/
  | pinFillComplete
  /-- `FOT_GO` (R74): A GO write to the FOT command validates the frame range and starts the ownership change, or sets ERR. -/
  | fotGo
  /-- `FOT_FRAME_CHANGE` (R74): One frame is folded, unpinned, invalidated, optionally scrubbed and given the new owner at its home. -/
  | fotFrameChange
  /-- `SLOT_TURN` (R77): A slot's turn at a level credits its deficit and dispatches its oldest tasks while the deficit is positive. -/
  | slotTurn
  /-- `DEFICIT_DECREMENT` (R77): Every 1 µs each slot's deficit at each level is reduced by the core-cycles its tasks used. -/
  | deficitDecrement
  /-- `SETMV_WRITE` (R90): A write of the SRAM rail setpoint starts a mode switch to DEC-TED or SEC-DED, or a plain rail move. -/
  | setmvWrite
  /-- `SRAM_MODE_SWITCH_COMPLETE` (R90): The rail move and re-encoding finish, BUSY clears and waiting accesses proceed. -/
  | sramModeSwitchComplete
  /-- `QUEUE_ENABLE` (R94): Setting EN of a queue descriptor enables the queue when LEVEL, SIZE and SLOT are valid, or sets ERR 4. -/
  | queueEnable
  /-- `QUEUE_DISABLE` (R94): Clearing EN stops fetching at once while fetched entries run to completion. -/
  | queueDisable
  /-- `DOORBELL_TAIL` (R95): A TAIL write to a doorbell page makes ring entries fetchable, or is ignored with ERR 1. -/
  | doorbellTail
  /-- `DOORBELL_REPLY_VALUE` (R110): A write at offset 0x10 stages a system-call reply value. -/
  | doorbellReplyValue
  /-- `DOORBELL_REPLY_COMMIT` (R110): A sequence-number write commits the staged reply into the parked train's S1 and resumes it, or is ignored with ERR 1. -/
  | doorbellReplyCommit
  /-- `DOORBELL_STAIL` (R95): An STAIL write frees system-call ring entries the device has written, or is ignored with ERR 1. -/
  | doorbellStail
  /-- `ENTRY_FETCH` (R95): A fetchable ring entry is copied whole after earlier BAR4 writes fold and HEAD advances, or the fetch fails the FOT check with ERR 3. -/
  | entryFetch
  /-- `ENTRY_DISPATCH` (R96): The head entry of a queue is dispatched in level, slot and acceptance order once it can be. -/
  | entryDispatch
  /-- `GRAPH_VALIDATION` (R102): A graph launch is validated for format, successor indices, predecessor counts and cycles, or rejected with GRAPHFORMAT. -/
  | graphValidation
  /-- `GRAPH_NODE_DISPATCH` (R103): A ready graph node is run, moving its grant from the instance's pool, or ends with EXHAUST. -/
  | graphNodeDispatch
  /-- `JOB_CARD_ACCEPT` (R105): An engine scheduler accepts a job card when it holds fewer than 64 incomplete cards for the queue. -/
  | jobCardAccept
  /-- `JOB_START` (R105): An accepted job starts once every earlier conflicting job of its queue has completed. -/
  | jobStart
  /-- `JOB_COMPLETE` (R106): A job completes when all its writes have folded at the required scope. -/
  | jobComplete
  /-- `COMPLETION_RECORD_WRITTEN` (R107): A closing task's completion record is written at .sys scope, the task becomes DONE and its remainder and spent au go to its parent. -/
  | completionRecordWritten
  /-- `SYSCALL_RECORD_WRITE` (R109): A parked trap or host-routed fault writes its system-call record once the ring has room, and SHEAD advances. -/
  | syscallRecordWrite
  /-- `TASK_CLOSE` (R122): A task with no live train, all children DONE and nothing outstanding starts closing. -/
  | taskClose
  /-- `PARK_LIMIT_EXPIRY` (R125): A STARVED task's PARK limit expires and the task unwinds with status EXHAUST. -/
  | parkLimitExpiry
  /-- `PLACEMENT_ATTEMPT` (R133): A placing agent chooses a window and sends reserve requests to its cores, or counts a failed attempt. -/
  | placementAttempt
  /-- `RESERVE_REQUEST` (R133): A core serves a reserve request in arrival order and answers GRANTED holding the amounts, or REFUSED. -/
  | reserveRequest
  /-- `PLACEMENT_COMMIT` (R133): A commit turns a core's reservation into an allocation, loads the route table and buffer records, and starts the trains. -/
  | placementCommit
  /-- `PLACEMENT_RELEASE` (R133): A release makes a core drop its held reservation at once. -/
  | placementRelease
  /-- `PLACEMENT_BACKOFF_EXPIRY` (R135): The backoff after a failed attempt expires and the agent tries again, or moves the task to the placement siding queue after RETRIES. -/
  | placementBackoffExpiry
  /-- `PLACEMENT_SIDING_ATTEMPT` (R135): When a core of the slot frees resources, the head of the placement siding queue is attempted once. -/
  | placementSidingAttempt
  /-- `STEAL_REQUEST` (R139): A victim's queue engine answers a steal request with its tail task or empty. -/
  | stealRequest
  /-- `STEAL_REPLY` (R139): The thief appends a stolen task to its ready queue, or records an empty answer. -/
  | stealReply
  /-- `STEAL_RETRY_EXPIRY` (R139): 64 cycles after an empty answer, a still-idle core sends its next steal request. -/
  | stealRetryExpiry
  /-- `ACTIVE_ENTRY_FILL` (R142): A freed active-set entry is filled within 4 cycles by the siding train ready longest. -/
  | activeEntryFill
  /-- `BLOCKED_SWAP` (R143): A train whose awaited flag has been outstanding longer than SWAPTH becomes blocked and is swapped for a ready siding train. -/
  | blockedSwap
  /-- `URGENT_PROMOTION` (R144): A siding train ready for 2,048 cycles becomes urgent and takes the entry held longest. -/
  | urgentPromotion
  /-- `TIER2_START` (R154): At DRAINUS after a stop request, resident trains are rewound and saved or run to their next FBP. -/
  | tier2Start
  /-- `TIER3_START` (R154): At DRAINUS + 20 µs, tasks with anything unsaved are unwound with status RESET. -/
  | tier3Start
  /-- `FORCE` (R149): Writing FORCE while STOPPING applies tier 3 at once to everything not yet saved. -/
  | force
  /-- `CORE_SAVE` (R155): Once its trains are saved, a core publishes its log tail, writes its scratchpad image and discards its view. -/
  | coreSave
  /-- `HANDLER_TIMEOUT` (R161): A handler that runs more than 1,000,000 cycles raises DOUBLEFLT for the task. -/
  | handlerTimeout
  /-- `INVCMD` (R191): A GO write to INVCMD starts an invalidate of a page or the whole slot and sets BUSY. -/
  | invcmd
  /-- `INVALIDATE_COMPLETE` (R191): An invalidate completes once no agent can use the old mapping; BUSY clears. -/
  | invalidateComplete
  /-- `SECTOR_FILL` (R192): A view or stash sector arrives from the home and is applied with the core's unfolded records. -/
  | sectorFill
  /-- `PRESSURE_PUBLICATION` (R234): When unfolded spilled records reach 7C/8 the core publishes its log at .pkg. -/
  | pressurePublication
  /-- `RECORD_FOLD` (R217): A published record reaching its home folds into the bytes with smaller stamps, or is dropped with its reason. -/
  | recordFold
  /-- `FOLD_UNIT_COMPACT` (R236): A fold unit merges records of one publication sharing a granule in a segment. -/
  | foldUnitCompact
  /-- `ATOMIC_AT_HOME` (R223): An atomic arriving at its home is performed as one read-modify-write with new stamps. -/
  | atomicAtHome
  /-- `MIGRATION_PRECOPY` (R203): A pre-copy command blocks the page, folds its records, copies it, rewrites the leaf, invalidates and unblocks. -/
  | migrationPrecopy
  /-- `MIGRATION_POSTCOPY` (R204): A post-copy command remaps the page at once and lets the new home pull lines on demand. -/
  | migrationPostcopy
  /-- `MIGRATION_PULL` (R204): The new home pulls a line from the source on first access or in the background. -/
  | migrationPull
  /-- `MIGRATION_PULL_FAIL` (R205): A pull fails because the source is gone: waiters fault MIGRATION_LOST and LOST is set in the leaf. -/
  | migrationPullFail
  /-- `MXFORK_ACCEPT` (R269): A waiting MXFORK is accepted when its pair is free, charged and reserved, and its program starts. -/
  | mxforkAccept
  /-- `PROGRAM_AUTO_COLLECT` (R438): A program that ends after every train of its task has ended is collected by the device and its bound refunded. -/
  | programAutoCollect
  /-- `COPY_STEP` (R279): The copy engine runs one copy-program step, landing a box in the next stage of its ring and arriving. -/
  | copyStep
  /-- `COPY_CHUNK_COMPLETE` (R282): Every byte of a 512-byte chunk is written, and after the acquire of R230 the chunk's bitmap bit is set. -/
  | copyChunkComplete
  /-- `CONTINUATION_FIRE` (R283): A registered continuation whose mask completes starts a fresh train of the task on its core. -/
  | continuationFire
  /-- `DISTRIBUTOR_QUERY` (R285): The distributor adds 1 to the grid cursor, writes the word pair to scratchpad and clears the flag. -/
  | distributorQuery
  /-- `COLLECTIVE_CONTRIBUTION` (R286): A member's contribution arrives, is placed and folded in its slot, and its arrived bit is set. -/
  | collectiveContribution
  /-- `COLLECTIVE_DEADLINE` (R287): A collective's deadline passes and the job ends with DEADLINE at every member. -/
  | collectiveDeadline
  /-- `RESULT_LANDS` (R171): A long-latency operation (load, returning atomic, IDIV, IREM or a cost-4 float operation) completes: its result lands in the destination, its flag clears and stalled readers or blocked trains become ready. -/
  | resultLands
  /-- `HOME_LOAD` (R225): An LDH, SLDH or LDC arrives at its home slice and is served there in arrival order, reading the folded contents and, for LDC, decrementing or dropping the counted line. -/
  | homeLoad
  /-- `RESERVE_ANSWER` (R133): A core's GRANTED or REFUSED answer reaches the placing agent, which, after the last answer, sends commit or release to the window's cores. -/
  | reserveAnswer
  /-- `ILLEGAL_ENCODING` (R302): A scalar word or lane word whose opcode, selector or field is unassigned issues and faults ILLOP precisely. -/
  | illegalEncoding  deriving DecidableEq, Repr

end Sys2Proof
end

