-- ==== Sys2Proof/WellFormed.lean ====
section
/-! DEFINITION. Which instructions are well formed: the checks on encoding fields that 17_formats_and_map.md and each instruction's description make on the word alone (R302). Checks that need the train's state (its register budget, its buffer records) are made when the instruction runs. -/

namespace Sys2Proof

/-- How an operand selector or a result is used: not at all, at the width of the instruction's type, or as 32 bits whatever the type (R358). -/
inductive Use where
  | no
  | typ
  | w32
  deriving DecidableEq, Repr

/-- What the d8 field holds: nothing, a register of the type's width, a 32-bit register, or a condition code below `n` (R366, R384). -/
inductive DstUse where
  | no
  | typ
  | w32
  | cond (n : Nat)
  deriving DecidableEq, Repr

/-- What the kd4 field holds: nothing, or a mask register (R316, R356). -/
inductive KdUse where
  | no
  | mask
  deriving DecidableEq, Repr

/-- What an LR instruction accepts: the row of its table (19-1, 20-1 and the descriptions). `types` lists the accepted typ4 codes; an empty list means that typ4 must be 0. -/
structure LRSpec where
  d : DstUse := .typ
  a : Use := .no
  b : Use := .no
  c : Use := .no
  kd : KdUse := .no
  types : List Nat := []
  sat : Bool := false
  ftz : Bool := false
  rnd : Bool := false
  negs : Nat := 0
  abss : Nat := 0
  fs : Bool := false
  deriving DecidableEq, Repr

/-- Types of 64 bits: .s64, .u64, .f64 (Table 14-1). -/
def typWide (t : Nat) : Bool := t == 6 || t == 7 || t == 11

/-- A source selector of Table 17-9; `imm` says whether 0x1FF is allowed. -/
def selValid (s : Nat) (imm : Bool) : Bool := s < 0x140 || s == 0x140 || s == 0x141 || s == 0x142 || (imm && s == 0x1FF)

/-- A selector as the instruction uses it: zero when unused (R316), an even register for a 64-bit operand (R166, R318). -/
def selOk (u : Use) (t s : Nat) : Bool :=
  match u with
  | .no => s == 0
  | .typ => selValid s true && !(typWide t && s < 0x100 && s % 2 == 1)
  | .w32 => selValid s true

/-- The d8 field as the instruction uses it. -/
def dstOk (u : DstUse) (t d : Nat) : Bool :=
  match u with
  | .no => d == 0
  | .typ => !(typWide t && d % 2 == 1)
  | .w32 => true
  | .cond n => d < n

/-- The selector is read and names imm32. -/
def readsImm (u : Use) (s : Nat) : Bool := u != .no && s == 0x1FF

/-- imm32 is zero unless a selector that is read names it (R316). -/
def immOk (sp : LRSpec) (o : LR) : Bool :=
  o.imm == 0 || readsImm sp.a o.a.toNat || readsImm sp.b o.b.toNat || readsImm sp.c o.c.toNat

/-- Bits 37, 36 and 35 (neg) and 34, 33 (abs) stand for a, b, c and a, b (Table 17-7); none on an operand that is imm32 (R316). -/
def signBitsOk (sp : LRSpec) (o : LR) : Bool :=
  (o.neg.toNat &&& (7 - sp.negs)) == 0 && (o.abs.toNat &&& (3 - sp.abss)) == 0 &&
  !(o.neg.getLsbD 2 && o.a == 0x1FF) && !(o.neg.getLsbD 1 && o.b == 0x1FF) && !(o.neg.getLsbD 0 && o.c == 0x1FF) &&
  !(o.abs.getLsbD 1 && o.a == 0x1FF) && !(o.abs.getLsbD 0 && o.b == 0x1FF)

/-- The typ4 field is one of the accepted codes (R250, R316). -/
def typOk (sp : LRSpec) (t : Nat) : Bool := if sp.types.isEmpty then t == 0 else sp.types.contains t

/-- The checks of R316, R356 and R377 on an LR word against its row. -/
def LR.ok (sp : LRSpec) (o : LR) : Bool :=
  typOk sp o.typ.toNat && dstOk sp.d o.typ.toNat o.d.toNat &&
  selOk sp.a o.typ.toNat o.a.toNat && selOk sp.b o.typ.toNat o.b.toNat && selOk sp.c o.typ.toNat o.c.toNat &&
  (sp.kd == .mask || o.kd == 0) && immOk sp o && signBitsOk sp o &&
  (sp.sat || !o.sat) && (sp.ftz || !o.ftz) && (if sp.rnd then o.rnd.toNat ≤ 4 else o.rnd == 0) && (sp.fs || !o.fs)

def intTypes : List Nat := [0, 1, 2, 3, 4, 5, 6, 7]
def floatTypes : List Nat := [8, 9, 10, 11, 12, 13]

namespace Row
/-- IADD, ISUB, IMUL (Table 19-1). -/
def int2sat : LRSpec := { a := .typ, b := .typ, types := intTypes, sat := true }
def int2 : LRSpec := { a := .typ, b := .typ, types := intTypes }
def imad : LRSpec := { a := .typ, b := .typ, c := .typ, types := intTypes, sat := true }
def iabs : LRSpec := { a := .typ, types := [0, 2, 4, 6], sat := true }
def ineg : LRSpec := { a := .typ, types := intTypes, sat := true }
def int1 : LRSpec := { a := .typ, types := intTypes }
def shift : LRSpec := { a := .typ, b := .w32, types := intTypes }
def bfe : LRSpec := { a := .typ, b := .w32, types := [4, 5, 6, 7] }
def bfi : LRSpec := { a := .typ, b := .w32, c := .typ, types := [5, 7] }
def bits1 : LRSpec := { a := .typ, types := [5, 7] }
def permb : LRSpec := { d := .w32, a := .w32, b := .w32, c := .w32 }
def icmp : LRSpec := { d := .cond 6, a := .typ, b := .typ, kd := .mask, types := intTypes }
def sel : LRSpec := { a := .typ, b := .typ, kd := .mask, types := intTypes }
def idiv : LRSpec := { a := .typ, b := .typ, types := intTypes, sat := true, fs := true }
def irem : LRSpec := { a := .typ, b := .typ, types := intTypes, fs := true }
/-- SHFL, SHFLUP, SHFLDN, SHFLX (R370). -/
def shfl : LRSpec := { a := .typ, b := .w32, c := .w32, types := [4, 5, 6, 7] }
def vote : LRSpec := { d := .no, a := .w32, kd := .mask }
def elect : LRSpec := { d := .no, kd := .mask }
/-- FADD, FSUB, FMUL (Table 20-1). -/
def float2 : LRSpec := { a := .typ, b := .typ, types := floatTypes, sat := true, ftz := true, rnd := true, negs := 6, abss := 3 }
def ffma : LRSpec := { a := .typ, b := .typ, c := .typ, types := floatTypes, sat := true, ftz := true, rnd := true, negs := 7, abss := 3 }
def fminmax : LRSpec := { a := .typ, b := .typ, types := floatTypes, ftz := true, negs := 6, abss := 3 }
def fcmp : LRSpec := { d := .cond 8, a := .typ, b := .typ, kd := .mask, types := [8, 9, 10, 11], ftz := true, negs := 6, abss := 3 }
def fclass : LRSpec := { d := .w32, a := .typ, types := [8, 9, 10, 11] }
def frnd : LRSpec := { a := .typ, types := floatTypes, ftz := true, rnd := true, negs := 4, abss := 2 }
def fscale : LRSpec := { a := .typ, b := .w32, types := floatTypes, sat := true, ftz := true, rnd := true, negs := 4, abss := 2 }
/-- FRCP, FRSQ, FSQRT, FEXP2, FLOG2, FSINPI, FCOSPI (R388). -/
def flong : LRSpec := { a := .typ, types := floatTypes, ftz := true, rnd := true, negs := 4, abss := 2, fs := true }
def fdiv : LRSpec := { a := .typ, b := .typ, types := floatTypes, sat := true, ftz := true, rnd := true, negs := 6, abss := 3, fs := true }
/-- QSX (R393); its abs field holds the block format. -/
def qsx : LRSpec := { d := .w32, a := .w32, b := .w32, kd := .mask, types := [8, 9, 10], abss := 3 }
/-- PKSX, UPSX, DQSX (R394-R396). -/
def sx1 : LRSpec := { d := .w32, a := .w32, abss := 3 }
end Row

/-- REDU and SCAN (R356, R373, Table 19-3): kd4 holds the operation in bits 2:0 and the exclusive bit in bit 3. -/
def reduOk (scan : Bool) (o : LR) : Bool :=
  let op := o.kd.toNat % 8
  let flt := o.typ == 10 || o.typ == 11
  let isInt := o.typ.toNat < 8
  (isInt || flt) && op < 6 && (flt → op < 3) && (scan || o.kd.toNat < 8) &&
  selOk .typ o.typ.toNat o.a.toNat && o.b == 0 && o.c == 0 && dstOk .typ o.typ.toNat o.d.toNat &&
  (o.imm == 0 || o.a == 0x1FF) && o.neg == 0 && o.abs == 0 && !o.fs &&
  (!o.sat || (isInt && op == 0)) && (!o.ftz || flt) && (if flt && op == 0 then o.rnd.toNat ≤ 4 else o.rnd == 0)

/-- QSX, PKSX, UPSX, DQSX: the abs field is a format code 1-3, not sign bits (R392). -/
def sxOk (sp : LRSpec) (o : LR) : Bool := LR.ok sp { o with abs := 0 } && o.abs != 0

/-- CVT (R390, Table 20-5): typ4 is the destination type, kd4 the source type. -/
def cvtOk (o : LR) : Bool :=
  let st := o.kd.toNat
  let dt := o.typ.toNat
  let isInt (t : Nat) := t < 8
  let isF (t : Nat) := 8 ≤ t && t ≤ 11
  let isP (t : Nat) := t == 12 || t == 13
  let bUse : Use := if isF st && isP dt then .typ else if isP st && isF dt then .w32 else .no
  let pair := (isInt st && isInt dt && st != dt) || (isInt st && isF dt) || (isF st && isInt dt) || (isF st && isF dt) ||
    (isF st && isP dt) || (isP st && isF dt) || (isP st && isP dt)
  pair && dstOk .typ dt o.d.toNat && selOk .typ st o.a.toNat && selOk bUse st o.b.toNat && o.c == 0 &&
  immOk { a := .typ, b := bUse } o && o.neg == 0 && o.abs == 0 && !o.fs &&
  (if isInt st && isInt dt then o.rnd == 0 else o.rnd.toNat ≤ 4) &&
  (!o.sat || !(isF st && isInt dt)) && (!o.ftz || !(isInt st && isInt dt))

/-- TCP (R435): a9 names a V register, b9 names S1-S63, c9 is a 32-bit selector, and the other fields are zero. -/
def tcpOk (o : LR) : Bool :=
  o.a.toNat < 0x100 && 0x101 ≤ o.b.toNat && o.b.toNat ≤ 0x13F && selValid o.c.toNat true &&
  (o.imm == 0 || o.c == 0x1FF) && o.d == 0 && o.kd == 0 && o.typ == 0 && o.rnd == 0 && !o.sat && !o.ftz &&
  o.neg == 0 && o.abs == 0 && !o.fs

/-- The rules R316, R318, R320-R323 that every LM word meets. -/
def LM.common (o : LM) : Bool := selValid o.i.toNat false && o.w.toNat ≤ 4 && o.scope.toNat ≤ 3

/-- LD and LDH (Table 21-2). -/
def LM.loadOk (o : LM) : Bool := o.common && o.kd == 0 && o.aux == 0
/-- ST. -/
def LM.storeOk (o : LM) : Bool := o.common && o.kd == 0 && o.aux == 0 && !o.fs
/-- LDC. -/
def LM.ldcOk (o : LM) : Bool := o.common && o.w == 0 && o.hint == 0 && o.kd == 0 && o.aux == 0
/-- STC: aux 7:0 is the count (R323). -/
def LM.stcOk (o : LM) : Bool := o.common && o.w == 0 && o.hint == 0 && o.kd == 0 && o.aux.toNat < 256 && !o.fs
/-- PREF. -/
def LM.prefOk (o : LM) : Bool := o.common && o.d == 0 && o.kd == 0 && o.aux == 0 && !o.fs
/-- ATOM: the operation, and no compare register but for cas (R323). -/
def LM.atomOk (o : LM) : Bool :=
  o.common && o.w == 0 && o.kd == 0 && o.aux.toNat % 16 < 13 && (o.aux.toNat % 16 == 10 || o.aux.toNat / 4096 == 0)
/-- OUTL (R397): the scope code .cor is not allowed. -/
def LM.outlOk (o : LM) : Bool := o.common && o.w == 0 && o.hint == 0 && !o.fs && o.aux == 0 && o.scope != 1

/-- A format code of Table 14-6 that is not reserved. -/
def fmtCodeOk (c : Nat) : Bool := c == 0 || c == 1 || c == 2 || c == 4 || c == 5 || c == 6

/-- No field of an FMT value holds a reserved code (R257). -/
def fmtCodesOk (f : Nat) : Bool :=
  fmtCodeOk (f % 16) && fmtCodeOk (f / 16 % 16) && fmtCodeOk (f / 256 % 16) && f / 4096 % 8 < 4

/-- The reserved and zero fields of a matrix command (R441, Table 22-8). -/
def MxFields.ok (useA useX useY : Bool) (f : MxFields) : Bool :=
  f.res == 0 && f.res0 == 0 && (useA || f.a == 0) && (useX || f.x == 0) && (useY || f.y == 0)

/-- Well-formed instructions. Device steps have no encoding and are well formed as they stand. -/
def Instr.wf : Instr → Bool
  | .satom _ _ _ o _ _ _ => o.toNat < 13
  | .ret a => a != 0
  | .callv v => v.toNat % 2 == 0
  | .setfmt f => f.toNat / 32768 % 2 == 0 && fmtCodesOk f.toNat
  | .mfs _ s | .mts _ s => s.toNat < 0x12
  | .joinChild d a => !(d == 0 && a == 0)
  | .barr _ s => s.toNat ≤ 1
  | .rel _ s | .fence _ s => s.toNat ≤ 2
  | .acq a s n => s.toNat ≤ 2 && a.toNat + n.toNat ≤ 63
  | .acqall s => s == 1 || s == 2
  | .trap i => i.toNat < 0xFF00
  | .wqry _ _ f => f.toNat < 12
  | .lnop o => o == {}
  | .iadd o | .isub o | .imul o => LR.ok Row.int2sat o
  | .imulh o | .imin o | .imax o | .lAnd o | .lOr o | .lXor o | .andn o => LR.ok Row.int2 o
  | .imad o => LR.ok Row.imad o
  | .iabs o => LR.ok Row.iabs o
  | .ineg o => LR.ok Row.ineg o
  | .lNot o | .lMov o => LR.ok Row.int1 o
  | .shl o | .shr o | .sra o | .rotl o => LR.ok Row.shift o
  | .bfe o => LR.ok Row.bfe o
  | .bfi o => LR.ok Row.bfi o
  | .popc o | .clz o | .brev o => LR.ok Row.bits1 o
  | .permb o => LR.ok Row.permb o
  | .icmp o => LR.ok Row.icmp o
  | .sel o => LR.ok Row.sel o
  | .idiv o => LR.ok Row.idiv o
  | .irem o => LR.ok Row.irem o
  | .shfl o | .shflup o | .shfldn o | .shflx o => LR.ok Row.shfl o
  | .vote o => LR.ok Row.vote o
  | .elect o => LR.ok Row.elect o
  | .redu o => reduOk false o
  | .scan o => reduOk true o
  | .fadd o | .fsub o | .fmul o => LR.ok Row.float2 o
  | .ffma o => LR.ok Row.ffma o
  | .fmin o | .fmax o => LR.ok Row.fminmax o
  | .fcmp o => LR.ok Row.fcmp o
  | .fclass o => LR.ok Row.fclass o
  | .frnd o => LR.ok Row.frnd o
  | .frcp o | .frsq o | .fsqrt o | .fexp2 o | .flog2 o | .fsinpi o | .fcospi o => LR.ok Row.flong o
  | .fdiv o => LR.ok Row.fdiv o
  | .fscale o => LR.ok Row.fscale o
  | .cvt o => cvtOk o
  | .qsx o => sxOk Row.qsx o
  | .pksx o | .upsx o | .dqsx o => sxOk Row.sx1 o
  | .outl o => o.outlOk
  | .ld o | .ldh o => o.loadOk
  | .st o => o.storeOk
  | .ldc o => o.ldcOk
  | .stc o => o.stcOk
  | .pref o => o.prefOk
  | .atom o => o.atomOk
  | .tcp o => tcpOk o
  | .mldb f | .mstrm f | .mdrain f => f.ok true true true
  | .mzero f | .mloop f => f.ok false true true
  | .mrdv f => f.ok false true false
  | .mend f => f.ok false false false
  | .udf | .sadd _ _ _ | .ssub _ _ _ | .sand _ _ _ | .sor _ _ _ | .sxor _ _ _ | .sshl _ _ _ | .sshr _ _ _ | .ssra _ _ _ | .smul _ _ _ | .smulh _ _ _
  | .smulhu _ _ _ | .smin _ _ _ | .smax _ _ _ | .sminu _ _ _ | .smaxu _ _ _ | .sslt _ _ _ | .ssltu _ _ _ | .sseq _ _ _ | .sdiv _ _ _ | .sdivu _ _ _
  | .srem _ _ _ | .sremu _ _ _ | .spopc _ _ | .sclz _ _ | .sctz _ _ | .sbrev _ _ | .saddi _ _ _ | .sandi _ _ _ | .sori _ _ _ | .sxori _ _ _
  | .sshli _ _ _ | .sshri _ _ _ | .ssrai _ _ _ | .sslti _ _ _ | .smovi _ _ | .shori _ _ | .sld _ _ _ _ | .sldx _ _ _ _ _ | .sst _ _ _ _
  | .sstx _ _ _ _ _ | .sldh _ _ _ _ | .brld _ _ _ | .brbase _ _ _ | .broff _ _ _ | .brext _ _ _ | .brstr _ _ _ | .brswz _ _ _ | .brflg _ _ _
  | .brcpy _ _ | .bz _ _ | .bnz _ _ | .bltz _ _ | .bgez _ _ | .blez _ _ | .bgtz _ _ | .bkany _ _ | .bkall _ _ | .bknone _ _ | .bra _ | .call _
  | .jr _ | .callr _ | .retS0 | .divg _ _ _ | .divgLoop _ | .junc | .brkl _ _ | .cls _ | .clsr _ | .kand _ _ _ | .kor _ _ _ | .kxor _ _ _
  | .kandn _ _ _ | .knot _ _ | .kmov _ _ | .ksetexm _ | .kgetexm _ | .klive _ | .kclr _ | .kones _ | .ktos _ _ | .stok _ _ | .kpopc _ _ | .kffs _ _
  | .getfmt _ | .putfmt _ | .waitf _ | .sigc _ | .sigr | .nop | .spawn _ _ | .spawnf _ _ _ | .joinSelf | .joinany _ _ | .grant _ _ _ | .cut _ _
  | .tstat _ _ | .arrive _ | .waitb _ | .arriveStage _ _ | .arriveStageClose _ _ | .waita _ _ _ | .waitm _ _ _ | .strel _ _ _ _ | .ldacq _ _ _ _
  | .resize _ _ _ | .cont _ _ _ _ | .fbp _ | .rflt | .mappg _ _ _ | .ivpg _ _ | .halt | .mxfork _ | .rdv _ | .coll _ _ | .repack _ | .partReset
  | .firmwareStageVerify | .dieTrainingComplete | .dieretWrite | .thermalEvent | .thermalEventClear | .mainLineMessage | .mainLineTimeout | .lgctlGo
  | .drainComplete | .quiesceTimeout | .fenceComplete | .retrainComplete | .retrainTimeout | .remap | .linkInboundRequest | .inboundHomeTimeout
  | .outboundCompletion | .outboundTimeout | .bar4Access | .hwdWrite | .claimgo | .arbitrationIntervalEnd | .handoff | .handack | .handoffTimeout
  | .ownerPathLoss | .attgo | .attestationSigned | .registerWrite | .pctlStop | .pctlRun | .pctlFree | .squotaWrite | .pinSet | .pinClear
  | .pinFillComplete | .fotGo | .fotFrameChange | .slotTurn | .deficitDecrement | .setmvWrite | .sramModeSwitchComplete | .queueEnable
  | .queueDisable | .doorbellTail | .doorbellReplyValue | .doorbellReplyCommit | .doorbellStail | .entryFetch | .entryDispatch | .graphValidation
  | .graphNodeDispatch | .jobCardAccept | .jobStart | .jobComplete | .completionRecordWritten | .syscallRecordWrite | .taskClose | .parkLimitExpiry
  | .placementAttempt | .reserveRequest | .placementCommit | .placementRelease | .placementBackoffExpiry | .placementSidingAttempt | .stealRequest
  | .stealReply | .stealRetryExpiry | .activeEntryFill | .blockedSwap | .urgentPromotion | .tier2Start | .tier3Start | .force | .coreSave
  | .handlerTimeout | .invcmd | .invalidateComplete | .sectorFill | .pressurePublication | .recordFold | .foldUnitCompact | .atomicAtHome
  | .migrationPrecopy | .migrationPostcopy | .migrationPull | .migrationPullFail | .mxforkAccept | .programAutoCollect | .copyStep
  | .copyChunkComplete | .continuationFire | .distributorQuery | .collectiveContribution | .collectiveDeadline | .resultLands | .homeLoad
  | .reserveAnswer | .illegalEncoding => true

end Sys2Proof
end

