-- ==== Sys2Proof/Decode.lean ====
section
/-! DEFINITION. Decoding of scalar words, lane words and matrix commands, total on any bits, and after it an encoder written from the same tables (17_formats_and_map.md; 22_engine_task_system.md R441). A word that the decoder refuses faults ILLOP when it issues (R302). -/

namespace Sys2Proof

/-- Bits lo + n - 1 : lo of a word read as one number, bit 0 the least significant (R6). -/
def fld (w lo n : Nat) : Nat := w / 2 ^ lo % 2 ^ n

/-- The same bits as an n-bit value. -/
def bv (n w lo : Nat) : BitVec n := BitVec.ofNat n (fld w lo n)

/-- A number from its bytes, the lowest address first (R7). -/
def leNat : List Byte → Nat
  | [] => 0
  | b :: bs => b.toNat + 256 * leNat bs

/-- The low `n` bytes of a number, the lowest address first (R7). -/
def leBytes : Nat → Nat → List Byte
  | 0, _ => []
  | n + 1, v => BitVec.ofNat 8 v :: leBytes n (v / 256)

/-- Sign extension of an n-bit field to 64 bits (R306). -/
def sext {n : Nat} (x : BitVec n) : W64 := x.signExtend 64

/-- Opcode 0x00, selected by bits 7:0. -/
def decodeOp00 (w : Nat) : Option Instr :=
  match fld w 0 8 with
  | 0 => some (.sadd (bv 6 w 20) (bv 6 w 14) (bv 6 w 8))
  | 1 => some (.ssub (bv 6 w 20) (bv 6 w 14) (bv 6 w 8))
  | 2 => some (.sand (bv 6 w 20) (bv 6 w 14) (bv 6 w 8))
  | 3 => some (.sor (bv 6 w 20) (bv 6 w 14) (bv 6 w 8))
  | 4 => some (.sxor (bv 6 w 20) (bv 6 w 14) (bv 6 w 8))
  | 5 => some (.sshl (bv 6 w 20) (bv 6 w 14) (bv 6 w 8))
  | 6 => some (.sshr (bv 6 w 20) (bv 6 w 14) (bv 6 w 8))
  | 7 => some (.ssra (bv 6 w 20) (bv 6 w 14) (bv 6 w 8))
  | 8 => some (.smul (bv 6 w 20) (bv 6 w 14) (bv 6 w 8))
  | 9 => some (.smulh (bv 6 w 20) (bv 6 w 14) (bv 6 w 8))
  | 10 => some (.smulhu (bv 6 w 20) (bv 6 w 14) (bv 6 w 8))
  | 11 => some (.smin (bv 6 w 20) (bv 6 w 14) (bv 6 w 8))
  | 12 => some (.smax (bv 6 w 20) (bv 6 w 14) (bv 6 w 8))
  | 13 => some (.sminu (bv 6 w 20) (bv 6 w 14) (bv 6 w 8))
  | 14 => some (.smaxu (bv 6 w 20) (bv 6 w 14) (bv 6 w 8))
  | 15 => some (.sslt (bv 6 w 20) (bv 6 w 14) (bv 6 w 8))
  | 16 => some (.ssltu (bv 6 w 20) (bv 6 w 14) (bv 6 w 8))
  | 17 => some (.sseq (bv 6 w 20) (bv 6 w 14) (bv 6 w 8))
  | 18 => some (.sdiv (bv 6 w 20) (bv 6 w 14) (bv 6 w 8))
  | 19 => some (.sdivu (bv 6 w 20) (bv 6 w 14) (bv 6 w 8))
  | 20 => some (.srem (bv 6 w 20) (bv 6 w 14) (bv 6 w 8))
  | 21 => some (.sremu (bv 6 w 20) (bv 6 w 14) (bv 6 w 8))
  | 22 => if fld w 8 6 == 0 then some (.spopc (bv 6 w 20) (bv 6 w 14)) else none
  | 23 => if fld w 8 6 == 0 then some (.sclz (bv 6 w 20) (bv 6 w 14)) else none
  | 24 => if fld w 8 6 == 0 then some (.sctz (bv 6 w 20) (bv 6 w 14)) else none
  | 25 => if fld w 8 6 == 0 then some (.sbrev (bv 6 w 20) (bv 6 w 14)) else none
  | _ => none

/-- Opcode 0x17, selected by bits 2:0. -/
def decodeOp17 (w : Nat) : Option Instr :=
  match fld w 0 3 with
  | 0 => if fld w 3 7 == 0 && fld w 20 2 == 0 then some (.brbase (bv 4 w 22) (bv 6 w 14) (bv 4 w 10)) else none
  | 1 => if fld w 3 7 == 0 && fld w 20 2 == 0 then some (.broff (bv 4 w 22) (bv 6 w 14) (bv 4 w 10)) else none
  | 2 => if fld w 3 7 == 0 && fld w 20 2 == 0 then some (.brext (bv 4 w 22) (bv 6 w 14) (bv 4 w 10)) else none
  | 3 => if fld w 3 7 == 0 && fld w 20 2 == 0 then some (.brstr (bv 4 w 22) (bv 6 w 14) (bv 4 w 10)) else none
  | 4 => if fld w 3 7 == 0 && fld w 20 2 == 0 then some (.brswz (bv 4 w 22) (bv 6 w 14) (bv 4 w 10)) else none
  | 5 => if fld w 3 7 == 0 && fld w 20 2 == 0 then some (.brflg (bv 4 w 22) (bv 6 w 14) (bv 4 w 10)) else none
  | 6 => if fld w 3 7 == 0 && fld w 14 8 == 0 then some (.brcpy (bv 4 w 22) (bv 4 w 10)) else none
  | _ => none

/-- Opcode 0x18, selected by bits 19:16. -/
def decodeOp18 (w : Nat) : Option Instr :=
  match fld w 16 4 with
  | 0 => some (.bz (bv 6 w 20) (bv 16 w 0))
  | 1 => some (.bnz (bv 6 w 20) (bv 16 w 0))
  | 2 => some (.bltz (bv 6 w 20) (bv 16 w 0))
  | 3 => some (.bgez (bv 6 w 20) (bv 16 w 0))
  | 4 => some (.blez (bv 6 w 20) (bv 16 w 0))
  | 5 => some (.bgtz (bv 6 w 20) (bv 16 w 0))
  | _ => none

/-- Opcode 0x19, selected by bits 21:20. -/
def decodeOp19 (w : Nat) : Option Instr :=
  match fld w 20 2 with
  | 0 => some (.bkany (bv 4 w 22) (bv 20 w 0))
  | 1 => some (.bkall (bv 4 w 22) (bv 20 w 0))
  | 2 => some (.bknone (bv 4 w 22) (bv 20 w 0))
  | _ => none

/-- Opcode 0x1C, selected by bits 7:0. -/
def decodeOp1C (w : Nat) : Option Instr :=
  match fld w 0 8 with
  | 0 => if fld w 8 6 == 0 && fld w 20 6 == 0 then some (.jr (bv 6 w 14)) else none
  | 1 => if fld w 8 6 == 0 && fld w 20 6 == 0 then some (.callr (bv 6 w 14)) else none
  | 2 => if fld w 8 18 == 0 then some .retS0 else if fld w 8 6 == 0 && fld w 20 6 == 0 then some (.ret (bv 6 w 14)) else none
  | 3 => if fld w 8 4 == 0 && fld w 20 6 == 0 then some (.callv (bv 8 w 12)) else none
  | _ => none

/-- Opcode 0x22, selected by bits 7:0. -/
def decodeOp22 (w : Nat) : Option Instr :=
  match fld w 0 8 with
  | 0 => if fld w 24 2 == 0 && fld w 18 2 == 0 && fld w 12 2 == 0 then some (.kand (bv 4 w 20) (bv 4 w 14) (bv 4 w 8)) else none
  | 1 => if fld w 24 2 == 0 && fld w 18 2 == 0 && fld w 12 2 == 0 then some (.kor (bv 4 w 20) (bv 4 w 14) (bv 4 w 8)) else none
  | 2 => if fld w 24 2 == 0 && fld w 18 2 == 0 && fld w 12 2 == 0 then some (.kxor (bv 4 w 20) (bv 4 w 14) (bv 4 w 8)) else none
  | 3 => if fld w 24 2 == 0 && fld w 18 2 == 0 && fld w 12 2 == 0 then some (.kandn (bv 4 w 20) (bv 4 w 14) (bv 4 w 8)) else none
  | 4 => if fld w 8 6 == 0 && fld w 24 2 == 0 && fld w 18 2 == 0 then some (.knot (bv 4 w 20) (bv 4 w 14)) else none
  | 5 => if fld w 8 6 == 0 && fld w 24 2 == 0 && fld w 18 2 == 0 then some (.kmov (bv 4 w 20) (bv 4 w 14)) else none
  | 6 => if fld w 8 6 == 0 && fld w 20 6 == 0 && fld w 18 2 == 0 then some (.ksetexm (bv 4 w 14)) else none
  | 7 => if fld w 8 12 == 0 && fld w 24 2 == 0 then some (.kgetexm (bv 4 w 20)) else none
  | 8 => if fld w 8 12 == 0 && fld w 24 2 == 0 then some (.klive (bv 4 w 20)) else none
  | 9 => if fld w 8 12 == 0 && fld w 24 2 == 0 then some (.kclr (bv 4 w 20)) else none
  | 10 => if fld w 8 12 == 0 && fld w 24 2 == 0 then some (.kones (bv 4 w 20)) else none
  | _ => none

/-- Opcode 0x23, selected by bits 7:0. -/
def decodeOp23 (w : Nat) : Option Instr :=
  match fld w 0 8 with
  | 0 => if fld w 8 6 == 0 && fld w 18 2 == 0 then some (.ktos (bv 6 w 20) (bv 4 w 14)) else none
  | 1 => if fld w 8 6 == 0 && fld w 24 2 == 0 then some (.stok (bv 4 w 20) (bv 6 w 14)) else none
  | 2 => if fld w 8 6 == 0 && fld w 18 2 == 0 then some (.kpopc (bv 6 w 20) (bv 4 w 14)) else none
  | 3 => if fld w 8 6 == 0 && fld w 18 2 == 0 then some (.kffs (bv 6 w 20) (bv 4 w 14)) else none
  | _ => none

/-- Opcode 0x25, selected by bits 7:0. -/
def decodeOp25 (w : Nat) : Option Instr :=
  match fld w 0 8 with
  | 0 => if fld w 8 12 == 0 then some (.getfmt (bv 6 w 20)) else none
  | 1 => if fld w 8 6 == 0 && fld w 20 6 == 0 then some (.putfmt (bv 6 w 14)) else none
  | _ => none

/-- Opcode 0x26, selected by bits 8:8. -/
def decodeOp26 (w : Nat) : Option Instr :=
  match fld w 8 1 with
  | 0 => if fld w 9 11 == 0 then some (.mfs (bv 6 w 20) (bv 8 w 0)) else none
  | 1 => if fld w 9 11 == 0 then some (.mts (bv 6 w 20) (bv 8 w 0)) else none
  | _ => none

/-- Opcode 0x28, selected by bits 25:25. -/
def decodeOp28 (w : Nat) : Option Instr :=
  match fld w 25 1 with
  | 0 => if fld w 16 9 == 0 then some (.sigc (bv 16 w 0)) else none
  | 1 => if fld w 0 25 == 0 then some .sigr else none
  | _ => none

/-- Opcode 0x2A, selected by bits 7:0. -/
def decodeOp2A (w : Nat) : Option Instr :=
  match fld w 0 8 with
  | 0 => if fld w 8 6 == 0 then some (.spawn (bv 6 w 20) (bv 6 w 14)) else none
  | 1 => some (.spawnf (bv 6 w 20) (bv 6 w 14) (bv 6 w 8))
  | _ => none

/-- Opcode 0x2B, selected by bits 7:0. -/
def decodeOp2B (w : Nat) : Option Instr :=
  match fld w 0 8 with
  | 0 => if fld w 8 18 == 0 then some .joinSelf else if fld w 8 6 == 0 then some (.joinChild (bv 6 w 20) (bv 6 w 14)) else none
  | 1 => if fld w 14 6 == 0 then some (.joinany (bv 6 w 20) (bv 6 w 8)) else none
  | 2 => some (.grant (bv 6 w 20) (bv 6 w 14) (bv 6 w 8))
  | 3 => if fld w 8 6 == 0 then some (.cut (bv 6 w 20) (bv 6 w 14)) else none
  | 4 => if fld w 8 6 == 0 then some (.tstat (bv 6 w 20) (bv 6 w 14)) else none
  | _ => none

/-- Opcode 0x2C, selected by bits 2:0. -/
def decodeOp2C (w : Nat) : Option Instr :=
  match fld w 0 3 with
  | 0 => if fld w 4 8 == 0 && fld w 20 6 == 0 then some (.barr (bv 8 w 12) (bv 1 w 3)) else none
  | 1 => if fld w 3 9 == 0 && fld w 20 6 == 0 then some (.arrive (bv 8 w 12)) else none
  | 2 => if fld w 3 9 == 0 && fld w 20 6 == 0 then some (.waitb (bv 8 w 12)) else none
  | 3 => if fld w 3 5 == 0 && fld w 12 8 == 0 then some (.arriveStage (bv 6 w 20) (bv 4 w 8)) else none
  | 4 => if fld w 3 5 == 0 && fld w 12 8 == 0 then some (.arriveStageClose (bv 6 w 20) (bv 4 w 8)) else none
  | _ => none

/-- Opcode 0x2D, selected by bits 7:0. -/
def decodeOp2D (w : Nat) : Option Instr :=
  match fld w 0 8 with
  | 0 => some (.waita (bv 6 w 20) (bv 6 w 14) (bv 6 w 8))
  | 1 => some (.waitm (bv 6 w 20) (bv 6 w 14) (bv 6 w 8))
  | _ => none

/-- Opcode 0x2E, selected by bits 9:7. -/
def decodeOp2E (w : Nat) : Option Instr :=
  match fld w 7 3 with
  | 0 => if fld w 0 5 == 0 && fld w 10 10 == 0 then some (.rel (bv 6 w 20) (bv 2 w 5)) else none
  | 1 => if fld w 10 4 == 0 && fld w 20 6 == 0 then some (.acq (bv 6 w 14) (bv 2 w 5) (bv 5 w 0)) else none
  | 2 => if fld w 14 6 == 0 then some (.strel (bv 6 w 20) (bv 4 w 10) (bv 2 w 5) (bv 5 w 0)) else none
  | 3 => if fld w 14 6 == 0 then some (.ldacq (bv 6 w 20) (bv 4 w 10) (bv 2 w 5) (bv 5 w 0)) else none
  | 4 => if fld w 0 5 == 0 && fld w 10 10 == 0 then some (.fence (bv 6 w 20) (bv 2 w 5)) else none
  | 5 => if fld w 0 5 == 0 && fld w 10 16 == 0 then some (.acqall (bv 2 w 5)) else none
  | _ => none

/-- Opcode 0x33, selected by bits 7:0. -/
def decodeOp33 (w : Nat) : Option Instr :=
  match fld w 0 8 with
  | 0 => if fld w 8 18 == 0 then some .rflt else none
  | 1 => some (.mappg (bv 6 w 20) (bv 6 w 14) (bv 6 w 8))
  | 2 => if fld w 20 6 == 0 then some (.ivpg (bv 6 w 14) (bv 6 w 8)) else none
  | 3 => if fld w 8 18 == 0 then some .halt else none
  | _ => none

/-- The scalar word by its major opcode (Table 17-2); fields that the map or the description marks as zero are checked here (R302). -/
def decodeMajor (op w : Nat) : Option Instr :=
  match op with
  | 0x00 => decodeOp00 w
  | 0x01 => some (.saddi (bv 6 w 20) (bv 6 w 14) (bv 14 w 0))
  | 0x02 => some (.sandi (bv 6 w 20) (bv 6 w 14) (bv 14 w 0))
  | 0x03 => some (.sori (bv 6 w 20) (bv 6 w 14) (bv 14 w 0))
  | 0x04 => some (.sxori (bv 6 w 20) (bv 6 w 14) (bv 14 w 0))
  | 0x05 => if fld w 6 8 == 0 then some (.sshli (bv 6 w 20) (bv 6 w 14) (bv 6 w 0)) else none
  | 0x06 => if fld w 6 8 == 0 then some (.sshri (bv 6 w 20) (bv 6 w 14) (bv 6 w 0)) else none
  | 0x07 => if fld w 6 8 == 0 then some (.ssrai (bv 6 w 20) (bv 6 w 14) (bv 6 w 0)) else none
  | 0x08 => some (.sslti (bv 6 w 20) (bv 6 w 14) (bv 14 w 0))
  | 0x09 => some (.smovi (bv 6 w 20) (bv 20 w 0))
  | 0x0A => some (.shori (bv 6 w 20) (bv 20 w 0))
  | 0x10 => some (.sld (bv 6 w 20) (bv 4 w 16) (bv 2 w 14) (bv 14 w 0))
  | 0x11 => some (.sldx (bv 6 w 20) (bv 4 w 16) (bv 2 w 14) (bv 6 w 8) (bv 8 w 0))
  | 0x12 => some (.sst (bv 6 w 20) (bv 4 w 16) (bv 2 w 14) (bv 14 w 0))
  | 0x13 => some (.sstx (bv 6 w 20) (bv 4 w 16) (bv 2 w 14) (bv 6 w 8) (bv 8 w 0))
  | 0x14 => some (.sldh (bv 6 w 20) (bv 4 w 16) (bv 2 w 14) (bv 14 w 0))
  | 0x15 => if fld w 0 2 == 0 then some (.satom (bv 6 w 20) (bv 4 w 16) (bv 6 w 10) (bv 4 w 6) (bv 2 w 4) (bv 1 w 3) (bv 1 w 2)) else none
  | 0x16 => if fld w 14 4 == 0 then some (.brld (bv 4 w 22) (bv 4 w 18) (bv 14 w 0)) else none
  | 0x17 => decodeOp17 w
  | 0x18 => decodeOp18 w
  | 0x19 => decodeOp19 w
  | 0x1A => some (.bra (bv 26 w 0))
  | 0x1B => some (.call (bv 26 w 0))
  | 0x1C => decodeOp1C w
  | 0x1D => if fld w 21 1 == 0 then some (.divg (bv 4 w 22) (bv 1 w 20) (bv 20 w 0)) else if fld w 20 6 == 2 then some (.divgLoop (bv 20 w 0)) else none
  | 0x1E => if fld w 0 26 == 0 then some .junc else none
  | 0x1F => if fld w 0 20 == 0 && fld w 21 1 == 0 then some (.brkl (bv 4 w 22) (bv 1 w 20)) else none
  | 0x20 => if fld w 24 2 == 0 then some (.cls (bv 24 w 0)) else none
  | 0x21 => if fld w 0 20 == 0 then some (.clsr (bv 6 w 20)) else none
  | 0x22 => decodeOp22 w
  | 0x23 => decodeOp23 w
  | 0x24 => if fld w 18 8 == 0 then some (.setfmt (bv 18 w 0)) else none
  | 0x25 => decodeOp25 w
  | 0x26 => decodeOp26 w
  | 0x27 => if fld w 12 14 == 0 then some (.waitf (bv 12 w 0)) else none
  | 0x28 => decodeOp28 w
  | 0x29 => if fld w 0 26 == 0 then some .nop else none
  | 0x2A => decodeOp2A w
  | 0x2B => decodeOp2B w
  | 0x2C => decodeOp2C w
  | 0x2D => decodeOp2D w
  | 0x2E => decodeOp2E w
  | 0x2F => if fld w 0 8 == 0 then some (.resize (bv 6 w 20) (bv 6 w 14) (bv 6 w 8)) else none
  | 0x30 => if fld w 0 2 == 0 then some (.cont (bv 6 w 20) (bv 6 w 14) (bv 6 w 8) (bv 6 w 2)) else none
  | 0x31 => if fld w 16 10 == 0 then some (.trap (bv 16 w 0)) else none
  | 0x32 => if fld w 24 2 == 0 then some (.fbp (bv 24 w 0)) else none
  | 0x33 => decodeOp33 w
  | 0x34 => if fld w 0 14 == 0 && fld w 20 6 == 0 then some (.mxfork (bv 6 w 14)) else none
  | 0x35 => if fld w 0 20 == 0 then some (.rdv (bv 6 w 20)) else none
  | 0x36 => if fld w 4 4 == 0 && fld w 20 6 == 0 then some (.wqry (bv 6 w 14) (bv 6 w 8) (bv 4 w 0)) else none
  | 0x37 => if fld w 0 8 == 0 && fld w 20 6 == 0 then some (.coll (bv 6 w 14) (bv 6 w 8)) else none
  | 0x38 => if fld w 0 12 == 0 && fld w 20 6 == 0 then some (.repack (bv 8 w 12)) else none
  | 0x3F => if w == 0xFFFFFFFF then some .udf else none
  | _ => none

/-- A scalar word: its row, unless its opcode, selector or zero fields name none (R302); a value out of range makes an instruction that is not well formed, which faults ILLOP as it issues. The all-ones word is UDF (R304). -/
def decodeScalar (w : Nat) : Option Instr := decodeMajor (fld w 26 6) w

/-- The LR fields of a lane word (Table 17-7). -/
def lrOf (w : Nat) : LR where
  d := bv 8 w 78
  a := bv 9 w 69
  b := bv 9 w 60
  c := bv 9 w 51
  kd := bv 4 w 47
  typ := bv 4 w 43
  rnd := bv 3 w 40
  sat := fld w 39 1 == 1
  ftz := fld w 38 1 == 1
  neg := bv 3 w 35
  abs := bv 2 w 33
  fs := fld w 32 1 == 1
  imm := bv 32 w 0

/-- The LM fields of a lane word (Table 17-8). -/
def lmOf (w : Nat) : LM where
  d := bv 8 w 78
  b := bv 4 w 74
  i := bv 9 w 65
  w := bv 3 w 62
  scope := bv 3 w 59
  hint := bv 2 w 57
  fs := fld w 56 1 == 1
  kd := bv 4 w 52
  aux := bv 20 w 32
  off := bv 32 w 0

/-- The fields of a matrix command (Table 22-7). -/
def mxFieldsOf (w : Nat) : MxFields where
  res := bv 16 w 104
  a := bv 8 w 96
  x := bv 32 w 64
  y := bv 32 w 32
  res0 := bv 32 w 0

/-- The lane instruction by its op10 (Table 17-11). -/
def laneOf (op w : Nat) : Option Instr :=
  match op with
  | 0x000 => some (.lnop (lrOf w))
  | 0x001 => some (.iadd (lrOf w))
  | 0x002 => some (.isub (lrOf w))
  | 0x003 => some (.imul (lrOf w))
  | 0x004 => some (.imulh (lrOf w))
  | 0x005 => some (.imad (lrOf w))
  | 0x006 => some (.iabs (lrOf w))
  | 0x007 => some (.ineg (lrOf w))
  | 0x008 => some (.imin (lrOf w))
  | 0x009 => some (.imax (lrOf w))
  | 0x00A => some (.lAnd (lrOf w))
  | 0x00B => some (.lOr (lrOf w))
  | 0x00C => some (.lXor (lrOf w))
  | 0x00D => some (.andn (lrOf w))
  | 0x00E => some (.lNot (lrOf w))
  | 0x00F => some (.shl (lrOf w))
  | 0x010 => some (.shr (lrOf w))
  | 0x011 => some (.sra (lrOf w))
  | 0x012 => some (.rotl (lrOf w))
  | 0x013 => some (.bfe (lrOf w))
  | 0x014 => some (.bfi (lrOf w))
  | 0x015 => some (.popc (lrOf w))
  | 0x016 => some (.clz (lrOf w))
  | 0x017 => some (.brev (lrOf w))
  | 0x018 => some (.permb (lrOf w))
  | 0x019 => some (.icmp (lrOf w))
  | 0x01A => some (.sel (lrOf w))
  | 0x01B => some (.lMov (lrOf w))
  | 0x01C => some (.idiv (lrOf w))
  | 0x01D => some (.irem (lrOf w))
  | 0x080 => some (.shfl (lrOf w))
  | 0x081 => some (.shflup (lrOf w))
  | 0x082 => some (.shfldn (lrOf w))
  | 0x083 => some (.shflx (lrOf w))
  | 0x084 => some (.vote (lrOf w))
  | 0x085 => some (.redu (lrOf w))
  | 0x086 => some (.scan (lrOf w))
  | 0x087 => some (.elect (lrOf w))
  | 0x100 => some (.fadd (lrOf w))
  | 0x101 => some (.fsub (lrOf w))
  | 0x102 => some (.fmul (lrOf w))
  | 0x103 => some (.ffma (lrOf w))
  | 0x104 => some (.fmin (lrOf w))
  | 0x105 => some (.fmax (lrOf w))
  | 0x106 => some (.fcmp (lrOf w))
  | 0x107 => some (.fclass (lrOf w))
  | 0x108 => some (.frnd (lrOf w))
  | 0x109 => some (.frcp (lrOf w))
  | 0x10A => some (.frsq (lrOf w))
  | 0x10B => some (.fsqrt (lrOf w))
  | 0x10C => some (.fexp2 (lrOf w))
  | 0x10D => some (.flog2 (lrOf w))
  | 0x10E => some (.fsinpi (lrOf w))
  | 0x10F => some (.fcospi (lrOf w))
  | 0x110 => some (.fdiv (lrOf w))
  | 0x111 => some (.fscale (lrOf w))
  | 0x200 => some (.cvt (lrOf w))
  | 0x201 => some (.qsx (lrOf w))
  | 0x202 => some (.pksx (lrOf w))
  | 0x203 => some (.upsx (lrOf w))
  | 0x204 => some (.dqsx (lrOf w))
  | 0x205 => some (.outl (lmOf w))
  | 0x300 => some (.ld (lmOf w))
  | 0x301 => some (.st (lmOf w))
  | 0x302 => some (.ldc (lmOf w))
  | 0x303 => some (.stc (lmOf w))
  | 0x304 => some (.ldh (lmOf w))
  | 0x305 => some (.pref (lmOf w))
  | 0x380 => some (.atom (lmOf w))
  | 0x3C0 => some (.tcp (lrOf w))
  | _ => none

/-- The matrix command by its CMD byte (Table 22-8). -/
def mxOf (op w : Nat) : Option Instr :=
  match op with
  | 0x01 => some (.mldb (mxFieldsOf w))
  | 0x02 => some (.mstrm (mxFieldsOf w))
  | 0x03 => some (.mzero (mxFieldsOf w))
  | 0x04 => some (.mdrain (mxFieldsOf w))
  | 0x05 => some (.mloop (mxFieldsOf w))
  | 0x06 => some (.mrdv (mxFieldsOf w))
  | 0x07 => some (.mend (mxFieldsOf w))
  | _ => none

/-- A lane word (R302, R324), well formed or not. -/
def decodeLane (w : Nat) : Option Instr := laneOf (fld w 86 10) w

/-- A matrix command, well formed or not. A word that is refused ends its program with status CMD (R441). -/
def decodeMx (w : Nat) : Option Instr := mxOf (fld w 120 8) w

/-- A clause header (R317): len, wait mask, set A, set B. -/
structure Header where
  len : Nat
  wait : BitVec 12
  setA : Nat
  setB : Nat
  deriving DecidableEq, Repr

/-- A clause header, refused when len is 0, a set field is 12-14 or bits 71:0 are not zero (R169). -/
def decodeHeader (w : Nat) : Option Header :=
  let h : Header := { len := fld w 92 4, wait := bv 12 w 80, setA := fld w 76 4, setB := fld w 72 4 }
  if h.len != 0 && (h.setA < 12 || h.setA == 15) && (h.setB < 12 || h.setB == 15) && fld w 0 72 == 0 then some h else none

/-- The instruction the decoder reads from a word numbered as the table numbers it: scalar words of 4 bytes, lane words of 12, matrix commands of 16. -/
def decodeTableWord (nbits w : Nat) : Option Instr :=
  if nbits ≤ 32 then decodeScalar w else if nbits ≤ 96 then decodeLane w else decodeMx w

/-- An LR word (Table 17-7). -/
def lrWord (op : Nat) (o : LR) : Nat :=
  op * 2 ^ 86 + o.d.toNat * 2 ^ 78 + o.a.toNat * 2 ^ 69 + o.b.toNat * 2 ^ 60 + o.c.toNat * 2 ^ 51 + o.kd.toNat * 2 ^ 47 +
  o.typ.toNat * 2 ^ 43 + o.rnd.toNat * 2 ^ 40 + o.sat.toNat * 2 ^ 39 + o.ftz.toNat * 2 ^ 38 + o.neg.toNat * 2 ^ 35 +
  o.abs.toNat * 2 ^ 33 + o.fs.toNat * 2 ^ 32 + o.imm.toNat

/-- An LM word (Table 17-8). -/
def lmWord (op : Nat) (o : LM) : Nat :=
  op * 2 ^ 86 + o.d.toNat * 2 ^ 78 + o.b.toNat * 2 ^ 74 + o.i.toNat * 2 ^ 65 + o.w.toNat * 2 ^ 62 + o.scope.toNat * 2 ^ 59 +
  o.hint.toNat * 2 ^ 57 + o.fs.toNat * 2 ^ 56 + o.kd.toNat * 2 ^ 52 + o.aux.toNat * 2 ^ 32 + o.off.toNat

/-- A matrix command (Table 22-7). -/
def mxWord (op : Nat) (f : MxFields) : Nat :=
  op * 2 ^ 120 + f.res.toNat * 2 ^ 104 + f.a.toNat * 2 ^ 96 + f.x.toNat * 2 ^ 64 + f.y.toNat * 2 ^ 32 + f.res0.toNat

/-- A field at its place. -/
def pl {n : Nat} (x : BitVec n) (lo : Nat) : Nat := x.toNat * 2 ^ lo

/-- The fixed bits of a word with its fields. -/
def wordOf (fixed : Nat) : List Nat → Nat
  | [] => fixed
  | x :: xs => x + wordOf fixed xs

/-- The 32-bit word of a scalar instruction, from Table 17-1 and Table 17-2. -/
def encodeScalar : Instr → Option Nat
  | .udf => some (wordOf 0xFFFFFFFF [])
  | .sadd d a b => some (wordOf 0x00000000 [pl d 20, pl a 14, pl b 8])
  | .ssub d a b => some (wordOf 0x00000001 [pl d 20, pl a 14, pl b 8])
  | .sand d a b => some (wordOf 0x00000002 [pl d 20, pl a 14, pl b 8])
  | .sor d a b => some (wordOf 0x00000003 [pl d 20, pl a 14, pl b 8])
  | .sxor d a b => some (wordOf 0x00000004 [pl d 20, pl a 14, pl b 8])
  | .sshl d a b => some (wordOf 0x00000005 [pl d 20, pl a 14, pl b 8])
  | .sshr d a b => some (wordOf 0x00000006 [pl d 20, pl a 14, pl b 8])
  | .ssra d a b => some (wordOf 0x00000007 [pl d 20, pl a 14, pl b 8])
  | .smul d a b => some (wordOf 0x00000008 [pl d 20, pl a 14, pl b 8])
  | .smulh d a b => some (wordOf 0x00000009 [pl d 20, pl a 14, pl b 8])
  | .smulhu d a b => some (wordOf 0x0000000A [pl d 20, pl a 14, pl b 8])
  | .smin d a b => some (wordOf 0x0000000B [pl d 20, pl a 14, pl b 8])
  | .smax d a b => some (wordOf 0x0000000C [pl d 20, pl a 14, pl b 8])
  | .sminu d a b => some (wordOf 0x0000000D [pl d 20, pl a 14, pl b 8])
  | .smaxu d a b => some (wordOf 0x0000000E [pl d 20, pl a 14, pl b 8])
  | .sslt d a b => some (wordOf 0x0000000F [pl d 20, pl a 14, pl b 8])
  | .ssltu d a b => some (wordOf 0x00000010 [pl d 20, pl a 14, pl b 8])
  | .sseq d a b => some (wordOf 0x00000011 [pl d 20, pl a 14, pl b 8])
  | .sdiv d a b => some (wordOf 0x00000012 [pl d 20, pl a 14, pl b 8])
  | .sdivu d a b => some (wordOf 0x00000013 [pl d 20, pl a 14, pl b 8])
  | .srem d a b => some (wordOf 0x00000014 [pl d 20, pl a 14, pl b 8])
  | .sremu d a b => some (wordOf 0x00000015 [pl d 20, pl a 14, pl b 8])
  | .spopc d a => some (wordOf 0x00000016 [pl d 20, pl a 14])
  | .sclz d a => some (wordOf 0x00000017 [pl d 20, pl a 14])
  | .sctz d a => some (wordOf 0x00000018 [pl d 20, pl a 14])
  | .sbrev d a => some (wordOf 0x00000019 [pl d 20, pl a 14])
  | .saddi d a i => some (wordOf 0x04000000 [pl d 20, pl a 14, pl i 0])
  | .sandi d a i => some (wordOf 0x08000000 [pl d 20, pl a 14, pl i 0])
  | .sori d a i => some (wordOf 0x0C000000 [pl d 20, pl a 14, pl i 0])
  | .sxori d a i => some (wordOf 0x10000000 [pl d 20, pl a 14, pl i 0])
  | .sshli d a s => some (wordOf 0x14000000 [pl d 20, pl a 14, pl s 0])
  | .sshri d a s => some (wordOf 0x18000000 [pl d 20, pl a 14, pl s 0])
  | .ssrai d a s => some (wordOf 0x1C000000 [pl d 20, pl a 14, pl s 0])
  | .sslti d a i => some (wordOf 0x20000000 [pl d 20, pl a 14, pl i 0])
  | .smovi d i => some (wordOf 0x24000000 [pl d 20, pl i 0])
  | .shori d i => some (wordOf 0x28000000 [pl d 20, pl i 0])
  | .sld d b z i => some (wordOf 0x40000000 [pl d 20, pl b 16, pl z 14, pl i 0])
  | .sldx d b z a i => some (wordOf 0x44000000 [pl d 20, pl b 16, pl z 14, pl a 8, pl i 0])
  | .sst d b z i => some (wordOf 0x48000000 [pl d 20, pl b 16, pl z 14, pl i 0])
  | .sstx d b z a i => some (wordOf 0x4C000000 [pl d 20, pl b 16, pl z 14, pl a 8, pl i 0])
  | .sldh d b z i => some (wordOf 0x50000000 [pl d 20, pl b 16, pl z 14, pl i 0])
  | .satom d b a o s c r => some (wordOf 0x54000000 [pl d 20, pl b 16, pl a 10, pl o 6, pl s 4, pl c 3, pl r 2])
  | .brld d s i => some (wordOf 0x58000000 [pl d 22, pl s 18, pl i 0])
  | .brbase d a s => some (wordOf 0x5C000000 [pl d 22, pl a 14, pl s 10])
  | .broff d a s => some (wordOf 0x5C000001 [pl d 22, pl a 14, pl s 10])
  | .brext d a s => some (wordOf 0x5C000002 [pl d 22, pl a 14, pl s 10])
  | .brstr d a s => some (wordOf 0x5C000003 [pl d 22, pl a 14, pl s 10])
  | .brswz d a s => some (wordOf 0x5C000004 [pl d 22, pl a 14, pl s 10])
  | .brflg d a s => some (wordOf 0x5C000005 [pl d 22, pl a 14, pl s 10])
  | .brcpy d s => some (wordOf 0x5C000006 [pl d 22, pl s 10])
  | .bz a o => some (wordOf 0x60000000 [pl a 20, pl o 0])
  | .bnz a o => some (wordOf 0x60010000 [pl a 20, pl o 0])
  | .bltz a o => some (wordOf 0x60020000 [pl a 20, pl o 0])
  | .bgez a o => some (wordOf 0x60030000 [pl a 20, pl o 0])
  | .blez a o => some (wordOf 0x60040000 [pl a 20, pl o 0])
  | .bgtz a o => some (wordOf 0x60050000 [pl a 20, pl o 0])
  | .bkany k o => some (wordOf 0x64000000 [pl k 22, pl o 0])
  | .bkall k o => some (wordOf 0x64100000 [pl k 22, pl o 0])
  | .bknone k o => some (wordOf 0x64200000 [pl k 22, pl o 0])
  | .bra o => some (wordOf 0x68000000 [pl o 0])
  | .call o => some (wordOf 0x6C000000 [pl o 0])
  | .jr a => some (wordOf 0x70000000 [pl a 14])
  | .callr a => some (wordOf 0x70000001 [pl a 14])
  | .ret a => some (wordOf 0x70000002 [pl a 14])
  | .retS0 => some (wordOf 0x70000002 [])
  | .callv v => some (wordOf 0x70000003 [pl v 12])
  | .divg k c o => some (wordOf 0x74000000 [pl k 22, pl c 20, pl o 0])
  | .divgLoop o => some (wordOf 0x74200000 [pl o 0])
  | .junc => some (wordOf 0x78000000 [])
  | .brkl k c => some (wordOf 0x7C000000 [pl k 22, pl c 20])
  | .cls w => some (wordOf 0x80000000 [pl w 0])
  | .clsr a => some (wordOf 0x84000000 [pl a 20])
  | .kand d a b => some (wordOf 0x88000000 [pl d 20, pl a 14, pl b 8])
  | .kor d a b => some (wordOf 0x88000001 [pl d 20, pl a 14, pl b 8])
  | .kxor d a b => some (wordOf 0x88000002 [pl d 20, pl a 14, pl b 8])
  | .kandn d a b => some (wordOf 0x88000003 [pl d 20, pl a 14, pl b 8])
  | .knot d a => some (wordOf 0x88000004 [pl d 20, pl a 14])
  | .kmov d a => some (wordOf 0x88000005 [pl d 20, pl a 14])
  | .ksetexm a => some (wordOf 0x88000006 [pl a 14])
  | .kgetexm d => some (wordOf 0x88000007 [pl d 20])
  | .klive d => some (wordOf 0x88000008 [pl d 20])
  | .kclr d => some (wordOf 0x88000009 [pl d 20])
  | .kones d => some (wordOf 0x8800000A [pl d 20])
  | .ktos d a => some (wordOf 0x8C000000 [pl d 20, pl a 14])
  | .stok d a => some (wordOf 0x8C000001 [pl d 20, pl a 14])
  | .kpopc d a => some (wordOf 0x8C000002 [pl d 20, pl a 14])
  | .kffs d a => some (wordOf 0x8C000003 [pl d 20, pl a 14])
  | .setfmt f => some (wordOf 0x90000000 [pl f 0])
  | .getfmt d => some (wordOf 0x94000000 [pl d 20])
  | .putfmt a => some (wordOf 0x94000001 [pl a 14])
  | .mfs d s => some (wordOf 0x98000000 [pl d 20, pl s 0])
  | .mts d s => some (wordOf 0x98000100 [pl d 20, pl s 0])
  | .waitf m => some (wordOf 0x9C000000 [pl m 0])
  | .sigc p => some (wordOf 0xA0000000 [pl p 0])
  | .sigr => some (wordOf 0xA2000000 [])
  | .nop => some (wordOf 0xA4000000 [])
  | .spawn d a => some (wordOf 0xA8000000 [pl d 20, pl a 14])
  | .spawnf d a b => some (wordOf 0xA8000001 [pl d 20, pl a 14, pl b 8])
  | .joinSelf => some (wordOf 0xAC000000 [])
  | .joinChild d a => some (wordOf 0xAC000000 [pl d 20, pl a 14])
  | .joinany d b => some (wordOf 0xAC000001 [pl d 20, pl b 8])
  | .grant d a b => some (wordOf 0xAC000002 [pl d 20, pl a 14, pl b 8])
  | .cut d a => some (wordOf 0xAC000003 [pl d 20, pl a 14])
  | .tstat d a => some (wordOf 0xAC000004 [pl d 20, pl a 14])
  | .barr r s => some (wordOf 0xB0000000 [pl r 12, pl s 3])
  | .arrive r => some (wordOf 0xB0000001 [pl r 12])
  | .waitb r => some (wordOf 0xB0000002 [pl r 12])
  | .arriveStage a p => some (wordOf 0xB0000003 [pl a 20, pl p 8])
  | .arriveStageClose a p => some (wordOf 0xB0000004 [pl a 20, pl p 8])
  | .waita d a b => some (wordOf 0xB4000000 [pl d 20, pl a 14, pl b 8])
  | .waitm d a b => some (wordOf 0xB4000001 [pl d 20, pl a 14, pl b 8])
  | .rel d s => some (wordOf 0xB8000000 [pl d 20, pl s 5])
  | .acq a s n => some (wordOf 0xB8000080 [pl a 14, pl s 5, pl n 0])
  | .strel d b s i => some (wordOf 0xB8000100 [pl d 20, pl b 10, pl s 5, pl i 0])
  | .ldacq d b s i => some (wordOf 0xB8000180 [pl d 20, pl b 10, pl s 5, pl i 0])
  | .fence d s => some (wordOf 0xB8000200 [pl d 20, pl s 5])
  | .acqall s => some (wordOf 0xB8000280 [pl s 5])
  | .resize d a b => some (wordOf 0xBC000000 [pl d 20, pl a 14, pl b 8])
  | .cont d a b c => some (wordOf 0xC0000000 [pl d 20, pl a 14, pl b 8, pl c 2])
  | .trap i => some (wordOf 0xC4000000 [pl i 0])
  | .fbp w => some (wordOf 0xC8000000 [pl w 0])
  | .rflt => some (wordOf 0xCC000000 [])
  | .mappg d a b => some (wordOf 0xCC000001 [pl d 20, pl a 14, pl b 8])
  | .ivpg a b => some (wordOf 0xCC000002 [pl a 14, pl b 8])
  | .halt => some (wordOf 0xCC000003 [])
  | .mxfork a => some (wordOf 0xD0000000 [pl a 14])
  | .rdv d => some (wordOf 0xD4000000 [pl d 20])
  | .wqry a b f => some (wordOf 0xD8000000 [pl a 14, pl b 8, pl f 0])
  | .coll a b => some (wordOf 0xDC000000 [pl a 14, pl b 8])
  | .repack r => some (wordOf 0xE0000000 [pl r 12])
  | _ => none

/-- The 96-bit word of a lane instruction, from Tables 17-7, 17-8 and 17-11. -/
def encodeLane : Instr → Option Nat
  | .lnop o => some (lrWord 0x000 o)
  | .iadd o => some (lrWord 0x001 o)
  | .isub o => some (lrWord 0x002 o)
  | .imul o => some (lrWord 0x003 o)
  | .imulh o => some (lrWord 0x004 o)
  | .imad o => some (lrWord 0x005 o)
  | .iabs o => some (lrWord 0x006 o)
  | .ineg o => some (lrWord 0x007 o)
  | .imin o => some (lrWord 0x008 o)
  | .imax o => some (lrWord 0x009 o)
  | .lAnd o => some (lrWord 0x00A o)
  | .lOr o => some (lrWord 0x00B o)
  | .lXor o => some (lrWord 0x00C o)
  | .andn o => some (lrWord 0x00D o)
  | .lNot o => some (lrWord 0x00E o)
  | .shl o => some (lrWord 0x00F o)
  | .shr o => some (lrWord 0x010 o)
  | .sra o => some (lrWord 0x011 o)
  | .rotl o => some (lrWord 0x012 o)
  | .bfe o => some (lrWord 0x013 o)
  | .bfi o => some (lrWord 0x014 o)
  | .popc o => some (lrWord 0x015 o)
  | .clz o => some (lrWord 0x016 o)
  | .brev o => some (lrWord 0x017 o)
  | .permb o => some (lrWord 0x018 o)
  | .icmp o => some (lrWord 0x019 o)
  | .sel o => some (lrWord 0x01A o)
  | .lMov o => some (lrWord 0x01B o)
  | .idiv o => some (lrWord 0x01C o)
  | .irem o => some (lrWord 0x01D o)
  | .shfl o => some (lrWord 0x080 o)
  | .shflup o => some (lrWord 0x081 o)
  | .shfldn o => some (lrWord 0x082 o)
  | .shflx o => some (lrWord 0x083 o)
  | .vote o => some (lrWord 0x084 o)
  | .redu o => some (lrWord 0x085 o)
  | .scan o => some (lrWord 0x086 o)
  | .elect o => some (lrWord 0x087 o)
  | .fadd o => some (lrWord 0x100 o)
  | .fsub o => some (lrWord 0x101 o)
  | .fmul o => some (lrWord 0x102 o)
  | .ffma o => some (lrWord 0x103 o)
  | .fmin o => some (lrWord 0x104 o)
  | .fmax o => some (lrWord 0x105 o)
  | .fcmp o => some (lrWord 0x106 o)
  | .fclass o => some (lrWord 0x107 o)
  | .frnd o => some (lrWord 0x108 o)
  | .frcp o => some (lrWord 0x109 o)
  | .frsq o => some (lrWord 0x10A o)
  | .fsqrt o => some (lrWord 0x10B o)
  | .fexp2 o => some (lrWord 0x10C o)
  | .flog2 o => some (lrWord 0x10D o)
  | .fsinpi o => some (lrWord 0x10E o)
  | .fcospi o => some (lrWord 0x10F o)
  | .fdiv o => some (lrWord 0x110 o)
  | .fscale o => some (lrWord 0x111 o)
  | .cvt o => some (lrWord 0x200 o)
  | .qsx o => some (lrWord 0x201 o)
  | .pksx o => some (lrWord 0x202 o)
  | .upsx o => some (lrWord 0x203 o)
  | .dqsx o => some (lrWord 0x204 o)
  | .outl o => some (lmWord 0x205 o)
  | .ld o => some (lmWord 0x300 o)
  | .st o => some (lmWord 0x301 o)
  | .ldc o => some (lmWord 0x302 o)
  | .stc o => some (lmWord 0x303 o)
  | .ldh o => some (lmWord 0x304 o)
  | .pref o => some (lmWord 0x305 o)
  | .atom o => some (lmWord 0x380 o)
  | .tcp o => some (lrWord 0x3C0 o)
  | _ => none

/-- The 128-bit matrix command, from Tables 22-7 and 22-8. -/
def encodeMx : Instr → Option Nat
  | .mldb f => some (mxWord 0x01 f)
  | .mstrm f => some (mxWord 0x02 f)
  | .mzero f => some (mxWord 0x03 f)
  | .mdrain f => some (mxWord 0x04 f)
  | .mloop f => some (mxWord 0x05 f)
  | .mrdv f => some (mxWord 0x06 f)
  | .mend f => some (mxWord 0x07 f)
  | _ => none

/-- The bits of an instruction and their number, or none for a device step, which has no encoding. -/
def encode (i : Instr) : Option (Nat × Nat) :=
  match encodeScalar i with
  | some w => some (32, w)
  | none =>
    match encodeLane i with
    | some w => some (96, w)
    | none => (encodeMx i).map (128, ·)

end Sys2Proof
end

