-- ==== Sys2Proof/Config.lean ====
section
/-! DEFINITION. What an implementation fixes and the free values (log entries 5 and 7): every constant here has no body, so nothing can be proved of its value. -/

namespace Sys2Proof.Config

/-- A value the manual leaves undefined, one for each index (R183, R434); log entry 5. -/
opaque freeWord : Nat → W32

/-- A choice that the device makes and the manual leaves to it, one for each index (which free task slot or train slot is taken); log entry 5. -/
opaque pick : Nat → Nat

/-- SHA-256 of a byte string (R56, R59, R60); the manual names the function and gives no definition of it; log entry 7. -/
opaque sha256 : List Byte → BitVec 256

/-- SLH-DSA verification under parameter set `set` (R59): key, message, signature; log entry 7. -/
opaque slhVerify : Nat → List Byte → List Byte → List Byte → Bool

/-- SLH-DSA signature by the device's attestation key (R60): set, message; log entry 7. -/
opaque slhSign : Nat → List Byte → List Byte

/-- The fused parameter set PSET, a code of Table 3-7 (R59); log entry 7. -/
opaque pset : Nat

/-- The fused hash of key slot 0 or 1, and its revoke fuse (R59); log entry 7. -/
opaque keyHash : Nat → BitVec 256
opaque keyRevoked : Nat → Bool

/-- The fused minimum SVN of a firmware stage (R59); log entry 7. -/
opaque minSvn : Nat → Nat

/-- The fused PEERGRP link group (03_host_and_trust.md, Ownership); log entry 7. -/
opaque peerGrp : Nat

/-- The fused DEC-TED threshold and nominal setpoint of a die in mV (Table 5-2); log entry 7. -/
opaque vdec : Nat → BitVec 16
opaque nominalMv : Nat → BitVec 16

/-- Fields of the attestation report that the part holds from manufacture or boot (Table 3-8): serial number, digest of the boot ROM, digest of fuses and PSET, attestation public key; log entry 7. -/
opaque serial : W64
opaque romHash : BitVec 256
opaque fuseBytes : List Byte
opaque attKey : List Byte

/-- The words of the attestation key's certificate (R60); log entry 7. -/
opaque attCert : Nat → W64

/-- The result of a transcendental operation that the interval arithmetic of Machine/Float.lean leaves undecided at its greatest precision (no operand is known to reach it), by format and operand bits; log entry 10. -/
opaque undecided : Nat → Nat → Nat

/-- The copy engine of this package that an entry of an endpoint table names, none for a rank of another package (R286): the manual does not say what an entry holds; log entry 74. -/
opaque localRank : Nat → Option (Fin 192)

end Sys2Proof.Config
end

