-- ==== Sys2Proof/Machine/Table.lean ====
section
/-! DEFINITION. Finite maps as plain data: a list of (key, value) pairs with strictly rising keys, so that equal maps are equal lists. `Table` holds entries that exist or not; `Sparse` is a total map that lists only the entries that differ from what an unlisted key reads as. -/

namespace Sys2Proof.Machine

/-- Entries that exist, by key, keys strictly rising. -/
abbrev Table (α : Type) := List (Nat × α)

/-- A total map by key: an unlisted key reads as the map's default. -/
abbrev Sparse (α : Type) := List (Nat × α)

/-- The entry of a key, if there is one. -/
def Table.find {α : Type} : Table α → Nat → Option α
  | [], _ => none
  | (k, v) :: m, key => if k = key then some v else Table.find m key

/-- The map with the entry of a key written. -/
def Table.put {α : Type} : Table α → Nat → α → Table α
  | [], key, v => [(key, v)]
  | (k, w) :: m, key, v =>
    if key < k then (key, v) :: (k, w) :: m else if k = key then (key, v) :: m else (k, w) :: Table.put m key v

/-- The map without the entry of a key. -/
def Table.drop {α : Type} : Table α → Nat → Table α
  | [], _ => []
  | (k, w) :: m, key => if k = key then m else (k, w) :: Table.drop m key

/-- Every key is above `lo`, and the keys rise strictly. -/
def Table.risesFrom {α : Type} : Nat → Table α → Bool
  | _, [] => true
  | lo, (k, _) :: m => lo ≤ k && Table.risesFrom (k + 1) m

/-- The canonical form: keys strictly rising. -/
def Table.sorted {α : Type} (m : Table α) : Bool := Table.risesFrom 0 m

/-- The value of a key; `d` is what an unlisted key reads as. -/
def Sparse.get {α : Type} (d : α) (m : Sparse α) (key : Nat) : α := (Table.find m key).getD d

/-- The map with the value of a key written; writing the default removes the entry. -/
def Sparse.set {α : Type} [DecidableEq α] (d : α) (m : Sparse α) (key : Nat) (v : α) : Sparse α :=
  if v = d then Table.drop m key else Table.put m key v

/-- The canonical form of a total map: keys strictly rising, and no entry equal to the default. -/
def Sparse.wf {α : Type} [DecidableEq α] (d : α) (m : Sparse α) : Bool := Table.sorted m && m.all (fun e => decide (e.2 ≠ d))

/-- The values of a table in key order. -/
def Table.vals {α : Type} (m : Table α) : List α := m.map Prod.snd

/-- The table with a function applied to the entry of a key, if there is one. -/
def Table.modify {α : Type} (m : Table α) (key : Nat) (f : α → α) : Table α :=
  match Table.find m key with
  | some v => Table.put m key (f v)
  | none => m

end Sys2Proof.Machine
end

