-- ==== Sys2Proof/Machine/Float.lean ====
section
/-! DEFINITION. Floating-point arithmetic (R253-R255, R381-R389): decoding to exact values, rounding once, and the operations, each as bits of its format with its XFLAGS. -/

namespace Sys2Proof.Machine

/-- A format of Table 14-2: exponent bits and fraction bits. -/
structure FFmt where
  eb : Nat
  fb : Nat
  deriving DecidableEq, Repr

def f16 : FFmt := { eb := 5, fb := 10 }
def bf16 : FFmt := { eb := 8, fb := 7 }
def f32 : FFmt := { eb := 8, fb := 23 }
def f64 : FFmt := { eb := 11, fb := 52 }

/-- The format of a floating type code (Table 14-1); a packed pair's is its element's. -/
def fmtOfTyp (t : Nat) : FFmt := if t = 8 ∨ t = 12 then f16 else if t = 9 ∨ t = 13 then bf16 else if t = 11 then f64 else f32

def FFmt.width (f : FFmt) : Nat := 1 + f.eb + f.fb
def FFmt.bias (f : FFmt) : Nat := 2 ^ (f.eb - 1) - 1
/-- The exponent of the least normal magnitude. -/
def FFmt.emin (f : FFmt) : Int := 1 - (f.bias : Int)
def FFmt.emax (f : FFmt) : Int := f.bias
def FFmt.signBit (f : FFmt) (neg : Bool) : Nat := if neg then 2 ^ (f.eb + f.fb) else 0
def FFmt.infinity (f : FFmt) (neg : Bool) : Nat := f.signBit neg + (2 ^ f.eb - 1) * 2 ^ f.fb
def FFmt.nan (f : FFmt) : Nat := (2 ^ f.eb - 1) * 2 ^ f.fb + 2 ^ (f.fb - 1)
def FFmt.largest (f : FFmt) (neg : Bool) : Nat := f.infinity neg - 1

/-- An exact value: a NaN (signalling or quiet), an infinity, a zero, or (-1)^neg m 2^e with m above 0. -/
inductive FVal where
  | nan (signalling : Bool)
  | inf (neg : Bool)
  | zero (neg : Bool)
  | fin (neg : Bool) (m : Nat) (e : Int)
  deriving DecidableEq, Repr

/-- The value of a bit pattern (R253). -/
def FFmt.decode (f : FFmt) (x : Nat) : FVal :=
  let neg := decide (x / 2 ^ (f.eb + f.fb) % 2 = 1)
  let ex := x / 2 ^ f.fb % 2 ^ f.eb
  let fr := x % 2 ^ f.fb
  if ex = 2 ^ f.eb - 1 then (if fr = 0 then .inf neg else .nan (decide (fr < 2 ^ (f.fb - 1))))
  else if ex = 0 then (if fr = 0 then .zero neg else .fin neg fr (f.emin - f.fb))
  else .fin neg (fr + 2 ^ f.fb) ((ex : Int) - f.bias - f.fb)

/-- Whether a bit pattern is a subnormal. -/
def FFmt.subnormal (f : FFmt) (x : Nat) : Bool := decide (x / 2 ^ f.fb % 2 ^ f.eb = 0) && decide (x % 2 ^ f.fb ≠ 0)

/-! ### Flags as a number (Table 14-4) -/
def gNV : Nat := 1
def gDZ : Nat := 2
def gOF : Nat := 4
def gUF : Nat := 8
def gNX : Nat := 16
def gSAT : Nat := 32

/-- A result: its bits and its flags. -/
abbrev FRes := Nat × Nat

/-! ### Rounding (R254) -/

/-- Bit length. -/
def blen (m : Nat) : Nat := if m = 0 then 0 else Nat.log2 m + 1

/-- m 2^(-d) rounded to an integer; `sticky` says the value lies strictly between m and m + 1. Answers the integer and whether it is inexact. -/
def roundShift (mode : Nat) (neg : Bool) (m : Nat) (d : Int) (sticky : Bool) : Nat × Bool :=
  if d ≤ 0 then (m * 2 ^ d.natAbs, sticky)
  else
    let k := d.toNat
    let n := m / 2 ^ k
    let r := m % 2 ^ k
    let half := 2 ^ (k - 1)
    let inexact := decide (r ≠ 0) || sticky
    let up := match mode with
      | 0 => decide (half < r) || (decide (r = half) && (sticky || decide (n % 2 = 1)))
      | 1 => false
      | 2 => neg && inexact
      | _ => !neg && inexact
    (if up then n + 1 else n, inexact)

/-- The overflow result of a mode (R254). -/
def FFmt.overflow (f : FFmt) (mode : Nat) (neg : Bool) : Nat :=
  if mode = 0 ∨ (mode = 2 ∧ neg) ∨ (mode = 3 ∧ !neg) then f.infinity neg else f.largest neg

/-- Whether a value is tiny (R254): rounded to the format's precision with an unbounded exponent range it lies below the least normal magnitude. -/
def FFmt.tiny (f : FFmt) (mode : Nat) (neg : Bool) (m : Nat) (e : Int) (sticky : Bool) : Bool :=
  let ex : Int := (blen m : Int) - 1 + e
  decide (ex < f.emin) && decide (m = 0 ∨ ex < f.emin - 1 ∨ (roundShift mode neg m (ex - f.fb - e) sticky).1 < 2 ^ (f.fb + 1))

/-- Round(v, F) (R254): (-1)^neg m 2^e, or a value strictly between m and m + 1 units when `sticky`, rounded once. A tiny result sets UF when it is inexact, as IEEE 754 has it; the manual does not say whether an exact subnormal sets UF (log entry 70). -/
def FFmt.round (f : FFmt) (mode : Nat) (ftz : Bool) (neg : Bool) (m : Nat) (e : Int) (sticky : Bool) : FRes :=
  if m = 0 ∧ !sticky then (f.signBit neg, 0)
  else
    let ex : Int := (blen m : Int) - 1 + e
    let tiny := f.tiny mode neg m e sticky
    let q : Int := max (ex - f.fb) (f.emin - f.fb)
    let r := roundShift mode neg m (q - e) sticky
    if tiny ∧ ftz then (f.signBit neg, gUF + gNX)
    else
      let n := if r.1 = 2 ^ (f.fb + 1) then 2 ^ f.fb else r.1
      let q := if r.1 = 2 ^ (f.fb + 1) then q + 1 else q
      let nx := if r.2 then gNX else 0
      if f.emax < q + f.fb ∧ 2 ^ f.fb ≤ n then (f.overflow mode neg, gOF + gNX)
      else
        let uf := if tiny ∧ r.2 then gUF else 0
        if n < 2 ^ f.fb then (f.signBit neg + n, nx + uf)
        else (f.signBit neg + (q + f.fb + f.bias).toNat * 2 ^ f.fb + (n - 2 ^ f.fb), nx + uf)

/-- The bits of a value rounded. -/
def FFmt.ofVal (f : FFmt) (mode : Nat) (ftz : Bool) : FVal → FRes
  | .nan s => (f.nan, if s then gNV else 0)
  | .inf n => (f.infinity n, 0)
  | .zero n => (f.signBit n, 0)
  | .fin n m e => f.round mode ftz n m e false

/-- R255: a floating result with sat = 1 is clamped to +0.0 to +1.0. -/
def FFmt.clamp (f : FFmt) (x : Nat) : Nat :=
  match f.decode x with
  | .nan _ => 0
  | .zero _ => 0
  | .inf n => if n then 0 else f.bias * 2 ^ f.fb
  | .fin n _ _ => if n then 0 else if f.bias * 2 ^ f.fb < x then f.bias * 2 ^ f.fb else x

/-- Operand forming (R378): ftz, then abs, then neg. -/
def FFmt.operand (f : FFmt) (x : Nat) (ftz ab ng : Bool) : Nat :=
  let x := if ftz && f.subnormal x then x / 2 ^ (f.eb + f.fb) * 2 ^ (f.eb + f.fb) else x
  let x := if ab then x % 2 ^ (f.eb + f.fb) else x
  if ng then (x ^^^ 2 ^ (f.eb + f.fb)) else x

def FVal.isNan : FVal → Bool
  | .nan _ => true
  | _ => false
def FVal.isSig : FVal → Bool
  | .nan s => s
  | _ => false
def FVal.neg : FVal → Bool
  | .nan _ => false
  | .inf n => n
  | .zero n => n
  | .fin n _ _ => n
/-- The value with its sign inverted. -/
def FVal.negate : FVal → FVal
  | .nan s => .nan s
  | .inf n => .inf (!n)
  | .zero n => .zero (!n)
  | .fin n m e => .fin (!n) m e

/-- A signed integer at a scale, rounded; an exact zero takes the sign of R382. -/
def FFmt.ofInt (f : FFmt) (mode : Nat) (ftz : Bool) (v : Int) (e : Int) : FRes :=
  if v = 0 then (f.signBit (mode = 2), 0) else f.round mode ftz (decide (v < 0)) v.natAbs e false

/-- (-1)^neg m as an integer at scale `e0`, from scale `e`. -/
def scaled (neg : Bool) (m : Nat) (e e0 : Int) : Int := (if neg then -1 else 1) * ((m * 2 ^ (e - e0).toNat : Nat) : Int)

/-- a + b (R381, R382). -/
def FFmt.add (f : FFmt) (mode : Nat) (ftz : Bool) (a b : FVal) : FRes :=
  if a.isNan || b.isNan then (f.nan, if a.isSig || b.isSig then gNV else 0)
  else match a, b with
    | .inf x, .inf y => if x = y then (f.infinity x, 0) else (f.nan, gNV)
    | .inf x, _ => (f.infinity x, 0)
    | _, .inf y => (f.infinity y, 0)
    | .zero x, .zero y => (f.signBit (if x = y then x else mode = 2), 0)
    | .zero _, v => f.ofVal mode ftz v
    | v, .zero _ => f.ofVal mode ftz v
    | .fin x m e, .fin y n g => f.ofInt mode ftz (scaled x m e (min e g) + scaled y n g (min e g)) (min e g)
    | _, _ => (f.nan, 0)

/-- a b (R381, R382). -/
def FFmt.mul (f : FFmt) (mode : Nat) (ftz : Bool) (a b : FVal) : FRes :=
  if a.isNan || b.isNan then (f.nan, if a.isSig || b.isSig then gNV else 0)
  else match a, b with
    | .inf _, .zero _ => (f.nan, gNV)
    | .zero _, .inf _ => (f.nan, gNV)
    | .fin x m e, .fin y n g => f.round mode ftz (x != y) (m * n) (e + g) false
    | .inf x, v => (f.infinity (x != v.neg), 0)
    | v, .inf y => (f.infinity (v.neg != y), 0)
    | u, v => (f.signBit (u.neg != v.neg), 0)

/-- The exact product of two values, neither a NaN nor infinity times zero. -/
def FVal.times : FVal → FVal → FVal
  | .fin x m e, .fin y n g => .fin (x != y) (m * n) (e + g)
  | .inf x, v => .inf (x != v.neg)
  | v, .inf y => .inf (v.neg != y)
  | u, v => .zero (u.neg != v.neg)

/-- a b + c with one rounding (R381, R382). -/
def FFmt.fma (f : FFmt) (mode : Nat) (ftz : Bool) (a b c : FVal) : FRes :=
  let bad := match a, b with
    | .inf _, .zero _ => true
    | .zero _, .inf _ => true
    | _, _ => false
  if bad then (f.nan, gNV)
  else if a.isNan || b.isNan || c.isNan then (f.nan, if a.isSig || b.isSig || c.isSig then gNV else 0)
  else f.add mode ftz (a.times b) c

/-- a / b (R388, R389). -/
def FFmt.div (f : FFmt) (mode : Nat) (ftz : Bool) (a b : FVal) : FRes :=
  if a.isNan || b.isNan then (f.nan, if a.isSig || b.isSig then gNV else 0)
  else
    let sg := a.neg != b.neg
    match a, b with
    | .zero _, .zero _ => (f.nan, gNV)
    | .inf _, .inf _ => (f.nan, gNV)
    | .inf _, _ => (f.infinity sg, 0)
    | _, .inf _ => (f.signBit sg, 0)
    | .zero _, _ => (f.signBit sg, 0)
    | _, .zero _ => (f.infinity sg, gDZ)
    | .fin _ m e, .fin _ n g =>
      let k := 2 * f.fb + 8 + blen n
      let t := m * 2 ^ k
      f.round mode ftz sg (t / n) (e - g - k) (decide (t % n ≠ 0))
    | _, _ => (f.nan, 0)

/-- The integer square root, by bits from 2^i down. -/
def isqrtFrom (n : Nat) : Nat → Nat → Nat
  | 0, r => r
  | i + 1, r => if (r + 2 ^ i) * (r + 2 ^ i) ≤ n then isqrtFrom n i (r + 2 ^ i) else isqrtFrom n i r
def isqrt (n : Nat) : Nat := isqrtFrom n (blen n / 2 + 1) 0

/-- The square root (R388, R389). -/
def FFmt.sqrt (f : FFmt) (mode : Nat) (ftz : Bool) : FVal → FRes
  | .nan s => (f.nan, if s then gNV else 0)
  | .zero n => (f.signBit n, 0)
  | .inf n => if n then (f.nan, gNV) else (f.infinity false, 0)
  | .fin n m e =>
    if n then (f.nan, gNV)
    else
      let odd := decide (e % 2 ≠ 0)
      let m := if odd then 2 * m else m
      let e := if odd then e - 1 else e
      let k := f.fb + 4
      let r := isqrt (m * 2 ^ (2 * k))
      f.round mode ftz false r (e / 2 - k) (decide (r * r ≠ m * 2 ^ (2 * k)))

/-- The reciprocal square root (R388, R389). -/
def FFmt.rsqrt (f : FFmt) (mode : Nat) (ftz : Bool) : FVal → FRes
  | .nan s => (f.nan, if s then gNV else 0)
  | .zero n => (f.infinity n, gDZ)
  | .inf n => if n then (f.nan, gNV) else (f.signBit false, 0)
  | .fin n m e =>
    if n then (f.nan, gNV)
    else
      let odd := decide (e % 2 ≠ 0)
      let m := if odd then 2 * m else m
      let e := if odd then e - 1 else e
      let k := f.fb + 4 + blen m
      let r := isqrt (2 ^ (2 * k) / m)
      f.round mode ftz false r (-(e / 2) - k) (decide (r * r * m ≠ 2 ^ (2 * k)))

/-- The reciprocal (R388, R389). -/
def FFmt.rcp (f : FFmt) (mode : Nat) (ftz : Bool) (a : FVal) : FRes := f.div mode ftz (.fin false 1 0) a

/-! ### Transcendental operations (R388): fixed-point approximations with an error below 4096 units, and one rounding -/

/-- The sum over k of 2^P / (n^(2k+1) (2k+1)), with signs alternating if `alt`. `t` is 2^P / n^(2k+1). -/
def oddSeries (n2 : Nat) (alt : Bool) : Nat → Nat → Nat → Int → Int
  | 0, _, _, acc => acc
  | fuel + 1, k, t, acc =>
    if t = 0 then acc
    else oddSeries n2 alt fuel (k + 1) (t / n2) (if alt && decide (k % 2 = 1) then acc - (t / (2 * k + 1) : Nat) else acc + (t / (2 * k + 1) : Nat))

/-- ln 2 at 2^P: 2 atanh(1/3). -/
def ln2At (p : Nat) : Nat := (2 * oddSeries 9 false (p + 1) 0 (2 ^ p / 3) 0).toNat
/-- pi at 2^P: 16 atan(1/5) - 4 atan(1/239) (Machin). -/
def piAt (p : Nat) : Nat := (16 * oddSeries 25 true (p + 1) 0 (2 ^ p / 5) 0 - 4 * oddSeries 57121 true (p + 1) 0 (2 ^ p / 239) 0).toNat

/-- exp(x / 2^P) at 2^P by its Taylor series; `t` is the k-th term. -/
def expSeries (p x : Nat) : Nat → Nat → Nat → Nat → Nat
  | 0, _, _, acc => acc
  | fuel + 1, k, t, acc => if t = 0 then acc else expSeries p x fuel (k + 1) (t * x / 2 ^ p / (k + 1)) (acc + t)

/-- sin(y / 2^P) at 2^P by its Taylor series; `t` is the term of order 2k + 1, `y2` the square of y at 2^P. -/
def sinSeries (p y2 : Nat) : Nat → Nat → Nat → Int → Int
  | 0, _, _, acc => acc
  | fuel + 1, k, t, acc =>
    if t = 0 then acc
    else sinSeries p y2 fuel (k + 1) (t * y2 / 2 ^ p / ((2 * k + 2) * (2 * k + 3))) (if k % 2 = 1 then acc - (t : Int) else acc + (t : Int))

/-- ln(x / 2^P) at 2^P for x in [2^P, 2^(P+1)): 2 atanh((x - 1) / (x + 1)); `z2` is the square of the ratio at 2^P. -/
def lnSeries (p z2 : Nat) : Nat → Nat → Nat → Nat → Nat
  | 0, _, _, acc => acc
  | fuel + 1, k, t, acc => if t = 0 then acc else lnSeries p z2 fuel (k + 1) (t * z2 / 2 ^ p) (acc + t / (2 * k + 1))
def lnAt (p x : Nat) : Nat :=
  let z := (x - 2 ^ p) * 2 ^ p / (x + 2 ^ p)
  2 * lnSeries p (z * z / 2 ^ p) (p + 1) 0 z 0

/-- The rounding of an irrational magnitude known to lie within 4096 units of `v` at scale 2^(-P), if that decides it: both ends of the range round alike, so the value does too, and it is inexact. -/
def FFmt.decided (f : FFmt) (mode : Nat) (ftz neg : Bool) (v p : Nat) (shift : Int) : Option FRes :=
  let lo := f.round mode ftz neg (v - 4096) (shift - p) true
  if lo = f.round mode ftz neg (v + 4096) (shift - p) true ∧ 4096 ≤ v then some lo else none

/-- The first precision that decides, from `p` doubling. -/
def FFmt.ziv (f : FFmt) (mode : Nat) (ftz neg : Bool) (approx : Nat → Nat) (shift : Int) (tag : Nat) : Nat → Nat → FRes
  | 0, _ => (Config.undecided f.fb tag, gNX)
  | fuel + 1, p =>
    match f.decided mode ftz neg (approx p) p shift with
    | some r => r
    | none => f.ziv mode ftz neg approx shift tag fuel (2 * p)

/-- The working precision of a format. -/
def FFmt.prec (f : FFmt) : Nat := 4 * f.fb + 64

/-- 2^a (R388, R389). -/
def FFmt.exp2 (f : FFmt) (mode : Nat) (ftz : Bool) (x : Nat) : FVal → FRes
  | .nan s => (f.nan, if s then gNV else 0)
  | .zero _ => (f.bias * 2 ^ f.fb, 0)
  | .inf n => if n then (f.signBit false, 0) else (f.infinity false, 0)
  | .fin n m e =>
    if 20 ≤ (blen m : Int) + e then (if n then f.round mode ftz false 1 (-20000) true else f.round mode ftz false 1 20000 true)
    else if 0 ≤ e then
      let i : Int := scaled n m e 0
      f.round mode ftz false 1 i false
    else
      let k := e.natAbs
      if (blen m : Int) + e < -(2 * f.fb + 4 : Int) then
        (if n then f.round mode ftz false (2 ^ (2 * f.fb) - 1) (-(2 * f.fb : Int)) true else f.round mode ftz false (2 ^ (2 * f.fb)) (-(2 * f.fb : Int)) true)
      else
        let v : Int := (if n then -1 else 1) * (m : Int)
        let i : Int := v / (2 ^ k : Nat)
        let fr := (v % (2 ^ k : Nat)).toNat
        if fr = 0 then f.round mode ftz false 1 i false
        else f.ziv mode ftz false (fun p => expSeries p (fr * ln2At p / 2 ^ k) (p + 1) 0 (2 ^ p) 0) i x 4 f.prec

/-- log2 a (R388, R389). -/
def FFmt.log2 (f : FFmt) (mode : Nat) (ftz : Bool) (x : Nat) : FVal → FRes
  | .nan s => (f.nan, if s then gNV else 0)
  | .zero _ => (f.infinity true, gDZ)
  | .inf n => if n then (f.nan, gNV) else (f.infinity false, 0)
  | .fin n m e =>
    if n then (f.nan, gNV)
    else
      let k := blen m - 1
      let ex : Int := e + k
      if m = 2 ^ k then (if ex = 0 then (f.signBit false, 0) else f.round mode ftz (decide (ex < 0)) ex.natAbs 0 false)
      else
        let lg := fun p => lnAt p (m * 2 ^ p / 2 ^ k) * 2 ^ p / ln2At p
        if 0 ≤ ex then f.ziv mode ftz false (fun p => ex.toNat * 2 ^ p + lg p) 0 x 4 f.prec
        else f.ziv mode ftz true (fun p => ex.natAbs * 2 ^ p - lg p) 0 x 4 f.prec

/-- sin(pi r / 2^k) for 0 < r / 2^k <= 1/2, rounded with a sign (the value is irrational but at 1/2, where it is 1). -/
def FFmt.sinPi (f : FFmt) (mode : Nat) (ftz neg : Bool) (r k tag : Nat) : FRes :=
  if 2 * r = 2 ^ k then f.round mode ftz neg 1 0 false
  else
    let approx := fun p =>
      let y := piAt p * r / 2 ^ k
      (sinSeries p (y * y / 2 ^ p) (p + 1) 0 y 0).toNat
    f.ziv mode ftz neg approx 0 tag 4 (f.prec + (k + 1 - blen r))

/-- sin(pi a) (R388, R389). -/
def FFmt.sinpi (f : FFmt) (mode : Nat) (ftz : Bool) (x : Nat) : FVal → FRes
  | .nan s => (f.nan, if s then gNV else 0)
  | .zero n => (f.signBit n, 0)
  | .inf _ => (f.nan, gNV)
  | .fin n m e =>
    if 0 ≤ e then (f.signBit n, 0)
    else
      let k := e.natAbs
      let r := m % 2 ^ (k + 1)
      if r % 2 ^ k = 0 then (f.signBit n, 0)
      else
        let half := decide (2 ^ k < r)
        let r := r % 2 ^ k
        let r := if 2 ^ k < 2 * r then 2 ^ k - r else r
        f.sinPi mode ftz (n != half) r k x

/-- cos(pi a) (R388, R389). -/
def FFmt.cospi (f : FFmt) (mode : Nat) (ftz : Bool) (x : Nat) : FVal → FRes
  | .nan s => (f.nan, if s then gNV else 0)
  | .zero _ => (f.bias * 2 ^ f.fb, 0)
  | .inf _ => (f.nan, gNV)
  | .fin _ m e =>
    if 0 ≤ e then f.round mode ftz (decide (m * 2 ^ e.toNat % 2 = 1)) 1 0 false
    else
      let k := e.natAbs
      if (blen m : Int) + e < -(f.fb + 2 : Int) then f.round mode ftz false (2 ^ (2 * f.fb) - 1) (-(2 * f.fb : Int)) true
      else
        let r := m % 2 ^ (k + 1)
        let r := if 2 ^ k < r then 2 ^ (k + 1) - r else r
        if r = 0 then f.round mode ftz false 1 0 false
        else if r = 2 ^ k then f.round mode ftz true 1 0 false
        else if 2 * r = 2 ^ k then (f.signBit false, 0)
        else
          let neg := decide (2 ^ k < 2 * r)
          let d := if neg then 2 * r - 2 ^ k else 2 ^ k - 2 * r
          f.sinPi mode ftz neg d (k + 1) x

/-! ### Comparison, integral rounding, scaling -/

/-- The order of two values that are not NaN, with -0 below +0 (R383): -1, 0 or 1. -/
def FVal.order (a b : FVal) : Int :=
  let rank := fun (v : FVal) => match v with
    | .inf n => if n then (-2 : Int) else 2
    | .zero _ => 0
    | .fin n _ _ => if n then -1 else 1
    | .nan _ => 0
  if rank a < rank b then -1 else if rank b < rank a then 1
  else match a, b with
    | .fin x m e, .fin _ n g =>
      let u := scaled x m e (min e g)
      let v := scaled x n g (min e g)
      if u < v then -1 else if v < u then 1 else 0
    | .zero x, .zero y => if x = y then 0 else if x then -1 else 1
    | _, _ => 0

/-- The order with equal zeros (R384). -/
def FVal.cmp (a b : FVal) : Int := match a, b with
  | .zero _, .zero _ => 0
  | _, _ => a.order b

/-- FMIN or FMAX (R383). -/
def FFmt.minmax (f : FFmt) (greater : Bool) (x y : Nat) : FRes :=
  let a := f.decode x
  let b := f.decode y
  let g := if a.isSig || b.isSig then gNV else 0
  if a.isNan && b.isNan then (f.nan, g)
  else if a.isNan then (y, g)
  else if b.isNan then (x, g)
  else if a.order b ≤ 0 then ((if greater then y else x), g) else ((if greater then x else y), g)

/-- The condition of FCMP (Table 20-2) and its NV. -/
def FFmt.compare (f : FFmt) (cc x y : Nat) : Bool × Nat :=
  let a := f.decode x
  let b := f.decode y
  let un := a.isNan || b.isNan
  let g := if a.isSig || b.isSig || (un && decide (2 ≤ cc ∧ cc ≤ 5)) then gNV else 0
  let r := match cc with
    | 0 => !un && decide (a.cmp b = 0)
    | 1 => un || decide (a.cmp b ≠ 0)
    | 2 => !un && decide (a.cmp b < 0)
    | 3 => !un && decide (a.cmp b ≤ 0)
    | 4 => !un && decide (0 < a.cmp b)
    | 5 => !un && decide (0 ≤ a.cmp b)
    | 6 => un
    | _ => !un
  (r, g)

/-- The class mask of FCLASS (Table 20-3). -/
def FFmt.classify (f : FFmt) (x : Nat) : Nat :=
  match f.decode x with
  | .nan s => if s then 256 else 512
  | .inf n => if n then 1 else 128
  | .zero n => if n then 8 else 16
  | .fin n _ _ => if f.subnormal x then (if n then 4 else 32) else (if n then 2 else 64)

/-- Rounding to an integral value (R386). -/
def FFmt.integral (f : FFmt) (mode : Nat) : FVal → FRes
  | .nan s => (f.nan, if s then gNV else 0)
  | .inf n => (f.infinity n, 0)
  | .zero n => (f.signBit n, 0)
  | .fin n m e =>
    let r := (roundShift mode n m (-e) false).1
    if 0 ≤ e then ((f.round 1 false n m e false).1, 0) else if r = 0 then (f.signBit n, 0) else ((f.round 1 false n r 0 false).1, 0)

/-- a 2^B (R387): a tiny result sets UF, exact or not. -/
def FFmt.scale (f : FFmt) (mode : Nat) (ftz : Bool) (b : Int) : FVal → FRes
  | .nan s => (f.nan, if s then gNV else 0)
  | .inf n => (f.infinity n, 0)
  | .zero n => (f.signBit n, 0)
  | .fin n m e =>
    let k : Int := e + max (-5000) (min 5000 b)
    let r := f.round mode ftz n m k false
    (r.1, r.2 ||| (if f.tiny mode n m k false then gUF else 0))

/-- Conversion to an integer of `n` bits (R391): its bits and flags. -/
def toInteger (n : Nat) (signed : Bool) (mode : Nat) (v : FVal) : FRes :=
  let lo : Int := if signed then -(2 ^ (n - 1) : Nat) else 0
  let hi : Int := if signed then (2 ^ (n - 1) : Nat) - 1 else (2 ^ n : Nat) - 1
  let bitsOf := fun (i : Int) => (i % (2 ^ n : Nat)).toNat
  match v with
  | .nan _ => (0, gNV)
  | .inf s => (bitsOf (if s then lo else hi), gNV)
  | .zero _ => (0, 0)
  | .fin s m e =>
    if 70 ≤ (blen m : Int) + e then (bitsOf (if s then lo else hi), gNV)
    else
      let r := roundShift mode s m (-e) false
      let y : Int := if s then -(r.1 : Int) else r.1
      if y < lo then (bitsOf lo, gNV) else if hi < y then (bitsOf hi, gNV) else (bitsOf y, if r.2 then gNX else 0)

end Sys2Proof.Machine
end

