-- ==== Sys2Proof/Machine/State.lean ====
section
/-! DEFINITION. The state of the package: everything the manual gives the machine, as plain data, and the model's own fields (the agenda, the time inside one nanosecond, the free-value counter), which INVENTORY.md lists as such. Maps list only what differs from the reset contents. -/

namespace Sys2Proof.Machine

/-- The portion whose turn it is: core, train slot 0-31, portion 0-3 (R142, R167). -/
structure Focus where
  core : Nat := 0
  slot : Nat := 0
  portion : Nat := 0
  deriving DecidableEq, Repr

/-- An error in a code segment (Table 5-1, R79-R85; log entry 61): a scratchpad word, a granule in a slice or in memory, the data or the header of a log record, granules of a view or stash sector, an operand register of lanes of the focus portion, one of its scalar registers, a B or accumulator word of a pair, a corrected error of a slot, an error of a shared structure. -/
inductive Upset where
  | scratch (core task off : Nat)
  | granule (pa : Nat)
  | recordData (log pos : Nat)
  | recordHeader (log pos : Nat)
  | sector (core key : Nat) (stash : Bool) (grans : BitVec 4)
  | laneOperand (f : Focus) (lanes : BitVec 32)
  | scalarOperand (f : Focus)
  | bank (leader column : Nat)
  | corrected (slot : Nat)
  | shared (seg unit : Nat)
  deriving DecidableEq, Repr

/-- One move of one agent (log entry 1): a scalar or lane issue of a portion, a command of a pair's matrix program, a device step with its operands, an eviction of a view line or of a cached translation, an error in a code segment, or a main-clock cycle in which nothing moves. -/
inductive Turn where
  | scalar (f : Focus)
  | lane (f : Focus)
  | matrix (leader : Nat)
  | device (i : Instr) (a : EvArgs)
  | evict (core key : Nat)
  | forget (core key : Nat)
  | upset (u : Upset)
  | idle
  deriving DecidableEq, Repr

/-! ### Memory accesses in flight -/

/-- What a memory instruction does with each element (R410-R415). -/
inductive AccOp where
  | load
  | loadHome
  | consume
  | store
  | storeCounted (n : Nat)
  | prefetch
  | atomic (aop : Nat)
  | append
  deriving DecidableEq, Repr

/-- One element of one lane: its number in the access, its address (none: dropped or zeroed by the bounds policy, R187), the bytes a store or atomic brings, and the compare value of cas. -/
structure Elem where
  lane : Nat
  j : Nat
  va : Option Nat
  val : Nat := 0
  cmp : Nat := 0
  deriving DecidableEq, Repr

/-- Where a result lands. -/
inductive Dest where
  | nowhere
  | scalar (d : Nat)
  | lanes (d : Nat)
  | buffer (d : Nat)
  deriving DecidableEq, Repr

/-- An access after address formation (R186): what R160 replays for the lanes that faulted. `keep` is false under the hint .h3, and `hint` its number (R322). -/
structure Acc where
  op : AccOp
  scalar : Bool
  brec : BitVec 256
  dest : Dest
  size : Nat
  width : Nat
  elems : List Elem
  flag : Option Nat := none
  scope : Nat := 0
  acq : Bool := false
  rel : Bool := false
  cost : Nat := 0
  keep : Bool := true
  hint : Nat := 0
  pc : W64 := 0
  word : Option Nat := none
  deriving DecidableEq, Repr

/-- A lane's fault: its code (Table 9-4) and its faulting address (R161). -/
structure LaneFault where
  lane : Nat
  code : Nat
  va : Nat
  deriving DecidableEq, Repr

/-- A long-latency operation outstanding (R171): the bytes received so far, element by element, when it began, what its landing does, the first poisoned granule that it met, and whether an ordering instruction of its portion has issued since, so that it counts as earlier for both streams (R402). -/
structure Pend where
  portion : Nat
  flag : Option Nat
  dest : Dest
  regs : Nat
  size : Nat
  width : Nat
  lanes : W32
  began : Nat := 0
  out : List (Nat × Nat × Nat) := []
  acc : Option Acc := none
  faults : List LaneFault := []
  killed : W32 := 0
  poison : Nat := 0
  xflags : W32 := 0
  before : Bool := false
  deriving DecidableEq, Repr

/-- An access on its way to a home slice (R223, R225), by identifier: `elems` with their physical addresses, whether the main line has delivered it (R24), when it was sent (R26), its number in the order of arrival, and whether a migration brought it to its home (R203 step 6). -/
structure HomeOp where
  core : Nat
  slot : Nat
  task : Nat
  part : Nat
  pend : Nat
  op : AccOp
  size : Nat
  home : Nat
  elems : List (Elem × Nat)
  cls : Nat
  deliv : Bool := false
  sent : Nat := 0
  came : Nat := 0
  replayed : Bool := false
  deriving DecidableEq, Repr

/-- Who waits for the answer of a request to a link group or the host link (R47, R53). An atomic names the sector of its element too, whose line its answer invalidates (R223 step 4); a CXL port's read-modify-write holds what it read or writes for, and who is answered at its end (R35). -/
inductive OutFor where
  | nobody
  | sector (core key : Nat) (stash : Bool)
  | element (core slot pend lane j : Nat)
  | atomic (core slot pend lane j key : Nat)
  | fold (log pos : Nat)
  | releaseRead (log pos slot train task stc : Nat)
  | pull (die line : Nat)
  | far (owner pa : Nat)
  | contribution (job : Nat)
  | cxlRead (aop size v c : Nat) (back : OutFor)
  | cxlWrite (v : Nat) (back : OutFor)
  deriving DecidableEq, Repr

/-- A request sent to a link group (`group`) or the host link (`none`): for the host link the window it goes through, the bus address and the requester (R52); for one that crosses the main line the agent it comes from, until it is delivered (R31); `pois` marks poisoned data (R82), and `mark` is the tail of the link-port log of its line when it reached the port (log entry 73). -/
structure Outbound where
  group : Option Nat
  pa : Nat
  len : Nat
  write : Bool
  aop : Option Nat := none
  data : List Byte := []
  reply : OutFor := .nobody
  sent : Nat := 0
  held : Bool := false
  win : Option Nat := none
  bus : Nat := 0
  func : Nat := 0
  src : Nat := 0
  deliv : Bool := true
  pois : Bool := false
  mark : Nat := 0
  deriving DecidableEq, Repr

/-- A record or descriptor that an agent reads through a link or host window (R425): who asked, what for, and the answer once it has come (`code` is a fault's). One of length 0 at a stack address is a message of the agent's to the home of that address on another die, answered once the main line has delivered it (R24), with its place among the agent's messages and the time it was sent (R25, R26). -/
structure Far where
  owner : Nat
  pa : Nat
  len : Nat
  data : Option (List Byte) := none
  code : Nat := 0
  sent : Nat := 0
  msg : Nat := 0
  deriving DecidableEq, Repr

/-- A message that left the package or a report to a master: posted writes on the host link (window, physical and bus address, requester, R52), answers to inbound requests and poisoned completions (R85), interrupts, contributions of collective jobs (their groups, the receiver's endpoint entry, the sender's rank), a thermal event told to the owner (R29). -/
inductive Sent where
  | posted (win : Option Nat) (pa bus func : Nat) (data : List Byte) (pois : Bool)
  | answer (id : Nat) (ok : Bool) (data : List Byte)
  | poisoned (id : Nat)
  | msix (slot vector : Nat)
  | contribution (groups endpoint rank : Nat) (data : List Byte) (pois : Bool)
  | thermal (die owner : Nat)
  deriving DecidableEq, Repr

/-- An inbound request waiting for its home (R46, R51), for the partition slot it acts for; one whose home lies on another die waits for the main line first (R24); `free` marks a write with the Relaxed Ordering attribute (R460). -/
structure Inbound where
  group : Option Nat
  master : Nat
  slot : Nat := 0
  acc : Access
  at_ : Nat
  deliv : Bool := false
  free : Bool := false
  deriving DecidableEq, Repr

/-- A write of the device to a home that takes no access for now (R90): the address, the bytes, and whether they are a number to add. -/
structure Post where
  pa : Nat
  data : List Byte
  add : Bool := false
  deriving DecidableEq, Repr

/-! ### Logs -/

/-- A log record (Table 12-2) with what the hardware keeps beside it: its position, its publish stamp once published, the physical address of its granule (none: to be translated at publication, R191), its strict bit (R198), whether it has left the ring (R232), reached its home (R25), or was sent across a link group (R215), in a link-port log the log and position it came from, its VOID bit (R237), and its place among the messages of its agent with the time it was sent (R25, R26). -/
structure Rec where
  pos : Nat
  slot : Nat
  count : Nat := 0
  cntd : Bool := false
  pois : Bool := false
  train : Nat := 0
  task : Nat := 0
  mask : W32
  gran : Nat
  data : List Byte
  strict : Bool := false
  pa : Option Nat
  stamp : Option Nat := none
  spilled : Bool := false
  deliv : Bool := false
  far : Bool := false
  stc : Nat := 0
  origin : Option (Nat × Nat) := none
  void : Bool := false
  msg : Nat := 0
  sent : Nat := 0
  deriving DecidableEq, Repr

/-- A log (R208): its marks, the records not yet folded in position order, its summaries by block (R220), its last stamp (R213) and its publications (stamp, tail) newest first (R222); the positions sent across a link group and not acknowledged, and those accepted by the host port with no zero-length read completed (R215); the portions whose releases have not completed, in order (R215). -/
structure Log where
  tail : Nat := 0
  pub : Nat := 0
  recs : List Rec := []
  sums : Table (BitVec 256) := []
  last : Nat := 0
  pubs : List (Nat × Nat) := []
  far : List Nat := []
  hostp : List Nat := []
  rels : List Nat := []
  deriving DecidableEq, Repr

/-- A granule's worth of a store: its VA granule number, its physical address, mask and bytes. -/
structure Piece where
  gran : Nat
  pa : Nat
  mask : W32
  data : List Byte
  deriving DecidableEq, Repr

/-! ### Trains -/

/-- The registers that a clause's lane instructions read as the scalar stream left them (`s`, `b`, `k`, EXM, FMT), and the mask registers they write (R170). -/
structure Uses where
  s : List Nat := []
  b : List Nat := []
  k : List Nat := []
  kw : List Nat := []
  exm : Bool := false
  fmt : Bool := false
  deriving DecidableEq, Repr

/-- A clause in a portion's queue (R169, R170): where it lies, the next instruction to issue (none: its header is not fetched yet), its header fields, the registers as the scalar stream left them at its CLS (K with the writes of its portion's lane instructions applied, R359), and the bytes of the scalar instructions issued after the CLS, which SIG folds after the clause (R180); what its instructions use, none where its code cannot be read yet. -/
structure Clause where
  pc : W64
  lcb : W64
  off : Nat
  next : Option Nat := none
  len : Nat := 0
  waits : Nat := 0
  setA : Nat := 15
  setB : Nat := 15
  s : Sparse W64
  b : Sparse (BitVec 256)
  k : Sparse W32
  exm : W32
  fmt : W64
  recipe : Bool := false
  after : List Nat := []
  uses : Option Uses := none
  deriving DecidableEq, Repr

/-- The kind of a reconvergence entry (R172, R173, R339). -/
inductive EntryKind where
  | divg
  | loop
  | callv
  deriving DecidableEq, Repr

/-- A reconvergence entry (R172), shared by the portions of its paths: `members` are the portions that have not arrived. -/
structure REntry where
  kind : EntryKind
  m : W32
  fmt : W64
  sig : W32
  x : W32 := 0
  broken : W32 := 0
  arrived : W32 := 0
  junc : Option W64 := none
  exit : W64 := 0
  deferred : List (W64 × W32) := []
  owner : Nat
  members : List Nat
  wrong : Bool := false
  deriving DecidableEq, Repr

/-- What a portion waits for after it has issued an instruction, with what remains to be done. `flags`: WAITF. `release`: REL, the tail it covers, whether .sys, destination, token. `fence`: FENCE, with the tail of a publishing scope. `acquire`: the tokens left. `acqAll`: the logs and tails (R222). `relAtomic`: an atomic whose release comes first (R224). `reply`: an atomic with .acq. `watch`: WAITA, WAITM. `arriving`: a route arrival, with the tail of its release once begun; `barrier` and `waitb`: the phase waited for. `ending`: the self form of JOIN. `mxfork`: the register that names the image of a program not accepted yet. `resize`: with the tail of its publication once begun. `invalidate`: IVPG. `settle`: REL.cor. -/
inductive Wait where
  | none
  | flags (mask : Nat)
  | release (tail : Nat) (sys : Bool) (d : Nat) (tok : W64)
  | fence (tail : Option Nat) (sys : Bool) (d : Nat)
  | acquire (toks : List Nat) (sys : Bool)
  | acqAll (tails : List (Nat × Nat)) (sys : Bool)
  | relAtomic (tail : Nat) (sys : Bool) (acc : Acc)
  | reply (pend : Nat)
  | watch (kind : Nat) (va pa size cond : Nat) (c : W64) (d : Nat)
  | arriving (route : Nat) (barr pkg : Bool) (tail : Option Nat)
  | barrier (route phase : Nat) (pkg : Bool)
  | waitb (route phase : Nat)
  | join (child : Nat) (d : Nat)
  | joinAny (d b : Nat)
  | ending (tail : Nat)
  | mxfork (a : BitVec 6)
  | rdv (d : Nat)
  | repack (route : Nat)
  | resize (a b d : Nat) (tail : Option Nat)
  | invalidate (va sz : Nat)
  | settle (d : Nat)
  deriving DecidableEq, Repr

/-- What stands for the next issue of a stream after a fault (R118, R465): nothing; the instruction issues again free of charge and unfolded; as a first issue. -/
inductive Again where
  | no
  | free
  deriving DecidableEq, Repr

/-- A portion (Table 10-1, R346); `laneFrom` is the first issue cycle of its core in which its lane cursor may issue (R147). -/
structure Portion where
  pc : W64
  exm : W32 := 0xFFFFFFFF
  pm : W32 := 0xFFFFFFFF
  fmt : W64 := 0
  sig : W32 := 0
  stack : List Nat := []
  clauses : List Clause := []
  atJunc : Bool := false
  wait : Wait := .none
  lwait : Wait := .none
  again : Again := .no
  laneFrom : Nat := 0
  deriving DecidableEq, Repr

/-- The flashback store (R151): fields 0x000-0xAFF of the train record (Table 9-2), and the FBP mark. -/
structure Flash where
  pc : W64
  lcb : W64
  recipe : Option Nat := none
  lineage : Bool := false
  exm : W32 := 0xFFFFFFFF
  fmt : W64 := 0
  sig : W32 := 0
  xflags : W32 := 0
  sregs : List (Nat × W64) := []
  vregs : List (Nat × List W32) := []
  k : Sparse W32 := []
  b : Sparse (BitVec 256) := []
  mark : Nat := 0
  deriving DecidableEq, Repr

/-- The handler bank (R161) and where the portion resumes, with what its scalar stream waited for; `since` is the time of entry, and operations numbered from `mark` on are the handler's own; the reconvergence entries at its entry, and the train's other portions, which are held meanwhile. -/
structure Handler where
  portion : Nat
  s : List W64
  v : Sparse W32
  k0 : W32
  k1 : W32
  exm : W32
  fmt : W64
  sig : W32
  lineage : Bool
  xflags : W32
  lcb : W64
  pc : W64
  clauses : List Clause
  wait : Wait
  lwait : Wait := .none
  since : Nat
  mark : Nat := 0
  stack : List Nat := []
  entries : Table REntry := []
  frozen : List Nat := []
  deriving DecidableEq, Repr

/-- A fault that waits for the handler or the host (R160-R163): the lanes with their codes, the access to replay (none: the stream issues its instruction again), and the facts of the record of R163. -/
structure FaultCtx where
  portion : Nat
  access : Option Acc
  lanes : List LaneFault
  pc : W64
  word : Option Nat
  charged : Bool
  deriving DecidableEq, Repr

/-- A system call or host-routed fault in progress (R109, R163): the first two bytes of its record, and its sequence number once written; `go` says that the host's reply lets the access be replayed, which waits for room in the log (R235). -/
structure Call where
  imm : Nat
  seq : Option Nat := none
  fault : Bool
  go : Bool := false
  deriving DecidableEq, Repr

/-- A resident train (Table 10-1). Lane register r of lane l is entry 32 r + l of `v`. `bounds` counts the boundary instructions issued since its flashback point (R152, R426); `stuck` names the portions whose scalar stream could not issue when the cycle began (R142); `lastPortion` the portion chosen last (R146); `logWait` says that a store of it has waited for room in the log since the last cycle was counted (R235). -/
structure Train where
  task : Nat
  index : Nat
  budget : Nat
  s : Sparse W64 := []
  b : Sparse (BitVec 256) := []
  k : Sparse W32 := []
  v : Sparse W32 := []
  deadm : W32 := 0
  xflags : W32 := 0
  lineage : Bool := false
  lcb : W64 := 0
  portions : Table Portion
  entries : Table REntry := []
  nextEntry : Nat := 0
  pend : Table Pend := []
  nextPend : Nat := 0
  wqry : List (Nat × Nat) := []
  fltinfo : W64 := 0
  fltmask : W32 := 0
  flash : Flash
  boundary : Bool := false
  bounds : Nat := 0
  stuck : List Nat := []
  handler : Option Handler := none
  fault : Option FaultCtx := none
  call : Option Call := none
  arrivals : Sparse Nat := []
  logErrs : List Nat := []
  startAcq : Option W64 := none
  startAcqAll : Option (List (Nat × Nat)) := none
  member : Bool := true
  lastPortion : Nat := 3
  draining : Bool := false
  rewound : Bool := false
  readySince : Nat := 0
  logWait : Bool := false
  deriving DecidableEq, Repr

/-! ### Tasks, queues, graphs, jobs -/

/-- Task states (Table 7-4). -/
inductive TState where
  | ready
  | running
  | waiting
  | starved
  | unwinding
  | done
  deriving DecidableEq, Repr

/-- A placement attempt in progress (R133): the window, the cores that have not served their reserve request, those that have granted and refused it, and those whose answer has reached the agent. -/
structure Placing where
  yard : Nat
  w : Nat
  asked : List Nat
  granted : List Nat
  refused : List Nat
  heard : List Nat := []
  deriving DecidableEq, Repr

/-- A task (Table 7-1) with its launch record's facts (Table 6-3) and what its completion record reports (Table 6-7). `expiry`: the CLOCK at which the PARK limit of a STARVED task ends (R124). `tokens`: the tokens that arrivals of BARR.pkg brought, by route, phase and train index (R432). -/
structure Task where
  gen : Nat
  parent : Nat := 0
  alw : Nat := 0
  rsv : Nat := 0
  spent : Nat := 0
  limit : Nat := 0
  state : TState := .ready
  park : Bool := false
  retryN : Nat := 0
  retryC : Nat := 0
  root : Bool := false
  slot : Nat := 0
  live : Nat := 0
  children : Nat := 0
  outstanding : Nat := 0
  expiry : Nat := 0
  held : Bool := true
  closing : Bool := false
  trains : Nat := 1
  cores : Nat := 1
  budget : Nat := 0
  ways : Nat := 0
  entry : W64 := 0
  lcb : W64 := 0
  routesN : Nat := 0
  routesVa : W64 := 0
  blockVa : W64 := 0
  arg : W64 := 0
  complVa : W64 := 0
  signalVa : W64 := 0
  parkNs : Nat := 0
  level : Nat := 0
  queue : Nat := 0
  msi : Bool := false
  reduced : Bool := false
  ordered : Bool := false
  kind : Nat := 1
  began : Nat := 0
  grant : Nat := 0
  token : Option W64 := none
  status : Nat := 0
  faultCode : Nat := 0
  xflags : W32 := 0
  dead : Nat := 0
  underread : Nat := 0
  sigFaults : Nat := 0
  strictEv : Bool := false
  doneList : List (Nat × Nat) := []
  routes : List W32 := []
  phases : Sparse Nat := []
  tokens : List (Nat × Nat × Nat × W64) := []
  placing : Option Placing := none
  attempts : Nat := 0
  retryAt : Nat := 0
  siding : Option Nat := none
  agentCore : Option Nat := none
  member : W32 := 0
  node : Option (Nat × Nat) := none
  failedNode : Nat := 0
  deriving DecidableEq, Repr

/-- A queue's entry after it has been fetched (R95). -/
structure QEntry where
  bytes : List Byte
  accepted : Nat
  deriving DecidableEq, Repr

/-- What a queue holds beside its descriptor: the accepted TAIL writes (count, clock, function, and the tails of the inbound logs at that time), the fetched head, the entries that have not completed (tasks, then jobs), the staged reply (Table 6-2), whether a failed fetch holds it (R95), and the task being placed for the head. -/
structure Queue where
  accepts : List (Nat × Nat × Nat × List (Nat × Nat)) := []
  head : Option QEntry := none
  running : List Nat := []
  jobs : List Nat := []
  staged : W64 := 0
  stuck : Bool := false
  dispatching : Option Nat := none
  deriving DecidableEq, Repr

/-- A node of a launch graph (Table 6-4): 0 waiting or ready, 1 running, 2 ended, with its status and fault code. -/
structure GNode where
  typ : Nat
  count : Nat
  succs : List Nat
  va : Nat
  state : Nat := 0
  status : Nat := 0
  code : Nat := 0
  deriving DecidableEq, Repr

/-- A copy or collective job, accepted, queued or started (R104, R279-R282, R286), or a step of a copy program (`step`: its pair, ring, producer id, whether it closes, the stage it fills). `slot` is its partition slot; `pad` the bitmap's or completion word's scratchpad offset; `dense` the dense base of a copy step; `feet` its footprints (first byte, byte past the last, space: 0 global, COREID + 1 a scratchpad, whether written); `waits` the positions of the core log that must fold first (R230); `begun` its dispatch and `startAt` its start; `moved` the chunks, ranks or the result (rank N) written, with the tail of the engine's log that covers each; `done` the chunks complete or the ranks whose bit is set; `near` the ranks of a collective that lie on this package, once its endpoint table has been read, and `sentTo` those its contribution has been sent to (R286); `poisoned` the granules read poisoned. -/
structure Job where
  coll : Bool
  yard : Nat
  slot : Nat
  task : Nat := 0
  core : Option Nat := none
  trainSlot : Nat := 0
  trainIndex : Nat := 0
  queue : Option Nat := none
  desc : List Byte
  origin : List Int := []
  dense : Option Nat := none
  pad : Nat := 0
  bytes : Nat
  cost : Nat
  feet : List (Nat × Nat × Nat × Bool) := []
  waits : List Nat := []
  started : Bool := false
  begun : Nat := 0
  startAt : Nat := 0
  moved : List (Nat × Nat) := []
  done : List Nat := []
  near : Option (List Nat) := none
  sentTo : List Nat := []
  status : Nat := 0
  faultCode : Nat := 0
  poisoned : List Nat := []
  oobz : Bool := false
  complVa : W64 := 0
  signalVa : W64 := 0
  msi : Bool := false
  grant : Nat := 0
  node : Option (Nat × Nat) := none
  step : Option (Nat × Nat × Nat × Bool × Nat) := none
  deriving DecidableEq, Repr

/-- A contribution of a collective job on its way over the main line to a rank of the same package (R286): the job it comes from and its copy engine, the copy engine it goes to, the ranks of sender and receiver, the bytes; its place among the engine's messages, when it was sent, and whether it has arrived (R25, R26). -/
structure Contrib where
  job : Nat
  src : Nat
  yard : Nat
  rank : Nat
  member : Nat
  data : List Byte
  pois : Bool
  sent : Nat
  msg : Nat
  deliv : Bool := false
  deriving DecidableEq, Repr

/-- A query to a work distributor (R285): the task with its generation and its partition slot, for it is served once even when the task has gone (R128 step 3). -/
structure Query where
  core : Nat
  slot : Nat
  task : Nat
  gen : Nat := 0
  part : Nat := 0
  flag : Nat
  va : Nat
  pa : Nat
  off : Nat
  began : Nat := 0
  deliv : Bool := false
  deriving DecidableEq, Repr

/-- A shared-exponent block (R259): the exponent E, the sub-shift of each quad, and each element's sign and magnitude. -/
structure SxBlock where
  e : Nat := 0
  sig : List Nat := []
  els : List (Bool × Nat) := []
  deriving DecidableEq, Repr

/-- A matrix program (R268-R278): its image facts, its commands, where it stands, its loop counters, the rings' next stages and closed masks, what it has spent, and the granules that its MDRAIN has still to log (R231, R235). -/
structure MxProg where
  seq : Nat
  task : Nat
  trainSlot : Nat
  trainIndex : Nat
  va : Nat
  fmt : W64
  nc : Nat
  bound : Nat
  used : Nat := 0
  ncmd : Nat := 0
  cmds : List Byte := []
  rings : List (List Byte) := []
  drains : List (List Byte) := []
  feet : List (Nat × Nat × Nat × Bool) := []
  copyVa : Nat := 0
  copyN : Nat := 0
  copyDone : Nat := 0
  copyJob : Option Nat := none
  pc : Nat := 0
  loops : Sparse Nat := []
  open_ : List (Nat × Nat) := []
  next : Sparse Nat := []
  cm : Sparse Nat := []
  filled : Sparse Nat := []
  loaded : Bool := false
  ended : Bool := false
  status : Nat := 0
  code : Nat := 0
  at_ : Nat := 0
  xflags : W32 := 0
  rest : List Piece := []
  deriving DecidableEq, Repr

/-- A core pair's array (R268): the B banks by pair column (its four blocks along K), and the accumulators by 512 row + column. -/
structure Pair where
  progs : List MxProg := []
  bank : Table (List SxBlock) := []
  acc : Sparse W32 := []
  deriving DecidableEq, Repr

/-! ### Cores, dies, links -/

/-- A 128-byte sector of a view line or stash entry (R192): its bytes and the poison of its four granules. -/
structure Sector where
  data : List Byte
  pa : Nat := 0
  pois : BitVec 4 := 0
  deriving DecidableEq, Repr

/-- A task's scratchpad on a core (R195): its ways, its stash ways, its bytes by offset, its poisoned words (R85), and the producers that have arrived twice on a stage (R272), as 16 times the offset of its full word plus the producer. -/
structure Scratch where
  ways : Nat := 0
  stash : Nat := 0
  bytes : Sparse Byte := []
  bad : List Nat := []
  doubled : List Nat := []
  deriving DecidableEq, Repr

/-- A cached translation (R190): tag, level of the leaf, VA page number at that level, physical page, permissions. -/
structure Tlb where
  slot : Nat
  level : Nat
  page : Nat
  pa : Nat
  w : Bool
  x : Bool
  deriving DecidableEq, Repr

/-- A registered continuation (R283), with the buffer records of its issuer; `ready` once its mask has been seen complete. -/
structure Cont where
  ready : Bool := false
  task : Nat
  off : Nat
  mask : W64
  entry : W64
  arg : W64
  index : Nat
  b : Sparse (BitVec 256)
  deriving DecidableEq, Repr

/-- Amounts a placement holds or has been given on a core (R132, R133). -/
structure Resv where
  task : Nat
  trains : Nat
  regs : Nat
  ways : Nat
  deriving DecidableEq, Repr

/-- A sector a core has asked its home for (R192); `keep` is false while only accesses with the hint .h3 want it, which fills no line (R322); its place among the core's messages, when it was sent, and whether the main line has delivered it (R24-R26). -/
structure Fill where
  key : Nat
  stash : Bool
  pa : Nat := 0
  keep : Bool := true
  msg : Nat := 0
  sent : Nat := 0
  deliv : Bool := false
  deriving DecidableEq, Repr

/-- An active-set entry (R142, R144): the train slot, when it was given the entry, and whether as urgent. -/
structure Entry where
  slot : Nat
  since : Nat
  urgent : Bool := false
  deriving DecidableEq, Repr

/-- A core. View sectors are keyed by partition slot and VA, stash sectors by task as well (R191, R196). `stashUse` orders the stash lines, the latest used first (R196); `keepRows` are the view lines that the hint .h1 keeps, the latest first, and `firstRows` those that .h2 gives up first (R322); `evict` is the published tail that an eviction waits for (R193); `lastScalar`, `lastLane` the train slots that issued last, `cycle` the number of the issue cycle, `usedScalar`, `usedLanes` the train slots that have taken its scalar slot and its lane pipes (R146); `advert` the free trains, registers and ways that it told the placement agents last (R134). `saved` says that its part of a stopped slot has been saved (R155), and `aside` keeps the sizes of the scratchpads saved with it. -/
structure Core where
  view : Table Sector := []
  stash : Table Sector := []
  fills : List Fill := []
  scratch : Table Scratch := []
  acq : List (Nat × Nat) := []
  tlb : List Tlb := []
  active : List Entry := []
  lastUrgent : Nat := 0
  readyQ : List Nat := []
  conts : List Cont := []
  stashUse : List Nat := []
  keepRows : List Nat := []
  firstRows : List Nat := []
  evict : Option Nat := none
  lastScalar : Nat := 31
  lastLane : Nat := 31
  cycle : Nat := 0
  usedScalar : Option Nat := none
  usedLanes : List Nat := []
  advert : Nat × Nat × Nat := (32, 2048, 10)
  lfsr : BitVec 16
  stealTo : Option Nat := none
  stealAnswer : Option (Option Nat) := none
  stealAt : Nat := 0
  resv : List Resv := []
  resizing : List Nat := []
  saved : Bool := false
  aside : Table Scratch := []
  deriving DecidableEq, Repr

/-- A Twicor die with its stack (R29, R30, R90, R141, R202): `pulling` holds the lines of its migrating page that have not been pulled, by line address at their new home, `source` the old frame and `leaf` the address of its leaf; `lent` the ways that DEC-TED took from entries of each slice, by slice and entry. -/
structure Die where
  lfsr : BitVec 16
  dieOk : Bool := false
  stackOk : Bool := false
  failed : Bool := false
  stopped : Bool := false
  lent : Sparse Nat := []
  pulling : List Nat := []
  source : Nat := 0
  leaf : Nat := 0
  deriving DecidableEq, Repr

/-- The switch sequence of a link group (R40-R45); `quiesced` says that it went through QUIESCING (R44); `named` the windows that another group's REMAP installed meanwhile and that name this group (R40). -/
structure Group where
  target : Nat := 0
  remapOnly : Bool := false
  since : Nat := 0
  began : Nat := 0
  quiesced : Bool := false
  err : Nat := 0
  hold : List Nat := []
  named : List Nat := []
  deriving DecidableEq, Repr

/-- A partition slot's own bookkeeping beside its registers: the stop in progress (when it was asked for, the tier reached), the invalidate in progress (VA, page size code, master), the pin registers whose frame is being filled, the rotating yard pointer (R134), the placement siding queue, and whether resources have been freed since its head was last attempted (R135). -/
structure PSlot where
  stopAt : Nat := 0
  tier : Nat := 0
  inval : Option (Nat × Nat × Nat) := none
  filling : List Nat := []
  pointer : Nat := 0
  siding : List Nat := []
  freed : Bool := false
  deriving DecidableEq, Repr

/-- A counted line at its home (R198), by line address: count, declarer (TASKID), strict bit, partition slot, the STC that declared it, the spill slot it lies in while spilled (R200), and what stack memory holds under it (bytes, stamps, poison), which a dropped line reads as. -/
structure CLine where
  count : Nat
  declarer : Nat
  strict : Bool
  slot : Nat
  stc : Nat := 0
  spilled : Option Nat := none
  bytes : List Byte := []
  stamps : List (Nat × Nat) := []
  pois : List Bool := []
  deriving DecidableEq, Repr

/-- A line resident in a slice (R19), and whether it is pinned (R70). -/
structure SLine where
  line : Nat
  pinned : Bool := false
  deriving DecidableEq, Repr

/-- What the package controller keeps (R56-R60): the complete claims of the arbitration interval under way (master code, key hash) and its number, which CLAIMKEY words each master has written, the owner's key hash, when HANDOFF was written, the attestation requests waiting, the reports by requester, the headers of the accepted firmware stages, and whether the part is in recovery. -/
structure Owner where
  claims : List (Nat × BitVec 256) := []
  interval : Nat := 0
  written : Sparse Nat := []
  keyHash : BitVec 256 := 0
  handoffAt : Nat := 0
  attQueue : List Nat := []
  reports : Table (List Byte) := []
  stages : Table (List Byte) := []
  recovery : Bool := false
  deriving DecidableEq, Repr

/-- Time, memory, homes and everything in flight. `sets` holds the lines in the slices, by 64 times the slice plus the set, and in a set by way (R19); `etlbs` the translations that engines cache, by engine (R190). `fotCmd` is the command that FOT changes run from (R73); `used` the core-cycles of slot p at level L (entry 32 p + L) in the interval of 1 µs numbered `interval` (R77); `turns` the slot whose turn it is at each level; `posts` the device's writes that wait at their homes, in order (R90). -/
structure State where
  time : Nat := 0
  fresh : Nat := 0
  nextId : Nat := 0
  agenda : List Turn := []
  focus : Focus := {}
  pair : Nat := 0
  ev : EvArgs := {}
  mem : List Host.Cell := []
  stamps : Sparse (Nat × Nat) := []
  poison : Sparse Bool := []
  counted : Table CLine := []
  sets : Table (Table SLine) := []
  etlbs : Table (List Tlb) := []
  fot : Sparse Byte := []
  bar : Table W64 := []
  lwdAct : Table W64 := []
  logs : Table Log := []
  cores : Table Core := []
  dies : Table Die := []
  groups : Table Group := []
  slots : Table PSlot := []
  fotCmd : W64 × W64 := (0, 0)
  deficit : Sparse Int := []
  used : Sparse Nat := []
  interval : Nat := 0
  turns : Sparse Nat := []
  tasks : Table Task := []
  trains : Table Train := []
  saved : Table Train := []
  queues : Table Queue := []
  graphs : Table (List GNode) := []
  jobs : Table Job := []
  queries : Table Query := []
  contribs : Table Contrib := []
  pairs : Table Pair := []
  homeOps : Table HomeOp := []
  outbound : Table Outbound := []
  inbound : Table Inbound := []
  far : List Far := []
  posts : List Post := []
  sent : List Sent := []
  owner : Owner := {}
  deriving DecidableEq, Repr

/-- The machine after reset (R31, R63, R208, R217; log entries 3, 4 and 6): every map empty, that is, every register, byte and stamp at its reset value. -/
def State.reset : State := {}

/-- Why a step can stop. -/
inductive Fault where
  /-- Raised by a meaning of a scalar instruction when the focus names no resident portion: there is no train to act on. Safe: a step never raises it, since it reads an instruction only for a resident portion. -/
  | noTrain
  /-- Raised by a meaning of a lane instruction when the focus portion's lane cursor has no clause under way. Safe, as above. -/
  | noClause
  /-- Raised by a meaning of a matrix command when the pair runs no program. Safe, as above. -/
  | noProgram
  deriving DecidableEq, Repr

/-- Why an instruction has no meaning. -/
inductive Refusal where
  /-- Raised by a dispatch arm whose instruction has no meaning yet. Safe. -/
  | notModelled (mnemonic : String)
  deriving DecidableEq, Repr

/-- The outcome of a meaning. -/
abbrev Out := Host.Outcome State Fault Refusal

end Sys2Proof.Machine
end

