-- ==== Sys2Proof/Machine/Bar.lean ====
section
/-! DEFINITION. The control registers, by PF BAR0 offset (Table 3-2): reset values, the bits a plain write stores, and the accessors of the fields the device reads and sets. Offsets the manual does not give are log entry 6. -/

namespace Sys2Proof.Machine

/-- Bits `lo` to `lo + n - 1` of a register. -/
def bits (x : W64) (lo n : Nat) : Nat := x.toNat / 2 ^ lo % 2 ^ n

/-- The register with bits `lo` to `lo + n - 1` replaced. -/
def setBits (x : W64) (lo n v : Nat) : W64 :=
  BitVec.ofNat 64 (x.toNat - bits x lo n * 2 ^ lo + v % 2 ^ n * 2 ^ lo)

/-! ### Offsets -/

/-- Register `off` of partition slot `p` (R64). -/
def slotOff (p off : Nat) : Nat := 0x400000 + 0x400 * p + off
/-- SQUOTA of slice `s` (R67). -/
def squotaOff (s : Nat) : Nat := 0x420000 + 8 * s
/-- FOT command registers (R73). -/
def fotOff (off : Nat) : Nat := 0x440000 + off
/-- Migration command of die `d` (R202). -/
def migOff (d off : Nat) : Nat := 0x450000 + 32 * d + off
/-- Half `h` of access window `w` of master `m` at target `t` (R76). -/
def accessOff (t m w h : Nat) : Nat := 0x460000 + ((t * 256 + m) * 4 + w) * 16 + 8 * h
/-- The status word of the partitions block (R68). -/
def partStatusOff : Nat := 0x7FF000
/-- Register `off` of queue `q` (R93). -/
def queueOff (q off : Nat) : Nat := 0x800000 + 0x40 * q + off
/-- LGCTL and LGSTAT of group `g` (Table 3-2). -/
def lgctlOff (g : Nat) : Nat := 0x102000 + 16 * g
def lgstatOff (g : Nat) : Nat := 0x102008 + 16 * g
/-- Half `h` of the pending copy of LWD `n` (Table 3-2). -/
def lwdOff (n h : Nat) : Nat := 0x100000 + 16 * n + 8 * h
/-- Half `h` of HWD `n` (Table 3-2), its status word and HWDRAIN (R52). -/
def hwdOff (n h : Nat) : Nat := 0x200000 + 16 * n + 8 * h
def hwdStatusOff : Nat := 0x200400
def hwdrainOff : Nat := 0x200408
/-- Trust block (R55-R60); HANDOFF, HANDACK, CLAIMGO and CLAIMKEY offsets are log entry 6. -/
def ownstatOff : Nat := 0x10000
def claimkeyOff (m i : Nat) : Nat := 0x10020 + 0x20 * m + 8 * i
def claimgoOff : Nat := 0x100A0
def handoffOff : Nat := 0x100A8
def handackOff : Nat := 0x100B0
/-- Attestation registers of requester `r` (R60): the requester's own copy, banked here above the block's own offsets (log entry 6). -/
def attnonceOff (r i : Nat) : Nat := 0x18000 + 0x40 * r + 8 * i
def attdoneOff (r : Nat) : Nat := 0x18000 + 0x40 * r + 0x28
/-- SVCSTAT (Table 3-9), FWFAIL, APBASE and VFAPBASE(n); the last three offsets are log entry 6. -/
def svcstatOff : Nat := 0x100
def fwfailOff : Nat := 0x108
def apbaseOff : Nat := 0x110
def vfapbaseOff (n : Nat) : Nat := 0x200 + 8 * n
/-- NumVFs (R48), and the log2 of the sizes of the PF's and the VFs' memory apertures (Table 3-1): configuration space, which only the host writes; offsets and reset values are log entry 62. -/
def numVfsOff : Nat := 0x118
def apsizeOff : Nat := 0x120
def vfapsizeOff : Nat := 0x128
/-- The certificate of the attestation key (R60). -/
def certOff : Nat := 0x8000
/-- R78 counter `k` of set `i` (0-64 slots, 65 sum over tenants, 66 shared): the errors block. -/
def counterOff (i k : Nat) : Nat :=
  (if i = 65 then 0x1802400 else if i = 66 then 0x1802440 else 0x1801000 + 64 * i) + 8 * k
/-- SRAMRAIL of die `d` (R89). -/
def sramrailOff (d : Nat) : Nat := 0x1800100 + 8 * d
/-- Event ring register `off` of slot `p` (R91). -/
def ringOff (p off : Nat) : Nat := 0x1810000 + 64 * p + off

/-! ### Reset values -/

/-- The reset value of an access window half (R76). -/
def accessReset (off : Nat) : W64 :=
  let i := (off - 0x460000) / 16
  let w := i % 4
  let m := i / 4 % 256
  let t := i / 1024
  if w = 0 ∧ (m = 0 ∨ m = 128 ∨ m = 129 ∨ m = 130 ∨ ((m = 65 ∨ m = 66) ∧ t = 8)) then
    if off % 16 = 0 then 0xF else 0xFFFFFFFFF0000000
  else 0

/-- The reset value of a slot register (R64, R114, R145, R149, R189, R233, R445). -/
def slotReset (p off : Nat) : W64 :=
  if off = 0 then (if p = 0 then 0x400000000002 else 0x400000000000)
  else if off = 0x380 then 1024
  else if off = 0x388 then 0x600C8
  else if off = 0x390 then 0x3200000000
  else if off = 0x3C8 then 2
  else if p = 0 ∧ (0x40 ≤ off ∧ off < 0x58 ∨ 0x80 ≤ off ∧ off < 0x98 ∨ 0x100 ≤ off ∧ off < 0x260) then 0xFFFFFFFFFFFFFFFF
  else if p = 0 ∧ off = 0xA0 then 0xFF
  else 0

/-- The reset value of the register at a PF BAR0 offset; a register stands at a multiple of 8 (R50). -/
def barReset (off : Nat) : W64 :=
  if off % 8 ≠ 0 then 0
  else if off = apsizeOff ∨ off = vfapsizeOff then 30
  else if certOff ≤ off ∧ off < 0x10000 then Config.attCert ((off - certOff) / 8)
  else if 0x400000 ≤ off ∧ off < 0x410400 then slotReset ((off - 0x400000) / 0x400) (off % 0x400)
  else if 0x420000 ≤ off ∧ off < 0x424000 then 0xFE00FE00FE000100
  else if 0x460000 ≤ off ∧ off < 0x484000 then accessReset off
  else if 0x800000 ≤ off ∧ off < 0x840000 ∧ off % 0x40 = 8 then 0x40000
  else if 0x1800100 ≤ off ∧ off < 0x1800140 then
    BitVec.ofNat 64 ((Config.vdec ((off - 0x1800100) / 8)).toNat * 65536 + (Config.nominalMv ((off - 0x1800100) / 8)).toNat)
  else 0

/-! ### Access -/

/-- The register at an offset. -/
def State.reg (s : State) (off : Nat) : W64 := (Table.find s.bar off).getD (barReset off)

/-- The state with the register at an offset holding `v`. -/
def State.setReg (s : State) (off : Nat) (v : W64) : State :=
  { s with bar := if v = barReset off then Table.drop s.bar off else Table.put s.bar off v }

/-- The state with bits of a register replaced. -/
def State.setRegBits (s : State) (off lo n v : Nat) : State := s.setReg off (setBits (s.reg off) lo n v)

/-- The field of a register. -/
def State.regBits (s : State) (off lo n : Nat) : Nat := bits (s.reg off) lo n

/-- Register `off` of slot `p`. -/
def State.slotReg (s : State) (p off : Nat) : W64 := s.reg (slotOff p off)

/-- Bit `i` of a bitmap of slot `p` at `off` (R64). -/
def State.slotBit (s : State) (p off i : Nat) : Bool := (s.slotReg p (off + 8 * (i / 64))).getLsbD (i % 64)

/-- PCTL.OWNID of slot `p`; slot 0 carries owner id 0 (R63). -/
def State.ownid (s : State) (p : Nat) : Nat := if p = 0 then 0 else bits (s.slotReg p 0) 56 8

/-- PCTL.STATE of slot `p` (Table 4-2). -/
def State.pctlState (s : State) (p : Nat) : Nat := bits (s.slotReg p 0) 0 2

/-- The yards of slot `p`, ascending (R66). -/
def State.yards (s : State) (p : Nat) : List Nat := (List.range 192).filter (s.slotBit p 0x40)

/-- The cores of slot `p` in ascending COREID (R141, R150). -/
def State.coresOf (s : State) (p : Nat) : List Nat := (s.yards p).flatMap (fun y => (List.range 8).map (8 * y + ·))

/-- The slot whose YARDS hold a core's yard, if any. -/
def State.slotOfCore (s : State) (c : Nat) : Option Nat := (List.range 65).find? (fun p => decide (s.pctlState p ≠ 0) && s.slotBit p 0x40 (c / 8))

/-- The index of a core in its slot's ascending list (R150, R233). -/
def State.coreIndex (s : State) (p c : Nat) : Nat := ((s.yards p).filter (· < c / 8)).length * 8 + c % 8

/-- The service level SVCSTAT.LEVEL (R62). -/
def State.level (s : State) : Nat := s.regBits svcstatOff 0 2

/-- Whether a die is usable (R30). -/
def State.usable (s : State) (d : Nat) : Bool := (s.reg svcstatOff).getLsbD (24 + d)

/-- The log2 of the size of a function's memory aperture (R49). -/
def State.apSize (s : State) (fn : Nat) : Nat := s.regBits (if fn = 0 then apsizeOff else vfapsizeOff) 0 6

/-- The bits of each register that a plain write stores (R9: RW fields; RO, RZ and W1C bits are not stored). Of a link window's TARGET, bits 14:10 are RZ for every personality (Table 2-2). -/
def writeMask (off : Nat) : W64 :=
  if off = apbaseOff ∨ 0x208 ≤ off ∧ off ≤ 0x400 then 0x000FFFFFC0000000
  else if off = numVfsOff then 0x7F
  else if off = apsizeOff ∨ off = vfapsizeOff then 0x3F
  else if 0x100000 ≤ off ∧ off < 0x101000 then
    (if off % 16 = 0 then 0xFFFFFC00000000F9 else 0x83FFFFFF00FFFFFC)
  else if 0x400000 ≤ off ∧ off < 0x410400 then
    let r := off % 0x400
    if r = 0 then 0xFFFFC00000000000
    else if 0x40 ≤ r ∧ r < 0x58 ∨ 0x80 ≤ r ∧ r < 0x98 ∨ 0x100 ≤ r ∧ r < 0x260 then 0xFFFFFFFFFFFFFFFF
    else if r = 0xA0 then 0xFF
    else if r = 0x380 then 0x1FFFF
    else if r = 0x388 then 0xF0FFF
    else if r = 0x390 then 0xFFFF00000000
    else if r = 0x398 then 0x1FFFFFFFFFFFFFD
    else if r = 0x3A0 then 0x1FFFFFFFFFFFFFF
    else if r = 0x3A8 then 0xFFFFFFFFFF000
    else if r = 0x3B0 then 0xFFFFFFFFFF001
    else if r = 0x3B8 then 0xFFFFFFFFF00FF
    else if r = 0x3C0 then 0x7FFFFFFFFFF0000
    else if r = 0x3C8 then 0xFFFFFFFFF0007
    else if r = 0x3D0 ∨ r = 0x3D8 then 0xFFFFFFFFFFFFFFFF
    else if r = 0x3E0 then 0xFFFFFFFFFFFFC
    else if r = 0x3E8 then 0xFFFFFFFF
    else 0
  else if off = fotOff 0 then 0xFFFFFFFFFFFF
  else if off = fotOff 8 then 0x1FF
  else if 0x450000 ≤ off ∧ off < 0x450100 then
    (if off % 32 = 0 then 0xFFFFFFFFFFFF8 else if off % 32 = 8 then 0xFFFFFF0002 else 0)
  else if 0x460000 ≤ off ∧ off < 0x484000 then (if off % 16 = 0 then 0xFF0000000000000F else 0xFFFFFFFFFFFFFFFF)
  else if 0x1801000 ≤ off ∧ off < 0x1802480 then 0xFFFFFFFF
  else if 0x1810000 ≤ off ∧ off < 0x1811040 then
    (if off % 64 = 0 then 0xFFFFFFFFFFFE0 else if off % 64 = 8 then 1 else if off % 64 = 16 then 0xFFFF
     else if off % 64 = 24 then 0xFFFFFFFF00000000 else 0)
  else 0

/-- The bits a write of 1 clears (R9: W1C): OWNSTAT.CLERR, ATTDONE, LGSTAT.DONE and the two status words. -/
def w1cMask (off : Nat) : W64 :=
  if off = ownstatOff then 0x700
  else if off = hwdStatusOff then 1
  else if off = partStatusOff then 2
  else if 0x102000 ≤ off ∧ off < 0x102100 ∧ off % 16 = 8 then 1
  else if 0x18000 ≤ off ∧ off < 0x1A000 ∧ off % 0x40 = 0x28 then 1
  else 0

/-- A plain register write: RW fields take the written bits, W1C bits written 1 clear, the rest stays (R9). -/
def State.plainWrite (s : State) (off : Nat) (v : W64) : State :=
  let old := s.reg off
  s.setReg off ((old &&& ~~~ (writeMask off) &&& ~~~ (v &&& w1cMask off)) ||| (v &&& writeMask off))

/-- R78 counter `k` summed over slots 1 to 64, saturating. -/
def State.counterSum (s : State) (k : Nat) : W64 :=
  BitVec.ofNat 64 (min 0xFFFFFFFF ((List.range 64).foldl (fun n i => n + (s.reg (counterOff (i + 1) k)).toNat % 2 ^ 32) 0))

/-- The sum cleared: it is what the slots hold, so each of their counters is cleared (R78). -/
def State.clearSum (s : State) (k : Nat) : State := (List.range 64).foldl (fun s i => s.setReg (counterOff (i + 1) k) 0) s

end Sys2Proof.Machine
end

