-- ==== Sys2Proof/Machine/Mem.lean ====
section
/-! DEFINITION. Stack memory with its stamps, poison and frame owners: byte reads and writes, where an address lies (R21, R22), ownership and access-table checks (R72, R76), and a write that carries a stamp (R217). -/

namespace Sys2Proof.Machine

/-! ### Bytes -/

/-- What an unlisted byte of stack memory reads as (log entry 3). -/
def Memory.default : Byte := 0

/-- The byte at a physical address. -/
def Memory.read (m : List Host.Cell) (a : Nat) : Byte := Sparse.get Memory.default m a

/-- The memory with the byte at a physical address written. -/
def Memory.write (m : List Host.Cell) (a : Nat) (b : Byte) : List Host.Cell := Sparse.set Memory.default m a b

/-- The canonical form of memory: addresses strictly rising, no entry equal to what an unlisted byte reads as. -/
abbrev Memory.wf (m : List Host.Cell) : Bool := Sparse.wf Memory.default m

/-- The `n` bytes from an address up. -/
def State.readBytes (s : State) (a n : Nat) : List Byte := (List.range n).map (fun i => Memory.read s.mem (a + i))

/-- The little-endian value of `n` bytes (R7). -/
def State.readLe (s : State) (a n : Nat) : Nat := leNat (s.readBytes a n)

/-- Bytes written from an address up, with no stamp changed. -/
def Memory.writeBytes : List Host.Cell → Nat → List Byte → List Host.Cell
  | m, _, [] => m
  | m, a, b :: bs => Memory.writeBytes (Memory.write m a b) (a + 1) bs

/-- Number of set bits. -/
def popcount {n : Nat} (x : BitVec n) : Nat := (List.range n).foldl (fun k i => if x.getLsbD i then k + 1 else k) 0

/-- The stamp of a byte (R217): stamp and log id, the least at reset. -/
def State.stampOf (s : State) (a : Nat) : Nat × Nat := Sparse.get (0, 0) s.stamps a

/-- The order of stamps (R213): by stamp, then by log id. -/
def stampLt (x y : Nat × Nat) : Bool := decide (x.1 < y.1) || (decide (x.1 = y.1) && decide (x.2 < y.2))

/-- Whether a write may set a byte (R217): the byte's stamp is less, or it is the same and the byte was set by an earlier record of the same publication, which folds first (R216; log entry 18). -/
def State.yields (s : State) (a : Nat) (st : Nat × Nat) : Bool := !stampLt st (s.stampOf a)

/-- One byte of a write at its home (R217). -/
def State.foldByte (s : State) (a : Nat) (b : Byte) (st : Nat × Nat) : State :=
  if s.yields a st then
    { s with mem := Memory.write s.mem a b, stamps := Sparse.set (0, 0) s.stamps a st }
  else s

/-- The bytes of a list whose mask bit is set, folded from an address up (R217). -/
def State.foldBytes : State → Nat → List Byte → List Bool → Nat × Nat → State
  | s, _, [], _, _ => s
  | s, _, _, [], _ => s
  | s, a, b :: bs, m :: ms, st => State.foldBytes (if m then s.foldByte a b st else s) (a + 1) bs ms st

/-- Whether the granule of an address is poisoned (R79). -/
def State.poisoned (s : State) (a : Nat) : Bool := Sparse.get false s.poison (a / 32)

/-- The granule of an address with its poison set or cleared. -/
def State.setPoison (s : State) (a : Nat) (p : Bool) : State := { s with poison := Sparse.set false s.poison (a / 32) p }

/-- The bits of a byte mask, lowest first. -/
def maskBits (m : W32) : List Bool := (List.range 32).map (fun i => m.getLsbD i)

/-- A record's bytes folded onto its granule (R217), with what R79 and R82 say of the granule's poison: a poisoned record poisons it; a clean record whose mask is whole and whose stamp exceeds every byte's clears it. -/
def State.foldGranule (s : State) (a : Nat) (data : List Byte) (mask : W32) (pois : Bool) (st : Nat × Nat) : State :=
  let whole := decide (mask = 0xFFFFFFFF) && (List.range 32).all (fun i => stampLt (s.stampOf (a + i)) st)
  let s := s.foldBytes a data (maskBits mask) st
  if pois then s.setPoison a true else if whole then s.setPoison a false else s

/-- A frame of 64 KiB set to zero, every byte with the least stamp and no granule poisoned (R74 step 6, R446). -/
def State.zeroFrame (s : State) (f : Nat) : State :=
  { s with
    mem := s.mem.filter (fun e => decide (e.1 / 65536 ≠ f))
    stamps := s.stamps.filter (fun e => decide (e.1 / 65536 ≠ f))
    poison := s.poison.filter (fun e => decide (e.1 / 2048 ≠ f))
    counted := s.counted.filter (fun e => decide (e.1 / 256 ≠ f)) }

/-! ### Where an address lies -/

/-- Stack memory: 1 TiB from 0 (R21). -/
def isStack (pa : Nat) : Bool := decide (pa < 0x10000000000)

/-- The die that homes a stack address (R22). -/
def dieOf (pa : Nat) : Nat := pa / 2 ^ 37 % 8

/-- The pseudo-channel of a stack address within its die (R22). -/
def pchOf (pa : Nat) : Nat := (pa / 2 ^ 16 % 64) ^^^ (pa / 2 ^ 22 % 64)

/-- The home slice of a stack address, 0-2,047 (R22). -/
def homeOf (pa : Nat) : Nat := dieOf pa * 256 + pchOf pa * 4 + ((pa / 2 ^ 8 % 4) ^^^ (pa / 2 ^ 10 % 4))

/-- Bits of the active copy of a link window descriptor (R36). -/
def State.lwd (s : State) (n lo k : Nat) : Nat :=
  bits ((Table.find s.lwdAct (2 * n + lo / 64)).getD 0) (lo % 64) k

/-- The enabled link window that covers an address (R38). -/
def State.linkWindow (s : State) (pa : Nat) : Option Nat :=
  (List.range 256).find? (fun n =>
    (Table.find s.lwdAct (2 * n)).isSome && decide (s.lwd n 0 1 = 1) &&
      decide (s.lwd n 42 22 ≤ pa / 2 ^ 30) && decide (pa / 2 ^ 30 ≤ s.lwd n 66 22))

/-- The numbers of the set bits of a value below 2^n, ascending. -/
def setBitsOf (v n : Nat) : List Nat := (List.range n).filter (fun i => v / 2 ^ i % 2 = 1)

/-- The group an address of a link window goes to (R38). -/
def State.groupOf (s : State) (n pa : Nat) : Nat :=
  ((setBitsOf (s.lwd n 96 16) 16)[pa / 4096 % 2 ^ s.lwd n 6 2]?).getD 0

/-- The group at whose port a window is homed: for CXL, the first one that serves it; else the one the address goes to (R35). -/
def State.portGroup (s : State) (n pa : Nat) : Nat :=
  if s.lwd n 4 2 = 1 then ((setBitsOf (s.lwd n 96 16) 16)[0]?).getD 0 else s.groupOf n pa

/-- Field of a host window descriptor (Table 3-3). -/
def State.hwd (s : State) (n lo k : Nat) : Nat := s.regBits (hwdOff n (lo / 64)) (lo % 64) k

/-- The bus address of an access through a host window (R52). -/
def State.busAddr (s : State) (n pa : Nat) : Nat := (s.hwd n 64 52 * 4096 + (pa - s.hwd n 24 40 * 4096)) % 2 ^ 64

/-- The enabled host window that covers an address (R52). -/
def State.hostWindow (s : State) (pa : Nat) : Option Nat :=
  (List.range 64).find? (fun n =>
    (Table.find s.bar (hwdOff n 0)).isSome && decide (s.hwd n 0 1 = 1) &&
      decide (s.hwd n 24 40 * 4096 ≤ pa) && decide (pa < s.hwd n 24 40 * 4096 + 2 ^ s.hwd n 18 6))

/-- Where a physical address leads: stack memory of a usable die, an enabled link window, an enabled host window, or nowhere (R21, R30, R38, R52). -/
inductive Place where
  | stack
  | link (n : Nat)
  | host (n : Nat)
  | nowhere
  deriving DecidableEq, Repr

/-- A die's addresses exist once it is usable; while the part trains nothing (LEVEL 0) no die is (R30). -/
def State.place (s : State) (pa : Nat) : Place :=
  if isStack pa then (if s.usable (dieOf pa) then .stack else .nowhere)
  else if pa < 0x1000000000000 then .nowhere
  else if pa < 0xC000000000000 then
    match s.linkWindow pa with
    | some n => .link n
    | none => .nowhere
  else if pa < 0x10000000000000 then
    match s.hostWindow pa with
    | some n => .host n
    | none => .nowhere
  else .nowhere

/-! ### Ownership and access tables -/

/-- The owner id of a frame (R71). -/
def State.frameOwner (s : State) (f : Nat) : Nat := (Sparse.get (0 : Byte) s.fot f).toNat

/-- Whether a stack address lies in an FOT region: the top 2 MiB of a stack (R71). -/
def fotRegion (pa : Nat) : Bool := decide (pa % 2 ^ 37 ≥ 2 ^ 37 - 0x200000)

/-- The FOT check of owner id `id` on a stack address (R72): id 0 passes every check, but no access reaches an FOT region. -/
def State.fotOk (s : State) (id pa : Nat) : Bool :=
  !fotRegion pa && (decide (id = 0) || decide (s.frameOwner (pa / 65536) = id))

/-- The frames that `n` bytes at an address touch. -/
def framesOf (a n : Nat) : List Nat := (List.range ((a + n + 65535) / 65536 - a / 65536)).map (a / 65536 + ·)

/-- The FOT check of a partition slot over a range of stack addresses, frame by frame. -/
def State.fotRange (s : State) (p a n : Nat) : Bool :=
  isStack a && isStack (a + n - 1) && (framesOf a n).all (fun f => s.usable (dieOf (f * 65536)) && s.fotOk (s.ownid p) (f * 65536))

/-- Rights of an access table window (Table 4-7): bit 1 read, bit 2 write, bit 3 atomic. -/
def State.accessOk (s : State) (t m right addr : Nat) : Bool :=
  (List.range 4).any (fun w =>
    let lo := s.reg (accessOff t m w 0)
    let hi := s.reg (accessOff t m w 1)
    let base := bits lo 56 8 + bits hi 0 28 * 256
    let limit := bits hi 28 36
    lo.getLsbD 0 && lo.getLsbD right && decide (base ≤ addr / 65536) && decide (addr / 65536 ≤ limit))

/-! ### Homes that take no access for now (R70, R90, R203, R204) -/

/-- A die as reset leaves it: its LFSR at 0x8000 + d (R141). -/
def Die.fresh (d : Nat) : Die := { lfsr := BitVec.ofNat 16 (0x8000 + d) }
def State.die (s : State) (d : Nat) : Die := (Table.find s.dies d).getD (Die.fresh d)
def State.setDie (s : State) (d : Nat) (k : Die) : State := { s with dies := Table.put s.dies d k }

/-- Whether a slice of a die switches its SRAM mode (R89, R90); its reset value says no. -/
def State.sramSwitching (s : State) (d : Nat) : Bool := ((Table.find s.bar (sramrailOff d)).map (fun v => decide (bits v 32 2 = 1))).getD false

/-- Whether the home of a stack address takes no access: for a line not yet pulled (R204), for a slice that switches its mode (R90), for the fill of a pinned frame (R70). -/
def State.homeShut (s : State) (pa : Nat) : Bool :=
  (s.die (dieOf pa)).pulling.contains (pa / 256) || s.sramSwitching (dieOf pa) ||
    s.slots.any (fun e => e.2.filling.any (fun n => decide (s.regBits (slotOff e.1 (0x300 + 8 * n)) 0 24 = pa / 65536)))

/-- Whether an access that arrives at the home of a stack address waits there: the home is shut, or accesses that a migration brought to the line are still to be served first (R203 step 6). -/
def State.homeWaits (s : State) (pa : Nat) : Bool :=
  s.homeShut pa || s.homeOps.any (fun e => e.2.replayed && e.2.elems.any (fun y => decide (y.2 / 256 = pa / 256)))

/-! ### Time -/

/-- The cycle of the main clock, in eighths of a nanosecond (00_scope.md: 1.6 GHz): log entry 2. -/
def cycle : Nat := 5

/-- CLOCK, in nanoseconds (R18). -/
def State.clock (s : State) : Nat := s.time / 8 % 2 ^ 64

/-- Main-clock cycles between two times. -/
def cyclesSince (now since : Nat) : Nat := (now - since) / cycle

/-- A fresh identifier. -/
def State.newId (s : State) : Nat × State := (s.nextId, { s with nextId := s.nextId + 1 })

end Sys2Proof.Machine
end

