-- ==== Sys2Proof/Machine/Events.lean ====
section
/-! DEFINITION. Error events and counters (R78, R91, R92), and the in-place writes of the device itself. -/

namespace Sys2Proof.Machine

/-- An in-place write of the device at a home: each byte takes the stamp an atomic would give it (R223), so that no older record folds over it. -/
def State.deviceNow : State → Nat → List Byte → State
  | s, _, [] => s
  | s, a, b :: bs =>
    let st := (max s.clock ((s.stampOf a).1 + 1), 0)
    State.deviceNow { s with mem := Memory.write s.mem a b, stamps := Sparse.set (0, 0) s.stamps a st } (a + 1) bs

/-- The bytes of a write, line by line. -/
def byLine (a : Nat) (bs : List Byte) : List (Nat × List Byte) :=
  (List.range ((a + bs.length + 255) / 256 - a / 256)).map (fun i =>
    let lo := max a ((a / 256 + i) * 256)
    (lo, (bs.drop (lo - a)).take ((a / 256 + i) * 256 + 256 - lo)))

/-- A write of the device: in place, but for the lines whose home takes no access, where it waits (R70, R90, R204). -/
def State.deviceWrite (s : State) (a : Nat) (bs : List Byte) : State :=
  (byLine a bs).foldl (fun s x => if s.homeShut x.1 then { s with posts := s.posts ++ [{ pa := x.1, data := x.2 }] } else s.deviceNow x.1 x.2) s

/-- The value `v` added to the double word at an address of stack memory, at once and when its home takes accesses. -/
def State.addNow (s : State) (pa v : Nat) : State := s.deviceNow pa (leBytes 8 ((s.readLe pa 8 + v) % 2 ^ 64))
def State.addAt (s : State) (pa v : Nat) : State := if s.homeShut pa then { s with posts := s.posts ++ [{ pa := pa, data := leBytes 8 v, add := true }] } else s.addNow pa v

/-- The device's writes whose homes take accesses again, in order (R90). -/
def State.flushPosts (s : State) : State :=
  (s.posts.filter (fun x => !s.homeShut x.pa)).foldl (fun s x => if x.add then s.addNow x.pa (leNat x.data) else s.deviceNow x.pa x.data)
    { s with posts := s.posts.filter (fun x => s.homeShut x.pa) }

/-- One R78 counter increased, saturating. -/
def State.count (s : State) (set k n : Nat) : State :=
  s.setReg (counterOff set k) (BitVec.ofNat 64 (min 0xFFFFFFFF ((s.reg (counterOff set k)).toNat + n)))

/-- The 32 bytes of an event (Table 5-4). -/
def eventBytes (clock cls seg master unit pa : Nat) (mask : W32) : List Byte :=
  leBytes 8 clock ++ leBytes 1 cls ++ leBytes 1 seg ++ leBytes 2 master ++ leBytes 4 unit ++ leBytes 8 pa ++ leBytes 4 mask.toNat ++ leBytes 4 0

/-- An event written into the ring of slot `p` if the ring is enabled, owned and has room; else LOST counts it (R92). -/
def State.ringWrite (s : State) (p : Nat) (bytes : List Byte) : State :=
  let base := (s.reg (ringOff p 0)).toNat
  let size := s.regBits (ringOff p 16) 0 16
  let head := s.regBits (ringOff p 24) 0 32
  let tail := s.regBits (ringOff p 24) 32 32
  let a := base + 32 * (head % (size + 1))
  if s.regBits (ringOff p 8) 0 1 = 1 ∧ (head + 2 ^ 32 - tail) % 2 ^ 32 ≤ size ∧ s.fotRange p a 32 then
    (s.deviceWrite a bytes).setRegBits (ringOff p 24) 0 32 (head + 1)
  else s.setRegBits (ringOff p 16) 32 32 (min 0xFFFFFFFF (s.regBits (ringOff p 16) 32 32 + 1))

/-- An error event (R91, R92): counted in the R78 counter of its class (the lanes of its mask, or one), and written to the ring of the slot it is attributed to; `none` is a shared-structure error, which goes to slot 0's ring. -/
def State.event (s : State) (attr : Option Nat) (cls seg master unit pa : Nat) (mask : W32) : State :=
  let n := if mask = 0 then 1 else popcount mask
  let s := if cls ≤ 6 then
      match attr with
      | none => s.count 66 cls n
      | some p => s.count p cls n
    else s
  s.ringWrite (attr.getD 0) (eventBytes s.clock cls seg master unit pa mask)

/-- The slot whose OWNID a frame carries, if any (R46, R78): an error in a frame owned by 0, or by an id that no slot carries, is a shared-structure error. -/
def State.slotOfFrame (s : State) (pa : Nat) : Option Nat :=
  let o := s.frameOwner (pa / 65536)
  if o = 0 then none else (List.range 65).find? (fun p => decide (s.pctlState p ≠ 0) && decide (s.ownid p = o))

/-- An access that an access table refuses, or that no table lets reach an FOT region, logged for the owner of its frame (R46, R71, R76). -/
def State.logDenied (s : State) (master unit pa : Nat) : State := s.event (s.slotOfFrame pa) 0x20 6 master unit pa 0

end Sys2Proof.Machine
end

