-- ==== Sys2Proof/Machine/Slices.lean ====
section
/-! DEFINITION. The lines that the L2 slices hold (01 R19; 04 R67-R70; 11 R200): which ways a slot may fill, where a line lies, what a home's access allots, evicts or spills, and what a change of the quotas or a pin does with the lines. The contents of a home are those of its slice over memory, so a line's place shows only in what a counted line and a pinned frame may lose. -/

namespace Sys2Proof.Machine

/-! ### Quotas (R67, R68) -/

/-- Fields of entry `e` of a slice's quota register (Table 4-3). -/
def quotaSlot (r : W64) (e : Nat) : Nat := bits r (16 * e + 9) 7
def quotaWays (r : W64) (e : Nat) : Nat := bits r (16 * e + 4) 5
def quotaPinned (r : W64) (e : Nat) : Nat := bits r (16 * e) 4
def quotaSum (r : W64) : Nat := (List.range 4).foldl (fun n e => n + quotaWays r e) 0

/-- The quota register of a slice. -/
def State.quota (s : State) (sl : Nat) : W64 := s.reg (squotaOff sl)

/-- The first way of entry `e`: ways are assigned in entry order (R68). -/
def wayBase (r : W64) (e : Nat) : Nat := (List.range e).foldl (fun n i => n + quotaWays r i) 0

/-- The entry of a slot. -/
def quotaEntry (r : W64) (p : Nat) : Option Nat := (List.range 4).find? (fun e => decide (quotaSlot r e = p))

/-- The unpinned ways of a slot, and its pinned ones, which are the highest of its entry (R68). -/
def openWays (r : W64) (p : Nat) : List Nat := match quotaEntry r p with
  | some e => (List.range (quotaWays r e - quotaPinned r e)).map (wayBase r e + ·)
  | none => []
def pinnedWays (r : W64) (p : Nat) : List Nat := match quotaEntry r p with
  | some e => (List.range (quotaPinned r e)).map (wayBase r e + (quotaWays r e - quotaPinned r e) + ·)
  | none => []

/-- The slot that an unpinned way is open to. -/
def wayOwner (r : W64) (w : Nat) : Option Nat := (List.range 65).find? (fun p => (openWays r p).contains w)

/-! ### Where a line lies -/

/-- The set of a line, numbered through all slices; within a slice it is PA[15:10], so that a frame's 64 lines of a slice fill one way (R70; log entry 63). -/
def setOf (line : Nat) : Nat := homeOf (line * 256) * 64 + line / 4 % 64

/-- The lines of a set by way. -/
def State.setLines (s : State) (k : Nat) : Table SLine := (Table.find s.sets k).getD []
/-- A set written; an empty one is not listed. -/
def State.putLines (s : State) (k : Nat) (xs : Table SLine) : State := { s with sets := if xs.isEmpty then Table.drop s.sets k else Table.put s.sets k xs }

/-- Whether a line is resident in its slice. -/
def State.resident (s : State) (line : Nat) : Bool := (s.setLines (setOf line)).any (fun e => decide (e.2.line = line))

/-- Every line of a frame out of the slices. -/
def State.evictFrame (s : State) (frame : Nat) : State :=
  (s.sets.filter (fun e => e.2.any (fun x => decide (x.2.line / 256 = frame)))).foldl (fun s e => s.putLines e.1 (e.2.filter (fun x => decide (x.2.line / 256 ≠ frame)))) s

/-- A line out of its slice. -/
def State.leaveSlice (s : State) (line : Nat) : State :=
  let k := setOf line
  if s.resident line then s.putLines k ((s.setLines k).filter (fun e => decide (e.2.line ≠ line))) else s

/-! ### Evictions and spills (R200) -/

/-- A free spill slot of a counted line's partition slot: none without an area, or when it is full. -/
def State.spillSlot (s : State) (p : Nat) : Option Nat :=
  let r := s.slotReg p 0x3B8
  if bits r 16 36 = 0 then none
  else ((List.range ((bits r 0 8 + 1) * 128)).map (fun n => bits r 16 36 * 65536 + 512 * n)).find? (fun a => !s.counted.any (fun e => decide (e.2.slot = p) && e.2.spilled == some a))

/-- The first of some ways whose line can leave: an ordinary line is written back; a counted line is spilled; one that has nowhere to go, or whose spill fails its FOT check, stays, and the next line is tried. -/
def State.evictOne : State → List (Nat × SLine) → Option Nat × State
  | s, [] => (none, s)
  | s, v :: vs => match Table.find s.counted v.2.line with
    | none => (some v.1, s)
    | some c => match s.spillSlot c.slot with
      | none => State.evictOne s vs
      | some a =>
        if s.fotRange c.slot a 512 then (some v.1, { s with counted := Table.put s.counted v.2.line { c with spilled := some a } })
        else State.evictOne (s.event (some c.slot) 3 6 0xFFFF (homeOf (v.2.line * 256)) (v.2.line * 256) 0) vs

/-- A line accessed at its home takes a way that its owner's slot may fill (R68): a free one, or that of a line which leaves; which one goes first is the device's choice (log entry 63). With none, the access is served without a line (R200). -/
def State.allot (s : State) (line : Nat) : State :=
  let k := setOf line
  let xs := s.setLines k
  if xs.any (fun e => decide (e.2.line = line)) then s
  else
    let ways := openWays (s.quota (k / 64)) ((s.slotOfFrame (line * 256)).getD 0)
    match ways.find? (fun w => (Table.find xs w).isNone) with
    | some w => s.putLines k (Table.put xs w { line := line })
    | none =>
      let vs := xs.filter (fun e => ways.contains e.1)
      if vs.isEmpty then s
      else
        let n := Config.pick s.fresh % vs.length
        match State.evictOne { s with fresh := s.fresh + 1 } (vs.drop n ++ vs.take n) with
        | (some w, s) => s.putLines k (Table.put (s.setLines k) w { line := line })
        | (none, s) => s

/-! ### Quota changes and pins (R68-R70, R90) -/

/-- The slot whose pinned way a way is. -/
def pinOwner (r : W64) (w : Nat) : Option Nat := (List.range 65).find? (fun p => (pinnedWays r p).contains w)

/-- What becomes of a way's line when the quotas of a set with the lines `xs` change: an unpinned line stays where its way stays its slot's; the pinned lines of a slot take its new pinned ways in the order of their old ones, so that none is evicted while it is pinned (R70, R90); any other leaves. -/
def wayAfter (old new : W64) (xs : Table SLine) (e : Nat × SLine) : Option Nat :=
  if e.2.pinned then
    match pinOwner old e.1 with
    | some p => (pinnedWays new p)[(xs.filter (fun x => x.2.pinned && pinOwner old x.1 == some p && decide (x.1 < e.1))).length]?
    | none => none
  else if (wayOwner old e.1).isSome && wayOwner old e.1 == wayOwner new e.1 then some e.1 else none

/-- The lines of a slice after a change of its quotas: those in ways that a slot loses are written back and invalidated, a counted one spilled where it can be. -/
def State.requota (s : State) (sl : Nat) (old new : W64) : State :=
  (s.sets.filter (fun e => decide (e.1 / 64 = sl))).foldl (fun s e =>
    let gone := e.2.filter (fun x => (wayAfter old new e.2 x).isNone)
    let s := gone.foldl (fun s x => (s.evictOne [x]).2) s
    s.putLines e.1 (e.2.foldl (fun m x => match wayAfter old new e.2 x with
      | some w => Table.put m w x.2
      | none => m) [])) s

/-- A frame's 256 lines locked in a free pinned way of each of its four slices (R70). -/
def State.pinLines (s : State) (p frame : Nat) : State :=
  let s := s.evictFrame frame
  (List.range 256).foldl (fun s j =>
    let k := setOf (frame * 256 + j)
    match (pinnedWays (s.quota (k / 64)) p).find? (fun w => (Table.find (s.setLines k) w).isNone) with
    | some w => s.putLines k (Table.put (s.setLines k) w { line := frame * 256 + j, pinned := true })
    | none => s) s

end Sys2Proof.Machine
end

