-- ==== Sys2Proof/Machine/Regs.lean ====
section
/-! DEFINITION. Reading and writing the state by name: cores, logs, tasks, trains, portions; the scalar, mask, buffer and lane registers of a train (R12, R167); the train and portion in focus. -/

namespace Sys2Proof.Machine

/-! ### Cores, dies, logs, tasks -/

/-- A core as reset leaves it: its LFSR at COREID + 1 (R141). -/
def Core.fresh (c : Nat) : Core := { lfsr := BitVec.ofNat 16 (c + 1) }

def State.core (s : State) (c : Nat) : Core := (Table.find s.cores c).getD (Core.fresh c)
def State.setCore (s : State) (c : Nat) (k : Core) : State := { s with cores := Table.put s.cores c k }
def State.group (s : State) (g : Nat) : Group := (Table.find s.groups g).getD {}
def State.setGroup (s : State) (g : Nat) (k : Group) : State := { s with groups := Table.put s.groups g k }
def State.pslot (s : State) (p : Nat) : PSlot := (Table.find s.slots p).getD {}
def State.setPslot (s : State) (p : Nat) (k : PSlot) : State := { s with slots := Table.put s.slots p k }
def State.log (s : State) (l : Nat) : Log := (Table.find s.logs l).getD {}
def State.setLog (s : State) (l : Nat) (k : Log) : State := { s with logs := Table.put s.logs l k }
def State.queue (s : State) (q : Nat) : Queue := (Table.find s.queues q).getD {}
def State.setQueue (s : State) (q : Nat) (k : Queue) : State := { s with queues := Table.put s.queues q k }
def State.pairOf (s : State) (l : Nat) : Pair := (Table.find s.pairs l).getD {}
def State.setPair (s : State) (l : Nat) (k : Pair) : State := { s with pairs := Table.put s.pairs l k }
/-- Whether a program or its copy program still runs (R269, R278), or an MDRAIN of it has granules left to log (R231): steps left after any end but OK are cancelled. -/
def MxProg.active (m : MxProg) : Bool := !m.ended || m.copyJob.isSome || (m.status = 0 && decide (m.copyDone < m.copyN)) || !m.rest.isEmpty
def State.task (s : State) (t : Nat) : Option Task := Table.find s.tasks t
def State.setTask (s : State) (t : Nat) (k : Task) : State := { s with tasks := Table.put s.tasks t k }
def State.modTask (s : State) (t : Nat) (f : Task → Task) : State := { s with tasks := Table.modify s.tasks t f }

/-- The TASKID of a task table entry (R112): generation above the 16-bit task slot. -/
def taskIdOf (slot gen : Nat) : Nat := gen * 65536 + slot
def Task.id (k : Task) (slot : Nat) : Nat := taskIdOf slot k.gen

/-- The number of a train: core times 32 plus train slot. -/
def trainKey (core slot : Nat) : Nat := core * 32 + slot
def State.train (s : State) (core slot : Nat) : Option Train := Table.find s.trains (trainKey core slot)
def State.setTrain (s : State) (core slot : Nat) (t : Train) : State := { s with trains := Table.put s.trains (trainKey core slot) t }
def State.modTrain (s : State) (core slot : Nat) (f : Train → Train) : State := { s with trains := Table.modify s.trains (trainKey core slot) f }

/-- The trains resident on a core, with their slots, ascending. -/
def State.trainsOn (s : State) (core : Nat) : List (Nat × Train) :=
  (s.trains.filter (fun e => decide (e.1 / 32 = core))).map (fun e => (e.1 % 32, e.2))

/-- The trains of a task, with their keys, ascending. -/
def State.trainsOf (s : State) (task : Nat) : List (Nat × Train) := s.trains.filter (fun e => decide (e.2.task = task))

/-- The log id of a core, a yard's copy engine, a die's inbound log, a link-port log (Table 12-1). -/
def coreLog (c : Nat) : Nat := c
def copyLog (yard : Nat) : Nat := 1536 + yard
def inboundLog (die : Nat) : Nat := 1728 + die
def linkLog (g pa : Nat) : Nat := 1736 + 4 * g + pa / 256 % 4

/-! ### Registers of a train -/

/-- Scalar register `n`; S0 reads zero (R12). -/
def Train.getS (t : Train) (n : Nat) : W64 := if n = 0 then 0 else Sparse.get 0 t.s n
/-- A write of scalar register `n`; a write to S0 is discarded (R306). -/
def Train.setS (t : Train) (n : Nat) (v : W64) : Train := if n = 0 then t else { t with s := Sparse.set 0 t.s n v }
def Train.getK (t : Train) (n : Nat) : W32 := Sparse.get 0 t.k n
def Train.setK (t : Train) (n : Nat) (v : W32) : Train := { t with k := Sparse.set 0 t.k n v }
def Train.getB (t : Train) (n : Nat) : BitVec 256 := Sparse.get 0 t.b n
def Train.setB (t : Train) (n : Nat) (v : BitVec 256) : Train := { t with b := Sparse.set 0 t.b n v }
/-- Lane register `r` in lane `l`. -/
def Train.getV (t : Train) (r l : Nat) : W32 := Sparse.get 0 t.v (32 * r + l)
def Train.setV (t : Train) (r l : Nat) (v : W32) : Train := { t with v := Sparse.set 0 t.v (32 * r + l) v }
/-- Lane registers from `r` up in lane `l`. -/
def Train.setVs : Train → Nat → Nat → List W32 → Train
  | t, _, _, [] => t
  | t, r, l, w :: ws => Train.setVs (t.setV r l w) (r + 1) l ws

/-- A lane instruction's write of mask register `n` (R359): later lane instructions of its portion read it, those of clauses queued already among them. -/
def Train.laneK (t : Train) (p n : Nat) (v : W32) : Train :=
  { t.setK n v with portions := Table.modify t.portions p (fun o => { o with clauses := o.clauses.map (fun cl => { cl with k := Sparse.set 0 cl.k n v }) }) }

/-- The number of lane registers of budget code `k` (R166). -/
def budgetRegs (k : Nat) : Nat := 32 + 16 * k

/-- The operations that the running stream can wait for: in the handler, which has a bank of its own, the handler's own (R161). -/
def Train.ours (t : Train) : Table Pend := match t.handler with
  | some h => t.pend.filter (fun e => decide (h.mark ≤ e.1))
  | none => t.pend

/-- A portion of a train. -/
def Train.portion (t : Train) (p : Nat) : Option Portion := Table.find t.portions p
def Train.setPortion (t : Train) (p : Nat) (o : Portion) : Train := { t with portions := Table.put t.portions p o }

/-- The lanes of a mask, ascending. -/
def lanesOf (m : W32) : List Nat := (List.range 32).filter (fun l => m.getLsbD l)
/-- The mask of a list of lanes. -/
def maskOf (ls : List Nat) : W32 := ls.foldl (fun m l => m ||| (1#32 <<< l)) 0

/-! ### The focus -/

/-- The train in focus with its portion. -/
structure Cur where
  core : Nat
  slot : Nat
  p : Nat
  t : Train
  o : Portion

/-- The train and portion in focus, if resident. -/
def State.cur (s : State) : Option Cur :=
  match s.train s.focus.core s.focus.slot with
  | none => none
  | some t =>
    match t.portion s.focus.portion with
    | none => none
    | some o => some { core := s.focus.core, slot := s.focus.slot, p := s.focus.portion, t := t, o := o }

/-- The state with the focus train replaced. -/
def State.setCur (s : State) (t : Train) : State := s.setTrain s.focus.core s.focus.slot t
/-- The state with the focus train changed. -/
def State.modCur (s : State) (f : Train → Train) : State := s.modTrain s.focus.core s.focus.slot f
/-- The state with the focus portion changed. -/
def State.modPortion (s : State) (f : Portion → Portion) : State :=
  s.modCur (fun t => { t with portions := Table.modify t.portions s.focus.portion f })

/-- Live active lanes of a portion: EXM AND NOT DEADM. -/
def live (exm deadm : W32) : W32 := exm &&& ~~~ deadm

/-- The partition slot of a task. -/
def State.slotOfTask (s : State) (t : Nat) : Nat := ((s.task t).map Task.slot).getD 0

/-- The partition slot of the train in focus. -/
def Cur.pslot (c : Cur) (s : State) : Nat := s.slotOfTask c.t.task

/-- A task's scratchpad on a core. -/
def State.scratch (s : State) (core task : Nat) : Scratch := (Table.find (s.core core).scratch task).getD {}
def State.setScratch (s : State) (core task : Nat) (x : Scratch) : State :=
  let k := s.core core
  s.setCore core { k with scratch := Table.put k.scratch task x }
/-- SPSIZE (R187): 32 KiB for each way. -/
def Scratch.size (x : Scratch) : Nat := x.ways * 32768
def Scratch.read (x : Scratch) (a : Nat) : Byte := Sparse.get 0 x.bytes a
def Scratch.readLe (x : Scratch) (a n : Nat) : Nat := leNat ((List.range n).map (fun i => x.read (a + i)))
/-- Bytes written in place; a write of a poisoned word gives it a good code again (R85). -/
def Scratch.write : Scratch → Nat → List Byte → Scratch
  | x, _, [] => x
  | x, a, b :: bs =>
    Scratch.write { x with bytes := Sparse.set 0 x.bytes a b, bad := x.bad.filter (fun w => decide (w ≠ a / 4)) } (a + 1) bs

end Sys2Proof.Machine
end

