-- ==== Sys2Proof/Machine/Translate.lean ====
section
/-! DEFINITION. Translation (R189, R190): the walk, the cached translations of a core, and the checks of the translated address against its space and its owner (R66, R72, R187). Fault codes are those of Table 9-4. -/

namespace Sys2Proof.Machine

/-! ### Fault codes (Table 9-4) -/
def fILLOP : Nat := 0x01
def fEXHAUST : Nat := 0x02
def fADDRRANGE : Nat := 0x03
def fOWNERSHIP : Nat := 0x04
def fOOB : Nat := 0x05
def fPERM : Nat := 0x06
def fPAGEPOOL : Nat := 0x07
def fPAGEFAULT : Nat := 0x08
def fMIGRATIONLOST : Nat := 0x09
def fCOUNTOVER : Nat := 0x0A
def fREGBUDGET : Nat := 0x0B
def fROUTE : Nat := 0x0C
def fMXREDUCED : Nat := 0x0D
def fLINKERR : Nat := 0x0E
def fLINKTIMEOUT : Nat := 0x0F
def fLINKDOWN : Nat := 0x10
def fMLTIMEOUT : Nat := 0x11
def fSIGMIS : Nat := 0x12
def fUCESCALAR : Nat := 0x13
def fDOUBLEFLT : Nat := 0x14

/-- A canonical VA: bits 63:57 zero (R11). -/
def canonical (va : Nat) : Bool := decide (va < 2 ^ 57)

/-- What an access does with a page: reads it, stores to it, fetches code from it. -/
inductive Right where
  | read
  | write
  | fetch
  deriving DecidableEq, Repr

/-- The outcome of a walk: a leaf (its level, its page's address, W, X); a fault; a walk entry in a poisoned granule (R190). -/
inductive Walk where
  | leaf (level pa : Nat) (w x : Bool)
  | fault (code : Nat)
  | poison (pa : Nat)
  deriving DecidableEq, Repr

/-- The lowest VA bit that level `l` indexes, and the number of its index bits (R190). -/
def levelShift (l : Nat) : Nat := if l = 0 then 16 else 12 + 9 * l
def levelBits (l : Nat) : Nat := if l = 0 then 5 else 9

/-- Where the entry of a VA lies in the level `l` table at `table`. -/
def entryAddr (table l va : Nat) : Nat := table + 8 * (va / 2 ^ levelShift l % 2 ^ levelBits l)

/-- One entry judged (R190): what the walk does with the value `e` read at level `l`. -/
def judgeEntry (l : Nat) (e : W64) (pool : Bool) : Walk ⊕ Nat :=
  let addr := bits e 8 44 * 256
  let leaf := e.getLsbD 1
  if !e.getLsbD 0 then .inl (.fault (if pool then fPAGEPOOL else fPAGEFAULT))
  else if bits e 52 12 ≠ 0 ∨ bits e 5 3 ≠ 0 ∨ (leaf ∧ 3 ≤ l) ∨ (!leaf ∧ l = 0) ∨ (leaf ∧ addr % 2 ^ levelShift l ≠ 0) ∨ (!leaf ∧ !isStack addr) then
    .inl (.fault fPAGEFAULT)
  else if e.getLsbD 4 then .inl (.fault fMIGRATIONLOST)
  else if leaf then .inl (.leaf l addr (e.getLsbD 2) (e.getLsbD 3))
  else .inr addr

/-- The walk from the level `l` table at `table`, under owner id `id`: entries are read at their homes' folded contents, past the FOT check (R190). An entry on a die that is not usable raises the address-range fault (R30). A root table that PTROOT places outside stack memory gives PAGEFAULT, as a non-leaf entry that points there does; the manual states it of the entry alone (log entry 65). -/
def State.walkFrom (s : State) (id va : Nat) (pool : Bool) : Nat → Nat → Walk
  | 0, table =>
    let a := entryAddr table 0 va
    if !isStack a then .fault fPAGEFAULT
    else if !s.usable (dieOf a) then .fault fADDRRANGE
    else if !s.fotOk id a then .fault fOWNERSHIP
    else if s.poisoned a then .poison a
    else match judgeEntry 0 (BitVec.ofNat 64 (s.readLe a 8)) pool with
      | .inl r => r
      | .inr _ => .fault fPAGEFAULT
  | l + 1, table =>
    let a := entryAddr table (l + 1) va
    if !isStack a then .fault fPAGEFAULT
    else if !s.usable (dieOf a) then .fault fADDRRANGE
    else if !s.fotOk id a then .fault fOWNERSHIP
    else if s.poisoned a then .poison a
    else match judgeEntry (l + 1) (BitVec.ofNat 64 (s.readLe a 8)) pool with
      | .inl r => r
      | .inr t => s.walkFrom id va pool l t

/-- The walk of a VA in a slot's mapping (R189, R190). -/
def State.walk (s : State) (p va : Nat) (pool : Bool) : Walk :=
  let root := s.slotReg p 0x3B0
  if !root.getLsbD 0 then .fault fPAGEFAULT else s.walkFrom (s.ownid p) va pool 4 (bits root 12 40 * 4096)

/-- The addresses of the entries that a walk reads from the level `l` table at `table`. -/
def State.walkEntries (s : State) (va : Nat) : Nat → Nat → List Nat
  | 0, table => [entryAddr table 0 va]
  | l + 1, table =>
    let a := entryAddr table (l + 1) va
    a :: (match judgeEntry (l + 1) (BitVec.ofNat 64 (s.readLe a 8)) false with
      | .inl _ => []
      | .inr t => s.walkEntries va l t)

/-- Whether a walk waits at the home of one of its entries (R70, R90, R204). -/
def State.walkWaits (s : State) (p va : Nat) : Bool :=
  let root := s.slotReg p 0x3B0
  root.getLsbD 0 && (s.walkEntries va 4 (bits root 12 40 * 4096)).any (fun a => isStack a && s.homeWaits a)

/-- The outcome of a translation. -/
inductive Xlate where
  | ok (pa : Nat)
  | fault (code : Nat)
  deriving DecidableEq, Repr

/-- Permissions of a leaf (R190), then its address. -/
def leafOut (level pa : Nat) (w x : Bool) (va : Nat) (r : Right) : Xlate :=
  if (r = .write ∧ !w) ∨ (r = .fetch ∧ !x) then .fault fPERM else .ok (pa + va % 2 ^ levelShift level)

/-- The cached translation of a VA in a list of them (R190). -/
def cachedIn (tlb : List Tlb) (p va : Nat) : Option Tlb := tlb.find? (fun e => decide (e.slot = p) && decide (e.page = va / 2 ^ levelShift e.level))

/-- The cached translation of a VA, if the core holds one (R190). -/
def Core.cached (k : Core) (p va : Nat) : Option Tlb := cachedIn k.tlb p va

/-- The entry that caches a leaf. -/
def tlbOf (p va l pa : Nat) (w x : Bool) : Tlb := { slot := p, level := l, page := va / 2 ^ levelShift l, pa := pa, w := w, x := x }

/-- The translations that an engine caches, and its number among the engines: a yard's copy engine, a pair's sequencer by its leader (R190). -/
def State.etlb (s : State) (eng : Nat) : List Tlb := (Table.find s.etlbs eng).getD []
def copyEngine (yard : Nat) : Nat := 1536 + yard
def sequencer (leader : Nat) : Nat := 4096 + leader

/-- Every cached translation that `sel` picks dropped, in cores and engines. -/
def State.dropTlbs (s : State) (sel : Tlb → Bool) : State :=
  { s with
    cores := s.cores.map (fun (e : Nat × Core) => (e.1, { e.2 with tlb := e.2.tlb.filter (fun x => !sel x) }))
    etlbs := s.etlbs.map (fun (e : Nat × List Tlb) => (e.1, e.2.filter (fun x => !sel x))) }

/-- Translation of a canonical VA by the device (R425): an engine `eng` uses the translations it caches, and caches a walk's leaf; another agent walks each time. A poisoned entry is counted and reported (R190). -/
def State.translateAt (s : State) (eng : Option Nat) (p va : Nat) (r : Right) (pool : Bool) : Xlate × State :=
  match eng.bind (fun n => cachedIn (s.etlb n) p va) with
  | some e => (leafOut e.level e.pa e.w e.x va r, s)
  | none => match s.walk p va pool with
    | .leaf l pa w x => (leafOut l pa w x va r, match eng with
      | some n => { s with etlbs := Table.put s.etlbs n (tlbOf p va l pa w x :: s.etlb n) }
      | none => s)
    | .fault c => (.fault c, s)
    | .poison pa => (.fault fPAGEFAULT, s.event (some p) 2 6 0xFFFF (homeOf pa) pa 0)

/-- Whether an agent's translation waits at the home of a walk entry. -/
def State.xlateWaits (s : State) (eng : Option Nat) (p va : Nat) : Bool := (eng.bind (fun n => cachedIn (s.etlb n) p va)).isNone && s.walkWaits p va
/-- Whether a core's does. -/
def State.coreXlateWaits (s : State) (core p va : Nat) : Bool := canonical va && ((s.core core).cached p va).isNone && s.walkWaits p va

/-- Translation for a core: its cached translations are used, and a walk's leaf is cached (R190). -/
def State.translate (s : State) (core p va : Nat) (r : Right) (pool : Bool) : Xlate × State :=
  match (s.core core).cached p va with
  | some e => (leafOut e.level e.pa e.w e.x va r, s)
  | none =>
    match s.walk p va pool with
    | .leaf l pa w x =>
      let k := s.core core
      (leafOut l pa w x va r, s.setCore core { k with tlb := tlbOf p va l pa w x :: k.tlb })
    | .fault c => (.fault c, s)
    | .poison pa => (.fault fPAGEFAULT, s.event (some p) 2 6 0xFFFF (homeOf pa) pa 0)

/-- The state of a group (Table 2-4) and its personality. -/
def State.groupState (s : State) (g : Nat) : Nat := s.regBits (lgstatOff g) 16 3
def State.groupPers (s : State) (g : Nat) : Nat := s.regBits (lgstatOff g) 8 2

/-- The groups of a window's active GROUPS that have entered QUIESCING and not left REMAP. -/
def State.switching (s : State) (n : Nat) : List Nat := (setBitsOf (s.lwd n 96 16) 16).filter (fun g => (s.group g).quiesced && decide (2 ≤ s.groupState g))

/-- Whether a link window is in transition: some group of its active GROUPS has entered QUIESCING and has not left REMAP (R44). -/
def State.inTransition (s : State) (n : Nat) : Bool := !(s.switching n).isEmpty

/-- Whether the group that an access to a window goes to is ACTIVE with the window's personality (R33). -/
def State.linkUp (s : State) (n pa : Nat) : Bool := decide (s.groupState (s.groupOf n pa) = 1) && decide (s.groupPers (s.groupOf n pa) = s.lwd n 4 2)

/-- Whether a window cannot carry a request now: it is FAIL and in transition (R44), or its group is not up. -/
def State.linkCut (s : State) (n pa : Nat) : Bool := if s.inTransition n then decide (s.lwd n 3 1 = 1) else !s.linkUp n pa

/-- The group that started a window's transition: of those that switch, the one whose sequence began first (R44). -/
def State.transitionGroup (s : State) (n : Nat) : Nat :=
  ((s.switching n).foldl (fun (b : Option Nat) g => match b with
    | none => some g
    | some h => if (s.group g).began < (s.group h).began then some g else some h) none).getD 0

/-- The check of a translated address for a record of kind `kind` (R187), the slot's windows and its owner (R66, R52, R71, R72): none if the access may go on. A store (`now` false) has its frame's owner checked when its record folds (R72), and is dropped when it would be sent across a link that is cut (R44); but no access reaches an FOT region. -/
def State.refusal (s : State) (p kind pa : Nat) (now : Bool) : Option Nat :=
  match s.place pa with
  | .stack => if kind = 3 then some fADDRRANGE else if s.fotOk (s.ownid p) pa || (!now && !fotRegion pa) then none else some fOWNERSHIP
  | .link n =>
    if kind = 3 ∨ kind = 4 then some fADDRRANGE
    else if !s.slotBit p 0x240 n then some fOWNERSHIP
    else if now && s.linkCut n pa then some fLINKDOWN
    else none
  | .host n =>
    if kind = 4 ∨ (kind = 3 ∧ s.hwd n 2 1 = 0) ∨ (kind ≠ 3 ∧ s.hwd n 2 1 = 1) then some fADDRRANGE
    else if s.hwd n 10 8 = s.ownid p then none else some fOWNERSHIP
  | .nowhere => some fADDRRANGE

/-! ### Requests to link groups and the host link (R38, R44, R47, R53) -/

/-- The die of a home, if it is on the package: a slice's, a link port's, which stands on its group's die (R31), or a copy engine's. -/
def homeDie (key : Nat) : Option Nat :=
  if key < 2048 then some (key / 256) else if key < 8192 then some ((key - 4096) / 2) else if 16384 ≤ key ∧ key < 16576 then some ((key - 16384) / 24) else none
/-- A copy engine as the receiver of a contribution (R286). -/
def engineKey (yard : Nat) : Nat := 16384 + yard

/-- The die of an agent that sends messages: a core, a copy engine, the keepers of inbound and link-port logs by their log id; the queue engine and the migration engine of die d are agents 1800 + d and 1808 + d, and port x of group g, for the requests that it takes from outside, agent 1816 + 2 g + x. -/
def agentDie (a : Nat) : Nat :=
  if a < 1536 then a / 192 else if a < 1728 then (a - 1536) / 24 else if a < 1736 then a - 1728 else if a < 1800 then (a - 1736) / 8 else if a < 1816 then (a - 1800) % 8 else (a - 1816) / 4
def queueEngine (d : Nat) : Nat := 1800 + d
def migrationEngine (d : Nat) : Nat := 1808 + d
def inboundPort (master : Nat) : Nat := 1816 + (master - 96)

/-- Whether a message from a die has reached a home: delivered by the main line, or with no port to cross (R24). -/
def arrived (deliv : Bool) (die key : Nat) : Bool := deliv || match homeDie key with
  | some d => decide (d = die)
  | none => true

/-- A request put into the hold queue of a group (R44). -/
def State.hold (s : State) (g id : Nat) (o : Outbound) : State :=
  let s := s.setGroup g { s.group g with hold := (s.group g).hold ++ [id] }
  { s with outbound := Table.put s.outbound id { o with group := some g, held := true } }

/-- Whether a CXL port's lock on a line is taken: a read-modify-write of it, or a write to it, is under way (R35). -/
def State.lineLocked (s : State) (pa : Nat) : Bool := s.outbound.any (fun e => decide (e.2.pa / 256 = pa / 256) && match e.2.reply with
  | .cxlRead .. => true
  | .cxlWrite .. => true
  | .fold .. => true
  | _ => false)

/-- Whether an atomic of an agent that acts at its window's port itself finds the line's lock taken (R35). -/
def State.portLocked (s : State) (pa : Nat) : Bool := match s.place pa with
  | .link n => decide (s.lwd n 4 2 = 1) && s.lineLocked pa
  | _ => false

/-- A request sent to the port of its window's group, across the main line if that stands on another die (R31). -/
def State.sendOut (s : State) (n : Nat) (o : Outbound) : State :=
  { s with
    nextId := s.nextId + 1
    outbound := Table.put s.outbound s.nextId { o with
      group := some (s.groupOf n o.pa), deliv := arrived false (agentDie o.src) (4096 + s.groupOf n o.pa), mark := (s.log (linkLog (s.portGroup n o.pa) o.pa)).tail } }

/-- A request of the agent `src` to a window: sent, or held while its window is in transition (R44). -/
def State.request (s : State) (src pa len : Nat) (write : Bool) (aop : Option Nat) (data : List Byte) (reply : OutFor) (pois : Bool) : State :=
  let o : Outbound := { group := none, pa := pa, len := len, write := write, aop := aop, data := data, reply := reply, sent := s.time, src := src, pois := pois }
  match s.place pa with
  | .link n => if s.inTransition n then { s with nextId := s.nextId + 1 }.hold (s.transitionGroup n) s.nextId o else s.sendOut n o
  | .host n => { s with nextId := s.nextId + 1, outbound := Table.put s.outbound s.nextId { o with win := some n, bus := s.busAddr n pa, func := s.hwd n 3 7 } }
  | _ => { s with nextId := s.nextId + 1, outbound := Table.put s.outbound s.nextId o }

/-- An atomic sent from a window's port: over UALink and the host link as one request; a CXL port reads, changes and writes the bytes itself, for CXL.mem carries no atomics (R34, R35, R53). -/
def State.atomicTo (s : State) (src pa size aop v c : Nat) (back : OutFor) : State :=
  match s.place pa with
  | .link n => if s.lwd n 4 2 = 1 then s.request src pa size false none [] (.cxlRead aop size v c back) false
      else s.request src pa size false (some aop) (leBytes size v ++ leBytes size c) back false
  | _ => s.request src pa size false (some aop) (leBytes size v ++ leBytes size c) back false

/-- A posted write on the host link (R52, R53). -/
def State.post (s : State) (pa : Nat) (data : List Byte) (pois : Bool) : State :=
  match s.place pa with
  | .host n => { s with sent := s.sent ++ [.posted (some n) pa (s.busAddr n pa) (s.hwd n 3 7) data pois] }
  | _ => { s with sent := s.sent ++ [.posted none pa 0 0 data pois] }

/-- How many more requests the hold queue takes that a request to an address would wait in (R44): none where it would not wait. -/
def State.holdRoom (s : State) (pa : Nat) : Option Nat :=
  match s.place pa with
  | .link n => if s.inTransition n && decide (s.lwd n 3 1 = 0) then some (512 - (s.group (s.transitionGroup n)).hold.length) else none
  | _ => none

/-- Whether a request to an address would find the hold queue of its window full (R44). -/
def State.holdFull (s : State) (pa : Nat) : Bool := s.holdRoom pa == some 0

/-! ### Agents and their messages to homes on other dies (R24-R26) -/

/-- The die whose queue engine places the work of a queue (R134). -/
def State.queueDie (s : State) (q : Nat) : Nat := s.regBits (queueOff q 0) 7 45 * 128 / 2 ^ 37 % 8

/-- The agent that sends the reads of an owner. -/
def State.ownerAgent (s : State) (owner : Nat) : Nat :=
  if owner < 2 ^ 20 then owner / 128
  else if owner < 2 ^ 21 then queueEngine (s.queueDie (owner - 2 ^ 20))
  else if 2 ^ 22 ≤ owner ∧ owner < 2 ^ 30 then owner - 2 ^ 22
  else if owner < 2 ^ 30 then match s.task (owner - 2 ^ 21) with
    | some k => k.agentCore.getD (queueEngine (s.queueDie k.queue))
    | none => queueEngine 0
  else if owner < 2 ^ 40 then match Table.find s.jobs (owner - 2 ^ 30) with
    | some j => copyLog j.yard
    | none => queueEngine 0
  else migrationEngine ((owner - 2 ^ 40) % 8)

/-- The owner number of a portion's reads, of the device's queue engines, of a pair's program, of an engine job's, and of a die's migration engine. -/
def portionOwner (core slot p : Nat) : Nat := trainKey core slot * 4 + p
def queueOwner (q : Nat) : Nat := 2 ^ 20 + q
def taskOwner (t : Nat) : Nat := 2 ^ 21 + t
def programOwner (leader : Nat) : Nat := 2 ^ 22 + leader
def jobOwner (j : Nat) : Nat := 2 ^ 30 + j
def migOwner (d : Nat) : Nat := 2 ^ 40 + d

/-- Whether an agent's access to a stack address has still to cross the main line (R24): its home lies on another die, one that is usable (R30), and no message of the agent for it has been delivered there. -/
def State.away (s : State) (owner a : Nat) : Bool :=
  isStack a && s.usable (dieOf a) && !arrived false (agentDie (s.ownerAgent owner)) (homeOf a) && !s.far.any (fun f => decide (f.owner = owner) && decide (f.len = 0) && f.data.isSome && decide (homeOf f.pa = homeOf a))

/-- Whether the main line has given that message up (R26). -/
def State.gaveUp (s : State) (owner a : Nat) : Bool := isStack a && s.far.any (fun f => decide (f.owner = owner) && decide (f.len = 0) && decide (f.code ≠ 0) && decide (homeOf f.pa = homeOf a))

/-- The message of an agent to the home of a stack address sent, unless it is under way. -/
def State.sendTo (s : State) (owner a : Nat) : State :=
  if s.away owner a && !s.far.any (fun f => decide (f.owner = owner) && decide (f.len = 0) && decide (homeOf f.pa = homeOf a)) then
    { s with nextId := s.nextId + 1, far := s.far ++ [{ owner := owner, pa := a, len := 0, sent := s.time, msg := s.nextId }] }
  else s

/-- The messages of an owner to homes are used up. -/
def State.dropTrips (s : State) (owner : Nat) : State := { s with far := s.far.filter (fun f => decide (f.owner ≠ owner) || decide (f.len ≠ 0) || !isStack f.pa) }

/-- The addresses of the entries that the walk of a VA reads. -/
def State.walkPath (s : State) (p va : Nat) : List Nat :=
  let root := s.slotReg p 0x3B0
  if root.getLsbD 0 then s.walkEntries va 4 (bits root 12 40 * 4096) else []

/-- The first entry of an agent's walk whose home its message has not reached, or where it waits (R24, R70, R90, R204). -/
def State.walkStops (s : State) (owner p va : Nat) : Option Nat := (s.walkPath p va).find? (fun a => isStack a && (s.homeWaits a || s.away owner a))
/-- Where an engine's translation of a VA stops, and whether it is lost: a cached translation needs no walk. -/
def State.engineStops (s : State) (eng : Option Nat) (owner p va : Nat) : Option Nat :=
  if canonical va && (eng.bind (fun n => cachedIn (s.etlb n) p va)).isNone then s.walkStops owner p va else none
/-- Whether a message of the walk has been given up. -/
def State.walkLost (s : State) (owner p va : Nat) : Bool := (s.walkPath p va).any (fun a => s.gaveUp owner a)

/-! ### Records and descriptors read at their homes (R425) -/

/-- The outcome of a read: its bytes; a fault with its address; poison, with the address of its first poisoned byte; or a read that must be made first, through a window or over the main line. -/
inductive DRead where
  | ok (bytes : List Byte)
  | fault (code va : Nat)
  | poison (va : Nat)
  | far (pa len : Nat)
  deriving DecidableEq, Repr

/-- Whether some granule of a range is poisoned. -/
def State.anyPoison (s : State) (a n : Nat) : Bool := (List.range ((a + n + 31) / 32 - a / 32)).any (fun i => s.poisoned (a / 32 * 32 + 32 * i))

/-- How far into a range its first poisoned granule begins. -/
def State.poisonFrom (s : State) (a n : Nat) : Nat :=
  (((List.range ((a + n + 31) / 32 - a / 32)).find? (fun i => s.poisoned (a / 32 * 32 + 32 * i))).map (fun i => a / 32 * 32 + 32 * i - a)).getD 0

/-- Whether an address lies in the space of link windows (R21). -/
def inLinks (pa : Nat) : Bool := decide (pa < 0xC000000000000)

/-- Where the requests of a read begin and end: across a link they carry whole granules, for UALink reads no less than 32 bytes (R33). -/
def farLow (pa : Nat) : Nat := if inLinks pa then pa / 32 * 32 else pa
def farHigh (pa n : Nat) : Nat := if inLinks pa then (pa + n + 31) / 32 * 32 else pa + n

/-- A read through a window in the requests that carry it, at most 256 bytes each (R33). -/
def farPieces (pa n : Nat) : List (Nat × Nat) := (List.range ((pa + n + 255) / 256 - pa / 256)).map (fun i =>
  let lo := max (farLow pa) ((pa / 256 + i) * 256)
  (lo, min (farHigh pa n) ((pa / 256 + i) * 256 + 256) - lo))

/-- The answer to a part of a read through a window, if it has come. -/
def State.farPart (s : State) (owner : Nat) (x : Nat × Nat) : Option Far := s.far.find? (fun f => decide (f.owner = owner) && decide (f.pa = x.1) && decide (f.len = x.2))

/-- A read through a window put together from its parts. -/
def State.farRead (s : State) (owner va pa n : Nat) : DRead :=
  let cut := fun (r : DRead) => match r with
    | .ok bs => .ok ((bs.drop (pa - farLow pa)).take n)
    | r => r
  cut <| (farPieces pa n).foldl (fun (r : DRead) x => match r with
    | .ok bs => match s.farPart owner x with
      | none => .far pa n
      | some f => match f.data with
        | none => .far pa n
        | some cs => if f.code ≠ 0 then .fault f.code va else .ok (bs ++ cs)
    | r => r) (.ok [])

/-- `n` bytes at a VA of a slot that lie in one 4 KiB block, read at their home under the checks of R425; `eng` is the engine that reads. -/
def State.readChunk (s : State) (eng : Option Nat) (owner p va n : Nat) : DRead :=
  let cached := (eng.bind (fun e => cachedIn (s.etlb e) p va)).isSome
  if !canonical va then .fault fADDRRANGE va
  else if !cached && s.walkLost owner p va then .fault fMLTIMEOUT va
  else match (if cached then none else s.walkStops owner p va) with
  | some a => .far a 0
  | none => match (s.translateAt eng p va .read false).1 with
  | .fault c => .fault c va
  | .ok pa =>
    match s.refusal p 0 pa true with
    | some c => .fault c va
    | none =>
      if !isStack pa then s.farRead owner va pa n
      else if s.gaveUp owner pa then .fault fMLTIMEOUT va
      else if s.homeWaits pa || s.away owner pa then .far pa n
      else if s.anyPoison pa n then .poison (va + s.poisonFrom pa n) else .ok (s.readBytes pa n)

/-- A longer read, block by block; `fuel` bounds the number of blocks. -/
def State.readFrom (s : State) (eng : Option Nat) (owner p : Nat) : Nat → Nat → Nat → DRead
  | 0, _, _ => .ok []
  | fuel + 1, va, n =>
    if n = 0 then .ok []
    else
      let m := min n (4096 - va % 4096)
      match s.readChunk eng owner p va m with
      | .ok bs => match State.readFrom s eng owner p fuel (va + m) (n - m) with
        | .ok cs => .ok (bs ++ cs)
        | r => r
      | r => r

/-- `n` bytes at a VA of a slot as an agent reads a record or descriptor (R425). -/
def State.deviceRead (s : State) (owner p va n : Nat) : DRead := s.readFrom none owner p (n / 4096 + 2) va n

/-- A read through a window asked for part by part, unless a part is under way, answered, or would find its hold queue full (R44); one of a stack address waits at its home, to which it is sent (R24). -/
def State.askFar (s : State) (owner pa n : Nat) : State :=
  if isStack pa then s.sendTo owner pa
  else (farPieces pa n).foldl (fun s x =>
    if (s.farPart owner x).isSome || s.holdFull x.1 then s
    else { s.request (s.ownerAgent owner) x.1 x.2 false none [] (.far owner x.1) false with far := s.far ++ [{ owner := owner, pa := x.1, len := x.2 }] }) s

/-- The answers an agent has used are dropped. -/
def State.dropFar (s : State) (owner : Nat) : State := { s with far := s.far.filter (fun f => decide (f.owner ≠ owner)) }

/-- Where a core's translation of a VA stops for an entry's home, on behalf of the reader `owner` (R24, R70, R90, R204). -/
def State.coreStops (s : State) (core owner p va : Nat) : Option Nat :=
  if canonical va && ((s.core core).cached p va).isNone then s.walkStops owner p va else none

/-- A poisoned walk entry that an agent's walk of a VA meets, counted and reported (R190). -/
def State.reportWalk (s : State) (cached : Bool) (p va : Nat) : State :=
  if cached || !canonical va then s
  else match s.walk p va false with
    | .poison pa => s.event (some p) 2 6 0xFFFF (homeOf pa) pa 0
    | _ => s

/-- What a reader reports of a failed read: the poisoned walk entry behind a PAGEFAULT (R190). -/
def State.reportRead (s : State) (p : Nat) : DRead → State
  | .fault c va => if c = fPAGEFAULT then s.reportWalk false p va else s
  | _ => s

end Sys2Proof.Machine
end

