-- ==== Sys2Proof/Machine/Log.lean ====
section
/-! DEFINITION. Store logs (R207-R239) and the core's view of global memory (R192, R193, R196, R218, R228): appending and merging, publication and stamps, fold marks, release and acquire, dropping and voiding records, the lines that a view and a stash have room for, asking for sectors and invalidating them. -/

namespace Sys2Proof.Machine

/-! ### Marks -/

/-- The fold mark: the least position whose record has not folded, been dropped or voided (R208); a record that has is no longer listed. -/
def Log.mark (g : Log) : Nat :=
  match g.recs with
  | [] => g.tail
  | r :: _ => r.pos

/-- Records still in the ring (R232). -/
def Log.ring (g : Log) : List Rec := g.recs.filter (fun r => !r.spilled)
/-- Records in the spill segment that have not folded. -/
def Log.inSegment (g : Log) : List Rec := g.recs.filter (fun r => r.spilled)

/-- C, the records a core's segment holds (R232, R233): none while LOGSEG.BASE is 0. -/
def State.segCap (s : State) (p : Nat) : Nat :=
  let r := s.slotReg p 0x3C8
  if bits r 16 36 = 0 then 0 else 262144 * 2 ^ bits r 0 3 / 48

/-- Where a core's segment begins (R233). -/
def State.segBase (s : State) (p core : Nat) : Nat :=
  let r := s.slotReg p 0x3C8
  bits r 16 36 * 65536 + s.coreIndex p core * 262144 * 2 ^ bits r 0 3

/-- Hash(A) of a line address (R220): the XOR of the bytes A[15:8] to A[63:56]. -/
def lineHash (va : Nat) : Nat :=
  (List.range 7).foldl (fun h i => h ^^^ (va / 2 ^ (8 * (i + 1)) % 256)) 0

/-- The 48 bytes of a record (R209, Table 12-2); in a link-port log TRAIN reads 0, and the train that an error goes back to is kept beside it. -/
def Rec.bytes (r : Rec) : List Byte :=
  leBytes 16 (r.gran + r.mask.toNat * 2 ^ 52 + r.task * 2 ^ 84 + (if r.origin.isSome then 0 else r.train) * 2 ^ 100 + (if r.void then 2 ^ 105 else 0) + (if r.pois then 2 ^ 106 else 0)
    + (if r.cntd then 2 ^ 107 else 0) + r.count * 2 ^ 108 + r.slot * 2 ^ 116) ++ r.data

/-! ### Errors held for a train (R238) -/

/-- The task completion facts take an error of a train that has ended (R238): LOGERR, and the reason if none stands. -/
def mergeLogErr (x : W32) (reason : Nat) : W32 :=
  let x := x ||| 0x400
  if (x >>> 12) &&& 0xF = 0 then x ||| BitVec.ofNat 32 (reason % 16 * 4096) else x

/-- The segment a drop is reported from, as a row of Table 5-1: the log ring for a header that fails its check, the main line, a link or the host link, the slice for the rest (log entry 39). -/
def dropSegment (reason : Nat) : Nat := if reason = 4 then 4 else if reason = 5 then 5 else if 6 ≤ reason then 8 else 6

/-- A record is dropped (R238): the error is held with its train, or merged into its task's record when the train has ended; the drop is counted and reported. -/
def State.dropReport (s : State) (log : Nat) (r : Rec) (reason : Nat) : State :=
  let core := (r.origin.map Prod.fst).getD log
  let s := if core < 1536 then
      match s.train core r.train with
      | some t => if t.task = r.task then s.setTrain core r.train { t with logErrs := t.logErrs ++ [reason] }
          else s.modTask r.task (fun k => { k with xflags := mergeLogErr k.xflags reason })
      | none => s.modTask r.task (fun k => { k with xflags := mergeLogErr k.xflags reason })
    else s
  s.event (some r.slot) 5 (dropSegment reason) 0xFFFF core (r.pa.getD 0) 0

/-! ### Appending (R210, R211, R232) -/

/-- Whether a stored granule merges into a record (R211). -/
def Rec.takes (r : Rec) (p train task gran mark : Nat) (cntd : Bool) : Bool :=
  !r.spilled && r.stamp.isNone && decide (r.slot = p) && decide (r.gran = gran) && decide (r.train = train) &&
    decide (r.task = task) && (r.cntd == cntd) && decide (mark ≤ r.pos)

/-- Bytes of `new` where the mask bit is set, of `old` elsewhere. -/
def overlay : List Byte → List Byte → List Bool → List Byte
  | o :: os, n :: ns, m :: ms => (if m then n else o) :: overlay os ns ms
  | os, _, _ => os

/-- The newest record of a granule replaced by its merge with a store (R211). -/
def mergeInto (gran p : Nat) (f : Rec → Rec) (rs : List Rec) : List Rec :=
  match rs.reverse.findIdx? (fun r => decide (r.gran = gran) && decide (r.slot = p)) with
  | none => rs
  | some i => rs.modify (rs.length - 1 - i) f

/-- The newest record of a granule in a log. -/
def Log.newest (g : Log) (gran p : Nat) : Option Rec := g.recs.reverse.find? (fun r => decide (r.gran = gran) && decide (r.slot = p))

/-- A log with a record at its tail, the block's summary updated (R220). -/
def Log.push (g : Log) (r : Rec) (va : Nat) : Log :=
  let b := g.tail / 64
  let sum := (Table.find g.sums b).getD 0
  { g with
    tail := g.tail + 1
    recs := g.recs ++ [{ r with pos := g.tail }]
    sums := (Table.put g.sums b (sum ||| (1#256 <<< lineHash (va / 256 * 256)))).filter (fun e => decide (b ≤ e.1 + 64)) }

/-- A spill of the oldest ring record when the ring is full (R232): written to the segment, or dropped with reason 1 when the segment fails its FOT check (R233). -/
def State.spillOne (s : State) (core : Nat) : State :=
  let g := s.log core
  if g.ring.length < 512 then s else
  match g.recs.find? (fun r => !r.spilled) with
  | none => s
  | some r =>
    let c := s.segCap r.slot
    if c = 0 then s else
    let a := s.segBase r.slot core + r.pos % c * 48
    if s.fotRange r.slot a 48 then
      let s := s.deviceWrite a r.bytes
      s.setLog core { g with recs := g.recs.map (fun x => if x.pos = r.pos then { x with spilled := true } else x) }
    else
      (s.setLog core { g with recs := g.recs.filter (fun x => decide (x.pos ≠ r.pos)) }).dropReport core r 1

/-- Whether a spill that `n` more records cause would wait at the home of its place in the segment (R70, R90, R204). -/
def State.spillWaits (s : State) (core n : Nat) : Bool :=
  let g := s.log core
  (g.ring.take (g.ring.length + n - 512)).any (fun r => let c := s.segCap r.slot
    decide (0 < c) && s.homeWaits (s.segBase r.slot core + r.pos % c * 48))

/-- One granule of a store of a train appended to the core log, or merged (R210, R211). -/
def State.appendPiece (s : State) (core p train task mark : Nat) (cntd : Option Nat) (strict : Bool) (stc : Nat) (x : Piece) : State :=
  let g := s.log core
  match g.newest x.gran p with
  | some r =>
    if r.takes p train task x.gran mark cntd.isSome then
      s.setLog core { g with recs := mergeInto x.gran p (fun r =>
        { r with mask := r.mask ||| x.mask, data := overlay r.data x.data (maskBits x.mask), count := cntd.getD r.count, strict := strict, stc := stc }) g.recs }
    else
      let s := s.spillOne core
      s.setLog core ((s.log core).push
        { pos := 0, slot := p, count := cntd.getD 0, cntd := cntd.isSome, train := train, task := task, mask := x.mask, gran := x.gran, data := x.data, strict := strict, stc := stc, pa := some x.pa } (x.gran * 32))
  | none =>
    let s := s.spillOne core
    s.setLog core ((s.log core).push
      { pos := 0, slot := p, count := cntd.getD 0, cntd := cntd.isSome, train := train, task := task, mask := x.mask, gran := x.gran, data := x.data, strict := strict, stc := stc, pa := some x.pa } (x.gran * 32))

/-- Whether a core log can take `n` more records without waiting (R235): room in the ring, or in the segment for what would spill. -/
def State.logRoom (s : State) (core p n : Nat) : Bool :=
  let g := s.log core
  decide (g.ring.length + n ≤ 512) || decide (g.inSegment.length + (g.ring.length + n - 512) ≤ s.segCap p) && !s.spillWaits core n

/-! ### Publication (R212-R214) -/

/-- The stamp the next publication or ACQALL of a log takes (R213). -/
def State.nextStamp (s : State) (log : Nat) : Nat :=
  let g := s.log log
  if g.last < s.clock then s.clock else g.last + 1

/-- A record published at a stamp: one marked for translation is translated now (R191). -/
def State.publishRec (s : State) (r : Rec) : Xlate × State :=
  match r.stamp, r.pa with
  | some _, _ => (.ok 0, s)
  | none, some pa => (.ok pa, s)
  | none, none => s.translateAt none r.slot (r.gran * 32) .write false

/-- Every record of a log published at its next stamp (R212, R213) and sent on its way, with its place among the messages of its agent (R25); a record whose translation fails is dropped with reason 2 (R238). -/
def State.publish (s : State) (log : Nat) : State :=
  let g := s.log log
  let st := s.nextStamp log
  let id := s.nextId
  let now := s.time
  let r := g.recs.foldl (fun (x : List Rec × List Rec × State) r =>
    match x.2.2.publishRec r with
    | (.fault _, s) => (x.1, x.2.1 ++ [r], s)
    | (.ok pa, s) => (x.1 ++ [if r.stamp.isSome then r else { r with stamp := some st, pa := some (r.pa.getD pa), msg := id, sent := now }], x.2.1, s)) ([], [], { s with nextId := id + 1 })
  let s := r.2.2.setLog log { g with recs := r.1, pub := g.tail, last := st, pubs := (st, g.tail) :: g.pubs }
  r.2.1.foldl (fun s r => s.dropReport log r 2) s

/-- The token of a log's latest publication (Table 12-3). -/
def State.token (s : State) (log : Nat) : W64 := BitVec.ofNat 64 (log * 2 ^ 51 + (s.log log).pub)

/-- Whether a log holds an unpublished record of a granule range of a slot. -/
def Log.unpublishedIn (g : Log) (p lo hi : Nat) : Bool :=
  g.recs.any (fun r => r.stamp.isNone && decide (r.slot = p) && decide (lo ≤ r.gran) && decide (r.gran ≤ hi))

/-- Whether a log holds any record of a granule of a slot (R223 step 2). -/
def Log.holds (g : Log) (p gran : Nat) : Bool := g.recs.any (fun r => decide (r.slot = p) && decide (r.gran = gran))

/-- Whether the records of a log below a position are all folded, or in the segment (R215 at .pkg). -/
def Log.settledPkg (g : Log) (t : Nat) : Bool := g.recs.all (fun r => decide (t ≤ r.pos) || r.spilled)
/-- Whether they have all folded and been acknowledged (R215 at .sys). -/
def Log.settledSys (g : Log) (t : Nat) : Bool :=
  g.recs.all (fun r => decide (t ≤ r.pos)) && g.far.all (fun q => decide (t ≤ q)) && g.hostp.all (fun q => decide (t ≤ q))
def Log.settled (g : Log) (t : Nat) (sys : Bool) : Bool := if sys then g.settledSys t else g.settledPkg t

/-- The zero-length reads that follow a log's writes to the host port below a position, sent for a .sys scope that waits for them: one for each window, behind its latest such write (R53). -/
def State.hostReads (s : State) (log t : Nat) : State :=
  let mine := s.outbound.filter (fun (e : Nat × Outbound) => match e.2.reply with
    | .releaseRead l pos .. => decide (l = log) && decide (pos < t) && !e.2.deliv
    | _ => false)
  let last := mine.filter (fun e => !mine.any (fun x => decide (x.2.win = e.2.win) && decide (e.1 < x.1)))
  if last.isEmpty then s
  else { s with outbound := s.outbound.map (fun (e : Nat × Outbound) => if last.any (fun x => decide (x.1 = e.1)) then (e.1, { e.2 with deliv := true, sent := s.time }) else e) }

/-- What an acquire of a log below a position waits for at a scope (R219). -/
def Log.acquirable (g : Log) (t : Nat) (sys : Bool) : Bool :=
  decide (t ≤ g.mark) && (!sys || (g.far.all (fun q => decide (t ≤ q)) && g.hostp.all (fun q => decide (t ≤ q))))

/-! ### The view and the stash (R192, R196, R218) -/

/-- The key of a 128-byte sector of a slot's VA (R191), and of a sector in a task's stash (R196). -/
def sectorKey (p va : Nat) : Nat := p * 2 ^ 50 + va / 128
def stashKey (task key : Nat) : Nat := task * 2 ^ 60 + key
/-- The first VA of a sector key, its slot, its key without the task, and the task of a stash key. -/
def keyVa (key : Nat) : Nat := key % 2 ^ 50 * 128
def keySlot (key : Nat) : Nat := key / 2 ^ 50 % 1024
def keyPlain (key : Nat) : Nat := key % 2 ^ 60
def keyTask (key : Nat) : Nat := key / 2 ^ 60

/-- Bytes written over a list from an index. -/
def putBytes (xs : List Byte) (i : Nat) (bs : List Byte) (m : List Bool) : List Byte :=
  xs.take i ++ overlay (xs.drop i) bs m

/-- A record applied to a sector (R218): its bytes, and its poison. -/
def Sector.apply (x : Sector) (off : Nat) (mask : W32) (data : List Byte) (pois : Bool) : Sector :=
  let g := off / 32
  { x with
    data := putBytes x.data off data (maskBits mask)
    pois := if pois then x.pois ||| (1#4 <<< g) else if mask = 0xFFFFFFFF then x.pois &&& ~~~ (1#4 <<< g) else x.pois }

/-- The records of the core's own log that lie in a sector, in log order. -/
def Log.inSector (g : Log) (key : Nat) : List Rec :=
  g.recs.filter (fun r => decide (r.slot = keySlot key) && decide (r.gran * 32 / 128 = key % 2 ^ 50))

/-- A core's own records of a sector that have not folded, oldest first: those that a link port took over and the far home has not acknowledged, then those of its log (R215, R218). -/
def State.ownRecs (s : State) (core key pa : Nat) : List Rec :=
  (s.logs.filter (fun e => decide (1736 ≤ e.1))).flatMap (fun e => e.2.recs.filter (fun r => r.origin.map Prod.fst == some core && decide (r.gran * 32 / 128 = pa / 128))) ++
    (s.log core).inSector key

/-- A core's own unfolded records laid over what a home answered for a sector, in log order (R218). -/
def State.overlaid (s : State) (core key : Nat) (x : Sector) : Sector :=
  (s.ownRecs core key x.pa).foldl (fun x r => x.apply (r.gran * 32 % 128) r.mask r.data r.pois) x

/-- A sector as a fill at the home gives it: the folded bytes at `pa`, with the core's unfolded records over them (R218). -/
def State.filled (s : State) (core key pa : Nat) : Sector :=
  s.overlaid core key ⟨s.readBytes pa 128, pa, (List.range 4).foldl (fun m i => if s.poisoned (pa + 32 * i) then m ||| (1#4 <<< i) else m) 0⟩

/-- A sector placed in the view or the stash; a copy of it that the core holds elsewhere, in the view or in a stash, becomes the same, so that no later load returns an older value (R228). -/
def Core.putSector (k : Core) (stash : Bool) (key : Nat) (x : Sector) : Core :=
  let same := fun (e : Nat × Sector) => if keyPlain e.1 = keyPlain key then (e.1, x) else e
  let k := { k with view := k.view.map same, stash := k.stash.map same }
  if stash then { k with stash := Table.put k.stash key x } else { k with view := Table.put k.view key x }
def Core.sector (k : Core) (stash : Bool) (key : Nat) : Option Sector := if stash then Table.find k.stash key else Table.find k.view key

/-- A sector asked for, unless it is present or asked for already (R192); the request has its place among the core's messages (R25). -/
def State.askSector (s : State) (core key pa : Nat) (stash keep : Bool) : State :=
  let k := s.core core
  let mine := fun (f : Fill) => decide (f.key = key) && (f.stash == stash)
  if (k.sector stash key).isSome then s
  else if k.fills.any mine then s.setCore core { k with fills := k.fills.map (fun f => if mine f then { f with keep := f.keep || keep } else f) }
  else State.setCore { s with nextId := s.nextId + 1 } core { k with fills := k.fills ++ [{ key := key, stash := stash, pa := pa / 128 * 128, keep := keep, msg := s.nextId, sent := s.time }] }

/-- Whether the request of a sector that lies in a window is under way. -/
def State.sectorSent (s : State) (core key : Nat) (stash : Bool) : Bool := s.outbound.any (fun e => e.2.reply == .sector core key stash)

/-- Whether an address lies in a link window that cannot carry a request now (R33, R44). -/
def State.cutOff (s : State) (pa : Nat) : Bool := match s.place pa with
  | .link n => s.linkCut n pa
  | _ => false

/-- The request of a sector in a window sent to its port, unless it is under way, its hold queue is full, or the link is cut (R31, R33, R44). -/
def State.sendSector (s : State) (core key pa : Nat) (stash : Bool) : State :=
  if isStack pa || s.sectorSent core key stash || s.holdFull pa || s.cutOff pa then s else s.request core (pa / 128 * 128) 128 false none [] (.sector core key stash) false

/-- A sector asked for from its home or its window, unless it is present or asked for (R192). -/
def State.wantSector (s : State) (core key pa : Nat) (stash keep : Bool) : State :=
  let s := s.askSector core key pa stash keep
  if ((s.core core).sector stash key).isSome then s else s.sendSector core key pa stash

/-! ### Room for a line (R193, R196) -/

/-- The cache ways of a core: what the scratchpads and stashes of its tasks leave of its 12 ways of 32 KiB, 128 lines each (R28, R197). -/
def Core.cacheWays (k : Core) : Nat := 12 - k.scratch.foldl (fun n e => n + e.2.ways + e.2.stash) 0

/-- How many lines there is room for beside a line: a task's stash is fully associative (R196); the view takes the set from VA[14:8] (log entry 66). -/
def Core.lineRoom (k : Core) (stash : Bool) (key : Nat) : Nat :=
  if stash then 128 * ((Table.find k.scratch (keyTask key)).getD {}).stash else k.cacheWays

/-- The lines that stand where a line could, each by half its sectors' key: in a stash the latest used first. -/
def Core.rivals (k : Core) (stash : Bool) (key : Nat) : List Nat :=
  if stash then k.stashUse.filter (fun n => decide (keyTask (2 * n) = keyTask key)) else ((k.view.map (fun e => e.1 / 2)).eraseDups).filter (fun n => decide (n % 128 = key / 2 % 128))

/-- A line taken out of the view or the stash. -/
def Core.dropRow (k : Core) (stash : Bool) (n : Nat) : Core :=
  if stash then { k with stash := k.stash.filter (fun e => decide (e.1 / 2 ≠ n)), stashUse := k.stashUse.filter (fun m => decide (m ≠ n)) }
  else { k with view := k.view.filter (fun e => decide (e.1 / 2 ≠ n)), keepRows := k.keepRows.filter (fun m => decide (m ≠ n)), firstRows := k.firstRows.filter (fun m => decide (m ≠ n)) }

/-- What an access's hint says of its view line (R322): .h1 makes it the most recently used, .h2 the first to be evicted; an access without a hint says nothing. -/
def Core.hintRow (k : Core) (hint n : Nat) : Core :=
  let k' := { k with keepRows := k.keepRows.filter (fun m => decide (m ≠ n)), firstRows := k.firstRows.filter (fun m => decide (m ≠ n)) }
  if hint = 1 then { k' with keepRows := n :: k'.keepRows } else if hint = 2 then { k' with firstRows := k'.firstRows ++ [n] } else k

/-- The order in which the lines of a view's set leave: those under .h2, then those that no hint names, of which the device picks, then those under .h1, the latest last (R322; log entry 66). -/
def Core.leaveOrder (k : Core) (n : Nat) (xs : List Nat) : List Nat :=
  let plain := xs.filter (fun m => !k.firstRows.contains m && !k.keepRows.contains m)
  let i := n % max 1 plain.length
  k.firstRows.filter xs.contains ++ plain.drop i ++ plain.take i ++ (k.keepRows.filter xs.contains).reverse
/-- A stash line used (R196). -/
def Core.useStash (k : Core) (key : Nat) : Core := { k with stashUse := (key / 2) :: k.stashUse.filter (fun n => decide (n ≠ key / 2)) }

/-- Whether a line holds unpublished records of its own core (R193). -/
def State.rowPinned (s : State) (core n : Nat) : Bool :=
  (s.log core).unpublishedIn (keySlot (2 * n)) (keyVa (2 * n) / 32) (keyVa (2 * n) / 32 + 7)

/-- Room made for a line (R193, R196): the least recently used line of a stash leaves, or a line of the view's set in the order of the hints. When every one of them holds unpublished records the core publishes as REL.pkg would, and the flag stays false until the publication is complete. -/
def State.makeRoom (s : State) (core : Nat) (stash : Bool) (key : Nat) : Bool × State :=
  let k := s.core core
  let xs := k.rivals stash key
  let extra := xs.length + 1 - k.lineRoom stash key
  if xs.contains (key / 2) || extra = 0 then (true, s)
  else if k.evict.any (fun t => !(s.log core).settledPkg t) then (false, s)
  else
    let free := xs.filter (fun n => !s.rowPinned core n)
    if free.length < extra then
      let s := s.publish core
      (false, s.setCore core { (s.core core) with evict := some (s.log core).tail })
    else
      let out := if stash then free.reverse.take extra else (k.leaveOrder (Config.pick s.fresh) free).take extra
      (true, State.setCore { s with fresh := s.fresh + 1 } core (out.foldl (fun (k : Core) n => k.dropRow stash n) { k with evict := none }))

/-! ### Invalidation (R191, R218) -/

/-- Invalidation of the view lines and stash entries of a core that `sel` picks (R218): a line that holds unfolded records of the core is asked for again at once. A sector on its way from a window may be older than the invalidation: it is asked for again too. -/
def State.invalidate (s : State) (core : Nat) (sel : Nat → Bool) : State :=
  let k := s.core core
  let late := k.fills.filter (fun f => sel f.key && !isStack f.pa)
  let again := fun (m : Table Sector) => m.filter (fun e => sel e.1 &&
    !((s.ownRecs core (e.1 / 2 * 2) (e.2.pa / 256 * 256)).isEmpty && (s.ownRecs core (e.1 / 2 * 2 + 1) (e.2.pa / 256 * 256 + 128)).isEmpty))
  let v := again k.view
  let z := again k.stash
  let s := s.setCore core { k with
    view := k.view.filter (fun e => !sel e.1), stash := k.stash.filter (fun e => !sel e.1)
    stashUse := k.stashUse.filter (fun n => !sel (2 * n)) }
  let s := { s with outbound := s.outbound.map (fun (e : Nat × Outbound) =>
    if late.any (fun f => e.2.reply == .sector core f.key f.stash) then (e.1, { e.2 with reply := .nobody }) else e) }
  let s := late.foldl (fun s f => s.sendSector core f.key f.pa f.stash) s
  let s := v.foldl (fun s e => s.wantSector core e.1 e.2.pa false true) s
  z.foldl (fun s e => s.wantSector core e.1 e.2.pa true true) s

/-- DiscardView (R220). -/
def State.discardView (s : State) (core : Nat) : State := s.invalidate core (fun _ => true)

/-- InvalidateByHash (R220) with the summaries of blocks `lo` to `hi` of a log; where one of them is no longer retained, every line goes. -/
def State.invalidateByHash (s : State) (core log lo hi : Nat) : State :=
  let g := s.log log
  if (List.range (hi + 1 - lo)).any (fun i => (Table.find g.sums (lo + i)).isNone) then s.discardView core
  else
    let sum := (g.sums.filter (fun e => decide (lo ≤ e.1) && decide (e.1 ≤ hi))).foldl (fun x e => x ||| e.2) (0#256)
    s.invalidate core (fun key => sum.getLsbD (lineHash (keyVa key / 256 * 256)))

/-- Bytes of a store applied to the sectors that a core holds, in its view and in every stash (R192, R210). -/
def State.viewStore (s : State) (core p : Nat) (x : Piece) : State :=
  let k := s.core core
  let f := fun (e : Nat × Sector) => if keyPlain e.1 = sectorKey p (x.gran * 32) then (e.1, e.2.apply (x.gran * 32 % 128) x.mask x.data false) else e
  s.setCore core { k with view := k.view.map f, stash := k.stash.map f }

/-! ### Acquire (R219-R222) -/

/-- A core's acquire mark for a log, if the table of 64 holds one (R220). -/
def Core.acqMark (k : Core) (log : Nat) : Option Nat := (k.acq.find? (fun e => decide (e.1 = log))).map Prod.snd
/-- The table with a mark set, least recently used entry out (R220). -/
def Core.setAcqMark (k : Core) (log t : Nat) : Core :=
  { k with acq := ((log, t) :: k.acq.filter (fun e => decide (e.1 ≠ log))).take 64 }

/-- Acquire of one token by a core (R219): none while it must wait. An inbound or link-port log is summarised by physical address, so its acquire discards the view. -/
def State.acquire (s : State) (core tok : Nat) (sys : Bool) : Option State :=
  let log := tok / 2 ^ 51 % 2 ^ 12
  let t := if log < 1800 then min (tok % 2 ^ 51) (s.log log).pub else 0
  if !(s.log log).acquirable t sys then none
  else
    let k := s.core core
    let m := k.acqMark log
    if log = core ∨ t ≤ m.getD 0 then some s
    else
      let s := match m with
        | none => s.discardView core
        | some m => if t - m > 4096 ∨ 1728 ≤ log then s.discardView core else s.invalidateByHash core log (m / 64) ((t - 1) / 64)
      some (s.setCore core ((s.core core).setAcqMark log t))

/-- The logs an ACQALL with stamp `a` of core `core` waits for, with the tail of their latest publication before it (R222). -/
def State.acqAllTails (s : State) (core a : Nat) (sys : Bool) : List (Nat × Nat) :=
  (s.logs.filter (fun e => decide (e.1 < 1728) || sys)).filterMap (fun e =>
    (e.2.pubs.find? (fun x => stampLt (x.1, e.1) (a, core))).map (fun x => (e.1, x.2)))

/-- Steps 3 and 4 of R222. -/
def State.acqAllDone (s : State) (core : Nat) (tails : List (Nat × Nat)) : State :=
  let s := s.discardView core
  let k := s.core core
  s.setCore core { k with acq := k.acq.map (fun e => (e.1, ((tails.find? (fun x => decide (x.1 = e.1))).map Prod.snd).getD 0)) }

/-! ### Voiding (R237) -/

/-- Unpublished records of a core log that `sel` picks are voided, in the ring or in the segment (R237), and the lines that hold their bytes are invalidated. -/
def State.voidRecs (s : State) (core : Nat) (sel : Rec → Bool) : State :=
  let g := s.log core
  let gone := g.recs.filter (fun r => r.stamp.isNone && sel r)
  let s := s.setLog core { g with recs := g.recs.filter (fun r => !(r.stamp.isNone && sel r)) }
  let s := gone.foldl (fun s r =>
    let a := s.segBase r.slot core + r.pos % s.segCap r.slot * 48
    if r.spilled && s.fotRange r.slot a 48 then s.deviceWrite a { r with void := true }.bytes else s) s
  s.invalidate core (fun key => gone.any (fun r => decide (r.slot = keySlot key) && decide (r.gran * 32 / 256 = keyVa key / 256)))

end Sys2Proof.Machine
end

