-- ==== Sys2Proof/Machine/Tasks.lean ====
section
/-! DEFINITION. Tasks (R112-R130): charges, transfers and credits; train states; removing trains and unwinding a subtree; routes and phases; completion records and signal words. -/

namespace Sys2Proof.Machine

/-! ### Allowance (R115-R121) -/

/-- Whether a task can pay (R116). -/
def State.canPay (s : State) (t cost : Nat) : Bool := ((s.task t).map (fun k => decide (cost ≤ k.alw))).getD false

/-- A charge: from ALW to SPENT (R116). -/
def State.charge (s : State) (t cost : Nat) : State := s.modTask t (fun k => { k with alw := k.alw - cost, spent := k.spent + cost })

/-- A reservation: from ALW to RSV (R120). -/
def State.reserve (s : State) (t cost : Nat) : State := s.modTask t (fun k => { k with alw := k.alw - cost, rsv := k.rsv + cost })
/-- A reservation spent: from RSV to SPENT (R120, R121). -/
def State.spendRsv (s : State) (t cost : Nat) : State := s.modTask t (fun k => { k with rsv := k.rsv - cost, spent := k.spent + cost })
/-- A reservation returned: from RSV to ALW (R120, R121). -/
def State.refund (s : State) (t cost : Nat) : State := s.modTask t (fun k => { k with rsv := k.rsv - cost, alw := k.alw + cost })

/-- A credit arrives at a task: a STARVED task resumes (R125, R126). -/
def Task.credit (k : Task) (au : Nat) : Task :=
  if k.state = .starved then { k with alw := k.alw + au, state := .running } else { k with alw := k.alw + au }

/-! ### Writes of the device through a slot's mapping (R107, R124) -/

/-- The physical address of a device write through a slot's mapping, and whether translation, space, owner and the access table of the master `m` allow it (R76, R107); 0 where translation gives none. What the table refuses, an FOT region among it, is logged (R46, R71). -/
def State.deviceAddr (s : State) (p m right va : Nat) : Bool × Nat × State :=
  if !canonical va then (false, 0, s) else
  match s.translateAt none p va .write false with
  | (.fault _, s) => (false, 0, s)
  | (.ok pa, s) =>
    let denied := isStack pa && (fotRegion pa || !s.accessOk (dieOf pa) m right pa)
    (!denied && (s.refusal p 0 pa true).isNone, pa, if denied then s.logDenied m (homeOf pa) pa else s)

/-- A device write at .sys scope: done, not done (with the address it has), or not answered yet. -/
inductive Wrote where
  | done
  | failed (pa : Nat)
  | pending
  deriving DecidableEq, Repr

/-- What an agent sent to a window is noted among its requests, so that its answer is found there. -/
def State.noteFar (s : State) (owner pa n : Nat) (done : Bool) : State :=
  { s with far := s.far ++ [{ owner := owner, pa := pa, len := n, data := if done then some [] else none }] }

/-- A write at .sys scope to a window sent by an agent: a request to a link group, a posted write with the zero-length read behind it on the host link (R53). -/
def State.sendWrite (s : State) (owner pa : Nat) (bytes : List Byte) : State :=
  if s.holdFull pa then s else
  match s.place pa with
  | .host _ => ((s.post pa bytes false).request (s.ownerAgent owner) pa 0 false none [] (.far owner pa) false).noteFar owner pa bytes.length false
  | _ => (s.request (s.ownerAgent owner) pa bytes.length true none bytes (.far owner pa) false).noteFar owner pa bytes.length false

/-- What a write of an agent at .sys scope does before it reaches its place: the walk's messages and its own cross the main line (R24), and homes are waited for; `go` is the write, given its address. -/
def State.sysReach (s : State) (owner p m right n va : Nat) (go : State → Nat → Wrote × State) : Wrote × State :=
  if s.walkLost owner p va then (.failed 0, s.dropTrips owner)
  else match s.walkStops owner p va with
  | some a => (.pending, s.sendTo owner a)
  | none => match s.deviceAddr p m right va with
    | (false, pa, s) => (.failed pa, s)
    | (true, pa, s) =>
      match s.farPart owner (pa, n) with
      | some f => (match f.data with
        | none => .pending
        | some _ => if f.code = 0 then .done else .failed pa, s)
      | none =>
        if s.gaveUp owner pa then (.failed pa, s)
        else if s.away owner pa then (.pending, s.sendTo owner pa)
        else if isStack pa && s.homeWaits pa then (.pending, s)
        else go s pa

/-- A write of the device at .sys scope (R106, R107): in place in stack memory, where it waits as any access does; to a window, whose answer it waits for. -/
def State.sysWrite (s : State) (owner p m va : Nat) (bytes : List Byte) : Wrote × State :=
  s.sysReach owner p m 2 bytes.length va (fun s pa =>
    if !isStack pa then (.pending, s.sendWrite owner pa bytes)
    else if s.anyPoison pa bytes.length then (.failed pa, s)
    else (.done, (s.deviceWrite pa bytes).noteFar owner pa bytes.length true))

/-- The request that adds `v` to the double word at an address of a window (R34, R53). -/
def State.sendAdd (s : State) (src pa v : Nat) (reply : OutFor) : State :=
  s.atomicTo src pa 8 0 v 0 reply

/-- An atomic add of 1 on a signal word at .sys scope (R107); at a CXL port it waits for the line's lock (R35). -/
def State.signalAdd (s : State) (owner p m va : Nat) : Wrote × State :=
  s.sysReach owner p m 3 8 va (fun s pa =>
    if !isStack pa then (.pending, if s.holdFull pa || s.portLocked pa then s else (s.sendAdd (s.ownerAgent owner) pa 1 (.far owner pa)).noteFar owner pa 8 false)
    else if s.poisoned pa then (.failed pa, s)
    else (.done, s.addAt pa 1))

/-! ### Train states (R142) -/

/-- Whether a portion's wait parks (R142). -/
def Wait.parks : Wait → Bool
  | .watch .. => true
  | .waitb .. => true
  | .join .. => true
  | .joinAny .. => true
  | _ => false

/-- Whether a train is parked: a call in progress, or every portion that is not at a junction parked (R142). -/
def Train.parked (t : Train) : Bool :=
  t.call.isSome || (t.portions.filter (fun e => !e.2.atJunc)).all (fun e => e.2.wait.parks)

/-- Whether a task's state lets its trains issue (R125). -/
def Task.issues (k : Task) : Bool := k.state = .running || k.state = .waiting && !k.closing

/-- RUNNING or WAITING as R123 gives it: RUNNING while some train of the task is not parked. A save changes no task state (R155). -/
def State.settleTask (s : State) (t : Nat) (k : Task) : Task :=
  if k.held && !k.closing && (k.state = .running || k.state = .waiting) && !s.saved.any (fun e => decide (e.2.task = t)) then
    { k with state := if (s.trains.any (fun e => decide (e.2.task = t) && !e.2.parked)) then .running else .waiting }
  else k

/-- Every task settled (R123). -/
def State.settle (s : State) : State := { s with tasks := s.tasks.map (fun (e : Nat × Task) => (e.1, s.settleTask e.1 e.2)) }

/-! ### Routes (R137, R432) -/

/-- The members of a route that are still expected (R137). -/
def Task.expected (k : Task) (r : Nat) : W32 := (k.routes[r]?.getD 0) &&& k.member

/-- The arrival count of a train for a route (R432). -/
def Train.arrived (t : Train) (r : Nat) : Nat := Sparse.get 0 t.arrivals r

/-- The arrival counts of a route's expected members, saved ones among them. -/
def State.arrivalsOf (s : State) (task : Nat) (k : Task) (r : Nat) : List Nat :=
  ((s.trainsOf task ++ s.saved.filter (fun e => decide (e.2.task = task))).filter (fun e => e.2.member && (k.expected r).getLsbD e.2.index)).map (fun e => e.2.arrived r)

/-- The completed-phase count of a route: it rises to the least arrival count of the expected members (R432). -/
def State.advanceRoutes (s : State) (task : Nat) : State :=
  match s.task task with
  | none => s
  | some k =>
    s.setTask task { k with phases := (List.range k.routes.length).foldl (fun m r =>
      match s.arrivalsOf task k r with
      | [] => m
      | a :: as => let c := as.foldl min a; if Sparse.get 0 m r < c then Sparse.set 0 m r c else m) k.phases }

/-! ### Removing trains (R128, R431) -/

/-- A train's release tickets removed from every log (R215), and its place among the RESIZEs of its core (R424). -/
def State.dropTickets (s : State) (key : Nat) : State :=
  { s with
    logs := s.logs.map (fun (e : Nat × Log) => (e.1, { e.2 with rels := e.2.rels.filter (fun x => decide (x / 4 ≠ key)) }))
    cores := s.cores.map (fun (e : Nat × Core) => (e.1, { e.2 with resizing := e.2.resizing.filter (fun x => decide (x / 4 ≠ key)) })) }

/-- XFLAGS and dead lanes of an ending train merged into its task's record (R107, R238). -/
def Task.absorb (k : Task) (t : Train) : Task :=
  { k with xflags := t.logErrs.foldl mergeLogErr (k.xflags ||| t.xflags) }

/-- Resources of a slot freed: its siding head may be tried again (R135); a freeing while the siding is empty starts no attempt. -/
def State.noteFreed (s : State) (p : Nat) : State := if (s.pslot p).siding.isEmpty then s else s.setPslot p { s.pslot p with freed := true }

/-- XFLAGS, log errors and dead lanes of the saved trains of a list of tasks merged into their tasks' records (R107, R256). -/
def State.absorbSaved (s : State) (ts : List Nat) : State :=
  (s.saved.filter (fun e => ts.contains e.2.task)).foldl (fun s e => s.modTask e.2.task (fun k => k.absorb e.2)) s

/-- A train removed from its core (R128 step 1, R431 step 3): its slot and registers are freed, it leaves its routes. -/
def State.removeTrain (s : State) (key : Nat) : State :=
  match Table.find s.trains key with
  | none => s
  | some t =>
    let s := { s with trains := Table.drop s.trains key }
    let s := s.dropTickets key
    let s := s.modTask t.task (fun k =>
      { k.absorb t with
        live := k.live - 1
        member := if t.member then k.member &&& ~~~ (1#32 <<< t.index) else k.member
        tokens := k.tokens.filter (fun x => decide (x.2.2.1 ≠ t.index) || decide (x.2.1 ≤ Sparse.get 0 k.phases x.1)) })
    let core := key / 32
    let k := s.core core
    let s := s.setCore core { k with active := k.active.filter (fun e => decide (e.slot ≠ key % 32)) }
    (s.noteFreed (s.slotOfTask t.task)).advanceRoutes t.task

/-- The trains of a list of tasks removed, their unpublished records voided (R128 steps 1 and 4). -/
def State.removeTrainsOf (s : State) (ts : List Nat) : State :=
  let keys := (s.trains.filter (fun e => ts.contains e.2.task)).map Prod.fst
  let s := keys.foldl (fun s k => s.removeTrain k) s
  let cores := (s.logs.filter (fun e => decide (e.1 < 1536) && e.2.recs.any (fun r => r.stamp.isNone && ts.contains r.task))).map Prod.fst
  cores.foldl (fun s c => s.voidRecs c (fun r => ts.contains r.task)) s

/-- The task slots of a task and its descendants that an unwind takes in: neither DONE nor closing (R127). `fuel` bounds the depth of the tree. -/
def State.subtree (s : State) : Nat → List Nat → List Nat
  | 0, ts => ts
  | fuel + 1, ts =>
    let ids := ts.filterMap (fun t => (s.task t).map (fun k => k.id t))
    let kids := (s.tasks.filter (fun e => e.2.held && !e.2.closing && decide (e.2.state ≠ .done) && decide (e.2.state ≠ .unwinding) &&
      decide (e.2.parent ≠ 0) && ids.contains e.2.parent && !ts.contains e.1)).map Prod.fst
    if kids.isEmpty then ts else State.subtree s fuel (ts ++ kids)

/-- Queued jobs of tasks that have not started are cancelled, and their reservations return (R128 step 2); job cards belong to no task. -/
def State.cancelJobs (s : State) (ts : List Nat) : State :=
  let mine := s.jobs.filter (fun e => ts.contains e.2.task && !e.2.started && e.2.queue.isNone && e.2.step.isNone && e.2.node.isNone)
  mine.foldl (fun s e =>
    let s := { s with jobs := Table.drop s.jobs e.1 }
    (s.refund e.2.task e.2.cost).modTask e.2.task (fun k => { k with outstanding := k.outstanding - 1 })) s

/-- Continuations of a task cancelled (R128 step 1). -/
def State.cancelConts (s : State) (ts : List Nat) : State :=
  { s with
    tasks := s.tasks.map (fun (e : Nat × Task) =>
      if ts.contains e.1 then
        (e.1, { e.2 with outstanding := e.2.outstanding - (s.cores.foldl (fun n c => n + (c.2.conts.filter (fun x => decide (x.task = e.1))).length) 0) })
      else e)
    cores := s.cores.map (fun (e : Nat × Core) => (e.1, { e.2 with conts := e.2.conts.filter (fun c => !ts.contains c.task) })) }

/-- The unwind of a task and its subtree (R127, R128 steps 1, 2 and 4): every task of it is UNWINDING with the status; the first carries the fault code. The remaining steps follow as its jobs end (completion record). -/
def State.unwind (s : State) (t status code : Nat) : State :=
  match s.task t with
  | none => s
  | some k =>
    if !k.held || k.closing || k.state = .done || k.state = .unwinding then s
    else
      let ts := s.subtree s.tasks.length [t]
      let s := { s with tasks := s.tasks.map (fun (e : Nat × Task) =>
        if ts.contains e.1 then (e.1, { e.2 with state := .unwinding, status := status, faultCode := if e.1 = t then code else 0 }) else e) }
      let s := s.cancelConts ts
      let s := s.cancelJobs ts
      let s := s.removeTrainsOf ts
      let s := s.absorbSaved ts
      let s := { s with
        saved := s.saved.filter (fun e => !ts.contains e.2.task)
        tasks := s.tasks.map (fun (e : Nat × Task) => (e.1, if ts.contains e.1 then { e.2 with live := 0 } else e.2)) }
      { s with
        cores := s.cores.map (fun (e : Nat × Core) => (e.1, { e.2 with readyQ := e.2.readyQ.filter (fun x => !ts.contains x) }))
        slots := s.slots.map (fun (e : Nat × PSlot) => (e.1, { e.2 with siding := e.2.siding.filter (fun x => !ts.contains x) })) }

/-- EXHAUST of a task's train (R119, R124): unwind, or STARVED with its limit running; the high half of its signal word counts it. -/
def State.starve (s : State) (t : Nat) : State :=
  match s.task t with
  | none => s
  | some k =>
    if !k.park then s.unwind t 2 0
    else
      let s := s.setTask t { k with state := .starved, expiry := s.clock + k.parkNs }
      if k.signalVa = 0 then s
      else match s.deviceAddr k.slot 130 3 k.signalVa.toNat with
        | (false, _, s) => s
        | (true, pa, s) => if !isStack pa then s.sendAdd (s.ownerAgent (taskOwner t)) pa 0x100000000 .nobody else if s.poisoned pa then s else s.addAt pa 0x100000000

/-! ### Ending a task (R107, R122, R201) -/

/-- The task slot that holds a TASKID, if it is current (R112). -/
def State.holder (s : State) (id : Nat) : Option Nat :=
  match s.task (id % 65536) with
  | some k => if k.held && decide (k.gen = id / 65536) then some (id % 65536) else none
  | none => none

/-- What stack memory holds under a counted line put back (R198: the counted data is never written back); a granule that has become poisoned stays so (R79; log entry 67). -/
def State.restoreLine (s : State) (line : Nat) (c : CLine) : State :=
  let a := line * 256
  let s := (List.range 256).foldl (fun (s : State) i =>
    { s with mem := Memory.write s.mem (a + i) (c.bytes[i]?.getD 0), stamps := Sparse.set (0, 0) s.stamps (a + i) (c.stamps[i]?.getD (0, 0)) }) s
  (List.range 8).foldl (fun s i => if c.pois[i]?.getD false then s.setPoison (a + 32 * i) true else s) s

/-- A counted line dropped (R199, R200): it leaves its slice; one that still holds a count is counted once in its declarer's UNDERREAD (R201). -/
def State.dropLine (s : State) (line : Nat) : State :=
  match Table.find s.counted line with
  | none => s
  | some c =>
    let s := ({ s with counted := Table.drop s.counted line }).leaveSlice line
    let s := s.restoreLine line c
    if c.count = 0 then s
    else match s.holder c.declarer with
      | some t => s.modTask t (fun k => { k with underread := min 0xFFFF (k.underread + 1) })
      | none => s

/-- Counted lines a task declared and that still hold a count are dropped as it reaches DONE, each counted in UNDERREAD; a strict one is told in the record and to the ring (R128 step 6, R201). -/
def State.dropCounted (s : State) (t : Nat) (k : Task) : State :=
  let mine := s.counted.filter (fun e => decide (e.2.declarer = k.id t))
  let s := mine.foldl (fun s e => s.dropLine e.1) s
  if mine.any (fun e => e.2.strict && decide (0 < e.2.count)) then (s.modTask t (fun k => { k with strictEv := true })).event (some k.slot) 0x11 6 0xFFFF 0 0 0 else s

/-- The 64 bytes of a completion record (Table 6-7). -/
def Task.record (k : Task) (t now : Nat) : List Byte :=
  leBytes 2 k.status ++ leBytes 1 k.kind ++ leBytes 1 (1 + (if k.strictEv then 2 else 0)) ++ leBytes 4 k.xflags.toNat ++ leBytes 8 k.alw ++
    leBytes 8 k.spent ++ leBytes 8 (k.id t) ++ leBytes 8 k.began ++ leBytes 8 now ++ leBytes 4 k.dead ++ leBytes 2 k.underread ++
    leBytes 2 k.sigFaults ++ leBytes 4 k.failedNode ++ leBytes 4 k.faultCode

/-- The queue's ERR set (R94, Table 6-1). -/
def State.queueErr (s : State) (q code : Nat) : State := s.setRegBits (queueOff q 8) 24 8 code

/-- The MSI-X vector of a queue raised (R107); a VF has 64 vectors, the PF 2,048 (R48). -/
def State.raise (s : State) (p q : Nat) : State :=
  let v := s.regBits (queueOff q 8) 32 11
  if p ≠ 0 && decide (64 ≤ v) then s else { s with sent := s.sent ++ [.msix p v] }

/-- What an ending entry's record and signal word need (R107): the agent that writes them, its slot and master id, the queue that fetched the entry (none for a graph's node), the queue whose vector is raised, the two addresses. -/
structure Compl where
  owner : Nat
  slot : Nat
  master : Nat
  queue : Option Nat
  vector : Option Nat
  va : Nat
  signal : Nat
  deriving DecidableEq, Repr

/-- A record or signal word that was not written (R107): the event, and the queue's ERR. -/
def State.complFails (s : State) (c : Compl) (pa : Nat) : State :=
  let s := s.event (some c.slot) 0x22 8 0xFFFF 0 pa 0
  match c.queue with
  | some q => s.queueErr q 5
  | none => s

/-- A completion record, then its signal word, written through a slot's mapping, with what R107 says of failures, and the MSI-X vector raised; the flag stays false while one of them waits or is not answered. -/
def State.writeCompletion (s : State) (c : Compl) (rec : List Byte) : Bool × State :=
  let done := fun (s : State) => (true, (match c.vector with
    | some q => s.raise c.slot q
    | none => s).dropFar c.owner)
  match (if c.va = 0 then (Wrote.done, s) else s.sysWrite c.owner c.slot c.master c.va rec) with
  | (.pending, s) => (false, s)
  | (.failed pa, s) => done (s.complFails c pa)
  | (.done, s) =>
    if c.signal = 0 then done s
    else match s.signalAdd c.owner c.slot c.master c.signal with
      | (.pending, s) => (false, s)
      | (.failed pa, s) => done (s.complFails c pa)
      | (.done, s) => done s

/-- A child's DONE as its parent sees it: the remainder and SPENT credited, the child on the done list (R122, R429). -/
def Task.childDone (k : Task) (alw spent id status : Nat) (x : W32) (dead : Nat) : Task :=
  let l := if k.doneList.length ≥ 64 then k.doneList.drop 1 else k.doneList
  { k.credit alw with
    spent := k.spent + spent
    children := k.children - 1
    doneList := l ++ [(id, status)]
    xflags := k.xflags ||| x
    dead := k.dead + dead }

/-- A task's scratchpads, stash ways with their entries, and reservations freed. -/
def State.freeScratch (s : State) (t : Nat) : State :=
  { s with cores := s.cores.map (fun (e : Nat × Core) => (e.1, { e.2 with
      stash := e.2.stash.filter (fun x => decide (keyTask x.1 ≠ t)), stashUse := e.2.stashUse.filter (fun n => decide (keyTask (2 * n) ≠ t))
      scratch := Table.drop e.2.scratch t, aside := Table.drop e.2.aside t, resv := e.2.resv.filter (fun r => decide (r.task ≠ t)) })) }

/-- A free table entry: TASKID of the last task, state DONE, every other field reads zero (R113); whose child the task was is kept beside it, for the task instructions that name it (R430). -/
def Task.freed (k : Task) : Task := { gen := k.gen, parent := k.parent, state := .done, held := false }

/-- What a task's record needs: the fold units write it (log entry 19). -/
def Task.compl (k : Task) (t : Nat) : Compl :=
  { owner := taskOwner t, slot := k.slot, master := 130, queue := if k.root && k.node.isNone then some k.queue else none
    vector := if k.msi then some k.queue else none, va := k.complVa.toNat, signal := k.signalVa.toNat }

/-- A task reaches DONE in the step in which its record is written (R107, R122): counted lines dropped, the remainder credited, the entry freed. -/
def State.finishTask (s : State) (t : Nat) : State :=
  match s.task t with
  | none => s
  | some k0 =>
    let s := s.dropCounted t k0
    match s.task t with
    | none => s
    | some k =>
      match s.writeCompletion (k.compl t) (k.record t s.clock) with
      | (false, s) => s
      | (true, s) =>
        let s := (s.freeScratch t).setTask t k.freed
        let s := s.setRegBits (slotOff k.slot 0x380) 32 17 (s.regBits (slotOff k.slot 0x380) 32 17 - 1)
        let s := s.noteFreed k.slot
        let s := match s.holder k.parent with
          | some q => s.modTask q (fun x => x.childDone k.alw k.spent (k.id t) k.status k.xflags k.dead)
          | none => s
        let s := if k.root && k.node.isNone then
            let q := s.queue k.queue
            s.setQueue k.queue { q with running := q.running.filter (fun x => decide (x ≠ t)) }
          else s
        match k.node with
        | none => s
        | some (g, n) =>
          { s with graphs := Table.modify s.graphs g (fun ns => ns.modify n (fun x => { x with state := 2, status := k.status, code := k.faultCode })) }

end Sys2Proof.Machine
end

