-- ==== Sys2Proof/Machine/Ops.lean ====
section
/-! DEFINITION. Issue and exceptions: the signature (R179, R180), when a portion may issue, the order of checks of R303 for a scalar and for a lane instruction, taking a fault as one operation (R158-R163), the supervisor handler's entry and exit (R161, R162), rewinding (R153). -/

namespace Sys2Proof.Machine

/-! ### The signature (R179, R180) -/

/-- One bit step of the CRC of R179. -/
def sigStep (x : W32) : W32 := if x.getLsbD 0 then (x >>> 1) ^^^ 0x82F63B78 else x >>> 1

/-- Fold(sig, byte) (R179). -/
def sigFold (sig : W32) (b : Nat) : W32 :=
  sigStep (sigStep (sigStep (sigStep (sigStep (sigStep (sigStep (sigStep (sig ^^^ BitVec.ofNat 32 (b % 256)))))))))

/-- The bytes a lane instruction folds (R179). -/
def laneSigBytes (op : Nat) : List Nat := [op % 256, 0x80 ||| (op / 256 % 4)]

/-- A scalar instruction's byte joins SIG, after the lane instructions of the clauses still queued (R180). -/
def Portion.foldScalar (o : Portion) (b : Nat) : Portion :=
  match o.clauses.reverse with
  | [] => { o with sig := sigFold o.sig b }
  | c :: cs => { o with clauses := ({ c with after := c.after ++ [b] } :: cs).reverse }

/-- The first clause of the queue has issued its last instruction (or has none left): the bytes that follow it join SIG, and it leaves the queue (R180). -/
def Portion.endClause (o : Portion) : Portion :=
  match o.clauses with
  | [] => o
  | c :: cs => { o with clauses := cs, sig := c.after.foldl sigFold o.sig }

/-! ### When a stream may issue -/

/-- Whether a portion of the train is completing a release: the train issues nothing meanwhile (R215). -/
def Train.releasing (t : Train) : Bool :=
  t.portions.any (fun e => match e.2.wait with
    | .release .. => true
    | .relAtomic .. => true
    | .settle _ => true
    | .fence (some _) _ _ => true
    | .arriving _ _ _ (some _) => true
    | .ending .. => true
    | _ => match e.2.lwait with
      | .relAtomic .. => true
      | _ => false)

/-- Whether an access of the train waits for the reply of an atomic with .acq: later accesses are held (R224). -/
def Train.replying (t : Train) : Bool :=
  t.portions.any (fun e => match e.2.wait, e.2.lwait with
    | .reply _, _ => true
    | _, .reply _ => true
    | _, _ => false)

/-- Whether a train's streams may issue at all: its task runs, it waits for no call, no host reply and no start acquire, its die is usable and not stopped (R29, R30, R125, R142, R163, R428). -/
def State.trainRuns (s : State) (core : Nat) (t : Train) : Bool :=
  ((s.task t.task).map Task.issues).getD false && t.call.isNone && (t.fault.isNone || t.handler.isSome) && t.startAcq.isNone &&
    t.startAcqAll.isNone && !t.releasing && s.usable (core / 192) && !(s.die (core / 192)).stopped

/-- Whether a portion is held while the handler runs: one that stood beside the handler's when it was entered (R161); the portions the handler divides into run. -/
def Train.heldByHandler (t : Train) (p : Nat) : Bool := match t.handler with
  | some h => h.frozen.contains p
  | none => false

/-- Whether the scalar stream of a portion may issue (R142, R174). -/
def State.scalarMay (s : State) (c : Cur) : Bool :=
  s.trainRuns c.core c.t && !c.t.heldByHandler c.p && !c.o.atJunc && decide (c.o.wait = .none)

/-- Whether the lane cursor of a portion may issue. -/
def State.laneMay (s : State) (c : Cur) : Bool := s.trainRuns c.core c.t && !c.t.heldByHandler c.p

/-! ### Rewinding (R153) -/

/-- The recipe clause of a flashback point, queued before any other (R153 step 4). -/
def Flash.clause (f : Flash) (regs : Sparse W64) : List Clause :=
  match f.recipe with
  | none => []
  | some off => [{ pc := f.pc, lcb := f.lcb, off := off, s := regs, b := f.b, k := f.k, exm := f.exm, fmt := f.fmt, recipe := true }]

/-- Scalar and lane registers of a flashback store (R153 step 3): outside the live set, zero. -/
def Flash.scalars (f : Flash) : Sparse W64 := f.sregs.foldl (fun m e => Sparse.set 0 m e.1 e.2) []
def Flash.lanes (f : Flash) : Sparse W32 :=
  f.vregs.foldl (fun m e => (List.range 32).foldl (fun m l => Sparse.set 0 m (32 * e.1 + l) (e.2[l]?.getD 0)) m) []

/-- A train with its registers loaded from the flashback store (R153 steps 3-5): one portion, PM all ones (R346), DEADM kept. -/
def Train.reloaded (t : Train) (f : Flash) : Train :=
  { t with
    s := f.scalars
    v := f.lanes
    k := f.k
    b := f.b
    xflags := f.xflags
    lineage := f.lineage
    lcb := f.lcb
    portions := [(0, { pc := f.pc, exm := f.exm, fmt := f.fmt, sig := f.sig, clauses := f.clause f.scalars })]
    entries := []
    pend := []
    handler := none
    fault := none
    call := none
    flash := f
    boundary := false
    bounds := 0 }

/-- A train rewound to its latest flashback point (R153): results in flight discarded, its unpublished records above the mark voided, its registers reloaded. -/
def State.rewind (s : State) (key : Nat) : State :=
  match Table.find s.trains key with
  | none => s
  | some t =>
    let s := s.dropTickets key
    let s := s.voidRecs (key / 32) (fun r => decide (r.train = key % 32) && decide (r.task = t.task) && decide (t.flash.mark ≤ r.pos))
    let s := { s with homeOps := s.homeOps.filter (fun e => !(decide (trainKey e.2.core e.2.slot = key) && (match e.2.op with | .loadHome => true | .load => true | _ => false))) }
    { s with trains := Table.put s.trains key (t.reloaded t.flash) }

/-! ### Taking a fault (R158-R163) -/

/-- The route of a fault code (Table 9-4): unwind, starve policy, host, handler, integrity policy. -/
inductive Route where
  | unwind
  | starve
  | host
  | handler
  | integrity
  deriving DecidableEq, Repr

/-- Table 9-4; a route to Handler becomes Host while the slot's handler is not enabled, and for a scalar access (R407). -/
def routeOf (code : Nat) (handlerOn scalar : Bool) : Route :=
  if code = fEXHAUST then .starve
  else if code = fSIGMIS ∨ code = fUCESCALAR then .integrity
  else if code = fPAGEPOOL then (if handlerOn && !scalar then .handler else .host)
  else if code = fPERM ∨ code = fPAGEFAULT ∨ code = fLINKERR ∨ code = fLINKTIMEOUT ∨ code = fLINKDOWN then .host
  else .unwind

/-- FLTINFO (Table 9-3). -/
def fltInfo (code va : Nat) : W64 := BitVec.ofNat 64 (code % 128 * 2 ^ 57 + va % 2 ^ 57)

/-- A fault of an instruction: the lanes concerned (one entry, lane 0, for a scalar or precise fault), the access to replay if it is one, the facts of R163, whether the instruction has been charged and folded, and where poison was met (Table 5-4). -/
structure Trouble where
  lanes : List LaneFault
  scalar : Bool := true
  access : Option Acc := none
  pc : W64
  word : Option Nat := none
  charged : Bool := false
  seg : Nat := 6
  pa : Nat := 0

/-- The faults of a list that take a route. -/
def byRoute (fs : List LaneFault) (on scalar : Bool) (r : Route) : List LaneFault := fs.filter (fun f => decide (routeOf f.code on scalar = r))

/-- The mask of the lanes of a list of faults. -/
def faultMask (fs : List LaneFault) : W32 := maskOf (fs.map LaneFault.lane)

/-- The fault of the lowest lane. -/
def lowestLane (fs : List LaneFault) : LaneFault :=
  (fs.foldl (fun b f => match b with | none => some f | some g => if f.lane < g.lane then some f else some g) none).getD { lane := 0, code := 0, va := 0 }

/-- Entry of the supervisor handler (R161) by portion `p` for the lanes of `fs`: the bank is saved, LCB, EXM, PM, S1, S2 and V0-V2 are set, and the scalar stream starts at SVHPC times 4. -/
def State.enterHandler (s : State) (key p : Nat) (fs : List LaneFault) : State :=
  match Table.find s.trains key with
  | none => s
  | some t =>
    match t.portion p with
    | none => s
    | some o =>
      let ps := s.slotOfTask t.task
      let mask := faultMask fs
      let low := lowestLane fs
      let info := fltInfo low.code low.va
      let bank : Handler :=
        { portion := p, s := (List.range 8).map (fun i => t.getS (i + 1)), v := t.v.filter (fun (e : Nat × W32) => decide (e.1 < 512)), k0 := t.getK 0, k1 := t.getK 1
          exm := o.exm, fmt := o.fmt, sig := o.sig, lineage := t.lineage, xflags := t.xflags, lcb := t.lcb, pc := o.pc, clauses := o.clauses, wait := o.wait, lwait := o.lwait, since := s.time, mark := t.nextPend
          stack := o.stack, entries := t.entries, frozen := (t.portions.map Prod.fst).filter (fun q => decide (q ≠ p)) }
      let t := { t with lcb := s.slotReg ps 0x3A0, fltinfo := info, fltmask := mask, handler := some bank }
      let t := (t.setS 1 info).setS 2 (mask.setWidth 64)
      let t := fs.foldl (fun t f =>
        ((t.setV 0 f.lane (BitVec.ofNat 32 f.va)).setV 1 f.lane (BitVec.ofNat 32 (f.va / 2 ^ 32 % 2 ^ 25))).setV 2 f.lane (BitVec.ofNat 32 f.code)) t
      let pc := (s.slotReg ps 0x398) &&& 0x1FFFFFFFFFFFFFC
      let t := t.setPortion p { o with pc := pc, exm := mask, pm := mask, clauses := [], wait := .none, lwait := .none, stack := [] }
      { s with trains := Table.put s.trains key t }

/-- A train whose handler bank has been restored (R162); the portions and the entries that the handler made are gone, and PM takes the restored EXM (R346). -/
def Train.leaveHandler (t : Train) : Train :=
  match t.handler with
  | none => t
  | some h =>
    let t := (List.range 8).foldl (fun t i => t.setS (i + 1) (h.s[i]?.getD 0)) t
    let t := { t with v := h.v ++ t.v.filter (fun (e : Nat × W32) => decide (512 ≤ e.1)), lineage := h.lineage, xflags := h.xflags, lcb := h.lcb, handler := none
                      entries := h.entries, portions := t.portions.filter (fun (e : Nat × Portion) => h.frozen.contains e.1) }
    let t := (t.setK 0 h.k0).setK 1 h.k1
    t.setPortion h.portion { pc := h.pc, exm := h.exm, pm := h.exm, fmt := h.fmt, sig := h.sig, stack := h.stack, clauses := h.clauses, wait := h.wait, lwait := h.lwait }

/-- The host route (R163): the train waits with a fault record to be written. -/
def State.toHost (s : State) (key : Nat) (fs : List LaneFault) (scalar : Bool) : State :=
  { s with trains := Table.modify s.trains key (fun t =>
    let low := lowestLane fs
    { t with fltinfo := fltInfo low.code low.va, fltmask := if scalar then 0 else faultMask fs, call := some { imm := 0xFF00 + low.code, fault := true } }) }

/-- Counters of a fault raised to a tenant (Table 4-9): ownership faults, and link errors and timeouts, one event for each instruction; no lane is killed (R92; log entry 39). -/
def State.countFaults (s : State) (p core : Nat) (fs : List LaneFault) : State :=
  let s := if fs.any (fun f => decide (f.code = fOWNERSHIP)) then s.event (some p) 3 6 0xFFFF core 0 0 else s
  if fs.any (fun f => decide (f.code = fLINKERR) || decide (f.code = fLINKTIMEOUT)) then s.event (some p) 4 8 0xFFFF core 0 0 else s

/-- Integrity policy (R88): rewind while the retry count is below the limit, else unwind with status SIGFAIL. R88 names no exception for a train that has issued a boundary instruction since its flashback point; R152's waiting is a pre-emption's (log entry 12). -/
def State.retry (s : State) (key code : Nat) (t : Train) : State :=
  match s.task t.task with
  | none => s
  | some k =>
    if k.retryC < k.retryN then (s.setTask t.task { k with retryC := k.retryC + 1 }).rewind key
    else s.unwind t.task 3 code

/-- SIGMIS or UCESCALAR of a train, counted (R87, R466), then the integrity policy; `seg` and `pa` say where poison was met, and segment 1 that a scalar register failed its check. -/
def State.integrity (s : State) (key code seg pa : Nat) : State :=
  match Table.find s.trains key with
  | none => s
  | some t =>
    let p := s.slotOfTask t.task
    let s := if code = fSIGMIS then (s.event (some p) 6 1 0xFFFF (key / 32) 0 0).modTask t.task (fun k => { k with sigFaults := min 0xFFFF (k.sigFaults + 1) })
      else s.event (some p) (if seg = 1 then 1 else 2) seg 0xFFFF (key / 32) pa 0
    s.retry key code t

/-- The lowest code of a list of faults. -/
def lowestCode (fs : List LaneFault) : Nat := (fs.map LaneFault.code).foldl min 0xFF

/-- Taking a fault (R158-R163, R303): the one operation every fault goes through. FLTINFO and FLTMASK report it (R158). In the handler any fault raises DOUBLEFLT (R161); else a lane whose route is Unwind unwinds the task with the lowest such code; EXHAUST takes the starve policy and SIGMIS and UCESCALAR the integrity policy; lanes routed to Handler are served first, and the others wait for the host (R160). -/
def State.takeFault (s : State) (core slot p : Nat) (f : Trouble) : State :=
  let key := trainKey core slot
  match Table.find s.trains key with
  | none => s
  | some t =>
    let ps := s.slotOfTask t.task
    let on := (s.slotReg ps 0x398).getLsbD 0
    let s := s.countFaults ps core f.lanes
    let low := lowestLane f.lanes
    let t := { t with fltinfo := fltInfo low.code low.va, fltmask := if f.scalar then 0 else faultMask f.lanes }
    let s := { s with trains := Table.put s.trains key t }
    if t.handler.isSome then s.unwind t.task 4 fDOUBLEFLT
    else
      let uw := byRoute f.lanes on f.scalar .unwind
      if !uw.isEmpty then s.unwind t.task 4 (lowestCode uw)
      else if !(byRoute f.lanes on f.scalar .starve).isEmpty then s.starve t.task
      else if !(byRoute f.lanes on f.scalar .integrity).isEmpty then s.integrity key (lowestCode f.lanes) f.seg f.pa
      else
        let ctx : FaultCtx := { portion := p, access := f.access, lanes := f.lanes, pc := f.pc, word := f.word, charged := f.charged }
        let s := { s with trains := Table.put s.trains key { t with fault := some ctx } }
        let hs := byRoute f.lanes on f.scalar .handler
        if !hs.isEmpty then s.enterHandler key p hs
        else s.toHost key f.lanes f.scalar

/-- The granule behind a VA of a core's translations; 0 where they give none. -/
def State.granuleAt (s : State) (core p va : Nat) : Nat := match (s.translate core p va .read false).1 with
  | .ok pa => pa / 32 * 32
  | .fault _ => 0

/-- A precise or scalar fault of the instruction at the focus portion's PC; of poison the event names the granule (Table 5-4), and a poisoned walk entry behind a PAGEFAULT is reported (R190). -/
def State.scalarFault (s : State) (c : Cur) (code va : Nat) (charged : Bool) : State :=
  (if code = fPAGEFAULT then s.reportWalk false (c.pslot s) va else s).takeFault c.core c.slot c.p
    { lanes := [{ lane := 0, code := code, va := va }], pc := c.o.pc, charged := charged
      pa := if code = fUCESCALAR then s.granuleAt c.core (c.pslot s) va else 0 }

/-! ### Issue of a scalar instruction (R303, R325) -/

/-- Why an instruction that may issue does not: for room in a hold queue or for another wait (R44, R424), for room in the log (R235), which LOGSTALL counts, for a record read through a window (R425), or uncharged in a wait of its own (R269). -/
inductive Stall where
  | no
  | waits
  | log
  | far (owner pa len : Nat)
  | hold (w : Wait)
  deriving DecidableEq, Repr

/-- What R303 and R326 need to know of a scalar instruction: its opcode, its cost, the au it must find beside its cost, the registers it names and, of S, K, B, EXM and FMT, those it writes, whether it waits for the clauses before it, whether it is a boundary instruction, reaches memory, orders the accesses of both streams (R402), or folds its opcode. -/
structure SReq where
  op : Nat
  cost : Nat := 1
  extra : Nat := 0
  sregs : List Nat := []
  kregs : List Nat := []
  bregs : List Nat := []
  swrites : List Nat := []
  kwrites : List Nat := []
  bwrites : List Nat := []
  exm : Bool := false
  fmt : Bool := false
  clauses : Bool := false
  boundary : Bool := false
  memory : Bool := false
  orders : Bool := false
  folds : Bool := true
  free : Bool := false
  stall : Stall := .no

/-- Whether a result is outstanding to a register that is named (R401). -/
def Train.awaits (t : Train) (q : SReq) : Bool :=
  t.ours.any (fun e => match e.2.dest with
    | .scalar d => decide (d ≠ 0) && q.sregs.contains d
    | .buffer d => q.bregs.contains d
    | _ => false)

/-- Whether a scalar instruction waits for a clause that has not finished issuing (R170, R326): it writes a register that the clause reads, or names a mask register that the clause writes. A clause whose code is not known yet holds every such write. -/
def Clause.holdsBack (cl : Clause) (q : SReq) : Bool :=
  let ws := q.swrites.filter (fun n => decide (n ≠ 0))
  match cl.uses with
  | none => !ws.isEmpty || !q.bwrites.isEmpty || !q.kregs.isEmpty || q.exm || q.fmt
  | some u => ws.any (fun n => u.s.contains n) || q.bwrites.any (fun n => u.b.contains n) || q.kwrites.any (fun n => u.k.contains n) ||
      q.kregs.any (fun n => u.kw.contains n) || (q.exm && u.exm) || (q.fmt && u.fmt)

/-- The waits of R170, R326, R401 and R425 before a scalar instruction issues. -/
def Cur.mustWait (c : Cur) (q : SReq) : Bool :=
  c.t.awaits q || (q.clauses && !c.o.clauses.isEmpty) || c.o.clauses.any (fun cl => cl.holdsBack q) || (q.memory && c.t.replying)

/-- A breach of the handler's rules (R161): a register outside S1-S8 and K0-K1, a buffer record or memory, a boundary instruction. -/
def SReq.breach (q : SReq) : Bool :=
  q.boundary || q.memory || !q.bregs.isEmpty || q.sregs.any (fun n => n = 0 || decide (8 < n)) || q.kregs.any (fun n => decide (1 < n))

/-- Charge and fold of a scalar instruction at its issue (R116, R179): none of either in the handler (R161) or at a free re-issue (R118). What a rewind issues again is charged again (R118, R153, R426): R454's figures of 567 spent and 433 left "across any pre-emption" hold of a run that no rewind repeats, and the manual settles this conflict nowhere (log entry 71). -/
def State.pay (s : State) (c : Cur) (q : SReq) : State :=
  if c.t.handler.isSome || q.free || decide (c.o.again = .free) then s.modPortion (fun o => { o with again := .no })
  else
    let s := s.charge c.t.task q.cost
    s.modPortion (fun o => if q.folds then o.foldScalar q.op else o)

/-- The accesses that a portion has issued count as earlier for both its streams from now on (R402). -/
def Train.markBefore (t : Train) (p : Nat) : Train := { t with pend := t.pend.map (fun (e : Nat × Pend) => if e.2.portion = p then (e.1, { e.2 with before := true }) else e) }

/-- The instruction is issued: charged, folded, the PC at the next word, a boundary instruction noted (R152), the messages of its reads used up. -/
def State.issued (s : State) (c : Cur) (q : SReq) : State :=
  let s := s.pay c q
  let s := s.modPortion (fun o => { o with pc := c.o.pc + 4 })
  let s := (s.modCur (fun t => { (if q.orders then t.markBefore c.p else t) with logWait := false })).dropTrips (portionOwner c.core c.slot c.p)
  if q.boundary then s.modCur (fun t => { t with boundary := true, bounds := t.bounds + 1 }) else s

/-- The au an issue must find (R116, R120). -/
def Cur.need (c : Cur) (q : SReq) : Nat :=
  if c.t.handler.isSome || q.free || decide (c.o.again = .free) then 0 else q.cost + q.extra

/-- A turn in which an instruction stalls: a wait under R235 is noted for LOGSTALL, which counts cycles; a read through a window or over the main line is asked for. -/
def State.stalled (s : State) (c : Cur) (x : Stall) : State :=
  match x with
  | .log => s.modTrain c.core c.slot (fun t => { t with logWait := true })
  | .far owner pa n => s.askFar owner pa n
  | .hold w => s.modPortion (fun o => { o with wait := w })
  | _ => s

/-- Issue of a scalar instruction in the order of R303: it waits; a breach in the handler raises DOUBLEFLT; `ill` faults ILLOP; too little allowance traps EXHAUST; `precise` gives another precise or operand fault; else the instruction has its effect `eff` on the state in which it has been issued. -/
def State.scalarGo (s : State) (q : Cur → SReq) (ill : Cur → Bool) (precise : Cur → Option (Nat × Nat)) (eff : Cur → State → State) : Out :=
  match s.cur with
  | none => .fault .noTrain
  | some c =>
    if !s.scalarMay c || c.mustWait (q c) then .next s
    else if (q c).stall ≠ .no then .next (s.stalled c (q c).stall)
    else if c.t.handler.isSome && (q c).breach then .next (s.scalarFault c fDOUBLEFLT 0 false)
    else if ill c then .next (s.scalarFault c fILLOP 0 false)
    else if !s.canPay c.t.task (c.need (q c)) then .next (s.scalarFault c fEXHAUST 0 false)
    else match precise c with
      | some f => .next (s.scalarFault c f.1 f.2 false)
      | none => .next (eff c (s.issued c (q c)))

/-- The conditions under which a scalar instruction has its own effect (R303). -/
def State.scalarReady (s : State) (c : Cur) (q : Cur → SReq) (ill : Cur → Bool) (precise : Cur → Option (Nat × Nat)) : Prop :=
  s.cur = some c ∧ s.scalarMay c = true ∧ c.mustWait (q c) = false ∧ (q c).stall = .no ∧ (c.t.handler.isSome && (q c).breach) = false ∧ ill c = false ∧
    s.canPay c.t.task (c.need (q c)) = true ∧ precise c = none

/-- No check of its own. -/
def never (_ : Cur) : Bool := false
def noFault (_ : Cur) : Option (Nat × Nat) := none

/-! ### Issue of a lane instruction (R169-R171, R303) -/

/-- The clause at the head of the focus portion's queue, with its header fetched. -/
def Cur.clause (c : Cur) : Option Clause :=
  match c.o.clauses with
  | [] => none
  | cl :: _ => if cl.next.isSome then some cl else none

/-- What a lane instruction reads its operands from: the focus, its clause, the live active lanes (R170). -/
structure LCtx where
  c : Cur
  cl : Clause
  act : W32

/-- What R303 needs to know of a lane instruction: opcode, cost, the au it reserves beside it, registers read and written, mask registers, whether it is a boundary instruction or reaches memory. -/
structure LReq where
  op : Nat
  cost : Nat := 1
  extra : Nat := 0
  reads : List Nat := []
  writes : List Nat := []
  kregs : List Nat := []
  sregs : List Nat := []
  boundary : Bool := false
  memory : Bool := false
  stall : Stall := .no

/-- Whether an operation is in the past of a portion: its own, or one that brings results to its lanes, which a portion that it came from or was coupled with has issued (R167, R171). -/
def Train.concerns (t : Train) (p : Nat) (q : Pend) : Bool :=
  decide (q.portion = p) || ((t.portion p).map (fun o => decide (q.lanes &&& o.pm ≠ 0))).getD false

/-- Whether a result is outstanding to a lane register that the instruction names, in the same portion (R171; log entry 11: also one it writes). -/
def Train.awaitsLane (t : Train) (p : Nat) (q : LReq) : Bool :=
  t.ours.any (fun e => t.concerns p e.2 && match e.2.dest with
    | .lanes d => (q.reads ++ q.writes).any (fun r => decide (d ≤ r) && decide (r < d + e.2.regs))
    | _ => false)

/-- A breach of the handler's rules by a lane instruction (R161). -/
def LReq.breach (q : LReq) : Bool :=
  q.boundary || q.memory || (q.reads ++ q.writes).any (fun r => decide (16 ≤ r)) || q.kregs.any (fun k => decide (1 < k)) ||
    q.sregs.any (fun n => n = 0 || decide (8 < n))

/-- Whether every lane register named lies within the budget (R166). -/
def LReq.inBudget (q : LReq) (budget : Nat) : Bool := (q.reads ++ q.writes).all (fun r => decide (r < budgetRegs budget))

/-- The lane cursor moves on: past the instruction, or to the next clause (R169, R180). -/
def Portion.nextWord (o : Portion) : Portion :=
  match o.clauses with
  | [] => o
  | cl :: cs =>
    let n := cl.next.getD 0 + 1
    if cl.len < n then { o with clauses := cl :: cs }.endClause else { o with clauses := { cl with next := some n } :: cs }

/-- Charge and fold of a lane instruction (R116, R179): a recipe clause is charged and not folded (R153), the handler neither (R161). -/
def State.payLane (s : State) (x : LCtx) (q : LReq) : State :=
  if x.c.t.handler.isSome then s
  else
    let s := s.charge x.c.t.task q.cost
    if x.cl.recipe then s else s.modPortion (fun o => { o with sig := (laneSigBytes q.op).foldl sigFold o.sig })

/-- The lane instruction is issued. -/
def State.issuedLane (s : State) (x : LCtx) (q : LReq) : State :=
  let s := (((s.payLane x q).modPortion Portion.nextWord).modCur (fun t => { t with logWait := false })).dropTrips (portionOwner x.c.core x.c.slot x.c.p)
  if q.boundary then s.modCur (fun t => { t with boundary := true, bounds := t.bounds + 1 }) else s

/-- The scalar PC that a lane fault reports, and its lane-word offset (R163, R303). -/
def LCtx.word (x : LCtx) : Nat := x.cl.off + x.cl.next.getD 0

/-- A precise fault of the lane instruction at the cursor (R303). -/
def State.laneFault (s : State) (x : LCtx) (code va : Nat) : State :=
  s.takeFault x.c.core x.c.slot x.c.p { lanes := [{ lane := 0, code := code, va := va }], pc := x.cl.pc, word := some x.word }

/-- A fault of some lanes found before the charge (R435, R465): a poisoned walk entry behind a PAGEFAULT is reported (R190), and the event of poison names the granule (Table 5-4). -/
def State.preFault (s : State) (x : LCtx) (fs : List LaneFault) : State :=
  let p := x.c.pslot s
  let at_ := fun (code : Nat) => (fs.find? (fun f => decide (f.code = code))).map LaneFault.va
  (((at_ fPAGEFAULT).elim s (fun va => s.reportWalk false p va))).takeFault x.c.core x.c.slot x.c.p
    { lanes := fs, scalar := false, pc := x.cl.pc, word := some x.word, pa := ((at_ fUCESCALAR).map (s.granuleAt x.c.core p)).getD 0 }

/-- Issue of a lane instruction in the order of R303; `pre` gives a fault of some lanes that is found before the charge (R435, R465). -/
def State.laneTry (s : State) (q : LCtx → LReq) (ill : LCtx → Bool) (pre : LCtx → List LaneFault) (eff : LCtx → State → State) : Out :=
  match s.cur with
  | none => .fault .noTrain
  | some c =>
    match c.clause with
    | none => .fault .noClause
    | some cl =>
      let x : LCtx := { c := c, cl := cl, act := live cl.exm c.t.deadm }
      if !s.laneMay c || c.t.awaitsLane c.p (q x) || ((q x).memory && c.t.replying) then .next s
      else if (q x).stall ≠ .no then .next (s.stalled c (q x).stall)
      else if c.t.handler.isSome && (q x).breach then .next (s.laneFault x fDOUBLEFLT 0)
      else if !(q x).inBudget c.t.budget || ill x then .next (s.laneFault x fILLOP 0)
      else if !(pre x).isEmpty then .next (s.preFault x (pre x))
      else if !s.canPay c.t.task (if c.t.handler.isSome then 0 else (q x).cost + (q x).extra) then .next (s.laneFault x fEXHAUST 0)
      else .next (eff x (s.issuedLane x (q x)))

/-- No fault before the charge. -/
def noPre (_ : LCtx) : List LaneFault := []

/-- Issue of a lane instruction (R303). -/
def State.laneGo (s : State) (q : LCtx → LReq) (ill : LCtx → Bool) (eff : LCtx → State → State) : Out := s.laneTry q ill noPre eff

/-- The conditions under which a lane instruction has its own effect (R303). -/
def State.laneReady (s : State) (x : LCtx) (q : LCtx → LReq) (ill : LCtx → Bool) (pre : LCtx → List LaneFault) : Prop :=
  s.cur = some x.c ∧ x.c.clause = some x.cl ∧ x.act = live x.cl.exm x.c.t.deadm ∧ s.laneMay x.c = true ∧ x.c.t.awaitsLane x.c.p (q x) = false ∧
    ((q x).memory && x.c.t.replying) = false ∧ (q x).stall = .no ∧ (x.c.t.handler.isSome && (q x).breach) = false ∧ (q x).inBudget x.c.t.budget = true ∧ ill x = false ∧
    pre x = [] ∧ s.canPay x.c.t.task (if x.c.t.handler.isSome then 0 else (q x).cost + (q x).extra) = true

/-- No check of its own. -/
def neverLane (_ : LCtx) : Bool := false

end Sys2Proof.Machine
end

