-- ==== Sys2Proof/Machine/Flags.lean ====
section
/-! DEFINITION. XFLAGS and FMT (R256, R257), and the completion flags F0-F11 (R171). -/

namespace Sys2Proof.Machine

/-! ### XFLAGS (Table 14-4) -/
def xNV : W32 := 0x001
def xDZ : W32 := 0x002
def xOF : W32 := 0x004
def xUF : W32 := 0x008
def xNX : W32 := 0x010
def xSAT : W32 := 0x020
def xOLOVF : W32 := 0x040
def xDEADRD : W32 := 0x100
def xOOBZ : W32 := 0x200
def xLOGERR : W32 := 0x400
/-- The RW bits of XFLAGS: an MTS writes them, the RZ bits stay zero (R9, R256). -/
def xMask : W32 := 0xF77F

/-- Sticky flags set in a train. -/
def Train.flagUp (t : Train) (x : W32) : Train := { t with xflags := t.xflags ||| x }

/-- Sticky flags set in the focus train. -/
def State.flagUp (s : State) (x : W32) : State := s.modCur (fun t => t.flagUp x)

/-! ### FMT (Tables 14-5, 14-6) -/

/-- A format code that FMT may hold. -/
def fmtCode (c : Nat) : Bool := c = 0 || c = 1 || c = 2 || c = 4 || c = 5 || c = 6

/-- Whether a value written to FMT holds no reserved code (R257). -/
def fmtOk (v : W64) : Bool := fmtCode (bits v 0 4) && fmtCode (bits v 4 4) && fmtCode (bits v 8 4) && decide (bits v 12 3 < 4)

/-- The bits FMT holds of a written value: 15 and 63:18 read zero (R9, R349). -/
def fmtMask : W64 := 0x37FFF

def fmtA (f : W64) : Nat := bits f 0 4
def fmtB (f : W64) : Nat := bits f 4 4
def fmtO (f : W64) : Nat := bits f 8 4
def fmtRnd (f : W64) : Nat := bits f 12 3
def fmtOvp (f : W64) : Nat := bits f 16 1
def fmtExpm (f : W64) : Nat := bits f 17 1

/-! ### F0-F11 (R171) -/

/-- Whether a clause names a flag in its sets and is issuing. -/
def Clause.holds (c : Clause) (f : Nat) : Bool := c.next.isSome && (decide (c.setA = f) || decide (c.setB = f))

/-- Whether flag `f` of a train is set: a clause that names it issues, one that the handler's bank keeps among them, an operation counted against it is outstanding, an atomic that waits for its release among them, or a query named it (R171, R285). -/
def Train.flag (t : Train) (f : Nat) : Bool :=
  t.portions.any (fun e => e.2.clauses.any (fun c => c.holds f)) || t.handler.any (fun h => h.clauses.any (fun c => c.holds f)) || t.pend.any (fun e => decide (e.2.flag = some f)) ||
    ((t.fault.bind FaultCtx.access).bind Acc.flag == some f) || t.wqry.any (fun e => decide (e.1 = f)) ||
    t.portions.any (fun e => match e.2.lwait with
      | .relAtomic _ _ x => x.flag == some f
      | _ => false)

/-- Whether every flag of a mask of 12 is clear. -/
def Train.flagsClear (t : Train) (mask : Nat) : Bool := (setBitsOf mask 12).all (fun f => !t.flag f)

end Sys2Proof.Machine
end

