-- ==== Sys2Proof/Machine/Operands.lean ====
section
/-! DEFINITION. Operand forms: lane source selectors (R318, R319) and types (R250, R251), what a clause uses (R170), buffer records (R184), address formation and bounds (R186, R187), and the granules an access touches (R188). -/

namespace Sys2Proof.Machine

/-! ### Lane types (Table 14-1) -/

/-- Bits of a lane type; packed pairs count their element. -/
def typWidth (t : Nat) : Nat := if t ≤ 1 then 8 else if t ≤ 3 then 16 else if t ≤ 5 then 32 else if t ≤ 7 then 64 else if t ≤ 9 then 16 else if t = 10 then 32 else if t = 11 then 64 else 16
/-- Whether a type is signed integer. -/
def typSigned (t : Nat) : Bool := t = 0 || t = 2 || t = 4 || t = 6
/-- Whether a type takes an even register pair. -/
def typWide (t : Nat) : Bool := t = 6 || t = 7 || t = 11

/-! ### Source selectors (Table 17-9) -/

/-- A selector that names an assigned source (R318): 0x143-0x1FE fault ILLOP. -/
def selOk (x : Nat) : Bool := decide (x < 0x143) || decide (x = 0x1FF)

/-- The lane registers a selector reads: one, or an even pair. -/
def selRegs (x : Nat) (wide : Bool) : List Nat := if x < 256 then (if wide then [x, x + 1] else [x]) else []
/-- The scalar registers a selector reads. -/
def selScalars (x : Nat) : List Nat := if 0x100 ≤ x ∧ x < 0x140 then [x - 0x100] else []
/-- An odd register of a pair faults ILLOP (R166). -/
def selEven (x : Nat) (wide : Bool) : Bool := !wide || decide (256 ≤ x) || decide (x % 2 = 0)

/-- A train's global lane index (Table 17-9). -/
def globalLane (core slot l : Nat) : Nat := (core * 32 + slot) * 32 + l

/-- A 32-bit operand (R318, R319). -/
def LCtx.src32 (x : LCtx) (sel : Nat) (imm : W32) (l : Nat) : W32 :=
  if sel < 256 then x.c.t.getV sel l
  else if sel < 0x140 then (if sel = 0x100 then 0 else (Sparse.get 0 x.cl.s (sel - 0x100)).setWidth 32)
  else if sel = 0x140 then BitVec.ofNat 32 l
  else if sel = 0x141 then BitVec.ofNat 32 (globalLane x.c.core x.c.slot l)
  else if sel = 0x142 then 0
  else imm

/-- A 64-bit operand of type `typ` (R318, R319): an immediate is sign-extended for .s64, zero-extended for .u64, and the high half for .f64. -/
def LCtx.src64 (x : LCtx) (sel : Nat) (imm : W32) (typ l : Nat) : W64 :=
  if sel < 256 then (x.c.t.getV (sel + 1) l) ++ (x.c.t.getV sel l)
  else if sel < 0x140 then (if sel = 0x100 then 0 else Sparse.get 0 x.cl.s (sel - 0x100))
  else if sel = 0x140 then BitVec.ofNat 64 l
  else if sel = 0x141 then BitVec.ofNat 64 (globalLane x.c.core x.c.slot l)
  else if sel = 0x142 then 0
  else if typ = 6 then imm.signExtend 64 else if typ = 11 then imm ++ (0#32) else imm.setWidth 64

/-- An operand of a type as the bits of its width (R251). -/
def LCtx.src (x : LCtx) (sel : Nat) (imm : W32) (typ l : Nat) : Nat :=
  if typWide typ then (x.src64 sel imm typ l).toNat else (x.src32 sel imm l).toNat % (if 12 ≤ typ then 2 ^ 32 else 2 ^ typWidth typ)

/-- The bits of a width read as two's complement. -/
def toSigned (n v : Nat) : Int := if v % 2 ^ n < 2 ^ (n - 1) then (v % 2 ^ n : Nat) else (v % 2 ^ n : Nat) - (2 ^ n : Nat)

/-- The register words of a result of a type (R251): narrow signed results sign-extended, other narrow results zero-extended, 64-bit results low word first. -/
def resultWords (typ v : Nat) : List W32 :=
  if typWide typ then [BitVec.ofNat 32 v, BitVec.ofNat 32 (v / 2 ^ 32)]
  else if typ = 0 then [(BitVec.ofNat 8 v).signExtend 32]
  else if typ = 2 then [(BitVec.ofNat 16 v).signExtend 32]
  else if typ = 12 ∨ typ = 13 then [BitVec.ofNat 32 v]
  else [BitVec.ofNat 32 (v % 2 ^ typWidth typ)]

/-- The registers of a result from `d`. -/
def destRegs (d typ : Nat) : List Nat := if typWide typ then [d, d + 1] else [d]

/-- A result written in each lane of a mask. -/
def Train.writeLanes (t : Train) (d : Nat) (rs : List (Nat × List W32)) : Train := rs.foldl (fun t e => t.setVs d e.1 e.2) t

/-! ### What a clause uses (R170) -/

/-- What a word of the LR layout uses: a selector that is not read holds zero (R316) and so names no scalar register. -/
def lrUses (o : LR) : Uses :=
  { s := selScalars o.a.toNat ++ selScalars o.b.toNat ++ selScalars o.c.toNat, exm := true, fmt := o.rnd = 4 }
/-- What a word of the LM layout uses. -/
def lmUses (o : LM) : Uses := { s := selScalars o.i.toNat, b := [o.b.toNat], exm := true }

/-- What a lane instruction uses of the registers that the scalar stream shares with it. -/
def laneUses : Instr → Uses
  | .sel o => { lrUses o with k := [o.kd.toNat] }
  | .icmp o | .fcmp o | .vote o | .elect o => { lrUses o with kw := [o.kd.toNat] }
  | .qsx o => { lrUses o with kw := [o.kd.toNat], fmt := true }
  | .outl o => { lmUses o with k := [o.kd.toNat] }
  | .ld o | .st o | .ldc o | .stc o | .ldh o | .pref o | .atom o => lmUses o
  | .iadd o | .isub o | .imul o | .imulh o | .imad o | .iabs o | .ineg o | .imin o | .imax o | .lAnd o | .lOr o | .lXor o | .andn o | .lNot o => lrUses o
  | .shl o | .shr o | .sra o | .rotl o | .bfe o | .bfi o | .popc o | .clz o | .brev o | .permb o | .lMov o | .idiv o | .irem o => lrUses o
  | .shfl o | .shflup o | .shfldn o | .shflx o | .redu o | .scan o => lrUses o
  | .fadd o | .fsub o | .fmul o | .ffma o | .fmin o | .fmax o | .fclass o | .frnd o | .frcp o | .frsq o | .fsqrt o | .fexp2 o | .flog2 o => lrUses o
  | .fsinpi o | .fcospi o | .fdiv o | .fscale o | .cvt o | .pksx o | .upsx o | .dqsx o | .tcp o => lrUses o
  | _ => {}

/-- The uses of two instructions together. -/
def Uses.join (x y : Uses) : Uses :=
  { s := x.s ++ y.s, b := x.b ++ y.b, k := x.k ++ y.k, kw := x.kw ++ y.kw, exm := x.exm || y.exm, fmt := x.fmt || y.fmt }

/-- The VA of a lane-code word at an offset from the LCB (R314). -/
def wordVa (lcb : W64) (off : Nat) : Nat := (lcb.toNat + 12 * off) % 2 ^ 64

/-- A 4-byte word of code as a core would read it, if it can. -/
def State.peekCode (s : State) (core p va : Nat) : Option Nat :=
  if !canonical va then none else
  match (s.translate core p va .fetch false).1 with
  | .ok pa => if (s.refusal p 0 pa true).isNone && isStack pa then some (s.readLe pa 4) else none
  | .fault _ => none

/-- A lane word as a core would read it. -/
def State.peekLane (s : State) (core p : Nat) (lcb : W64) (off : Nat) : Option Nat :=
  match s.peekCode core p (wordVa lcb off), s.peekCode core p (wordVa lcb off + 4), s.peekCode core p (wordVa lcb off + 8) with
  | some x, some y, some z => some (x + y * 2 ^ 32 + z * 2 ^ 64)
  | _, _, _ => none

/-- What the lane words from an offset up use, if they can be read. -/
def State.wordUses (s : State) (core p : Nat) (lcb : W64) : Nat → Nat → Option Uses
  | 0, _ => some {}
  | n + 1, off => match s.peekLane core p lcb off, s.wordUses core p lcb n (off + 1) with
    | some w, some u => some (((decodeLane w).map laneUses).getD {} |>.join u)
    | _, _ => none

/-- What a clause uses, as the hardware finds it when the clause is enqueued (R170); none where its code cannot be read. -/
def State.clauseUses (s : State) (core p : Nat) (lcb : W64) (off : Nat) : Option Uses :=
  match (s.peekLane core p lcb off).bind decodeHeader with
  | some h => s.wordUses core p lcb h.len (off + 1)
  | none => none

/-! ### Buffer records (Table 11-1) -/

/-- Bits of a buffer record. -/
def rfield (r : BitVec 256) (lo n : Nat) : Nat := r.toNat / 2 ^ lo % 2 ^ n
def rBase (r : BitVec 256) : Nat := rfield r 0 57
def rKind (r : BitVec 256) : Nat := rfield r 57 3
def rEsz (r : BitVec 256) : Nat := rfield r 60 3
def rStride (r : BitVec 256) : Int := toSigned 32 (rfield r 64 32)
def rExtent (r : BitVec 256) : Nat := rfield r 96 32
def rSwz (r : BitVec 256) : Nat := rfield r 128 4
def rOob (r : BitVec 256) : Nat := rfield r 132 2
def rScope (r : BitVec 256) : Nat := rfield r 134 3
def rRdonly (r : BitVec 256) : Bool := rfield r 137 1 = 1
def rPool (r : BitVec 256) : Bool := rfield r 138 1 = 1
def rStrict (r : BitVec 256) : Bool := rfield r 139 1 = 1
def rCnt (r : BitVec 256) : Nat := rfield r 192 8
/-- Element size in bytes. -/
def rE (r : BitVec 256) : Nat := 2 ^ rEsz r

/-- A record with no invalid field value and no reserved bit set (R185). -/
def recOk (r : BitVec 256) : Bool :=
  rfield r 63 1 = 0 && rfield r 140 52 = 0 && rfield r 200 56 = 0 && decide (rEsz r ≤ 4) && decide (rKind r ≤ 4) && decide (rOob r ≤ 2) &&
    decide (rSwz r ≤ 8) && decide (rScope r ≤ 2)

/-! ### Address formation (R186, R187) -/

/-- Swz(x) (R186). -/
def swz (code x : Nat) : Nat := if code = 0 then x else x ^^^ (x / 2 ^ (code + 1) % min (2 ^ (code + 1)) 32)

/-- Addr of an element index (R186): 64-bit, wrapping; an index out of bounds is taken modulo 2^64 (log entry 15). -/
def elemAddr (r : BitVec 256) (i : Int) : Nat := (((rBase r : Int) + swz (rSwz r) (i % 2 ^ 64).toNat * rStride r) % 2 ^ 64).toNat

/-- What the bounds policy makes of an element index (R187): an index, dropped or zeroed, or a fault. -/
inductive Bound where
  | at (i : Nat)
  | dropped
  | fault
  deriving DecidableEq, Repr

/-- R187: index `i` of an element against EXTENT under OOB; with EXTENT 0, clamp acts as zero/drop. -/
def boundOf (r : BitVec 256) (i : Int) : Bound :=
  if 0 ≤ i ∧ i < rExtent r then .at i.toNat
  else if rOob r = 1 then .fault
  else if rOob r = 2 ∧ rExtent r ≠ 0 then .at (if i < 0 then 0 else rExtent r - 1)
  else .dropped

/-- One element formed: an address, dropped, or a fault (OOB, or ADDRRANGE for a misaligned, non-canonical or out-of-space address, R187). `e` is the alignment, `n` its bytes, `size` SPSIZE. -/
def formElem (r : BitVec 256) (e n size : Nat) (i : Int) : Except (Nat × Nat) (Option Nat) :=
  match boundOf r i with
  | .dropped => .ok none
  | .fault => .error (fOOB, elemAddr r i % 2 ^ 57)
  | .at k =>
    let a := elemAddr r k
    if a % e ≠ 0 then .error (fADDRRANGE, a % 2 ^ 57)
    else if rKind r = 1 then (if a + n ≤ size then .ok (some a) else .error (fADDRRANGE, a % 2 ^ 57))
    else if canonical a then .ok (some a) else .error (fADDRRANGE, a % 2 ^ 57)

/-- The elements of an access of width `w` with index `idx` in each lane, as bounds and addresses leave them, and the lanes that fault in forming them, each at its lowest such element, whose number stands beside the fault (R161, R187). -/
def formLanes (r : BitVec 256) (e n size w : Nat) (lanes : List Nat) (idx : Nat → Int) : List Elem × List (Nat × LaneFault) :=
  lanes.foldl (fun acc l =>
    let es := (List.range w).map (fun (j : Nat) => (j, formElem r e n size (idx l + (j : Int))))
    let good := es.filterMap (fun x => match x.2 with
      | .ok a => some ({ lane := l, j := x.1, va := a } : Elem)
      | .error _ => none)
    match es.find? (fun x => match x.2 with
      | .error _ => true
      | .ok _ => false) with
    | some (j, .error f) => (acc.1 ++ good, acc.2 ++ [(j, { lane := l, code := f.1, va := f.2 })])
    | _ => (acc.1 ++ good, acc.2)) ([], [])

/-- The distinct 32-byte granules of a list of elements (R117, R188). -/
def granulesOf (es : List Elem) : List Nat := (es.filterMap (fun e => e.va.map (· / 32))).eraseDups

/-- g of R117 for an access through a record. -/
def touchCount (es : List Elem) : Nat := (granulesOf es).length

/-- g of R117 over every lane as an access first finds it (R118): an element that faults in forming counts at its address, one that bounds drop at none. -/
def formTouch (r : BitVec 256) (e n size w : Nat) (lanes : List Nat) (idx : Nat → Int) : Nat :=
  ((lanes.flatMap (fun l => (List.range w).filterMap (fun (j : Nat) => match formElem r e n size (idx l + (j : Int)) with
    | .ok a => a.map (· / 32)
    | .error f => some (f.2 / 32)))).eraseDups).length

/-- Whether some element was dropped or zeroed (R187: OOBZ). -/
def anyDropped (es : List Elem) : Bool := es.any (fun e => e.va.isNone)

end Sys2Proof.Machine
end

