-- ==== Sys2Proof/Machine/Access.lean ====
section
/-! DEFINITION. Memory accesses (R186-R206, R401-R416): translation and checks of the elements, loads through the view, the stash, the scratchpad, the home and the windows, stores and their records, atomics, the landing of results, killed lanes (R83), and what waiting accesses do when their data arrives. -/

namespace Sys2Proof.Machine

/-! ### Atomic operations (Table 21-3) -/

/-- The code of the atomic load of LDACQ and of the swap of STREL, which answers the value stored, beside those of Table 21-3. -/
def aopLoad : Nat := 13
def aopPut : Nat := 14

/-- The new value of an atomic of `n` bits and its flags (R415). -/
def atomicNew (aop n m v c : Nat) : Nat × Nat :=
  let k := 2 ^ n
  let v := v % k
  let c := c % k
  match aop with
  | 0 => ((m + v) % k, 0)
  | 1 => ((m + k - v) % k, 0)
  | 2 => (if toSigned n m ≤ toSigned n v then m else v, 0)
  | 3 => (if toSigned n m ≤ toSigned n v then v else m, 0)
  | 4 => (min m v, 0)
  | 5 => (max m v, 0)
  | 6 => (m &&& v, 0)
  | 7 => (m ||| v, 0)
  | 8 => (m ^^^ v, 0)
  | 9 => (v, 0)
  | 10 => (if m = c then v else m, 0)
  | 11 => (if v ≤ m then 0 else m + 1, 0)
  | 12 => let f := if n = 32 then f32 else f64; f.add 0 false (f.decode m) (f.decode v)
  | 14 => (v, 0)
  | _ => (m, 0)

/-- Whether an atomic writes the bytes it names (R223 step 3; LDACQ only reads). -/
def atomicWrites (aop n m c : Nat) : Bool := aop ≠ aopLoad && !(aop = 10 && m ≠ c % 2 ^ n)

/-- The value an atomic answers: the old one, but for STREL the one stored (R418). -/
def atomicAnswer (aop old new : Nat) : Nat := if aop = aopPut then new else old

/-! ### Killed lanes (R83) -/

/-- Lanes of a train killed: DEADM, the task's dead-lane count, one event of the class of their counter (R83, R92). -/
def State.killed (s : State) (core slot : Nat) (mask : W32) (cls seg pa : Nat) : State :=
  match s.train core slot with
  | none => s
  | some t =>
    let new := mask &&& ~~~ t.deadm
    if new = 0 then s
    else
      let s := s.setTrain core slot { t with deadm := t.deadm ||| mask }
      let s := s.modTask t.task (fun k => { k with dead := k.dead + popcount new })
      s.event (some (s.slotOfTask t.task)) cls seg 0xFFFF core pa new

/-- Lanes killed by the poison they consumed. -/
def State.killLanes (s : State) (core slot : Nat) (mask : W32) (seg pa : Nat) : State := s.killed core slot mask 2 seg pa

/-! ### Counted lines at their home (R198-R200) -/

/-- A line accessed at its home takes its place in the slice (R68); a spilled counted line returns on an access, and one whose reload fails its FOT check is dropped (R200). -/
def State.lineBack (s : State) (line : Nat) : State :=
  match Table.find s.counted line with
  | none => s.allot line
  | some c =>
    match c.spilled with
    | none => s.allot line
    | some a =>
      if s.fotRange c.slot a 512 then ({ s with counted := Table.put s.counted line { c with spilled := none } }).allot line
      else (s.dropLine line).event (some c.slot) 3 6 0xFFFF (homeOf (line * 256)) (line * 256) 0

/-- A plain fold or an atomic on a counted line clears its count (R200): the line is ordinary again, and its declarer's ring is told. -/
def State.clearCount (s : State) (pa : Nat) : State :=
  let s := s.lineBack (pa / 256)
  match Table.find s.counted (pa / 256) with
  | none => s
  | some c => ({ s with counted := Table.drop s.counted (pa / 256) }).event (some c.slot) 0x10 6 0xFFFF (homeOf pa) (pa / 32 * 32) 0

/-- A counted record has its line counted before it folds (R198): a line with a count above 0 from another STC is counted in its old declarer's UNDERREAD. -/
def State.declareLine (s : State) (pa : Nat) (r : Rec) : State :=
  let line := pa / 256
  let s := s.lineBack line
  match Table.find s.counted line with
  | some c =>
    if c.stc = r.stc && c.declarer = ((s.task r.task).map (fun k => k.id r.task)).getD 0 then s
    else
      let s := if 0 < c.count then
          match s.holder c.declarer with
          | some t => s.modTask t (fun k => { k with underread := min 0xFFFF (k.underread + 1) })
          | none => s
        else s
      { s with counted := Table.put s.counted line { c with count := r.count, declarer := ((s.task r.task).map (fun k => k.id r.task)).getD 0, strict := r.strict, slot := r.slot, stc := r.stc } }
  | none =>
    let a := line * 256
    let c : CLine :=
      { count := r.count, declarer := ((s.task r.task).map (fun k => k.id r.task)).getD 0, strict := r.strict, slot := r.slot, stc := r.stc
        bytes := s.readBytes a 256, stamps := (List.range 256).map (fun i => s.stampOf (a + i)), pois := (List.range 8).map (fun i => s.poisoned (a + 32 * i)) }
    { s with counted := Table.put s.counted line c }

/-! ### Translation and checks of the elements (R188, R190, R187, R185) -/

/-- Whether an access stores: PERM on a read-only record or page (R185, R190). -/
def AccOp.stores : AccOp → Bool
  | .store => true
  | .storeCounted _ => true
  | .atomic _ => true
  | .append => true
  | _ => false

/-- Whether the frame owner is checked when the access issues: not for a store, which is checked when it folds (R72); an FOT region is closed to both (R71). -/
def AccOp.owned : AccOp → Bool
  | .store => false
  | .storeCounted _ => false
  | _ => true

/-- Whether a window refuses an atomic operation (R34, R53). -/
def State.atomRefused (s : State) (op : AccOp) (pa : Nat) : Bool :=
  match op with
  | .atomic a =>
    (match s.place pa with
     | .link n => decide (s.lwd n 4 2 = 2) && (a = 11 || a = 12) && decide (s.lwd n 127 1 = 0)
     | .host _ => !(a = 0 || a = 9 || a = 10 || a = aopPut)
     | _ => false)
  | _ => false

/-- One element at address `va` checked: its physical address, or its fault. -/
def State.checkVa (s : State) (core p : Nat) (op : AccOp) (r : BitVec 256) (va : Nat) : Except Nat Nat × State :=
  if op.stores && rRdonly r then (.error fPERM, s)
  else if rKind r = 1 then (.ok va, s)
  else
    match s.translate core p va (if op.stores then .write else .read) (rPool r) with
    | (.fault c, s) => (.error c, s)
    | (.ok pa, s) =>
      match s.refusal p (rKind r) pa op.owned with
      | some c => (.error c, s)
      | none => if s.atomRefused op pa then (.error fLINKERR, s) else (.ok pa, s)

/-- The outcome of each line of an access, with its physical address: every distinct line is translated once (R188). -/
def State.checkLines (s : State) (core p : Nat) (op : AccOp) (r : BitVec 256) : List Nat → List (Nat × Except Nat Nat) × State
  | [] => ([], s)
  | l :: ls =>
    let x := s.checkVa core p op r (l * 256)
    let y := State.checkLines x.2 core p op r ls
    ((l, x.1) :: y.1, y.2)

/-- An element that may be performed, with its physical address. -/
def goodElem (ls : List (Nat × Except Nat Nat)) (e : Elem) : Option (Elem × Nat) :=
  e.va.bind (fun va => match (ls.find? (fun x => decide (x.1 = va / 256))).map Prod.snd with
    | some (.ok pa) => some (e, pa + va % 256)
    | _ => none)

/-- An element's fault: that of its line, taken by every lane that has an element in it (R188). -/
def badElem (ls : List (Nat × Except Nat Nat)) (e : Elem) : Option LaneFault :=
  e.va.bind (fun va => match (ls.find? (fun x => decide (x.1 = va / 256))).map Prod.snd with
    | some (.error c) => some { lane := e.lane, code := c, va := va }
    | _ => none)

/-- The first fault of each lane. -/
def firstFaults (fs : List LaneFault) : List LaneFault :=
  fs.foldl (fun acc f => if acc.any (fun g => decide (g.lane = f.lane)) then acc else acc ++ [f]) []

/-- The elements of an access that may be performed, with their physical addresses, and the lanes that fault, each at its lowest faulting element (R161, R188). -/
def State.checkElems (s : State) (core p : Nat) (op : AccOp) (r : BitVec 256) (es : List Elem) : List (Elem × Nat) × List LaneFault × State :=
  let c := s.checkLines core p op r ((es.filterMap (fun e => e.va.map (· / 256))).eraseDups)
  (es.filterMap (goodElem c.1), firstFaults (es.filterMap (badElem c.1)), c.2)

/-- The access restricted to some lanes: what R160 replays. An append to an outlier list makes its add in the lowest of them, for as many entries as they bring (R398). -/
def Acc.only (x : Acc) (mask : W32) : Acc :=
  let es := x.elems.filter (fun e => mask.getLsbD e.lane)
  let entries := es.filter (fun e => e.va.isNone)
  { x with elems := match x.op, x.elems.find? (fun e => e.va.isSome), entries with
    | .append, some h, e :: _ => { h with lane := e.lane, val := entries.length } :: entries
    | .append, _, [] => []
    | _, _, _ => es }

/-- The fault of an access in some of its lanes. -/
def Acc.trouble (x : Acc) (fs : List LaneFault) : Trouble :=
  { lanes := fs, scalar := x.scalar, access := some (x.only (faultMask fs)), pc := x.pc, word := x.word, charged := true }

/-! ### Answers to an access -/

/-- The elements of an outstanding access that have not been answered. -/
def Pend.missing (q : Pend) : List Elem :=
  match q.acc with
  | none => []
  | some x => x.elems.filter (fun e => e.va.isSome && !q.out.any (fun o => decide (o.1 = e.lane) && decide (o.2.1 = e.j)))

/-- A fault of element `e` joins those of its access: each lane keeps the fault of its lowest element (R161). -/
def Pend.failed (q : Pend) (e : Elem) (code : Nat) : List LaneFault :=
  let f : LaneFault := { lane := e.lane, code := code, va := e.va.getD 0 }
  match q.faults.find? (fun g => decide (g.lane = e.lane)) with
  | none => q.faults ++ [f]
  | some g =>
    let j := ((q.acc.map Acc.elems).getD []).find? (fun x => decide (x.lane = e.lane) && decide (x.va = some g.va))
    if (j.map (fun x => decide (e.j < x.j))).getD false then q.faults.map (fun g => if g.lane = e.lane then f else g) else q.faults

/-- An element answered with a value, a fault, or the poison of the granule at an address; it is answered once. -/
def Pend.answer (q : Pend) (e : Elem) (v : Nat) (code kill : Option Nat) : Pend :=
  if q.out.any (fun o => decide (o.1 = e.lane) && decide (o.2.1 = e.j)) then q
  else { q with
    out := q.out ++ [(e.lane, e.j, v)]
    faults := (match code with
      | some c => q.failed e c
      | none => q.faults)
    killed := if kill.isSome then q.killed ||| (1#32 <<< e.lane) else q.killed
    poison := if q.killed = 0 then kill.getD q.poison else q.poison }

/-- A change of an outstanding operation. -/
def State.modPend (s : State) (core slot id : Nat) (f : Pend → Pend) : State :=
  s.modTrain core slot (fun t => { t with pend := Table.modify t.pend id f })

/-- The bytes of an element in a sector, and its granule if that is poisoned. -/
def Sector.element (x : Sector) (va size : Nat) : Nat × Option Nat :=
  (leNat ((x.data.drop (va % 128)).take size), if x.pois.getLsbD (va % 128 / 32) then some (x.pa + va % 128 / 32 * 32) else none)

/-- A poisoned granule's address. -/
def State.poisonAt (s : State) (pa : Nat) : Option Nat := if s.poisoned pa then some (pa / 32 * 32) else none

/-- Whether a load is served from the view or the stash (R192, R196). -/
def Acc.viewed (x : Acc) : Bool := x.op = .load && (rKind x.brec = 0 || rKind x.brec = 2)

/-- Whether a task's accesses through a record go to the stash: KIND 2, while the task has stash ways on the core (R196). -/
def State.stashed (s : State) (core task : Nat) (r : BitVec 256) : Bool := rKind r = 2 && decide (0 < (s.scratch core task).stash)

/-- The key of an element's sector in the view, or in the task's stash. -/
def elemKey (stash : Bool) (task p va : Nat) : Nat := if stash then stashKey task (sectorKey p va) else sectorKey p va

/-- The missing elements of an access that lie in a present sector answered from it (R218). -/
def Pend.fromView (k : Core) (p task : Nat) (stash : Bool) (q : Pend) : Pend :=
  q.missing.foldl (fun q e =>
    let va := e.va.getD 0
    match k.sector stash (elemKey stash task p va) with
    | none => q
    | some x => q.answer e (x.element va q.size).1 none (x.element va q.size).2) q

/-- Every outstanding load of a core looks at the sectors that are present. -/
def State.pokeLoads (s : State) (core : Nat) : State :=
  { s with trains := s.trains.map (fun (e : Nat × Train) =>
      if e.1 / 32 = core then
        (e.1, { e.2 with pend := e.2.pend.map (fun (q : Nat × Pend) =>
          match q.2.acc with
          | some x => if x.viewed then (q.1, q.2.fromView (s.core core) (s.slotOfTask e.2.task) e.2.task (s.stashed core e.2.task x.brec)) else q
          | none => q) })
      else e) }

/-- A sector arrives at a core: it is placed where there is room for its line, and the loads that wait for it go on (R192); one that no line keeps needs no room and is gone again (R322). The flag is false while the line waits for room (R193). -/
def State.fillArrives (s : State) (core key : Nat) (stash : Bool) (x : Sector) : Bool × State :=
  let mine := fun (f : Fill) => decide (f.key = key) && (f.stash == stash)
  let keep := !(s.core core).fills.any (fun f => mine f && !f.keep)
  match (if keep then s.makeRoom core stash key else (true, s)) with
  | (false, s) => (false, s)
  | (true, s) =>
    let k := s.core core
    let k := if stash && keep then k.useStash key else k
    let s := (s.setCore core ({ k with fills := k.fills.filter (fun f => !mine f) }.putSector stash key x)).pokeLoads core
    if keep then (true, s)
    else
      let k := s.core core
      (true, s.setCore core (if stash then { k with stash := Table.drop k.stash key } else { k with view := Table.drop k.view key }))

/-- A sector cannot be filled: the loads that wait for it fault in their lanes (R47, R72). -/
def State.fillFails (s : State) (core key : Nat) (stash : Bool) (code : Nat) : State :=
  let k := s.core core
  let s := s.setCore core { k with fills := k.fills.filter (fun f => !(decide (f.key = key) && (f.stash == stash))) }
  { s with trains := s.trains.map (fun (e : Nat × Train) =>
      if e.1 / 32 = core then
        (e.1, { e.2 with pend := e.2.pend.map (fun (q : Nat × Pend) =>
          match q.2.acc with
          | some x =>
            if x.viewed && (s.stashed core e.2.task x.brec == stash) then
              (q.1, q.2.missing.foldl (fun q y => if elemKey stash e.2.task (s.slotOfTask e.2.task) (y.va.getD 0) = key then q.answer y 0 (some code) none else q) q.2)
            else q
          | none => q) })
      else e) }

/-- The sectors an element needs: its own, or in the stash both of its line, which is used (R192, R196); of a view line the hint is noted (R322). -/
def State.wantElem (s : State) (core p task va pa : Nat) (stash keep : Bool) (hint : Nat) : State :=
  let key := elemKey stash task p va
  let s := s.wantSector core key pa stash keep
  if stash then
    let s := s.wantSector core (key ^^^ 1) (pa ^^^ 128) stash keep
    if (s.core core).stashUse.contains (key / 2) then s.setCore core ((s.core core).useStash key) else s
  else if hint = 0 then s
  else s.setCore core ((s.core core).hintRow hint (key / 2))

/-! ### Waiting on memory (R419-R421) -/

/-- The condition of WAITA (Table 21-4) on values of `n` bits; 8 is WAITM's. -/
def watchHolds (cond n v c : Nat) : Bool :=
  let v := v % 2 ^ n
  let c := c % 2 ^ n
  match cond with
  | 0 => decide (v = c)
  | 1 => decide (v ≠ c)
  | 2 => decide (v < c)
  | 3 => decide (c ≤ v)
  | 4 => decide (toSigned n v < toSigned n c)
  | 5 => decide (toSigned n c ≤ toSigned n v)
  | 6 => decide (v &&& c ≠ 0)
  | 7 => decide (v &&& c = 0)
  | _ => decide (v &&& c = c)

/-- Whether some word of a scratchpad range is poisoned (R85). -/
def Scratch.isBad (x : Scratch) (a n : Nat) : Bool := x.bad.any (fun w => decide (a / 4 ≤ w) && decide (w ≤ (a + n - 1) / 4))

/-- The watched element's value, and whether it is poisoned (R420); kind 5 stands for an element that the zero policy makes read 0 (R419), kind 4 for one in global memory under a POOL record. -/
def State.watched (s : State) (core task kind pa size : Nat) : Nat × Bool :=
  if kind = 5 then (0, false) else if kind = 1 then ((s.scratch core task).readLe pa size, (s.scratch core task).isBad pa size) else (s.readLe pa size, s.poisoned pa)

/-- One parked waiter looks at its element (R420, R466). -/
def State.pokeOne (s : State) (key p : Nat) : State :=
  match Table.find s.trains key with
  | none => s
  | some t =>
    match t.portion p with
    | none => s
    | some o =>
      match o.wait with
      | .watch kind va pa size cond c d =>
        let v := s.watched (key / 32) t.task kind pa size
        if v.2 then
          if t.fault.isSome || t.call.isSome then s
          else
            let s := { s with trains := Table.put s.trains key (t.setPortion p { o with wait := .none }) }
            let s := s.modTask t.task (fun k => { k with alw := k.alw + 1, spent := k.spent - 1 })
            s.takeFault (key / 32) (key % 32) p { lanes := [{ lane := 0, code := fUCESCALAR, va := va }], scalar := true, pc := o.pc, charged := false, seg := if kind = 1 then 3 else 6, pa := if kind = 1 then 0 else pa / 32 * 32 }
        else if watchHolds cond (8 * size) v.1 c.toNat then
          { s with trains := Table.put s.trains key ((t.setS d (BitVec.ofNat 64 v.1)).setPortion p { o with wait := .none }) }
        else s
      | _ => s

/-- Every parked waiter looks at its element, after a write (R420). -/
def State.pokeWatch (s : State) : State :=
  s.trains.foldl (fun s e => e.2.portions.foldl (fun s o => match o.2.wait with
    | .watch .. => s.pokeOne e.1 o.1
    | _ => s) s) s

/-- A parked waiter's element found anew after its mapping has been invalidated (R191): at its new address, or with the fault of an access (R420, R465). -/
def State.watchAgain (s : State) (key p : Nat) : State :=
  match Table.find s.trains key with
  | none => s
  | some t =>
    match t.portion p with
    | none => s
    | some o =>
      match o.wait with
      | .watch kind va _ size cond c d =>
        let ps := s.slotOfTask t.task
        let x := s.translate (key / 32) ps va .read (kind = 4)
        let s := x.2
        let fail := fun (code : Nat) => if t.fault.isSome || t.call.isSome then s else
          ({ s with trains := Table.put s.trains key (t.setPortion p { o with wait := .none, pc := o.pc - 4 }) }).takeFault (key / 32) (key % 32) p
            { lanes := [{ lane := 0, code := code, va := va }], scalar := true, pc := o.pc - 4, charged := true }
        match x.1 with
        | .fault code => fail code
        | .ok pa => if !isStack pa then fail fADDRRANGE else match s.refusal ps 0 pa true with
          | some code => fail code
          | none => ({ s with trains := Table.put s.trains key (t.setPortion p { o with wait := .watch kind va pa size cond c d }) }).pokeOne key p
      | _ => s

/-- Every parked waiter on global memory that `sel` picks by slot, VA and PA finds its element anew. -/
def State.rewatch (s : State) (sel : Nat → Nat → Nat → Bool) : State :=
  s.trains.foldl (fun s e => e.2.portions.foldl (fun s o => match o.2.wait with
    | .watch kind va pa .. => if (kind = 0 || kind = 4) && sel (s.slotOfTask e.2.task) va pa then s.watchAgain e.1 o.1 else s
    | _ => s) s) s

/-! ### An access performed -/

/-- A long-latency operation entered in its train, with its identifier. -/
def State.addPend (s : State) (core slot : Nat) (q : Pend) : Nat × State :=
  match s.train core slot with
  | none => (0, s)
  | some t => (t.nextPend, s.setTrain core slot { t with pend := Table.put t.pend t.nextPend { q with began := s.time }, nextPend := t.nextPend + 1 })

/-- The operation an access becomes. -/
def Acc.pend (x : Acc) (p : Nat) (ok : List (Elem × Nat)) (lanes : W32) : Pend :=
  { portion := p, flag := x.flag, dest := x.dest, regs := (x.width * x.size + 3) / 4, size := x.size, width := x.width, lanes := lanes
    out := (match x.op with
      | .atomic a => if a = aopPut then (x.elems.filter (fun e => e.va.isNone)).map (fun e => (e.lane, e.j, e.val)) else []
      | _ => [])
    before := x.scalar && (x.acq || x.rel)
    acc := some { x with elems := if x.op = .append then x.elems else x.elems.filter (fun e => ok.any (fun y => y.1 = e)) } }

/-- The granule's worths of a store in ascending granule address; the highest lane, and in it the highest element, is kept (R210, R403). -/
def piecesOf (size : Nat) (ok : List (Elem × Nat)) : List Piece :=
  let put := fun (m : Table Piece) (y : Elem × Nat) =>
    let va := y.1.va.getD 0
    let old := (Table.find m (va / 32)).getD { gran := va / 32, pa := y.2 / 32 * 32, mask := 0, data := List.replicate 32 0 }
    let here := (List.range 32).map (fun i => decide (va % 32 ≤ i) && decide (i < va % 32 + size))
    Table.put m (va / 32)
      { old with
        mask := old.mask ||| BitVec.ofNat 32 ((2 ^ size - 1) * 2 ^ (va % 32))
        data := overlay old.data (List.replicate (va % 32) 0 ++ leBytes size y.1.val ++ List.replicate 32 0) here }
  (ok.foldl put []).vals

/-- A store of a train to global memory (R192, R210): the view or stash and the log, granule by granule. -/
def State.storeGlobal (s : State) (core slot p task : Nat) (r : BitVec 256) (cntd : Option Nat) (size : Nat) (keep : Bool) (hint : Nat) (ok : List (Elem × Nat)) : State :=
  let mark := ((s.train core slot).map (fun t => t.flash.mark)).getD 0
  let stc := s.nextId
  let s := if cntd.isSome then { s with nextId := s.nextId + 1 } else s
  let stash := s.stashed core task r
  (piecesOf size ok).foldl (fun s x =>
    let s := s.viewStore core p x
    let s := if rKind r = 4 || !keep then s else s.wantElem core p task (x.gran * 32) x.pa stash true hint
    s.appendPiece core p slot task mark cntd (rStrict r) stc x) s

/-- A store to the scratchpad, in place (R195, R403). -/
def State.storeScratch (s : State) (core task size : Nat) (ok : List (Elem × Nat)) : State :=
  s.setScratch core task (ok.foldl (fun x y => x.write y.2 (leBytes size y.1.val)) (s.scratch core task))

/-- One atomic in the scratchpad (R414): the new pad, the answer, the flags, whether its lane is killed. -/
def Scratch.atomic (x : Scratch) (aop size a v c : Nat) : Scratch × Nat × Nat × Option Nat :=
  if x.isBad a size then (x, 0, 0, some 0)
  else
    let m := x.readLe a size
    let r := atomicNew aop (8 * size) m v c
    (if atomicWrites aop (8 * size) m c then x.write a (leBytes size r.1) else x, atomicAnswer aop m r.1, r.2, none)

/-- The home slice an access goes to, or a number above the slices for a window's group (R35). -/
def State.homeKey (s : State) (pa : Nat) : Nat :=
  match s.place pa with
  | .link n => 4096 + s.portGroup n pa
  | .host _ => 8192
  | _ => homeOf pa

/-- An access sent to its homes: one home operation for each atomic element, one for each home of a load (R223, R225). -/
def State.sendHome (s : State) (core slot p task pend : Nat) (op : AccOp) (size : Nat) (cls : Nat) (groups : List (Nat × List (Elem × Nat))) : State :=
  groups.foldl (fun s g =>
    { s with
      nextId := s.nextId + 1
      homeOps := Table.put s.homeOps s.nextId
        { core := core, slot := slot, task := task, part := p, pend := pend, op := op, size := size, home := g.1, elems := g.2, cls := cls, sent := s.time, came := s.nextId } }) s

/-- Elements grouped by home slice in order of first appearance. -/
def State.byHome (s : State) (ok : List (Elem × Nat)) : List (Nat × List (Elem × Nat)) :=
  ((ok.map (fun y => s.homeKey y.2)).eraseDups).map (fun h => (h, ok.filter (fun y => decide (s.homeKey y.2 = h))))

/-- Lanes of an access that are answered when it lands: those of its elements, dropped ones among them (R187). -/
def Acc.lanes (x : Acc) : W32 := maskOf (x.elems.map Elem.lane)

/-- The address of a scalar access (R407). -/
def Acc.firstVa (x : Acc) : Nat := ((x.elems.head?).bind Elem.va).getD 0

/-- Where the request of an element through a window begins and what it carries: across a link its granule, for no UALink read is shorter than 32 bytes (R33). -/
def elemReq (pa size : Nat) : Nat × Nat := if inLinks pa then (pa / 32 * 32, 32) else (pa, size)

/-- The access performed on the elements that passed their checks; `lanes` take the result. Answers the operation's identifier. -/
def State.perform (s : State) (core slot p : Nat) (x : Acc) (ok : List (Elem × Nat)) (lanes : W32) : Nat × State :=
  match s.train core slot with
  | none => (0, s)
  | some t =>
    let ps := s.slotOfTask t.task
    let kind := rKind x.brec
    let stash := s.stashed core t.task x.brec
    match x.op with
    | .prefetch =>
      (0, if kind = 4 then s else ok.foldl (fun s y => s.wantElem core ps t.task (y.1.va.getD 0) y.2 stash x.keep x.hint) s)
    | .store =>
      (0, if kind = 1 then s.storeScratch core t.task x.size ok
          else if kind = 3 then ok.foldl (fun s y => s.post y.2 (leBytes x.size y.1.val) false) s
          else s.storeGlobal core slot ps t.task x.brec none x.size x.keep x.hint ok)
    | .storeCounted n => (0, s.storeGlobal core slot ps t.task x.brec (some n) x.size x.keep x.hint ok)
    | .load =>
      if kind = 1 then
        let pad := s.scratch core t.task
        s.addPend core slot (ok.foldl (fun q y => q.answer y.1 (pad.readLe y.2 x.size) none (if pad.isBad y.2 x.size then some 0 else none)) (x.pend p ok lanes))
      else if kind = 3 then
        let r := s.addPend core slot (x.pend p ok lanes)
        (r.1, ok.foldl (fun s y => s.request core y.2 x.size false none [] (.element core slot r.1 y.1.lane y.1.j) false) r.2)
      else if kind = 4 then
        let r := s.addPend core slot (x.pend p ok lanes)
        (r.1, r.2.sendHome core slot ps t.task r.1 .load x.size 0 (r.2.byHome ok))
      else
        let s := ok.foldl (fun s y => s.wantElem core ps t.task (y.1.va.getD 0) y.2 stash x.keep x.hint) s
        s.addPend core slot ((x.pend p ok lanes).fromView (s.core core) ps t.task stash)
    | .loadHome =>
      let r := s.addPend core slot (x.pend p ok lanes)
      let s := r.2.sendHome core slot ps t.task r.1 .loadHome x.size 0 (r.2.byHome (ok.filter (fun y => isStack y.2)))
      (r.1, (ok.filter (fun y => !isStack y.2)).foldl (fun s y => s.request core (elemReq y.2 x.size).1 (elemReq y.2 x.size).2 false none [] (.element core slot r.1 y.1.lane y.1.j) false) s)
    | .consume =>
      let r := s.addPend core slot (x.pend p ok lanes)
      (r.1, r.2.sendHome core slot ps t.task r.1 .consume x.size 0 (r.2.byHome ok))
    | .atomic aop =>
      if kind = 1 then
        let r := ok.foldl (fun (acc : State × Pend) y =>
          let a := (acc.1.scratch core t.task).atomic aop x.size y.2 y.1.val y.1.cmp
          ((acc.1.setScratch core t.task a.1).pokeWatch, { acc.2.answer y.1 a.2.1 none a.2.2.2 with xflags := acc.2.xflags ||| BitVec.ofNat 32 a.2.2.1 })) (s, x.pend p ok lanes)
        r.1.addPend core slot r.2
      else
        let r := s.addPend core slot (x.pend p ok lanes)
        let s := if ok.any (fun y => (r.2.log core).unpublishedIn ps (y.1.va.getD 0 / 32) (y.1.va.getD 0 / 32)) then r.2.publish core else r.2
        (r.1, s.sendHome core slot ps t.task r.1 x.op x.size 2 (ok.map (fun y => (s.homeKey y.2, [y]))))
    | .append =>
      let r := s.addPend core slot (x.pend p ok lanes)
      let s := if ok.any (fun y => (r.2.log core).unpublishedIn ps (y.1.va.getD 0 / 32) (y.1.va.getD 0 / 32)) then r.2.publish core else r.2
      (r.1, s.sendHome core slot ps t.task r.1 x.op x.size 2 (ok.map (fun y => (s.homeKey y.2, [y]))))

/-- The faults of an access that appends to an outlier list are those of every appending lane (R399). -/
def Acc.spread (x : Acc) (fs : List LaneFault) : List LaneFault :=
  match x.op, fs with
  | .append, f :: _ => ((x.elems.map Elem.lane).eraseDups).map (fun l => { f with lane := l })
  | _, _ => fs

/-- Whether every operation of a train has been answered, with no fault whose replay is still to come (R162, R163, R226, R227). -/
def Train.answered (t : Train) : Bool := t.fault.isNone && t.pend.all (fun q => q.2.missing.isEmpty && q.2.faults.isEmpty)

/-- A portion's wait set: its scalar stream's for a scalar access, its lane cursor's for a lane access. -/
def State.setWait (s : State) (core slot p : Nat) (scalar : Bool) (w : Wait) : State :=
  s.modTrain core slot (fun t => { t with portions := Table.modify t.portions p (fun o => if scalar then { o with wait := w } else { o with lwait := w }) })

/-- A release begun by a portion (R212, R215): the log published, its ticket taken; answers the tail and the token. -/
def State.beginRelease (s : State) (core slot p : Nat) : Nat × W64 × State :=
  let s := s.publish core
  let g := s.log core
  (g.tail, s.token core, s.setLog core { g with rels := g.rels ++ [trainKey core slot * 4 + p] })

/-- The wait that a portion's stream has. -/
def State.waitOf (s : State) (core slot p : Nat) (scalar : Bool) : Wait := match (s.train core slot).bind (fun t => t.portion p) with
  | some o => if scalar then o.wait else o.lwait
  | none => .none

/-- An atomic waits for its release (R224); where lanes of it wait already, those that are replayed now follow them (R416). -/
def State.waitRel (s : State) (core slot p tail : Nat) (sys : Bool) (x : Acc) : State :=
  s.setWait core slot p x.scalar (match s.waitOf core slot p x.scalar with
    | .relAtomic _ _ z => .relAtomic tail sys { z with elems := z.elems ++ x.elems }
    | _ => .relAtomic tail sys x)

/-- The scope of an ordering effect: the instruction's, or the record's (R185, R306). -/
def scopeOf (sc : Nat) (r : BitVec 256) : Nat := if sc = 3 then rScope r else sc

/-- The faults of an access: each lane's at its lowest faulting element, of those found in forming the addresses (`early`) and in checking them. -/
def mergeFaults (early : List (Nat × LaneFault)) (late : List LaneFault) : List LaneFault :=
  late ++ (early.filter (fun f => !late.any (fun g => decide (g.lane = f.2.lane)))).map Prod.snd

/-- The elements to translate and check: those below a lane's early fault. -/
def Acc.checked (x : Acc) (early : List (Nat × LaneFault)) : List Elem :=
  x.elems.filter (fun e => early.all (fun f => decide (f.2.lane ≠ e.lane) || decide (e.j < f.1)))

/-- An access with its elements checked and performed (R186-R188, R410-R416): lanes that fault take their fault, the others complete. An atomic with .rel releases first (R224), which at .cor is to wait for the train's earlier accesses; one with .acq holds later accesses until its reply. -/
def State.access (s : State) (core slot p : Nat) (x : Acc) (early : List (Nat × LaneFault)) : State :=
  match s.train core slot with
  | none => s
  | some t =>
    let ps := s.slotOfTask t.task
    let c := s.checkElems core ps x.op x.brec (x.checked early)
    let fs := x.spread (mergeFaults early c.2.1)
    let mask := faultMask fs
    let ok := c.1.filter (fun y => !mask.getLsbD y.1.lane)
    let s := c.2.2
    if x.op = .prefetch then (s.perform core slot p x ok 0).2
    else
      let y := x.only (~~~ mask)
      let s := if anyDropped x.elems && x.op ≠ .append then s.modTrain core slot (fun t => t.flagUp xOOBZ) else s
      let s :=
        if y.elems.isEmpty then s
        else if x.rel && x.scope = 0 && !t.answered then s.waitRel core slot p 0 false { y with rel := false }
        else if x.rel && decide (1 ≤ x.scope) then
          let r := match s.waitOf core slot p x.scalar with
            | .relAtomic tail .. => (tail, 0, s)
            | _ => s.beginRelease core slot p
          let z := { y with rel := false, elems := if x.op = .atomic aopPut then y.elems.map (fun e => { e with val := r.2.1.toNat }) else y.elems }
          r.2.2.waitRel core slot p r.1 (x.scope = 2) z
        else
          let r := s.perform core slot p y ok y.lanes
          if x.acq then r.2.setWait core slot p x.scalar (.reply r.1) else r.2
      if fs.isEmpty then s else s.takeFault core slot p (x.trouble fs)

/-! ### What an access waits for before it issues (R44, R227, R235) -/

/-- Whether two elements share a byte. -/
def sharesByte (n m : Nat) (x y : Elem) : Bool :=
  match x.va, y.va with
  | some a, some b => decide (a < b + m) && decide (b < a + n)
  | _, _ => false

/-- Whether an outstanding operation has still to be performed on one of some bytes. -/
def Pend.touches (q : Pend) (n a : Nat) : Bool := match q.acc with
  | none => false
  | some y => y.op = .append || q.missing.any (fun e => sharesByte y.size n e { lane := 0, j := 0, va := some a })

/-- Whether an earlier access of the portion to a byte of this one has not been performed (R227; log entry 16): one of the same stream, or of either stream where the two are ordered, by an ordering instruction since or by this access itself (R402). An append to an outlier list stores its entries only when its add has answered (R398). -/
def Train.clashes (t : Train) (p : Nat) (x : Acc) : Bool :=
  t.pend.any (fun q => decide (q.2.portion = p) && match q.2.acc with
    | none => false
    | some y => ((y.scalar == x.scalar) || q.2.before || x.scalar && (x.acq || x.rel)) &&
        (y.op = .append && !(rKind x.brec = 1) || q.2.missing.any (fun e => x.elems.any (fun f => sharesByte y.size x.size e f))))

/-- Whether some granule's record of a store has no room in the log (R235): merged granules take none (R211). -/
def State.logFull (s : State) (core slot p task : Nat) (cntd : Bool) (x : Acc) : Bool :=
  let mark := ((s.train core slot).map (fun t => t.flash.mark)).getD 0
  let ps := piecesOf x.size (x.elems.filterMap (fun e => e.va.map (fun a => (e, a))))
  let fresh := ps.filter (fun y => match (s.log core).newest y.gran p with
    | some r => !r.takes p slot task y.gran mark cntd
    | none => true)
  !s.logRoom core p fresh.length

/-- Whether a store waits for room in the log (R235). -/
def State.noRoom (s : State) (core slot p task : Nat) (x : Acc) : Bool := match x.op with
  | .store => (rKind x.brec = 0 || rKind x.brec = 2 || rKind x.brec = 4) && s.logFull core slot p task false x
  | .storeCounted _ => s.logFull core slot p task true x
  | _ => false

/-- The addresses of the requests of an access that would wait in a hold queue: for one that reads through the view, those of the sectors it must ask for. -/
def State.heldRequests (s : State) (core p task : Nat) (x : Acc) : List Nat :=
  let stash := s.stashed core task x.brec
  let k := s.core core
  let pas := x.elems.filterMap (fun e => e.va.bind (fun va =>
    if x.viewed && ((k.sector stash (elemKey stash task p va)).isSome || k.fills.any (fun f => decide (f.key = elemKey stash task p va) && (f.stash == stash))) then none
    else match (s.translate core p va (if x.op.stores then .write else .read) (rPool x.brec)).1 with
      | .ok pa => if (s.holdRoom pa).isSome then some pa else none
      | .fault _ => none))
  if x.viewed then (if stash then ((pas.map (· / 256)).eraseDups.flatMap (fun n => [n * 256, n * 256 + 128])) else (pas.map (· / 128)).eraseDups.map (· * 128)) else pas

/-- Whether the requests of an access would not all find room in their window's hold queue (R44); the records and fills of a store wait elsewhere. -/
def State.holds (s : State) (core p task : Nat) (x : Acc) : Bool :=
  if rKind x.brec = 1 || x.op = .store || x.op = .prefetch then false
  else
    let rs := s.heldRequests core p task x
    rs.any (fun pa => match s.holdRoom pa with
      | some n => decide (n < rs.length)
      | none => false)

/-- Where the translation of some element stops: at the home of a walk entry (R24, R70, R90, R204). -/
def State.walks (s : State) (core owner p : Nat) (x : Acc) : Option Nat :=
  if rKind x.brec = 1 then none else (x.elems.filterMap Elem.va).findSome? (fun va => s.coreStops core owner p va)

/-- Whether an outlier list's entries have not been stored yet: they come before a later release. -/
def Train.appending (t : Train) : Bool := t.pend.any (fun q => match q.2.acc with
  | some x => x.op = .append
  | none => false)

/-- The wait of an access before it issues. -/
def State.memStall (s : State) (c : Cur) (x : Acc) : Stall :=
  let p := c.pslot s
  let owner := portionOwner c.core c.slot c.p
  if c.t.clashes c.p x || s.holds c.core p c.t.task x || (x.rel && c.t.appending) then .waits
  else match s.walks c.core owner p x with
    | some a => .far owner a 0
    | none => if s.noRoom c.core c.slot p c.t.task x then .log else .no

/-! ### Landing (R171, R401, R410) -/

/-- The value of a lane's elements, little-endian (R186); elements that were dropped read zero (R187). -/
def Pend.value (q : Pend) (l : Nat) : Nat :=
  (List.range q.width).foldl (fun v j =>
    v + ((q.out.find? (fun e => decide (e.1 = l) && decide (e.2.1 = j))).map (fun e => e.2.2 % 2 ^ (8 * q.size))).getD 0 * 2 ^ (8 * q.size * j)) 0

/-- The register words of a lane's result (R410). -/
def Pend.words (q : Pend) (l : Nat) : List W32 := (List.range q.regs).map (fun k => BitVec.ofNat 32 (q.value l / 2 ^ (32 * k)))

/-- Whether an operation may land: every element is answered, no handler has the registers unless the operation is the handler's own (R161), and no other fault of the train stands in the way of its own. -/
def Train.mayLand (t : Train) (id : Nat) (q : Pend) : Bool :=
  q.missing.isEmpty && (match t.handler with
    | none => true
    | some h => decide (h.mark ≤ id)) && (!(q.acc.any (fun x => x.op = .append)) && q.faults.isEmpty && (q.killed = 0 || match q.dest with
    | .lanes _ => true
    | .nowhere => true
    | _ => false) || t.fault.isNone && t.call.isNone)

/-- The entries of an outlier list after its add has answered `c` (R398), each with its position; those of `lanes` within EXTENT are stored, at addresses that are good or bad. -/
def Pend.entries (q : Pend) (x : Acc) : List (Nat × Elem) :=
  let c := (q.out.head?.map (fun e => e.2.2)).getD 0 % 2 ^ 32
  (x.elems.filter (fun e => e.va.isNone)).zipIdx.map (fun y => (c + 1 + y.2, y.1))
def entryBad (x : Acc) (y : Nat × Elem) : Bool := decide (elemAddr x.brec y.1 % 8 ≠ 0) || !canonical (elemAddr x.brec y.1)
def Pend.stored (q : Pend) (x : Acc) (lanes : W32) (bad : Bool) : List (Nat × Elem) :=
  (q.entries x).filter (fun y => decide (y.1 < rExtent x.brec) && lanes.getLsbD y.2.lane && (entryBad x y == bad))

/-- The logged store of the entries with good addresses (R210, R264). -/
def Pend.entryAcc (q : Pend) (x : Acc) (lanes : W32) : Acc :=
  { x with op := .store, size := 8, width := 1, dest := .nowhere, rel := false, elems := (q.stored x lanes false).map (fun y => { y.2 with j := 0, va := some (elemAddr x.brec y.1) }) }

/-- The entries of an outlier list stored (R398); positions past EXTENT set OLOVF. -/
def State.appendEntries (s : State) (core slot : Nat) (q : Pend) (x : Acc) (lanes : W32) : State :=
  let s := if (q.entries x).all (fun y => decide (y.1 < rExtent x.brec)) then s else s.modTrain core slot (fun t => t.flagUp xOLOVF)
  let bad := q.stored x lanes true
  let s := s.access core slot q.portion (q.entryAcc x lanes) []
  if bad.isEmpty then s
  else s.takeFault core slot q.portion ((q.entryAcc x lanes).trouble (bad.map (fun y => { lane := y.2.lane, code := fADDRRANGE, va := elemAddr x.brec y.1 % 2 ^ 57 })))

/-- Whether an operation is an append that goes on to store its entries. -/
def Pend.appends (q : Pend) : Bool := q.faults.isEmpty && decide (q.killed = 0) && q.acc.any (fun x => x.op = .append)
/-- Whether its entries find no room in the log yet (R235, R264). -/
def State.entriesWait (s : State) (core slot : Nat) (t : Train) (q : Pend) : Bool :=
  q.appends && q.acc.any (fun x => s.logFull core slot (s.slotOfTask t.task) t.task false (q.entryAcc x x.lanes))

/-- The portions that waited for an operation's reply go on (R224), a lane cursor to the reply of another part of the same atomic that is outstanding still (R416); LDACQ acquires the value it loaded (R418). -/
def Train.replied (t : Train) (id : Nat) (next : Wait) : Train :=
  let rest := fun (p : Nat) => match t.pend.find? (fun e => decide (e.1 ≠ id) && decide (e.2.portion = p) && e.2.acc.any (fun x => x.acq && !x.scalar)) with
    | some e => Wait.reply e.1
    | none => Wait.none
  { t with portions := t.portions.map (fun (e : Nat × Portion) =>
      (e.1, { e.2 with wait := if e.2.wait = .reply id then next else e.2.wait, lwait := if e.2.lwait = .reply id then rest e.1 else e.2.lwait })) }

/-- An operation lands (R171): results in the lanes that neither fault nor die, killed lanes (R83) or UCESCALAR (R466), flags, and the faults of the lanes left over (R160). -/
def State.land (s : State) (core slot id : Nat) : State :=
  match s.train core slot with
  | none => s
  | some t =>
    match Table.find t.pend id with
    | none => s
    | some q =>
      if !t.mayLand id q then s
      else if s.entriesWait core slot t q then s.setTrain core slot { t with logWait := true }
      else
        let t := { t with logWait := t.logWait && !q.appends, pend := Table.drop t.pend id, xflags := t.xflags ||| q.xflags }
        let good := q.lanes &&& ~~~ faultMask q.faults &&& ~~~ q.killed
        let faults := q.faults.filter (fun f => !q.killed.getLsbD f.lane)
        let seg := if q.acc.any (fun x => rKind x.brec = 1) then 3 else if q.acc.any Acc.viewed then 2 else 6
        match q.acc with
        | none =>
          (match q.dest with
           | .lanes d => s.setTrain core slot (t.writeLanes d ((lanesOf good).map (fun l => (l, q.words l))))
           | _ => s.setTrain core slot t)
        | some x =>
          if x.scalar then
            if q.killed ≠ 0 then
              let s := s.setTrain core slot (t.replied id .none)
              let s := s.modTask t.task (fun k => { k with alw := k.alw + x.cost, spent := k.spent - x.cost })
              s.takeFault core slot q.portion { lanes := [{ lane := 0, code := fUCESCALAR, va := x.firstVa }], scalar := true, pc := x.pc, charged := false, seg := seg, pa := q.poison }
            else if !q.faults.isEmpty then
              (s.setTrain core slot (t.replied id .none)).takeFault core slot q.portion (x.trouble q.faults)
            else
              let v := q.value 0
              let t := match q.dest with
                | .scalar d => t.setS d (BitVec.ofNat 64 v)
                | .buffer d => t.setB d (BitVec.ofNat 256 v)
                | _ => t
              let next : Wait := if x.op = .atomic aopLoad then .acquire (if x.scope = 0 then [] else [v % 2 ^ 63]) (x.scope = 2) else .none
              s.setTrain core slot (t.replied id next)
          else
            let t := match q.dest with
              | .lanes d => t.writeLanes d ((lanesOf good).map (fun l => (l, q.words l)))
              | _ => t
            let s := s.setTrain core slot (t.replied id .none)
            let killed := match x.op with
              | .append => if q.killed = 0 then 0 else x.lanes
              | _ => q.killed
            let s := if killed = 0 then s else s.killLanes core slot killed seg q.poison
            if q.appends then s.appendEntries core slot q x x.lanes
            else if faults.isEmpty then s else s.takeFault core slot q.portion (x.trouble (x.spread faults))

/-! ### At the home (R199, R223, R225) -/

/-- Whether an earlier LDH, LDC or atomic of the same train to the same home slice has not been performed (R223, R225). -/
def State.queuedBehind (s : State) (id : Nat) (h : HomeOp) : Bool :=
  s.homeOps.any (fun e => decide (e.1 < id) && decide (e.2.core = h.core) && decide (e.2.slot = h.slot) && decide (e.2.home = h.home) && e.2.op ≠ .load)

/-- The owner check at the home for an address a train reads or changes (R72): the code it faults with. -/
def State.homeRefuses (s : State) (p pa : Nat) : Option Nat :=
  match s.place pa with
  | .stack => if s.fotOk (s.ownid p) pa then none else some fOWNERSHIP
  | .nowhere => some fADDRRANGE
  | .link n => if s.linkCut n pa then some fLINKDOWN else none
  | .host _ => none

/-- One element read at the home: the folded contents, a fault, or poison (R225). -/
def State.homeRead (s : State) (h : HomeOp) (y : Elem × Nat) : State :=
  match s.homeRefuses h.part y.2 with
  | some c => s.modPend h.core h.slot h.pend (fun q => q.answer y.1 0 (some c) none)
  | none =>
    let s := s.lineBack (y.2 / 256)
    s.modPend h.core h.slot h.pend (fun q => q.answer y.1 (s.readLe y.2 h.size) none (s.poisonAt y.2))

/-- The lines of an LDC at its home (R199): which hold a count above 0 as it arrives. -/
def State.liveLines (s : State) (ys : List (Elem × Nat)) : List Nat :=
  ((ys.map (fun y => y.2 / 256)).eraseDups).filter (fun n => ((Table.find s.counted n).map (fun c => decide (0 < c.count))).getD false)

/-- A line's count down by one; at 0 it is dropped (R199). -/
def State.countDown (s : State) (line : Nat) : State :=
  match Table.find s.counted line with
  | none => s
  | some c =>
    let s := { s with counted := Table.put s.counted line { c with count := c.count - 1 } }
    if c.count ≤ 1 then s.dropLine line else s

/-- An LDC served at its home (R199, R412). -/
def State.homeConsume (s : State) (h : HomeOp) : State :=
  let owned := h.elems.filter (fun y => (s.homeRefuses h.part y.2).isNone)
  let s := (owned.map (fun y => y.2 / 256)).eraseDups.foldl (fun s n => s.lineBack n) s
  let lines := s.liveLines owned
  let s := h.elems.foldl (fun s y =>
    match s.homeRefuses h.part y.2 with
    | some c => s.modPend h.core h.slot h.pend (fun q => q.answer y.1 0 (some c) none)
    | none =>
      if lines.contains (y.2 / 256) then s.modPend h.core h.slot h.pend (fun q => q.answer y.1 (s.readLe y.2 h.size) none (s.poisonAt y.2))
      else s.modPend h.core h.slot h.pend (fun q => q.answer y.1 0 (some fCOUNTOVER) none)) s
  lines.foldl (fun s n => s.countDown n) s

/-- An LDH, LDC or kind 4 LD served at its home (R225). -/
def State.homeServe (s : State) (id : Nat) : State :=
  match Table.find s.homeOps id with
  | none => s
  | some h =>
    let s := { s with homeOps := Table.drop s.homeOps id }
    if h.op = .consume then s.homeConsume h else h.elems.foldl (fun s y => s.homeRead h y) s

/-- The bytes of an atomic written at its home, each with the stamp of R223 step 3. -/
def State.atomicWrite : State → Nat → Nat → List Byte → State
  | s, _, _, [] => s
  | s, log, a, b :: bs =>
    let st := (max s.clock ((s.stampOf a).1 + 1), log)
    State.atomicWrite { s with mem := Memory.write s.mem a b, stamps := Sparse.set (0, 0) s.stamps a st } log (a + 1) bs

/-- One read-modify-write in place at a home (R223 step 3, R415): the new state, the answer and the flags. -/
def State.atomicAt (s : State) (log aop size pa v c : Nat) : State × Nat × Nat :=
  let s := s.clearCount pa
  let m := s.readLe pa size
  let r := atomicNew aop (8 * size) m v c
  (if atomicWrites aop (8 * size) m c then s.atomicWrite log pa (leBytes size r.1) else s, atomicAnswer aop m r.1, r.2)

/-- The atomic operation of a home operation: OUTL's cursor add is an add (R398). -/
def AccOp.aop : AccOp → Nat
  | .atomic a => a
  | _ => 0

/-- The line of an atomic's element invalidated in the issuing core's view and stashes (R223 step 4). -/
def State.atomicLine (s : State) (core key : Nat) : State := s.invalidate core (fun k => decide (keyPlain k / 2 = key / 2))

/-- An atomic of a home operation that its port sends on. -/
def State.atomicSend (s : State) (h : HomeOp) (y : Elem × Nat) : State :=
  let src := match s.place y.2 with
    | .link n => linkLog (s.portGroup n y.2) y.2
    | _ => h.core
  s.atomicTo src y.2 h.size h.op.aop y.1.val y.1.cmp (.atomic h.core h.slot h.pend y.1.lane y.1.j (sectorKey h.part (y.1.va.getD 0)))

/-- An atomic that reaches its home (R223 steps 3 and 4): performed in stack memory, or sent to its window, where it waits for room in the hold queue and for the line's lock. -/
def State.atomicServe (s : State) (id : Nat) : State :=
  match Table.find s.homeOps id with
  | none => s
  | some h =>
    match h.elems with
    | [] => { s with homeOps := Table.drop s.homeOps id }
    | y :: _ =>
      let s0 := s
      let s := { s with homeOps := Table.drop s.homeOps id }
      match s.homeRefuses h.part y.2 with
      | some c => s.modPend h.core h.slot h.pend (fun q => q.answer y.1 0 (some c) none)
      | none =>
        if !isStack y.2 then
          if s.atomRefused h.op y.2 then s.modPend h.core h.slot h.pend (fun q => q.answer y.1 0 (some fLINKERR) none)
          else if s.holdFull y.2 || s.lineLocked y.2 then s0
          else s.atomicSend h y
        else if s.poisoned y.2 then s.modPend h.core h.slot h.pend (fun q => q.answer y.1 0 none (s.poisonAt y.2))
        else
          let r := s.atomicAt h.core h.op.aop h.size y.2 y.1.val y.1.cmp
          (r.1.atomicLine h.core (sectorKey h.part (y.1.va.getD 0))).modPend h.core h.slot h.pend (fun q => { q.answer y.1 r.2.1 none none with xflags := q.xflags ||| BitVec.ofNat 32 r.2.2 })

/-- Whether a record of an atomic's granule has not folded: the issuing core's log still holds it, or a link port that took it from there (R223 step 2). -/
def State.atomicHeld (s : State) (h : HomeOp) : Bool := h.elems.any (fun y =>
  (s.log h.core).holds h.part (y.1.va.getD 0 / 32) ||
    s.logs.any (fun e => decide (1736 ≤ e.1) && e.2.recs.any (fun r => r.origin.map Prod.fst == some h.core && decide (r.gran = y.2 / 32))))

end Sys2Proof.Machine
end

