-- ==== Sys2Proof/Machine/Scalar.lean ====
section
/-! DEFINITION. Scalar arithmetic, branches, jumps, mask registers, the format register, special registers, flag waits and signatures (18_scalar_stream.md, R325-R334, R345-R355). -/

namespace Sys2Proof.Machine

/-! ### Shared forms -/

/-- The focus portion jumps. -/
def State.jump (s : State) (pc : W64) : State := s.modPortion (fun o => { o with pc := pc })

/-- A PC-relative target (R307). -/
def relTarget {n : Nat} (pc : W64) (off : BitVec n) : W64 := pc + 4 * off.signExtend 64

/-- A register write of the focus train. -/
def State.putS (s : State) (d : BitVec 6) (v : W64) : State := s.modCur (fun t => t.setS d.toNat v)
def State.putK (s : State) (d : BitVec 4) (v : W32) : State := s.modCur (fun t => t.setK d.toNat v)

/-- A register-to-register operation: S(d) gets f of S(a) and S(b) (R327); its word names the first `n` of the two. -/
def State.salu (s : State) (op n : Nat) (d a b : BitVec 6) (f : W64 → W64 → W64) : Out :=
  s.scalarGo (fun _ => { op := op, sregs := d.toNat :: ([a.toNat, b.toNat].take n), swrites := [d.toNat] }) never noFault
    (fun c s => s.putS d (f (c.t.getS a.toNat) (c.t.getS b.toNat)))

/-- A division (R328): a zero divisor sets DZ. -/
def State.sdivide (s : State) (d a b : BitVec 6) (f : W64 → W64 → W64) : Out :=
  s.scalarGo (fun _ => { op := 0, sregs := [d.toNat, a.toNat, b.toNat], swrites := [d.toNat] }) never noFault
    (fun c s => (if c.t.getS b.toNat = 0 then s.flagUp xDZ else s).putS d (f (c.t.getS a.toNat) (c.t.getS b.toNat)))

/-- A branch on a scalar register (R331). -/
def State.branchS (s : State) (a : BitVec 6) (o : BitVec 16) (taken : W64 → Bool) : Out :=
  s.scalarGo (fun _ => { op := 0x18, sregs := [a.toNat] }) never noFault
    (fun c s => if taken (c.t.getS a.toNat) then s.jump (relTarget c.o.pc o) else s)

/-- A branch on a mask register: `taken` judges K(k) AND L against L (R332). -/
def State.branchK (s : State) (k : BitVec 4) (o : BitVec 20) (taken : W32 → W32 → Bool) : Out :=
  s.scalarGo (fun _ => { op := 0x19, kregs := [k.toNat] }) never noFault
    (fun c s =>
      let l := live c.o.exm c.t.deadm
      if taken (c.t.getK k.toNat &&& l) l then s.jump (relTarget c.o.pc o) else s)

/-- The fault of a register target (R307). -/
def badTarget (t : W64) : Option (Nat × Nat) := if t.toNat % 4 = 0 && canonical t.toNat then none else some (fADDRRANGE, t.toNat)

/-- A jump to the address in S(a); `link` says whether S63 takes the return address (R334). -/
def State.jumpS (s : State) (a : BitVec 6) (link : Bool) : Out :=
  s.scalarGo (fun _ => { op := 0x1C, sregs := if link then [a.toNat, 63] else [a.toNat], swrites := if link then [63] else [] }) never (fun c => badTarget (c.t.getS a.toNat))
    (fun c s => (if link then s.putS 63 (c.o.pc + 4) else s).jump (c.t.getS a.toNat))

/-- A mask operation: K(d) gets f of K(a) and K(b) (R345). -/
def State.kop (s : State) (d : BitVec 4) (reads : List (BitVec 4)) (f : Cur → W32) : Out :=
  s.scalarGo (fun _ => { op := 0x22, kregs := d.toNat :: reads.map BitVec.toNat, kwrites := [d.toNat] }) never noFault (fun c s => s.putK d (f c))

/-- A value of a mask register to a scalar register (R347). -/
def State.ktoS (s : State) (d : BitVec 6) (a : BitVec 4) (f : W32 → W64) : Out :=
  s.scalarGo (fun _ => { op := 0x23, sregs := [d.toNat], swrites := [d.toNat], kregs := [a.toNat] }) never noFault (fun c s => s.putS d (f (c.t.getK a.toNat)))

/-! ### Operations (Table 18-1, R328) -/

/-- The number of leading zero bits. -/
def clz {n : Nat} (x : BitVec n) : Nat := if x.toNat = 0 then n else n - 1 - Nat.log2 x.toNat
/-- The number of trailing zero bits. -/
def ctz {n : Nat} (x : BitVec n) : Nat := ((List.range n).find? (fun i => x.getLsbD i)).getD n
/-- Signed and unsigned quotients and remainders with the edge cases of Table 18-2. -/
def sdivOp (x y : W64) : W64 := if y = 0 then 0xFFFFFFFFFFFFFFFF else BitVec.ofInt 64 (x.toInt.tdiv y.toInt)
def sdivuOp (x y : W64) : W64 := if y = 0 then 0xFFFFFFFFFFFFFFFF else BitVec.ofNat 64 (x.toNat / y.toNat)
def sremOp (x y : W64) : W64 := if y = 0 then x else BitVec.ofInt 64 (x.toInt.tmod y.toInt)
def sremuOp (x y : W64) : W64 := if y = 0 then x else BitVec.ofNat 64 (x.toNat % y.toNat)
/-- The bits of a word in reverse order. -/
def brev {n : Nat} (x : BitVec n) : BitVec n := BitVec.ofNat n ((List.range n).foldl (fun v i => if x.getLsbD i then v + 2 ^ (n - 1 - i) else v) 0)

/-! ### The meanings -/

/-- UDF faults ILLOP (R304). -/
def execUdf (s : State) : Out := s.scalarGo (fun _ => { op := 0x3F }) (fun _ => true) noFault (fun _ s => s)

/-- SADD (R327). -/
def execSadd (d a b : BitVec 6) (s : State) : Out := s.salu 0 2 d a b (fun x y => x + y)
/-- SSUB (R327). -/
def execSsub (d a b : BitVec 6) (s : State) : Out := s.salu 0 2 d a b (fun x y => x - y)
/-- SAND (R327). -/
def execSand (d a b : BitVec 6) (s : State) : Out := s.salu 0 2 d a b (fun x y => x &&& y)
/-- SOR (R327). -/
def execSor (d a b : BitVec 6) (s : State) : Out := s.salu 0 2 d a b (fun x y => x ||| y)
/-- SXOR (R327). -/
def execSxor (d a b : BitVec 6) (s : State) : Out := s.salu 0 2 d a b (fun x y => x ^^^ y)
/-- SSHL (R327). -/
def execSshl (d a b : BitVec 6) (s : State) : Out := s.salu 0 2 d a b (fun x y => x <<< (y.toNat % 64))
/-- SSHR (R327). -/
def execSshr (d a b : BitVec 6) (s : State) : Out := s.salu 0 2 d a b (fun x y => x >>> (y.toNat % 64))
/-- SSRA (R327). -/
def execSsra (d a b : BitVec 6) (s : State) : Out := s.salu 0 2 d a b (fun x y => x.sshiftRight (y.toNat % 64))
/-- SMUL (R327): the low 64 bits of the product. -/
def execSmul (d a b : BitVec 6) (s : State) : Out := s.salu 0 2 d a b (fun x y => x * y)
/-- SMULH (R327): the high 64 bits of the signed product. -/
def execSmulh (d a b : BitVec 6) (s : State) : Out := s.salu 0 2 d a b (fun x y => BitVec.ofInt 64 (x.toInt * y.toInt / 2 ^ 64))
/-- SMULHU (R327): the high 64 bits of the unsigned product. -/
def execSmulhu (d a b : BitVec 6) (s : State) : Out := s.salu 0 2 d a b (fun x y => BitVec.ofNat 64 (x.toNat * y.toNat / 2 ^ 64))
/-- SMIN (R327). -/
def execSmin (d a b : BitVec 6) (s : State) : Out := s.salu 0 2 d a b (fun x y => if x.slt y then x else y)
/-- SMAX (R327). -/
def execSmax (d a b : BitVec 6) (s : State) : Out := s.salu 0 2 d a b (fun x y => if x.slt y then y else x)
/-- SMINU (R327). -/
def execSminu (d a b : BitVec 6) (s : State) : Out := s.salu 0 2 d a b (fun x y => if x.ult y then x else y)
/-- SMAXU (R327). -/
def execSmaxu (d a b : BitVec 6) (s : State) : Out := s.salu 0 2 d a b (fun x y => if x.ult y then y else x)
/-- SSLT (R327). -/
def execSslt (d a b : BitVec 6) (s : State) : Out := s.salu 0 2 d a b (fun x y => boolW (x.slt y))
/-- SSLTU (R327). -/
def execSsltu (d a b : BitVec 6) (s : State) : Out := s.salu 0 2 d a b (fun x y => boolW (x.ult y))
/-- SSEQ (R327). -/
def execSseq (d a b : BitVec 6) (s : State) : Out := s.salu 0 2 d a b (fun x y => boolW (x == y))
/-- SDIV (R328). -/
def execSdiv (d a b : BitVec 6) (s : State) : Out := s.sdivide d a b sdivOp
/-- SDIVU (R328). -/
def execSdivu (d a b : BitVec 6) (s : State) : Out := s.sdivide d a b sdivuOp
/-- SREM (R328). -/
def execSrem (d a b : BitVec 6) (s : State) : Out := s.sdivide d a b sremOp
/-- SREMU (R328). -/
def execSremu (d a b : BitVec 6) (s : State) : Out := s.sdivide d a b sremuOp
/-- SPOPC (R327). -/
def execSpopc (d a : BitVec 6) (s : State) : Out := s.salu 0 1 d a 0 (fun x _ => BitVec.ofNat 64 (popcount x))
/-- SCLZ (R327). -/
def execSclz (d a : BitVec 6) (s : State) : Out := s.salu 0 1 d a 0 (fun x _ => BitVec.ofNat 64 (clz x))
/-- SCTZ (R327). -/
def execSctz (d a : BitVec 6) (s : State) : Out := s.salu 0 1 d a 0 (fun x _ => BitVec.ofNat 64 (ctz x))
/-- SBREV (R327). -/
def execSbrev (d a : BitVec 6) (s : State) : Out := s.salu 0 1 d a 0 (fun x _ => brev x)
/-- SADDI (R329). -/
def execSaddi (d a : BitVec 6) (i : BitVec 14) (s : State) : Out := s.salu 1 1 d a 0 (fun x _ => x + i.signExtend 64)
/-- SANDI (R329). -/
def execSandi (d a : BitVec 6) (i : BitVec 14) (s : State) : Out := s.salu 2 1 d a 0 (fun x _ => x &&& i.setWidth 64)
/-- SORI (R329). -/
def execSori (d a : BitVec 6) (i : BitVec 14) (s : State) : Out := s.salu 3 1 d a 0 (fun x _ => x ||| i.setWidth 64)
/-- SXORI (R329). -/
def execSxori (d a : BitVec 6) (i : BitVec 14) (s : State) : Out := s.salu 4 1 d a 0 (fun x _ => x ^^^ i.setWidth 64)
/-- SSHLI (R329). -/
def execSshli (d a h : BitVec 6) (s : State) : Out := s.salu 5 1 d a 0 (fun x _ => x <<< h.toNat)
/-- SSHRI (R329). -/
def execSshri (d a h : BitVec 6) (s : State) : Out := s.salu 6 1 d a 0 (fun x _ => x >>> h.toNat)
/-- SSRAI (R329). -/
def execSsrai (d a h : BitVec 6) (s : State) : Out := s.salu 7 1 d a 0 (fun x _ => x.sshiftRight h.toNat)
/-- SSLTI (R329). -/
def execSslti (d a : BitVec 6) (i : BitVec 14) (s : State) : Out := s.salu 8 1 d a 0 (fun x _ => boolW (x.slt (i.signExtend 64)))
/-- SMOVI (R330). -/
def execSmovi (d : BitVec 6) (i : BitVec 20) (s : State) : Out := s.salu 9 0 d 0 0 (fun _ _ => i.signExtend 64)
/-- SHORI (R330). -/
def execShori (d : BitVec 6) (i : BitVec 20) (s : State) : Out := s.salu 0xA 1 d d 0 (fun x _ => (x <<< 20) ||| i.setWidth 64)
/-- BZ (R331). -/
def execBz (a : BitVec 6) (o : BitVec 16) (s : State) : Out := s.branchS a o (fun x => x == 0)
/-- BNZ (R331). -/
def execBnz (a : BitVec 6) (o : BitVec 16) (s : State) : Out := s.branchS a o (fun x => x != 0)
/-- BLTZ (R331). -/
def execBltz (a : BitVec 6) (o : BitVec 16) (s : State) : Out := s.branchS a o (fun x => x.slt 0)
/-- BGEZ (R331). -/
def execBgez (a : BitVec 6) (o : BitVec 16) (s : State) : Out := s.branchS a o (fun x => !x.slt 0)
/-- BLEZ (R331). -/
def execBlez (a : BitVec 6) (o : BitVec 16) (s : State) : Out := s.branchS a o (fun x => x.sle 0)
/-- BGTZ (R331). -/
def execBgtz (a : BitVec 6) (o : BitVec 16) (s : State) : Out := s.branchS a o (fun x => !x.sle 0)
/-- BKANY (R332). -/
def execBkany (k : BitVec 4) (o : BitVec 20) (s : State) : Out := s.branchK k o (fun m _ => m != 0)
/-- BKALL (R332). -/
def execBkall (k : BitVec 4) (o : BitVec 20) (s : State) : Out := s.branchK k o (fun m l => m == l)
/-- BKNONE (R332). -/
def execBknone (k : BitVec 4) (o : BitVec 20) (s : State) : Out := s.branchK k o (fun m _ => m == 0)
/-- BRA (R333). -/
def execBra (o : BitVec 26) (s : State) : Out :=
  s.scalarGo (fun _ => { op := 0x1A }) never noFault (fun c s => s.jump (relTarget c.o.pc o))
/-- CALL (R333). -/
def execCall (o : BitVec 26) (s : State) : Out :=
  s.scalarGo (fun _ => { op := 0x1B, sregs := [63], swrites := [63] }) never noFault (fun c s => (s.putS 63 (c.o.pc + 4)).jump (relTarget c.o.pc o))
/-- JR (R334). -/
def execJr (a : BitVec 6) (s : State) : Out := s.jumpS a false
/-- CALLR (R334). -/
def execCallr (a : BitVec 6) (s : State) : Out := s.jumpS a true
/-- RET, whose S0 form is RET_S0 (R334). -/
def execRet (a : BitVec 6) (s : State) : Out := s.jumpS a false

/-- KAND (R345). -/
def execKand (d a b : BitVec 4) (s : State) : Out := s.kop d [a, b] (fun c => c.t.getK a.toNat &&& c.t.getK b.toNat)
/-- KOR (R345). -/
def execKor (d a b : BitVec 4) (s : State) : Out := s.kop d [a, b] (fun c => c.t.getK a.toNat ||| c.t.getK b.toNat)
/-- KXOR (R345). -/
def execKxor (d a b : BitVec 4) (s : State) : Out := s.kop d [a, b] (fun c => c.t.getK a.toNat ^^^ c.t.getK b.toNat)
/-- KANDN (R345). -/
def execKandn (d a b : BitVec 4) (s : State) : Out := s.kop d [a, b] (fun c => c.t.getK a.toNat &&& ~~~ c.t.getK b.toNat)
/-- KNOT (R345). -/
def execKnot (d a : BitVec 4) (s : State) : Out := s.kop d [a] (fun c => ~~~ c.t.getK a.toNat)
/-- KMOV (R345). -/
def execKmov (d a : BitVec 4) (s : State) : Out := s.kop d [a] (fun c => c.t.getK a.toNat)
/-- KSETEXM (R346): EXM within the path mask and the live lanes. -/
def execKsetexm (a : BitVec 4) (s : State) : Out :=
  s.scalarGo (fun _ => { op := 0x22, kregs := [a.toNat], exm := true }) never noFault
    (fun c s => s.modPortion (fun o => { o with exm := c.t.getK a.toNat &&& c.o.pm &&& ~~~ c.t.deadm }))
/-- KGETEXM (R345). -/
def execKgetexm (d : BitVec 4) (s : State) : Out := s.kop d [] (fun c => c.o.exm)
/-- KLIVE (R345). -/
def execKlive (d : BitVec 4) (s : State) : Out := s.kop d [] (fun c => live c.o.exm c.t.deadm)
/-- KCLR (R345). -/
def execKclr (d : BitVec 4) (s : State) : Out := s.kop d [] (fun _ => 0)
/-- KONES (R345). -/
def execKones (d : BitVec 4) (s : State) : Out := s.kop d [] (fun _ => 0xFFFFFFFF)
/-- KTOS (R347). -/
def execKtos (d : BitVec 6) (a : BitVec 4) (s : State) : Out := s.ktoS d a (fun k => k.setWidth 64)
/-- STOK (R347). -/
def execStok (d : BitVec 4) (a : BitVec 6) (s : State) : Out :=
  s.scalarGo (fun _ => { op := 0x23, sregs := [a.toNat], kregs := [d.toNat], kwrites := [d.toNat] }) never noFault (fun c s => s.putK d ((c.t.getS a.toNat).setWidth 32))
/-- KPOPC (R347). -/
def execKpopc (d : BitVec 6) (a : BitVec 4) (s : State) : Out := s.ktoS d a (fun k => BitVec.ofNat 64 (popcount k))
/-- KFFS (R347). -/
def execKffs (d : BitVec 6) (a : BitVec 4) (s : State) : Out := s.ktoS d a (fun k => BitVec.ofNat 64 (ctz k))

/-- A write of FMT in the issuing portion (R348, R349, R351). -/
def State.putFmt (s : State) (v : W64) : State := s.modPortion (fun o => { o with fmt := v &&& fmtMask })

/-- SETFMT (R348): a reserved code or bit 15 faults ILLOP. -/
def execSetfmt (f : BitVec 18) (s : State) : Out :=
  s.scalarGo (fun _ => { op := 0x24, fmt := true }) (fun _ => f.getLsbD 15 || !fmtOk (f.setWidth 64)) noFault (fun _ s => s.putFmt (f.setWidth 64))
/-- GETFMT (R349). -/
def execGetfmt (d : BitVec 6) (s : State) : Out :=
  s.scalarGo (fun _ => { op := 0x25, sregs := [d.toNat], swrites := [d.toNat] }) never noFault (fun c s => s.putS d c.o.fmt)
/-- PUTFMT (R349): a reserved code faults ILLOP; reserved bits are ignored. -/
def execPutfmt (a : BitVec 6) (s : State) : Out :=
  s.scalarGo (fun _ => { op := 0x25, sregs := [a.toNat], fmt := true }) (fun c => !fmtOk (c.t.getS a.toNat)) noFault (fun c s => s.putFmt (c.t.getS a.toNat))

/-! ### Special registers (R350, R351, Table 17-6) -/

/-- The value of special register `n` as an instruction of the focus reads it. -/
def State.special (s : State) (c : Cur) (n : Nat) : W64 :=
  match n with
  | 0x00 => BitVec.ofNat 64 (((s.task c.t.task).map (fun k => k.id c.t.task)).getD 0)
  | 0x01 => BitVec.ofNat 64 c.slot
  | 0x02 => BitVec.ofNat 64 c.core
  | 0x03 => BitVec.ofNat 64 (c.core / 8)
  | 0x04 => BitVec.ofNat 64 (c.core / 192)
  | 0x05 => BitVec.ofNat 64 (((s.task c.t.task).map Task.alw).getD 0)
  | 0x06 => c.o.fmt
  | 0x07 => c.o.exm.setWidth 64
  | 0x08 => c.t.deadm.setWidth 64
  | 0x09 => c.o.sig.setWidth 64
  | 0x0A => c.t.xflags.setWidth 64
  | 0x0B => BitVec.ofNat 64 s.clock
  | 0x0C => c.t.lcb
  | 0x0D => BitVec.ofNat 64 (coreLog c.core)
  | 0x0E => BitVec.ofNat 64 (s.log (coreLog c.core)).tail
  | 0x0F => c.t.fltinfo
  | 0x10 => c.t.fltmask.setWidth 64
  | 0x11 => BitVec.ofNat 64 (s.scratch c.core c.t.task).size
  | _ => 0

/-- Whether lane instructions of the train have not completed: clauses queued or results outstanding (R350, XFLAGS). -/
def Train.lanesBusy (t : Train) : Bool :=
  t.portions.any (fun e => (match t.handler with
    | some h => decide (e.1 = h.portion)
    | none => true) && !e.2.clauses.isEmpty) || t.ours.any (fun e => match e.2.acc with
    | some x => !x.scalar
    | none => true)

/-- The wait of a special register's access: SIG waits for the portion's clauses, XFLAGS for the train's lane instructions. -/
def specialStall (c : Cur) (n : Nat) : Stall := if n = 0x0A && c.t.lanesBusy then .waits else .no

/-- MFS (R350): ALW is read after the charge, SIG before the fold. -/
def execMfs (d : BitVec 6) (r : BitVec 8) (s : State) : Out :=
  s.scalarGo (fun c => { op := 0x26, sregs := [d.toNat], swrites := [d.toNat], clauses := r = 0x09, stall := specialStall c r.toNat }) (fun _ => decide (0x12 ≤ r.toNat)) noFault
    (fun c s => s.putS d (s.special c r.toNat))

/-- Whether MTS refuses a value: a reserved code of FMT, an LCB that is not a multiple of 12 or not canonical (R314, R351). -/
def mtsBad (n : Nat) (v : W64) : Bool := (n = 0x06 && !fmtOk v) || (n = 0x0C && (decide (v.toNat % 12 ≠ 0) || !canonical v.toNat))

/-- A write of special register `n` (R351); a read-only one is left as it is. -/
def State.putSpecial (s : State) (c : Cur) (n : Nat) (v : W64) : State :=
  match n with
  | 0x06 => s.putFmt v
  | 0x07 => s.modPortion (fun o => { o with exm := v.setWidth 32 &&& c.o.pm &&& ~~~ c.t.deadm })
  | 0x09 => s.modPortion (fun o => { o with sig := v.setWidth 32 })
  | 0x0A => s.modCur (fun t => { t with xflags := v.setWidth 32 &&& xMask })
  | 0x0C => s.modCur (fun t => { t with lcb := v })
  | _ => s

/-- MTS (R351): a write of SIG is not folded. -/
def execMts (d : BitVec 6) (r : BitVec 8) (s : State) : Out :=
  s.scalarGo (fun c => { op := 0x26, sregs := [d.toNat], exm := r = 0x07, fmt := r = 0x06, clauses := r = 0x09, folds := r ≠ 0x09, stall := specialStall c r.toNat })
    (fun c => decide (0x12 ≤ r.toNat) || mtsBad r.toNat (c.t.getS d.toNat)) noFault
    (fun c s => s.putSpecial c r.toNat (c.t.getS d.toNat))

/-! ### Waits and signatures -/

/-- WAITF (R352): the scalar stream waits until the named flags are clear. -/
def execWaitf (m : BitVec 12) (s : State) : Out :=
  s.scalarGo (fun _ => { op := 0x27 }) never noFault
    (fun c s => if c.t.flagsClear m.toNat then s else s.modPortion (fun o => { o with wait := .flags m.toNat }))

/-- NOP (R353). -/
def execNop (s : State) : Out := s.scalarGo (fun _ => { op := 0x29 }) never noFault (fun _ s => s)

/-- Bytes of code or of the signature pool at a VA, through the slot's mapping with X permission (R190, R344): the value, or a fault. Code lies in stack memory (log entry 13); a poisoned granule faults UCESCALAR (log entry 21). -/
def State.codeAt (s : State) (core p va n : Nat) : Except Nat Nat :=
  if !canonical va then .error fADDRRANGE else
  match (s.translate core p va .fetch false).1 with
  | .fault c => .error c
  | .ok pa =>
    match s.refusal p 0 pa true with
    | some c => .error c
    | none => if !isStack pa then .error fADDRRANGE else if s.poisoned pa then .error fUCESCALAR else .ok (s.readLe pa n)

/-- Where a code access waits (R24, R70, R90, R190, R204): at an entry of its page walk or at its own home, not reached or shut. -/
def State.codeStops (s : State) (core owner p va : Nat) : Option Nat :=
  if !canonical va then none
  else match s.coreStops core owner p va with
    | some a => some a
    | none => match (s.translate core p va .fetch false).1 with
      | .ok pa => if isStack pa && (s.homeWaits pa || s.away owner pa) then some pa else none
      | .fault _ => none

/-- Whether the main line has given up the message of a code access (R26). -/
def State.codeLost (s : State) (core owner p va : Nat) : Bool :=
  canonical va && (((s.core core).cached p va).isNone && s.walkLost owner p va || match (s.translate core p va .fetch false).1 with
    | .ok pa => s.gaveUp owner pa
    | .fault _ => false)

/-- The stall of a code access of a portion, and its fault when it is lost. -/
def State.codeStall (s : State) (c : Cur) (va : Nat) : Stall :=
  let w := portionOwner c.core c.slot c.p
  if s.codeLost c.core w (c.pslot s) va then .no
  else match s.codeStops c.core w (c.pslot s) va with
    | some a => .far w a 0
    | none => .no

/-- An access fault of a scalar instruction whose PC the stream issues again, free, after a host reply of 0 (R344, R465). -/
def State.accessFault (s : State) (c : Cur) (code va : Nat) : State :=
  let p := c.pslot s
  let s := if code = fPAGEFAULT then s.reportWalk ((s.core c.core).cached p va).isSome p va else s
  (s.modPortion (fun o => { o with pc := c.o.pc })).takeFault c.core c.slot c.p
    { lanes := [{ lane := 0, code := code, va := va }], pc := c.o.pc, charged := true, pa := if code = fUCESCALAR then s.granuleAt c.core p va else 0 }

/-- The address of a SIGC's pool word, and the word. -/
def poolVa (c : Cur) (p : BitVec 16) : Nat := c.t.lcb.toNat + 4 * p.toNat
def State.poolWord (s : State) (c : Cur) (p : BitVec 16) : Except Nat Nat :=
  if s.codeLost c.core (portionOwner c.core c.slot c.p) (c.pslot s) (poolVa c p) then .error fMLTIMEOUT else s.codeAt c.core (c.pslot s) (poolVa c p) 4

/-- What SIGC and SIGR need of R303; SIGC waits for its pool word. -/
def sigReq : SReq := { op := 0x28, clauses := true, folds := false }
def sigcReq (s : State) (p : BitVec 16) (c : Cur) : SReq := { sigReq with stall := s.codeStall c (poolVa c p) }

/-- SIGC (R354): a mismatch, or LINEAGE set, traps SIGMIS, and a poisoned pool word UCESCALAR, both precise (R87); else SIG gets 0. -/
def execSigc (p : BitVec 16) (s : State) : Out :=
  s.scalarGo (sigcReq s p) never
    (fun c => match s.poolWord c p with
      | .ok e => if c.o.sig.toNat ≠ e || c.t.lineage then some (fSIGMIS, 0) else none
      | .error e => if e = fUCESCALAR then some (fUCESCALAR, poolVa c p) else none)
    (fun c s' => match s.poolWord c p with
      | .ok _ => s'.modPortion (fun o => { o with sig := 0 })
      | .error e => s'.accessFault c e (poolVa c p))

/-- SIGR (R355). -/
def execSigr (s : State) : Out :=
  s.scalarGo (fun _ => sigReq) never noFault (fun _ s => s.modPortion (fun o => { o with sig := 0 }))

end Sys2Proof.Machine
end

