-- ==== Sys2Proof/Machine/Control.lean ====
section
/-! DEFINITION. Division, loops, coupling, per-lane calls and clauses (R169-R178, R335-R344). -/

namespace Sys2Proof.Machine

/-! ### Reconvergence entries -/

/-- The greatest depth of a reconvergence stack (R172). -/
def stackDepth : Nat := 16

/-- The lanes of a mask condition among the live lanes of the focus (R172, R173). -/
def Cur.chosen (c : Cur) (k : BitVec 4) (inv : BitVec 1) : W32 :=
  live c.o.exm c.t.deadm &&& (if inv = 1 then ~~~ c.t.getK k.toNat else c.t.getK k.toNat)

/-- The lowest free portion index, if the train has fewer than four portions (R172). -/
def Train.freePortion (t : Train) : Option Nat := (List.range 4).find? (fun i => (t.portion i).isNone)

/-- A train with a reconvergence entry pushed on a portion's stack. -/
def Train.pushEntry (t : Train) (p : Nat) (e : REntry) : Train :=
  { t with
    entries := Table.put t.entries t.nextEntry e
    nextEntry := t.nextEntry + 1
    portions := Table.modify t.portions p (fun o => { o with stack := t.nextEntry :: o.stack }) }

/-- A portion sent on a path: PM takes EXM (R346). -/
def Portion.path (o : Portion) (pc : W64) (m : W32) : Portion := { o with pc := pc, exm := m, pm := m }

/-- One more path of the entry on top of portion `p`'s stack: a new portion, or a deferred path when four portions are in use (R172, R177). -/
def Train.addPath (t : Train) (p : Nat) (pc : W64) (m : W32) : Train :=
  match t.portion p with
  | none => t
  | some o =>
    match o.stack with
    | [] => t
    | id :: _ =>
      match t.freePortion with
      | some q =>
        { t with
          portions := Table.put t.portions q { (o.path pc m) with clauses := [], wait := .none, lwait := .none, again := .no, atJunc := false }
          entries := Table.modify t.entries id (fun e => { e with members := e.members ++ [q] }) }
      | none => { t with entries := Table.modify t.entries id (fun e => { e with deferred := e.deferred ++ [(pc, m)] }) }

/-- DIVG (R172): the train after portion `p` divides its live lanes into those that branch to `target` and the rest. -/
def Train.divide (t : Train) (p : Nat) (taken : W32) (target : W64) : Train :=
  match t.portion p with
  | none => t
  | some o =>
    let l := live o.exm t.deadm
    let rest := l &&& ~~~ taken
    let t := t.pushEntry p { kind := .divg, m := l, fmt := o.fmt, sig := o.sig, owner := p, members := [p] }
    if rest = 0 then { t with portions := Table.modify t.portions p (fun o => o.path target l) }
    else if taken = 0 then { t with portions := Table.modify t.portions p (fun o => o.path o.pc l) }
    else if t.freePortion.isSome then
      { t.addPath p target taken with portions := Table.modify (t.addPath p target taken).portions p (fun o => o.path o.pc rest) }
    else
      { t.addPath p o.pc rest with portions := Table.modify (t.addPath p o.pc rest).portions p (fun o => o.path target taken) }

/-- LINEAGE set and the fail code folded into a portion's SIG, in its place after the clauses still queued (R173, R174, R176, R180). -/
def Train.lineageFails (t : Train) (p : Nat) : Train :=
  { t with lineage := true, portions := Table.modify t.portions p (fun o => o.foldScalar 0xA5) }

/-- The coupling of an entry's paths (R174 step 4, R176): the dividing portion survives and continues at `resume`; what the portions that end have outstanding is its own now. -/
def Train.couple (t : Train) (id : Nat) (e : REntry) (resume : W64) : Train :=
  let exm := (e.arrived ||| e.broken) &&& ~~~ t.deadm
  let pass := decide (exm = e.m &&& ~~~ t.deadm &&& ~~~ e.x) && !e.wrong
  let kept := t.portions.filter (fun (x : Nat × Portion) => decide (x.1 = e.owner) || decide (x.2.stack.head? ≠ some id))
  { t with
    lineage := t.lineage || !pass
    entries := Table.drop t.entries id
    pend := t.pend.map (fun (x : Nat × Pend) => if (Table.find kept x.2.portion).isSome then x else (x.1, { x.2 with portion := e.owner }))
    portions := Table.modify kept e.owner (fun o =>
      { o.path resume exm with fmt := e.fmt, sig := sigFold e.sig (if pass then 0x5A else 0xA5), stack := o.stack.drop 1, atJunc := false }) }

/-- The arrival of portion `p` at a junction (R174), whose address is `pc`: the coupled portion goes on at the entry's junction PC, after the JUNC there, but for a CALLV entry, whose junction is the return address itself (R340). -/
def Train.arrive (t : Train) (p : Nat) (pc : W64) : Train :=
  match t.portion p with
  | none => t
  | some o =>
    match o.stack with
    | [] => t.lineageFails p
    | id :: _ =>
      match Table.find t.entries id with
      | none => t.lineageFails p
      | some e =>
        let e := { e with junc := some (e.junc.getD pc), wrong := e.wrong || decide (e.junc.getD pc ≠ pc), arrived := e.arrived ||| o.exm }
        match e.deferred with
        | (pc', m) :: ds =>
          { t with
            entries := Table.put t.entries id { e with deferred := ds }
            portions := Table.put t.portions p { o.path pc' m with fmt := e.fmt, sig := e.sig } }
        | [] =>
          let e := { e with members := e.members.filter (· ≠ p) }
          if !e.members.isEmpty then
            { t with entries := Table.put t.entries id e, portions := Table.put t.portions p { o with atJunc := true } }
          else ({ t with entries := Table.put t.entries id e }).couple id e (if e.kind = EntryKind.callv then e.junc.getD pc else e.junc.getD pc + 4)

/-! ### The meanings -/

/-- Whether the focus portion's stack is full (R172). -/
def Cur.stackFull (c : Cur) : Bool := decide (stackDepth ≤ c.o.stack.length)

/-- DIVG (R172, R335). -/
def execDivg (k : BitVec 4) (i : BitVec 1) (o : BitVec 20) (s : State) : Out :=
  s.scalarGo (fun _ => { op := 0x1D, kregs := [k.toNat], exm := true, clauses := true }) Cur.stackFull noFault
    (fun c s => s.modCur (fun t => t.divide c.p (c.chosen k i) (relTarget c.o.pc o)))

/-- DIVG.loop (R173): a loop entry, with no branch; T is empty, so EXM and PM take L (R172, R346). -/
def execDivgLoop (o : BitVec 20) (s : State) : Out :=
  s.scalarGo (fun _ => { op := 0x1D, exm := true, clauses := true }) Cur.stackFull noFault
    (fun c s => s.modCur (fun t =>
      let l := live c.o.exm c.t.deadm
      let sig := ((t.portion c.p).map Portion.sig).getD 0
      let t := t.pushEntry c.p { kind := .loop, m := l, fmt := c.o.fmt, sig := sig, exit := relTarget c.o.pc o, owner := c.p, members := [c.p] }
      { t with portions := Table.modify t.portions c.p (fun o => { o with exm := l, pm := l }) }))

/-- JUNC (R174, R336): a portion that waits at the junction keeps its PC. -/
def execJunc (s : State) : Out :=
  s.scalarGo (fun _ => { op := 0x1E, clauses := true }) never noFault
    (fun c s => s.modCur (fun t => t.arrive c.p c.o.pc))

/-- The nearest loop entry of a stack, and the entries above it. -/
def Train.nearestLoop (t : Train) : List Nat → List Nat → Option (List Nat × Nat)
  | [], _ => none
  | id :: ids, above =>
    match Table.find t.entries id with
    | some e => if e.kind = EntryKind.loop then some (above, id) else Train.nearestLoop t ids (above ++ [id])
    | none => Train.nearestLoop t ids (above ++ [id])

/-- BRKL (R173): the train after portion `p` breaks some lanes out of its nearest loop. -/
def Train.breakLanes (t : Train) (p : Nat) (b : W32) : Train :=
  match t.portion p with
  | none => t
  | some o =>
    match t.nearestLoop o.stack [] with
    | none => t.lineageFails p
    | some (above, id) =>
      let entries := above.foldl (fun m i => Table.modify m i (fun (e : REntry) => { e with x := e.x ||| b })) t.entries
      let entries := Table.modify entries id (fun (e : REntry) => { e with broken := e.broken ||| b })
      let exm := o.exm &&& ~~~ b
      let exit := ((Table.find t.entries id).map REntry.exit).getD 0
      let pc := if live exm t.deadm = 0 ∧ above.isEmpty then exit else o.pc
      { t with entries := entries, portions := Table.put t.portions p { o with exm := exm, pm := o.pm &&& ~~~ b, pc := pc } }

/-- BRKL (R173, R337). -/
def execBrkl (k : BitVec 4) (i : BitVec 1) (s : State) : Out :=
  s.scalarGo (fun _ => { op := 0x1F, kregs := [k.toNat], exm := true }) never noFault
    (fun c s => s.modCur (fun t => t.breakLanes c.p (c.chosen k i)))

/-! ### CALLV -/

/-- The target of a lane (R339). -/
def Train.callTarget (t : Train) (v l : Nat) : Nat := (t.getV (v + 1) l).toNat * 2 ^ 32 + (t.getV v l).toNat

/-- A number inserted in a rising list without repeats. -/
def insertUp (n : Nat) : List Nat → List Nat
  | [] => [n]
  | m :: ms => if n < m then n :: m :: ms else if n = m then m :: ms else m :: insertUp n ms

/-- The distinct targets of the live lanes, ascending (R339). -/
def Cur.targets (c : Cur) (v : Nat) : List Nat := (lanesOf (live c.o.exm c.t.deadm)).foldl (fun m l => insertUp (c.t.callTarget v l) m) []

/-- The address of a target's entry word (R338). -/
def entryVa (t : Nat) : Nat := (t + 2 ^ 64 - 4) % 2 ^ 64

/-- The check of one target (R339): its fault and the address reported. -/
def State.targetFault (s : State) (c : Cur) (t : Nat) : Option (Nat × Nat) :=
  if t % 4 ≠ 0 || !canonical t then some (fADDRRANGE, t)
  else if s.codeLost c.core (portionOwner c.core c.slot c.p) (c.pslot s) (entryVa t) then some (fMLTIMEOUT, entryVa t)
  else match s.codeAt c.core (c.pslot s) (entryVa t) 4 with
    | .error e => some (e, entryVa t)
    | .ok w =>
      if w / 65536 ≠ 0xFCB0 ∨ w / 16 % 4096 ≠ 0 ∨ 14 < w % 16 ∨ c.t.budget < w % 16 then some (fREGBUDGET, t) else none

/-- The fault of lowest code, and among equal codes the first. -/
def lowestFault (fs : List (Nat × Nat)) : Option (Nat × Nat) :=
  fs.foldl (fun b f => match b with
    | none => some f
    | some g => if f.1 < g.1 then some f else some g) none

/-- The lanes of a target. -/
def Cur.lanesTo (c : Cur) (v t : Nat) : W32 := maskOf ((lanesOf (live c.o.exm c.t.deadm)).filter (fun l => decide (c.t.callTarget v l = t)))

/-- The train after CALLV's checks have passed (R339). -/
def Train.callPaths (t : Train) (c : Cur) (v : Nat) : List Nat → Train
  | [] => t
  | t0 :: ts =>
    let sig := ((t.portion c.p).map Portion.sig).getD 0
    let t := t.pushEntry c.p { kind := .callv, m := live c.o.exm c.t.deadm, fmt := c.o.fmt, sig := sig, junc := some (c.o.pc + 4), owner := c.p, members := [c.p] }
    let t := ts.foldl (fun t x => t.addPath c.p (BitVec.ofNat 64 x) (c.lanesTo v x)) t
    { t with portions := Table.modify t.portions c.p (fun o => o.path (BitVec.ofNat 64 t0) (c.lanesTo v t0)) }

/-- Whether a long-latency result is outstanding to one of two lane registers of the portion's lanes. -/
def Train.owed (t : Train) (p v : Nat) : Bool :=
  t.ours.any (fun e => t.concerns p e.2 && match e.2.dest with
    | .lanes d => decide (d ≤ v + 1) && decide (v < d + e.2.regs)
    | _ => false)

/-- The wait of CALLV: for a result it reads, then for the entry words of its targets (R24). -/
def callStall (s : State) (v : Nat) (c : Cur) : Stall :=
  if c.t.owed c.p v then .waits
  else (((c.targets v).filter (fun t => decide (t % 4 = 0) && canonical t)).map (fun t => s.codeStall c (entryVa t))).find? (fun x => decide (x ≠ .no)) |>.getD .no

/-- CALLV (R339): every fault is precise; with no live lane it acts as NOP. In the handler it names lane registers below 16 (R161). -/
def execCallv (v : BitVec 8) (s : State) : Out :=
  s.scalarGo (fun c => { op := 0x1C, clauses := true, boundary := c.t.handler.isSome && decide (15 ≤ v.toNat), stall := callStall s v.toNat c })
    (fun c => decide (v.toNat % 2 ≠ 0) || decide (budgetRegs c.t.budget ≤ v.toNat + 1) || (c.stackFull && decide (live c.o.exm c.t.deadm ≠ 0)))
    (fun c => lowestFault ((c.targets v.toNat).filterMap (fun t => s.targetFault c t)))
    (fun c s => s.modCur (fun t => t.callPaths c v.toNat (c.targets v.toNat)))

/-- The entry on top of the focus portion's stack. -/
def Cur.top (c : Cur) : Option REntry :=
  match c.o.stack with
  | [] => none
  | id :: _ => Table.find c.t.entries id

/-- RET S0 (R340): arrival at the junction of the CALLV entry on top. -/
def execRetS0 (s : State) : Out :=
  s.scalarGo (fun _ => { op := 0x1C, clauses := true })
    (fun c => match c.top with
      | some e => decide (e.kind ≠ EntryKind.callv)
      | none => true) noFault
    (fun c s => s.modCur (fun t =>
      let j := ((c.top.bind REntry.junc).getD 0)
      t.arrive c.p j))

/-! ### Clauses -/

/-- The clause a CLS enqueues, with what its instructions use (R170, R342). -/
def State.newClause (s : State) (c : Cur) (off : Nat) : Clause :=
  { pc := c.o.pc, lcb := c.t.lcb, off := off, s := c.t.s, b := c.t.b, k := c.t.k, exm := c.o.exm, fmt := c.o.fmt, uses := s.clauseUses c.core (c.pslot s) c.t.lcb off }

/-- The waits of CLS: four clauses queued (R169), and results of scalar accesses that the clause's snapshot takes (R401; log entry 14). -/
def Cur.clsStall (c : Cur) : Stall :=
  if 4 ≤ c.o.clauses.length || c.t.ours.any (fun e => match e.2.dest with
    | .scalar _ => true
    | .buffer _ => true
    | _ => false) then .waits else .no

/-- CLS (R342). -/
def execCls (w : BitVec 24) (s : State) : Out :=
  s.scalarGo (fun c => { op := 0x20, stall := c.clsStall }) never noFault
    (fun c s => s.modPortion (fun o => { o with clauses := o.clauses ++ [s.newClause c w.toNat] }))

/-- CLSR (R343). -/
def execClsr (a : BitVec 6) (s : State) : Out :=
  s.scalarGo (fun c => { op := 0x21, sregs := [a.toNat], stall := c.clsStall }) (fun c => decide (2 ^ 24 ≤ (c.t.getS a.toNat).toNat)) noFault
    (fun c s => s.modPortion (fun o => { o with clauses := o.clauses ++ [s.newClause c (c.t.getS a.toNat).toNat] }))

end Sys2Proof.Machine
end

