-- ==== Sys2Proof/Machine/ScalarMem.lean ====
section
/-! DEFINITION. Scalar accesses, buffer records, the ordering instructions, the waits on memory and RESIZE (21_memory_instructions.md, R401-R408, R417-R424). A wait that these set is resolved by Machine/Waits.lean. -/

namespace Sys2Proof.Machine

/-! ### Scalar accesses (R404, R406-R408) -/

/-- The one element of a scalar access at index `i`: alignment `e`, `n` bytes (R186, R187). -/
def State.formScalar (s : State) (c : Cur) (r : BitVec 256) (e n : Nat) (i : Int) : List Elem × List (Nat × LaneFault) :=
  formLanes r e n (s.scratch c.core c.t.task).size 1 [0] (fun _ => i)

/-- g of a scalar access (R401): 1, or 0 when its element is dropped or zeroed. -/
def scalarG (es : List Elem) : Nat := if anyDropped es then 0 else 1

/-- The access as it issues: charged what `q` charges beside g, at the focus's PC. -/
def Acc.issue (x : Acc) (c : Cur) (q : SReq) : Acc := { x with pc := c.o.pc, cost := c.need q }

/-- The issue of a scalar access. -/
def accessReq (s : State) (q : Cur → SReq) (acc : Cur → Acc × List (Nat × LaneFault)) (c : Cur) : SReq :=
  { q c with cost := (q c).cost + scalarG (acc c).1.elems, memory := true, stall := s.memStall c (acc c).1 }

/-- A scalar access issued: its checks, its charge, then the access (R401, R407). -/
def State.scalarAccess (s : State) (q : Cur → SReq) (ill : Cur → Bool) (acc : Cur → Acc × List (Nat × LaneFault)) : Out :=
  s.scalarGo (accessReq s q acc) ill noFault
    (fun c s' => s'.access c.core c.slot c.p ((acc c).1.issue c (accessReq s q acc c)) (acc c).2)

/-- The kinds of Table 11-2 for the plain scalar accesses and the home loads, and for the atomics (R185, R408, R418). -/
def plainKind (_ : BitVec 256) : Bool := true
def homeKind (r : BitVec 256) : Bool := rKind r = 0 || rKind r = 2 || rKind r = 4
def atomKind (r : BitVec 256) : Bool := rKind r ≠ 3

/-- Whether a scalar load or store of `z` bytes faults ILLOP (R185, R406). -/
def scalarIll (c : Cur) (b z : Nat) (kind : BitVec 256 → Bool) : Bool :=
  let r := c.t.getB b
  !recOk r || !kind r || decide (rE r < 2 ^ z)

/-- A scalar load of 2^z bytes at an index (R406). -/
def State.scalarLoad (s : State) (op : Nat) (aop : AccOp) (kind : BitVec 256 → Bool) (d : BitVec 6) (b : BitVec 4) (z : BitVec 2) (reads : List Nat) (idx : Cur → Int) : Out :=
  s.scalarAccess (fun c => { op := op, sregs := d.toNat :: reads, swrites := [d.toNat], bregs := [b.toNat], boundary := rKind (c.t.getB b.toNat) = 3 })
    (fun c => scalarIll c b.toNat z.toNat kind)
    (fun c =>
      let r := c.t.getB b.toNat
      let f := s.formScalar c r (rE r) (2 ^ z.toNat) (idx c)
      ({ op := aop, scalar := true, brec := r, dest := .scalar d.toNat, size := 2 ^ z.toNat, width := 1, elems := f.1 }, f.2))

/-- A scalar store of 2^z bytes of S(d) at an index (R406). -/
def State.scalarStore (s : State) (op : Nat) (d : BitVec 6) (b : BitVec 4) (z : BitVec 2) (reads : List Nat) (idx : Cur → Int) : Out :=
  s.scalarAccess (fun c => { op := op, sregs := d.toNat :: reads, bregs := [b.toNat], boundary := rKind (c.t.getB b.toNat) = 3 })
    (fun c => scalarIll c b.toNat z.toNat plainKind)
    (fun c =>
      let r := c.t.getB b.toNat
      let f := s.formScalar c r (rE r) (2 ^ z.toNat) (idx c)
      ({ op := .store, scalar := true, brec := r, dest := .nowhere, size := 2 ^ z.toNat, width := 1
         elems := f.1.map (fun e => { e with val := (c.t.getS d.toNat).toNat % 2 ^ (8 * 2 ^ z.toNat) }) }, f.2))

/-- SLD (R406). -/
def execSld (d : BitVec 6) (b : BitVec 4) (z : BitVec 2) (i : BitVec 14) (s : State) : Out :=
  s.scalarLoad 0x10 .load plainKind d b z [] (fun _ => i.toInt)
/-- SLDX (R406). -/
def execSldx (d : BitVec 6) (b : BitVec 4) (z : BitVec 2) (a : BitVec 6) (i : BitVec 8) (s : State) : Out :=
  s.scalarLoad 0x11 .load plainKind d b z [a.toNat] (fun c => (c.t.getS a.toNat + i.signExtend 64).toInt)
/-- SST (R406). -/
def execSst (d : BitVec 6) (b : BitVec 4) (z : BitVec 2) (i : BitVec 14) (s : State) : Out :=
  s.scalarStore 0x12 d b z [] (fun _ => i.toInt)
/-- SSTX (R406). -/
def execSstx (d : BitVec 6) (b : BitVec 4) (z : BitVec 2) (a : BitVec 6) (i : BitVec 8) (s : State) : Out :=
  s.scalarStore 0x13 d b z [a.toNat] (fun c => (c.t.getS a.toNat + i.signExtend 64).toInt)
/-- SLDH (R406). -/
def execSldh (d : BitVec 6) (b : BitVec 4) (z : BitVec 2) (i : BitVec 14) (s : State) : Out :=
  s.scalarLoad 0x14 .loadHome homeKind d b z [] (fun _ => i.toInt)

/-- The scope of an instruction that names a record (R306). -/
def Cur.scope (c : Cur) (sc : BitVec 2) (b : BitVec 4) : Nat := scopeOf sc.toNat (c.t.getB b.toNat)

/-- SATOM (R408): element 0 of the record; cas compares with S(d) as it stood. -/
def execSatom (d : BitVec 6) (b : BitVec 4) (a : BitVec 6) (o : BitVec 4) (sc : BitVec 2) (q r : BitVec 1) (s : State) : Out :=
  s.scalarAccess (fun _ => { op := 0x15, cost := 2, sregs := [d.toNat, a.toNat], swrites := [d.toNat], bregs := [b.toNat], boundary := true, clauses := q = 1 || r = 1, orders := q = 1 || r = 1 })
    (fun c =>
      let x := c.t.getB b.toNat
      !(Instr.satom d b a o sc q r).wf || !recOk x || !atomKind x || !(rEsz x = 2 || rEsz x = 3))
    (fun c =>
      let x := c.t.getB b.toNat
      let f := s.formScalar c x (rE x) (rE x) 0
      ({ op := .atomic o.toNat, scalar := true, brec := x, dest := .scalar d.toNat, size := rE x, width := 1, scope := c.scope sc b, acq := q = 1, rel := r = 1
         elems := f.1.map (fun e => { e with val := (c.t.getS a.toNat).toNat % 2 ^ (8 * rE x), cmp := (c.t.getS d.toNat).toNat % 2 ^ (8 * rE x) }) }, f.2))

/-- BRLD (R404): a record as one element of 32 bytes; ESZ is ignored. -/
def execBrld (d b : BitVec 4) (i : BitVec 14) (s : State) : Out :=
  s.scalarAccess (fun _ => { op := 0x16, bregs := [d.toNat, b.toNat], bwrites := [d.toNat] })
    (fun c => !recOk (c.t.getB b.toNat) || decide (2 < rKind (c.t.getB b.toNat)))
    (fun c =>
      let r := c.t.getB b.toNat
      let f := s.formScalar c r 32 32 i.toInt
      ({ op := .load, scalar := true, brec := r, dest := .buffer d.toNat, size := 32, width := 1, elems := f.1 }, f.2))

/-! ### Building records (R405) -/

/-- A record with bits `lo` to `lo + n - 1` replaced. -/
def setField (r : BitVec 256) (lo n v : Nat) : BitVec 256 := BitVec.ofNat 256 (r.toNat - rfield r lo n * 2 ^ lo + v % 2 ^ n * 2 ^ lo)

/-- BROP (R405): Bd gets Bs with a field written from S(a); `bad` judges the bits of S(a) that must be zero. -/
def State.brop (s : State) (d : BitVec 4) (a : BitVec 6) (b : BitVec 4) (bad : W64 → Bool) (f : BitVec 256 → W64 → BitVec 256) : Out :=
  s.scalarGo (fun _ => { op := 0x17, sregs := [a.toNat], bregs := [d.toNat, b.toNat], bwrites := [d.toNat] }) (fun c => bad (c.t.getS a.toNat)) noFault
    (fun c s => s.modCur (fun t => t.setB d.toNat (f (c.t.getB b.toNat) (c.t.getS a.toNat))))

/-- BRBASE (R405). -/
def execBrbase (d : BitVec 4) (a : BitVec 6) (b : BitVec 4) (s : State) : Out :=
  s.brop d a b (fun x => decide (2 ^ 63 ≤ x.toNat)) (fun r x => setField r 0 64 x.toNat)
/-- BROFF (R405). -/
def execBroff (d : BitVec 4) (a : BitVec 6) (b : BitVec 4) (s : State) : Out :=
  s.brop d a b (fun _ => false) (fun r x => setField r 0 57 (rBase r + x.toNat))
/-- BREXT (R405). -/
def execBrext (d : BitVec 4) (a : BitVec 6) (b : BitVec 4) (s : State) : Out :=
  s.brop d a b (fun x => decide (2 ^ 32 ≤ x.toNat)) (fun r x => setField r 96 32 x.toNat)
/-- BRSTR (R405). -/
def execBrstr (d : BitVec 4) (a : BitVec 6) (b : BitVec 4) (s : State) : Out :=
  s.brop d a b (fun x => x != (x.setWidth 32).signExtend 64) (fun r x => setField r 64 32 x.toNat)
/-- BRSWZ (R405): SWZ, OOB and SCOPE are bits 136:128. -/
def execBrswz (d : BitVec 4) (a : BitVec 6) (b : BitVec 4) (s : State) : Out :=
  s.brop d a b (fun x => decide (2 ^ 9 ≤ x.toNat)) (fun r x => setField r 128 9 x.toNat)
/-- BRFLG (R405): RDONLY, POOL and STRICT are bits 139:137. -/
def execBrflg (d : BitVec 4) (a : BitVec 6) (b : BitVec 4) (s : State) : Out :=
  s.brop d a b (fun x => decide (2 ^ 16 ≤ x.toNat) || decide (x.toNat / 8 % 32 ≠ 0)) (fun r x => setField (setField r 137 3 x.toNat) 192 8 (x.toNat / 256))
/-- BRCPY (R405). -/
def execBrcpy (d b : BitVec 4) (s : State) : Out := s.brop d 0 b (fun _ => false) (fun r _ => r)

/-! ### Ordering (R417, R418) -/

/-- A wait set on the focus portion's scalar stream. -/
def State.waitFor (s : State) (w : Wait) : State := s.modPortion (fun o => { o with wait := w })

/-- What every form of opcode 0x2E asks for (R402, R417): the registers it names and those it writes. -/
def orderReq (c : Cur) (d w : List Nat) (releases : Bool) : SReq :=
  { op := 0x2E, sregs := d, swrites := w, clauses := true, orders := true, stall := if releases && c.t.appending then .waits else .no }

/-- REL (R215, R226): .cor publishes nothing and returns token 0, and the train issues nothing until it completes either; at every scope the train's earlier accesses are performed first (R227). -/
def execRel (d : BitVec 6) (sc : BitVec 2) (s : State) : Out :=
  s.scalarGo (fun c => { orderReq c [d.toNat] [d.toNat] true with boundary := true }) (fun _ => !(Instr.rel d sc).wf) noFault
    (fun c s =>
      if sc = 0 then s.waitFor (.settle d.toNat)
      else
        let r := s.beginRelease c.core c.slot c.p
        r.2.2.waitFor (.release r.1 (sc = 2) d.toNat r.2.1))

/-- ACQ (R219, R226): .cor waits for the train's earlier accesses and reads no token. -/
def execAcq (a : BitVec 6) (sc : BitVec 2) (n : BitVec 5) (s : State) : Out :=
  s.scalarGo (fun c => orderReq c (if sc = 0 then [] else (List.range (n.toNat + 1)).map (a.toNat + ·)) [] false) (fun _ => !(Instr.acq a sc n).wf) noFault
    (fun c s =>
      if sc = 0 then s.waitFor (.fence none false 0)
      else s.waitFor (.acquire ((List.range (n.toNat + 1)).map (fun i => (c.t.getS (a.toNat + i)).toNat % 2 ^ 63)) (sc = 2)))

/-- What STREL and LDACQ ask of their record (R418). -/
def tokenIll (c : Cur) (b : BitVec 4) : Bool :=
  let r := c.t.getB b.toNat
  !recOk r || !atomKind r || decide (rEsz r ≠ 3)

/-- STREL (R418): REL at its scope, then an 8-byte swap of the token, which S(d) receives. -/
def execStrel (d : BitVec 6) (b : BitVec 4) (sc : BitVec 2) (i : BitVec 5) (s : State) : Out :=
  s.scalarAccess (fun c => { orderReq c [d.toNat] [d.toNat] true with cost := 2, bregs := [b.toNat], boundary := true }) (fun c => tokenIll c b)
    (fun c =>
      let r := c.t.getB b.toNat
      let f := s.formScalar c r 8 8 i.toInt
      ({ op := .atomic aopPut, scalar := true, brec := r, dest := .scalar d.toNat, size := 8, width := 1, elems := f.1, scope := c.scope sc b, rel := true }, f.2))

/-- LDACQ (R418): an atomic load, then ACQ at its scope of the value loaded. -/
def execLdacq (d : BitVec 6) (b : BitVec 4) (sc : BitVec 2) (i : BitVec 5) (s : State) : Out :=
  s.scalarAccess (fun c => { orderReq c [d.toNat] [d.toNat] false with cost := 2, bregs := [b.toNat], boundary := true }) (fun c => tokenIll c b)
    (fun c =>
      let r := c.t.getB b.toNat
      let f := s.formScalar c r 8 8 i.toInt
      ({ op := .atomic aopLoad, scalar := true, brec := r, dest := .scalar d.toNat, size := 8, width := 1, elems := f.1, scope := c.scope sc b, acq := true }, f.2))

/-- FENCE (R226). -/
def execFence (d : BitVec 6) (sc : BitVec 2) (s : State) : Out :=
  s.scalarGo (fun c => orderReq c [d.toNat] [d.toNat] true) (fun _ => !(Instr.fence d sc).wf) noFault
    (fun c s =>
      if sc = 0 then s.waitFor (.fence none false d.toNat)
      else
        let r := s.beginRelease c.core c.slot c.p
        r.2.2.waitFor (.fence (some r.1) (sc = 2) d.toNat))

/-- ACQALL (R213, R222): it takes a stamp of its core's log. -/
def execAcqall (sc : BitVec 2) (s : State) : Out :=
  s.scalarGo (fun c => orderReq c [] [] false) (fun _ => !(Instr.acqall sc).wf) noFault
    (fun c s =>
      let a := s.nextStamp c.core
      let s := s.setLog c.core { s.log c.core with last := a }
      s.waitFor (.acqAll (s.acqAllTails c.core a (sc = 2)) (sc = 2)))

/-! ### Waits on memory (R419-R421) -/

/-- The record a WAITA descriptor names. -/
def Cur.waitRec (c : Cur) (a : BitVec 6) : BitVec 256 := c.t.getB (bits (c.t.getS a.toNat) 0 4)

/-- Where a watched element lies (R419, R420): its kind as `State.watched` takes it, its VA and its address; or its fault. -/
def State.watchTarget (s : State) (c : Cur) (r : BitVec 256) (i : Int) : Except (Nat × Nat) (Nat × Nat × Nat) :=
  match formElem r (rE r) (rE r) (s.scratch c.core c.t.task).size i with
  | .error f => .error f
  | .ok none => .ok (5, 0, 0)
  | .ok (some a) =>
    if rKind r = 1 then .ok (1, a, a)
    else match (s.translate c.core (c.pslot s) a .read (rPool r)).1 with
      | .fault e => .error (e, a)
      | .ok pa =>
        if !isStack pa then .error (fADDRRANGE, a)
        else match s.refusal (c.pslot s) (rKind r) pa true with
          | some e => .error (e, a)
          | none => .ok (if rPool r then 4 else 0, a, pa)

/-- The target of a WAITA. -/
def State.waitaTarget (s : State) (c : Cur) (a : BitVec 6) : Except (Nat × Nat) (Nat × Nat × Nat) :=
  s.watchTarget c (c.waitRec a) (toSigned 32 (bits (c.t.getS a.toNat) 32 32))

/-- Whether an operation that the portion has issued on some of these bytes has still to be performed: a wait on memory looks after it (R225, R227, R402). -/
def Cur.busyAt (c : Cur) (n a : Nat) : Bool := c.t.pend.any (fun q => decide (q.2.portion = c.p) && q.2.touches n a)

/-- What a WAITA waits for before it looks: the portion's own operations on the element; a walk entry's home; the element's line at its home, to which its read crosses the main line (R24, R70, R90, R204). -/
def State.watchStall (s : State) (c : Cur) (a : BitVec 6) : Stall :=
  let r := c.waitRec a
  let owner := portionOwner c.core c.slot c.p
  match formElem r (rE r) (rE r) (s.scratch c.core c.t.task).size (toSigned 32 (bits (c.t.getS a.toNat) 32 32)) with
  | .ok (some va) =>
    if c.busyAt (rE r) va then .waits
    else if rKind r = 1 then .no
    else match s.coreStops c.core owner (c.pslot s) va with
      | some e => .far owner e 0
      | none => match s.waitaTarget c a with
        | .ok t => if s.homeWaits t.2.2 || s.away owner t.2.2 then .far owner t.2.2 0 else .no
        | .error _ => .no
  | _ => .no

/-- WAITA (R419, R420): it looks at once, taking the fault of poison it meets (R466), and parks while the condition does not hold. -/
def execWaita (d a b : BitVec 6) (s : State) : Out :=
  s.scalarGo (fun c => { op := 0x2D, sregs := [d.toNat, a.toNat, b.toNat], swrites := [d.toNat], bregs := [bits (c.t.getS a.toNat) 0 4], clauses := true, memory := true, orders := true, stall := s.watchStall c a })
    (fun c =>
      let r := c.waitRec a
      decide (bits (c.t.getS a.toNat) 7 25 ≠ 0) || !recOk r || !atomKind r || !(rEsz r = 2 || rEsz r = 3))
    noFault
    (fun c s' => match s.waitaTarget c a with
      | .error f => s'.accessFault c f.1 f.2
      | .ok t =>
        let s := if t.1 = 5 then s'.flagUp xOOBZ else if t.1 = 1 then s' else s'.lineBack (t.2.2 / 256)
        (s.waitFor (.watch t.1 t.2.1 t.2.2 (rE (c.waitRec a)) (bits (c.t.getS a.toNat) 4 3) (c.t.getS b.toNat) d.toNat)).pokeOne (trainKey c.core c.slot) c.p)

/-- Whether a scratchpad offset is a multiple of 8 with `n` bytes within SPSIZE. -/
def State.padOk (s : State) (c : Cur) (x : W64) (n : Nat) : Bool := x.toNat % 8 = 0 && decide (x.toNat + n ≤ (s.scratch c.core c.t.task).size)

/-- WAITM (R421). -/
def execWaitm (d a b : BitVec 6) (s : State) : Out :=
  s.scalarGo (fun c => { op := 0x2D, sregs := [d.toNat, a.toNat, b.toNat], swrites := [d.toNat], clauses := true, memory := true, orders := true, stall := if c.busyAt 8 (c.t.getS a.toNat).toNat then .waits else .no }) never
    (fun c => if s.padOk c (c.t.getS a.toNat) 8 then none else some (fADDRRANGE, (c.t.getS a.toNat).toNat))
    (fun c s =>
      (s.waitFor (.watch 1 (c.t.getS a.toNat).toNat (c.t.getS a.toNat).toNat 8 8 (c.t.getS b.toNat) d.toNat)).pokeOne (trainKey c.core c.slot) c.p)

/-- RESIZE (R423): more than 10 ways asked for returns NOWAYS at once; else it waits its turn (R424). -/
def execResize (d a b : BitVec 6) (s : State) : Out :=
  s.scalarGo (fun c => { op := 0x2F, sregs := [d.toNat, a.toNat, b.toNat], swrites := [d.toNat], clauses := true, boundary := true, orders := true, stall := if c.t.appending then .waits else .no }) never noFault
    (fun c s =>
      if 10 < (c.t.getS a.toNat).toNat ∨ 10 < (c.t.getS b.toNat).toNat then s.putS d 1
      else
        let k := s.core c.core
        (s.setCore c.core { k with resizing := k.resizing ++ [trainKey c.core c.slot * 4 + c.p] }).waitFor
          (.resize (c.t.getS a.toNat).toNat (c.t.getS b.toNat).toNat d.toNat none))

end Sys2Proof.Machine
end

