-- ==== Sys2Proof/Machine/Waits.lean ====
section
/-! DEFINITION. What ends the waits of the memory and ordering instructions (R197, R215-R226, R238, R352, R417-R424), and IVPG's and INVCMD's invalidates (R191). Each operation looks at one portion's wait and ends it if it may. -/

namespace Sys2Proof.Machine

/-! ### Performed accesses and held errors -/

/-- Whether every access a train has issued has been performed: answered at its home or in its space, with no fault whose replay is still to come (R162, R163, R226, R431). -/
def Train.performed (t : Train) : Bool :=
  t.answered && t.portions.all (fun o => match o.2.lwait with
    | .relAtomic .. => false
    | _ => true)

/-- Whether a scope reports a drop reason (Table 12-7). -/
def reports (sys : Bool) (reason : Nat) : Bool := sys || decide (reason ≤ 5)

/-- Held log errors of a train reported (R238): LOGERR, and the first reason where XFLAGS 15:12 are zero; answers the first reason reported, or 0. -/
def State.reportErrs (s : State) (core slot : Nat) (sys : Bool) : Nat × State :=
  match s.train core slot with
  | none => (0, s)
  | some t =>
    let es := t.logErrs.filter (reports sys)
    ((es.head?).getD 0, s.setTrain core slot { t with logErrs := t.logErrs.filter (fun r => !reports sys r), xflags := es.foldl mergeLogErr t.xflags })

/-- The ticket of a portion in its core log's releases. -/
def ticketOf (core slot p : Nat) : Nat := trainKey core slot * 4 + p

/-- Whether CLOCK has passed the stamp of the publication that covers the records below a tail: a log that publishes often runs ahead of it (R213), and what a completed release published must precede every later stamp (R244, R247, R249; log entry 72). -/
def Log.past (g : Log) (clock tail : Nat) : Bool := (g.pubs.reverse.find? (fun x => decide (tail ≤ x.2))).all (fun x => decide (x.1 < clock))

/-- Whether the release of a portion may complete (R215): no earlier release of the log is under way, its records are settled, and its stamp is past. -/
def State.released (s : State) (core slot p tail : Nat) (sys : Bool) : Bool :=
  (s.log core).rels.head? == some (ticketOf core slot p) && (s.log core).settled tail sys && (s.log core).past s.clock tail

/-- A portion's release ticket is given back. -/
def State.dropTicket (s : State) (core slot p : Nat) : State := s.setLog core { s.log core with rels := (s.log core).rels.filter (fun x => decide (x ≠ ticketOf core slot p)) }

/-- A release completes: its ticket goes, and errors are reported. -/
def State.endRelease (s : State) (core slot p : Nat) (sys : Bool) : Nat × State := (s.dropTicket core slot p).reportErrs core slot sys

/-- A portion's wait ends: of its scalar stream or of its lane cursor. -/
def State.endWait (s : State) (core slot p : Nat) (scalar : Bool) : State := s.setWait core slot p scalar .none

/-- A scalar register of a train written. -/
def State.putReg (s : State) (core slot d : Nat) (v : W64) : State := s.modTrain core slot (fun t => t.setS d v)

/-! ### Flags, releases, fences -/

/-- WAITF's wait (R352). -/
def State.endFlags (s : State) (core slot p mask : Nat) (t : Train) : State := if t.flagsClear mask then s.endWait core slot p true else s

/-- REL's wait (R215), which the train's earlier accesses precede (R227). -/
def State.endRel (s : State) (core slot p tail : Nat) (sys : Bool) (d : Nat) (tok : W64) (t : Train) : State :=
  if t.performed && s.released core slot p tail sys then (((s.endRelease core slot p sys).2).putReg core slot d tok).endWait core slot p true else s

/-- FENCE's wait, and that of REL.cor, of ACQ.cor and of FENCE.cor (R226). -/
def State.endFence (s : State) (core slot p : Nat) (tail : Option Nat) (sys : Bool) (d : Nat) (t : Train) : State :=
  match tail with
  | none => if t.performed then (s.putReg core slot d 0).endWait core slot p true else s
  | some n =>
    if t.performed && s.released core slot p n sys then
      let r := s.endRelease core slot p sys
      (r.2.putReg core slot d (BitVec.ofNat 64 r.1)).endWait core slot p true
    else s

/-- An atomic whose release has completed is performed (R224). -/
def State.endRelAtomic (s : State) (core slot p tail : Nat) (sys : Bool) (x : Acc) (t : Train) : State :=
  if !t.answered then s
  else if x.scope = 0 then (s.endWait core slot p x.scalar).access core slot p x []
  else if s.released core slot p tail sys then
    (((s.endRelease core slot p sys).2).endWait core slot p x.scalar).access core slot p x []
  else s

/-! ### Acquires -/

/-- Tokens acquired in turn until one must wait (R219, R221): the tokens left. -/
def State.acquireList (s : State) (core : Nat) (sys : Bool) : List Nat → List Nat × State
  | [] => ([], s)
  | k :: ks =>
    match s.acquire core k sys with
    | none => (k :: ks, s)
    | some s => State.acquireList s core sys ks

/-- ACQ's wait (R219), which the train's earlier accesses precede (R227). -/
def State.endAcquire (s : State) (core slot p : Nat) (toks : List Nat) (sys : Bool) (t : Train) : State :=
  let r := s.acquireList core sys toks
  r.2.setWait core slot p true (if r.1.isEmpty && t.performed then .none else .acquire r.1 sys)

/-- Whether ACQALL's logs have folded (R222 steps 1 and 2). -/
def State.allFolded (s : State) (tails : List (Nat × Nat)) (sys : Bool) : Bool := tails.all (fun e => (s.log e.1).acquirable e.2 sys)

/-- ACQALL's wait (R222). -/
def State.endAcqAll (s : State) (core slot p : Nat) (tails : List (Nat × Nat)) (sys : Bool) : State :=
  if s.allFolded tails sys then (s.acqAllDone core tails).endWait core slot p true else s

/-- The acquires a train starts with (R96, R157, R428), before any portion of it issues. -/
def State.startTrain (s : State) (core slot : Nat) : State :=
  match s.train core slot with
  | none => s
  | some t =>
    let s := match t.startAcq with
      | none => s
      | some k => match s.acquire core (k.toNat % 2 ^ 63) false with
        | none => s
        | some s => s.modTrain core slot (fun t => { t with startAcq := none })
    match t.startAcqAll with
    | none => s
    | some ts => if s.allFolded ts false then (s.acqAllDone core ts).modTrain core slot (fun t => { t with startAcqAll := none }) else s

/-! ### RESIZE (R197) -/

/-- Scratchpad and stash ways held on a core, reservations included, but for one task's own. -/
def State.waysBut (s : State) (core task : Nat) : Nat :=
  let k := s.core core
  k.scratch.foldl (fun n e => if e.1 = task then n else n + e.2.ways + e.2.stash) 0 + k.resv.foldl (fun n r => if r.task = task then n else n + r.ways) 0

/-- Whether a task's accesses and engine work on a core are at rest: what RESIZE's step 1 waits for. -/
def State.taskQuiet (s : State) (core task : Nat) : Bool :=
  ((s.trainsOn core).filter (fun e => decide (e.2.task = task))).all (fun e => e.2.performed) &&
    s.jobs.all (fun e => decide (e.2.task ≠ task) || decide (e.2.core ≠ some core)) &&
    (s.pairOf (core - core % 2)).progs.all (fun m => !m.active || decide (m.task ≠ task) || decide (core % 2 = 1)) &&
    s.queries.all (fun e => decide (e.2.task ≠ task) || decide (e.2.core ≠ core))

/-- The scratchpad with new way counts (R197 step 3): contents above the new top are lost. -/
def Scratch.resized (x : Scratch) (a b : Nat) : Scratch :=
  { ways := a, stash := b, bytes := x.bytes.filter (fun e => decide (e.1 < a * 32768)), bad := x.bad.filter (fun w => decide (w * 4 < a * 32768)), doubled := x.doubled.filter (fun w => decide (w / 16 < a * 32768)) }

/-- RESIZE ends with a status (R423). -/
def State.resizeEnds (s : State) (core slot p d : Nat) (v : W64) : State :=
  let k := s.core core
  ((s.setCore core { k with resizing := k.resizing.filter (fun x => decide (x ≠ ticketOf core slot p)) }).putReg core slot d v).endWait core slot p true

/-- The ways of a task on a core as RESIZE leaves them (R197 steps 2 and 3): lines and entries of ways that change hands are gone. -/
def State.setWays (s : State) (core task a b : Nat) : State :=
  let pad := s.scratch core task
  let s := s.setScratch core task (pad.resized a b)
  let k := s.core core
  let mine := fun (key : Nat) => decide (b < pad.stash) && decide (keyTask key = task) && k.stash.any (fun e => decide (e.1 = key))
  let past := fun (n : Nat) => decide (k.cacheWays ≤ ((k.rivals false (2 * n)).idxOf n))
  let gone := (k.view.filter (fun e => past (e.1 / 2))).map (fun e => e.1 / 2)
  let s := s.setCore core { k with resv := k.resv.filter (fun r => decide (r.task ≠ task) || decide (0 < r.trains)) }
  s.invalidate core (fun key => mine key || gone.contains (key / 2) && !k.stash.any (fun e => decide (e.1 = key)))

/-- RESIZE's steps (R197, R424), of which none reports a held log error (R238): its turn, quiet, the condition; ways that change hands publish the log first, then the pad takes its new size and entries of a stash that shrinks are invalidated. -/
def State.endResize (s : State) (core slot p a b d : Nat) (tail : Option Nat) (t : Train) : State :=
  let k := s.core core
  let pad := s.scratch core t.task
  let apply := fun (s : State) =>
    let s := s.setWays core t.task a b
    let s := if a + b < pad.ways + pad.stash then s.noteFreed (s.slotOfTask t.task) else s
    s.resizeEnds core slot p d 0
  match tail with
  | some n => if s.released core slot p n false then apply (s.dropTicket core slot p) else s
  | none =>
    if k.resizing.head? ≠ some (ticketOf core slot p) || !s.taskQuiet core t.task then s
    else if 10 < s.waysBut core t.task + a + b then s.resizeEnds core slot p d 1
    else if a = pad.ways ∧ b = pad.stash then apply s
    else
      let s := s.setCore core { k with resv := k.resv ++ [{ task := t.task, trains := 0, regs := 0, ways := a + b - (pad.ways + pad.stash) }] }
      let r := s.beginRelease core slot p
      r.2.2.setWait core slot p true (.resize a b d (some r.1))

/-! ### Invalidates (R191) -/

/-- Bytes of a page of size code `sz` (Table 11-3); 3 is the whole slot. -/
def invalBytes (sz : Nat) : Nat := if sz = 0 then 2 ^ 16 else if sz = 1 then 2 ^ 21 else if sz = 2 then 2 ^ 30 else 2 ^ 57

/-- Whether a VA lies in the page an invalidate names. -/
def inPage (va sz a : Nat) : Bool := decide (a / invalBytes sz = va / invalBytes sz)

/-- Sectors that a core has lost to a change of mapping: those of a line that holds unfolded records of its own are asked for again at once, under the mapping in force (R191, R218). -/
def State.askAgain (s : State) (core : Nat) (view stash : List Nat) : State :=
  let ask := fun (z : Bool) (s : State) (key : Nat) =>
    if ((s.log core).inSector (key / 2 * 2)).isEmpty && ((s.log core).inSector (key / 2 * 2 + 1)).isEmpty then s
    else match (s.translate core (keySlot key) (keyVa key) .read false).1 with
      | .ok pa => if (s.refusal (keySlot key) 0 pa true).isNone then s.wantSector core key pa z true else s
      | .fault _ => s
  stash.foldl (ask true) (view.foldl (ask false) s)

/-- What holds an old mapping is dropped (R191): cached translations of cores and engines, view lines and stash entries of the page; unpublished records are marked for translation again, lines that hold them are asked for anew, and parked waiters find their elements anew. -/
def State.dropMapping (s : State) (p va sz : Nat) : State :=
  let mine := fun (key : Nat) => decide (keySlot key = p) && inPage va sz (keyVa key)
  let s := s.dropTlbs (fun x => decide (x.slot = p) && (inPage va sz (x.page * 2 ^ levelShift x.level) || decide (x.page = va / 2 ^ levelShift x.level)))
  let cores := s.cores
  let s := { s with
    cores := s.cores.map (fun (e : Nat × Core) =>
      (e.1, { e.2 with view := e.2.view.filter (fun x => !mine x.1), stash := e.2.stash.filter (fun x => !mine x.1), stashUse := e.2.stashUse.filter (fun n => !mine (2 * n)) }))
    logs := s.logs.map (fun (e : Nat × Log) =>
      if e.1 < 1728 then
        (e.1, { e.2 with recs := e.2.recs.map (fun (r : Rec) => if r.slot = p ∧ r.stamp.isNone ∧ inPage va sz (r.gran * 32) then { r with pa := none } else r) })
      else e) }
  let s := cores.foldl (fun s e => s.askAgain e.1 ((e.2.view.map Prod.fst).filter mine) ((e.2.stash.map Prod.fst).filter mine)) s
  s.rewatch (fun q a _ => decide (q = p) && inPage va sz a)

/-- Whether nothing translated under the old mapping is still under way (R191 steps 1 and 2): accesses of trains, sector fills, queries, reads of records and descriptors through windows, granules that an MDRAIN has not logged, published records in core and engine logs; of the records that link ports have taken over, whose granules are physical, every one of the slot counts. -/
def State.mappingIdle (s : State) (p va sz : Nat) : Bool :=
  s.trains.all (fun e => decide (s.slotOfTask e.2.task ≠ p) || e.2.pend.all (fun q => !q.2.missing.any (fun y => inPage va sz (y.va.getD 0)))) &&
    s.cores.all (fun e => e.2.fills.all (fun f => decide (keySlot f.key ≠ p) || !inPage va sz (keyVa f.key))) &&
    s.queries.all (fun e => decide (s.slotOfTask e.2.task ≠ p) || !inPage va sz e.2.va) &&
    s.far.all (fun f => f.data.isSome) &&
    s.pairs.all (fun e => e.2.progs.all (fun m => decide (s.slotOfTask m.task ≠ p) || !m.rest.any (fun y => inPage va sz (y.gran * 32)))) &&
    s.logs.all (fun (e : Nat × Log) => decide (1728 ≤ e.1 ∧ e.1 < 1736) || e.2.recs.all (fun (r : Rec) => decide (r.slot ≠ p) || r.stamp.isNone || decide (e.1 < 1728) && !inPage va sz (r.gran * 32)))

/-- IVPG's wait (R447). -/
def State.endInvalidate (s : State) (core slot p va sz : Nat) (t : Train) : State :=
  let ps := s.slotOfTask t.task
  if s.mappingIdle ps va sz then (s.dropMapping ps va sz).endWait core slot p true else s

end Sys2Proof.Machine
end

