-- ==== Sys2Proof/Machine/Launch.lean ====
section
/-! DEFINITION. Launch records (R98, R99), the creation of a task (R112-R114), and the task instructions SPAWN, SPAWNF, JOIN, JOINANY, GRANT, CUT and TSTAT (R427-R431). -/

namespace Sys2Proof.Machine

/-! ### Launch records (Table 6-3) -/

/-- The little-endian field of `n` bytes at an offset of a record. -/
def le (bs : List Byte) (off n : Nat) : Nat := leNat ((bs.drop off).take n)

/-- A launch record meets its ranges (R98, R99); flag bits 1 and 2 are ignored by SPAWN, whose record's other reserved flags must be zero all the same. -/
def launchOk (bs : List Byte) : Bool :=
  let t := le bs 2 1
  let c := le bs 3 1
  le bs 0 1 = 1 && decide (le bs 1 1 < 8) && decide (1 ≤ t) && decide (t ≤ 32) && decide (1 ≤ c) && decide (c ≤ 8) && decide (c ≤ t) &&
    decide (le bs 4 1 ≤ 14) && decide (le bs 5 1 ≤ 1) && decide (le bs 6 1 ≤ 7) && decide (le bs 7 1 ≤ 10) &&
    decide (le bs 0x18 8 % 4 = 0) && canonical (le bs 0x18 8) && decide (le bs 0x20 8 % 12 = 0) && canonical (le bs 0x20 8) &&
    decide (le bs 0x28 2 ≤ 256) && le bs 0x2A 6 = 0 && canonical (le bs 0x30 8) && canonical (le bs 0x38 8) &&
    decide (le bs 0x48 8 % 64 = 0) && canonical (le bs 0x48 8) && decide (le bs 0x50 8 % 8 = 0) && canonical (le bs 0x50 8) && le bs 0x58 40 = 0

/-- A gang that can never fit (R99, NOFIT): the trains of a core need more than 2,048 lane registers. -/
def launchFits (bs : List Byte) : Bool := decide ((le bs 2 1 + le bs 3 1 - 1) / le bs 3 1 * budgetRegs (le bs 4 1) ≤ 2048)

/-- The grant of a launch record. -/
def launchGrant (bs : List Byte) : Nat := le bs 8 8

/-! ### Creating a task (R112-R114) -/

/-- A free entry of the task table; which one is the device's choice (log entry 5). -/
def State.freeTask (s : State) : Option Nat :=
  ((List.range 65536).map (fun i => (Config.pick s.fresh + i) % 65536)).find? (fun t => match s.task t with
    | none => true
    | some k => !k.held)

/-- Whether slot `p` may have a new task (R114). -/
def State.taskRoom (s : State) (p : Nat) : Bool :=
  decide (s.regBits (slotOff p 0x380) 32 17 < s.regBits (slotOff p 0x380) 0 17) && s.freeTask.isSome

/-- The task of a launch record: `parent` 0 for a root (R112, R427). -/
def launchTask (bs : List Byte) (p parent level queue : Nat) : Task :=
  { gen := 1, parent := parent, alw := launchGrant bs, grant := launchGrant bs, limit := if le bs 5 1 = 1 then le bs 0x10 8 else 0, state := .ready, park := le bs 5 1 = 1
    retryN := le bs 6 1, slot := p, trains := le bs 2 1, cores := le bs 3 1, budget := le bs 4 1, ways := le bs 7 1
    entry := BitVec.ofNat 64 (le bs 0x18 8), lcb := BitVec.ofNat 64 (le bs 0x20 8), routesN := le bs 0x28 2, routesVa := BitVec.ofNat 64 (le bs 0x30 8)
    blockVa := BitVec.ofNat 64 (le bs 0x38 8), arg := BitVec.ofNat 64 (le bs 0x40 8), complVa := BitVec.ofNat 64 (le bs 0x48 8), signalVa := BitVec.ofNat 64 (le bs 0x50 8)
    parkNs := le bs 0x10 8, level := level, queue := queue, reduced := le bs 1 1 % 2 = 1, root := parent = 0 }

/-- A task entered in the table (R112, R114): its slot and the state. -/
def State.newTask (s : State) (k : Task) : Option (Nat × State) :=
  match s.freeTask with
  | none => none
  | some t =>
    if !s.taskRoom k.slot then none
    else
      let gen := ((s.task t).map Task.gen).getD 0 + 1
      let s := { s with fresh := s.fresh + 1 }
      some (t, (s.setTask t { k with gen := gen }).setRegBits (slotOff k.slot 0x380) 32 17 (s.regBits (slotOff k.slot 0x380) 32 17 + 1))

/-! ### SPAWN, SPAWNF (R427) -/

/-- What SPAWN finds at the address in S(a): an operand fault (none), or the read. -/
def State.spawnRead (s : State) (c : Cur) (a : BitVec 6) : Option DRead :=
  let x := (c.t.getS a.toNat).toNat
  if x % 128 = 0 && canonical x then some (s.deviceRead (portionOwner c.core c.slot c.p) (c.pslot s) x 128) else none

/-- The stall of an instruction that reads a record through a window. -/
def DRead.stall (r : DRead) (owner : Nat) : Stall := match r with
  | .far pa n => .far owner pa n
  | _ => .no

/-- The fault of a record's read (R425, R466). -/
def DRead.trouble : DRead → Option (Nat × Nat)
  | .fault c va => some (c, va)
  | .poison va => some (fUCESCALAR, va)
  | _ => none

/-- The issue of SPAWN: an operand fault is found after the charge is judged (R465), a read's fault before it. -/
def spawnReq (s : State) (d a : BitVec 6) (tok : Option (BitVec 6)) (c : Cur) : SReq :=
  let r := s.spawnRead c a
  let wait := match tok with
    | some b => (s.acquire c.core ((c.t.getS b.toNat).toNat % 2 ^ 63) false).isNone
    | none => false
  { op := 0x2A, sregs := [d.toNat, a.toNat] ++ (tok.map (fun b => [b.toNat])).getD [], swrites := [d.toNat], clauses := true, boundary := true
    cost := match r with
      | none => 8
      | some (.ok _) => 8
      | _ => 0
    extra := match r with
      | some (.ok bs) => launchGrant bs
      | _ => 0
    stall := if wait then .waits else match r with
      | some x => x.stall (portionOwner c.core c.slot c.p)
      | none => .no }

/-- The child created (R427): its grant moved, the child queued on the core (R138), S(d) the TASKID or NOSLOT. -/
def State.spawnChild (s : State) (c : Cur) (d : BitVec 6) (tok : Option W64) (bs : List Byte) : State :=
  let me := c.t.task
  match s.task me with
  | none => s
  | some k =>
    match s.newTask { launchTask bs k.slot (k.id me) k.level k.queue with token := tok } with
    | none => s.putS d 4
    | some (t, s) =>
      let g := launchGrant bs
      let s := s.modTask me (fun x => { x with alw := x.alw - g, children := x.children + 1 })
      let q := s.core c.core
      let s := s.setCore c.core { q with readyQ := q.readyQ ++ [t] }
      s.putS d (BitVec.ofNat 64 (((s.task t).map (fun x => x.id t)).getD 0))

/-- SPAWN and SPAWNF (R427). -/
def State.spawn (s : State) (d a : BitVec 6) (tok : Option (BitVec 6)) : Out :=
  s.scalarGo (spawnReq s d a tok)
    (fun c => match s.spawnRead c a with
      | some (.ok bs) => !launchOk bs || !launchFits bs
      | _ => false)
    (fun c => match s.spawnRead c a with
      | none => some (fADDRRANGE, (c.t.getS a.toNat).toNat)
      | some r => r.trouble)
    (fun c s' => match s.spawnRead c a with
      | some (.ok bs) =>
        let s' := s'.dropFar (portionOwner c.core c.slot c.p)
        let s' := match tok with
          | some b => (s'.acquire c.core ((c.t.getS b.toNat).toNat % 2 ^ 63) false).getD s'
          | none => s'
        s'.spawnChild c d (tok.map (fun b => c.t.getS b.toNat)) bs
      | _ => s')

/-- SPAWN (R427). -/
def execSpawn (d a : BitVec 6) (s : State) : Out := s.spawn d a none
/-- SPAWNF (R427, R428): it waits for the acquire before it is charged. -/
def execSpawnf (d a b : BitVec 6) (s : State) : Out := s.spawn d a (some b)

/-! ### JOIN, JOINANY, GRANT, CUT, TSTAT (R126, R429-R431) -/

/-- The task that a TASKID names, as a task instruction of task `me` finds it (R112, R126, R430). -/
inductive Named where
  | stale
  | notChild
  | freed
  | child (t : Nat)
  deriving DecidableEq, Repr

def State.named (s : State) (me id : Nat) : Named :=
  match s.task (id % 65536) with
  | none => .stale
  | some k =>
    if k.gen ≠ id / 65536 then .stale
    else if k.parent ≠ ((s.task me).map (fun x => x.id me)).getD 0 ∨ id % 65536 = me then .notChild
    else if k.held then .child (id % 65536) else .freed

/-- The status GRANT and CUT answer before anything else (Table 7-6). -/
def State.actStatus (s : State) (me id : Nat) : Nat :=
  match s.named me id with
  | .stale => 3
  | .notChild => 2
  | .freed => 1
  | .child t => match s.task t with
    | none => 3
    | some k => if k.state = .unwinding ∨ k.state = .done ∨ k.closing then 1 else 0

/-- The result word of Table 22-2. -/
def joinWord (status child : Nat) : W64 := BitVec.ofNat 64 (status * 65536 + child)

/-- What a JOIN of child `id` answers: its word, with the entry taken off the done list; none while the child is short of DONE (R429, R430). A TASKID of another generation than its entry's acts on nothing (R112). -/
def State.joinLook (s : State) (me id : Nat) : Option (W64 × State) :=
  match s.task me, s.named me id with
  | none, _ => none
  | some _, .stale => some (joinWord 3 0, s)
  | some k, n =>
    match k.doneList.find? (fun e => decide (e.1 = id)) with
    | some e => some (joinWord 0 e.2, s.setTask me { k with doneList := k.doneList.filter (fun x => decide (x.1 ≠ id)) })
    | none => match n with
      | .stale => some (joinWord 3 0, s)
      | .notChild => some (joinWord 2 0, s)
      | .freed => some (joinWord 1 0, s)
      | .child _ => none

/-- JOIN's wait (R430). -/
def State.endJoin (s : State) (core slot p id d : Nat) (t : Train) : State :=
  match s.joinLook t.task id with
  | none => s
  | some (w, s) => (s.putReg core slot d w).endWait core slot p true

/-- JOINANY's wait (R430): the oldest entry of the done list, or GONE when no child is short of DONE. Where S(d) and S(b) are one register the manual states no value (log entry 5). -/
def State.endJoinAny (s : State) (core slot p d b : Nat) (t : Train) : State :=
  match s.task t.task with
  | none => s
  | some k =>
    let give := fun (s : State) (w : W64) (id : Nat) =>
      let s := if d = b then
          { s.putReg core slot d (Config.freeWord (s.fresh + 1) ++ Config.freeWord s.fresh) with fresh := s.fresh + 2 }
        else (s.putReg core slot d w).putReg core slot b (BitVec.ofNat 64 id)
      s.endWait core slot p true
    match k.doneList with
    | e :: es => give (s.setTask t.task { k with doneList := es }) (joinWord 0 e.2) e.1
    | [] => if k.children = 0 then give s (joinWord 1 0) 0 else s

/-- The parked JOINs and JOINANYs that a child's DONE resolves (R122, R430). -/
def State.pokeJoins (s : State) : State :=
  s.trains.foldl (fun s e => e.2.portions.foldl (fun (s : State) o => match s.train (e.1 / 32) (e.1 % 32), o.2.wait with
    | some t, .join id d => s.endJoin (e.1 / 32) (e.1 % 32) o.1 id d t
    | some t, .joinAny d b => s.endJoinAny (e.1 / 32) (e.1 % 32) o.1 d b t
    | _, _ => s) s) s

/-- JOIN in its child form (R430): it looks at once, and parks while the child is short of DONE. -/
def execJoinChild (d a : BitVec 6) (s : State) : Out :=
  s.scalarGo (fun _ => { op := 0x2B, cost := 2, sregs := [d.toNat, a.toNat], swrites := [d.toNat], clauses := true, boundary := true }) (fun _ => !(Instr.joinChild d a).wf) noFault
    (fun c s => (s.waitFor (.join (c.t.getS a.toNat).toNat d.toNat)).endJoin c.core c.slot c.p (c.t.getS a.toNat).toNat d.toNat c.t)

/-- JOINANY (R430). -/
def execJoinany (d b : BitVec 6) (s : State) : Out :=
  s.scalarGo (fun _ => { op := 0x2B, cost := 2, sregs := [d.toNat, b.toNat], swrites := [d.toNat, b.toNat], clauses := true, boundary := true }) never noFault
    (fun c s => (s.waitFor (.joinAny d.toNat b.toNat)).endJoinAny c.core c.slot c.p d.toNat b.toNat c.t)

/-- JOIN in its self form (R431): its REL.pkg begins; the train ends when Machine/Resume.lean finds it complete. -/
def execJoinSelf (s : State) : Out :=
  s.scalarGo (fun c => { op := 0x2B, cost := 2, clauses := true, boundary := true, stall := if c.t.appending then .waits else .no })
    (fun c => decide (c.t.portions.length ≠ 1) || !c.o.stack.isEmpty) noFault
    (fun c s =>
      let r := s.beginRelease c.core c.slot c.p
      r.2.2.waitFor (.ending r.1))

/-- The self form's wait (R431): released, every access performed and its result landed, the train leaves its core. -/
def State.endTrain (s : State) (core slot p tail : Nat) (t : Train) : State :=
  if t.performed && t.pend.isEmpty && s.released core slot p tail false then ((s.endRelease core slot p false).2).removeTrain (trainKey core slot) else s

/-- GRANT (R126). -/
def execGrant (d a b : BitVec 6) (s : State) : Out :=
  let st := fun (c : Cur) => s.actStatus c.t.task (c.t.getS a.toNat).toNat
  s.scalarGo (fun c => { op := 0x2B, cost := 2, extra := if st c = 0 then (c.t.getS b.toNat).toNat else 0, sregs := [d.toNat, a.toNat, b.toNat], swrites := [d.toNat], clauses := true, boundary := true }) never noFault
    (fun c s' =>
      let au := (c.t.getS b.toNat).toNat
      let s' := if st c = 0 then
          (s'.modTask c.t.task (fun k => { k with alw := k.alw - au })).modTask ((c.t.getS a.toNat).toNat % 65536) (fun k => k.credit au)
        else s'
      s'.putS d (BitVec.ofNat 64 (st c)))

/-- CUT (R125-R128). -/
def execCut (d a : BitVec 6) (s : State) : Out :=
  let st := fun (c : Cur) => s.actStatus c.t.task (c.t.getS a.toNat).toNat
  s.scalarGo (fun _ => { op := 0x2B, cost := 2, sregs := [d.toNat, a.toNat], swrites := [d.toNat], clauses := true, boundary := true }) never noFault
    (fun c s' =>
      let s' := if st c = 0 then s'.unwind ((c.t.getS a.toNat).toNat % 65536) 1 0 else s'
      s'.putS d (BitVec.ofNat 64 (st c)))

/-- The code of a task state (Table 7-4). -/
def TState.code : TState → Nat
  | .ready => 0
  | .running => 1
  | .waiting => 2
  | .starved => 3
  | .unwinding => 4
  | .done => 5

/-- The word of Table 22-3 for a task. -/
def Task.statWord (k : Task) : W64 := BitVec.ofNat 64 (min k.alw (2 ^ 48 - 1) * 65536 + k.state.code)

/-- TSTAT (R430): of a target that is no direct child the state alone (Table 22-3); a STALE one names no task, and the manual states no STATE for it (log entry 5). -/
def State.tstat (s : State) (me id : Nat) : W64 × State :=
  let open_ := fun (st : Nat) => ((BitVec.ofNat 64 (st * 256) ||| ((Config.freeWord s.fresh).setWidth 8).setWidth 64, { s with fresh := s.fresh + 1 }) : W64 × State)
  if id = 0 then (((s.task me).map Task.statWord).getD 0, s)
  else match s.named me id with
    | .stale => open_ 3
    | .notChild => (BitVec.ofNat 64 (0x200 + ((s.task (id % 65536)).map (fun k => k.state.code)).getD 0), s)
    | .freed => (5, s)
    | .child t => (((s.task t).map Task.statWord).getD 0, s)

/-- TSTAT (R430): ALW is read after the charge. -/
def execTstat (d a : BitVec 6) (s : State) : Out :=
  s.scalarGo (fun _ => { op := 0x2B, sregs := [d.toNat, a.toNat], swrites := [d.toNat], clauses := true }) never noFault
    (fun c s => let r := s.tstat c.t.task (c.t.getS a.toNat).toNat
                r.2.putS d r.1)

end Sys2Proof.Machine
end

