-- ==== Sys2Proof/Machine/Routes.lean ====
section
/-! DEFINITION. Route barriers, ring-stage arrivals and REPACK (R137, R182, R183, R229, R432-R434). -/

namespace Sys2Proof.Machine

/-! ### Routes (R137, R432) -/

/-- Whether a train is a member of route `r` of its task. -/
def Train.onRoute (t : Train) (k : Task) (r : Nat) : Bool := t.member && ((k.routes[r]?).getD 0).getLsbD t.index

/-- The precise fault of a route instruction that names no route of the train (R137). -/
def State.routeFault (s : State) (c : Cur) (r : Nat) : Option (Nat × Nat) :=
  match s.task c.t.task with
  | some k => if decide (r < k.routes.length) && c.t.onRoute k r then none else some (fROUTE, 0)
  | none => some (fROUTE, 0)

/-- A route's completed-phase count. -/
def State.phaseOf (s : State) (task r : Nat) : Nat := ((s.task task).map (fun k => Sparse.get 0 k.phases r)).getD 0

/-- BARR (R432): `sc` 1 is the .pkg form (R311). -/
def execBarr (r : BitVec 8) (sc : BitVec 1) (s : State) : Out :=
  s.scalarGo (fun c => { op := 0x2C, clauses := true, boundary := true, stall := if sc = 1 && c.t.appending then .waits else .no }) never
    (fun c => s.routeFault c r.toNat) (fun _ s => s.waitFor (.arriving r.toNat true (sc = 1) none))

/-- ARRIVE (R432). -/
def execArrive (r : BitVec 8) (s : State) : Out :=
  s.scalarGo (fun _ => { op := 0x2C, clauses := true, boundary := true }) never (fun c => s.routeFault c r.toNat)
    (fun _ s => s.waitFor (.arriving r.toNat false false none))

/-- WAITB (R432): it parks while the phase of the latest arrival has not completed. -/
def execWaitb (r : BitVec 8) (s : State) : Out :=
  s.scalarGo (fun _ => { op := 0x2C, clauses := true }) never (fun c => s.routeFault c r.toNat)
    (fun c s => if c.t.arrived r.toNat ≤ s.phaseOf c.t.task r.toNat then s else s.waitFor (.waitb r.toNat (c.t.arrived r.toNat)))

/-- The arrival counted (R432), with the token of a BARR.pkg; tokens that every member has used are dropped. -/
def State.countArrival (s : State) (core slot r : Nat) (tok : Option W64) (t : Train) : State :=
  let n := t.arrived r + 1
  let s := s.setTrain core slot { t with arrivals := Sparse.set 0 t.arrivals r n }
  let s := match tok with
    | none => s
    | some v => s.modTask t.task (fun k => { k with tokens := k.tokens.filter (fun (x : Nat × Nat × Nat × W64) => decide (x.1 ≠ r) || decide (n < x.2.1 + 2)) ++ [(r, n, t.index, v)] })
  s.advanceRoutes t.task

/-- An arrival's waits (R432): its previous phase complete, for BARR.pkg its release, every earlier access performed; then it counts. -/
def State.endArriving (s : State) (core slot p r : Nat) (barr pkg : Bool) (tail : Option Nat) (t : Train) : State :=
  if s.phaseOf t.task r < t.arrived r then s
  else match tail with
    | none =>
      if pkg then
        let b := s.beginRelease core slot p
        b.2.2.setWait core slot p true (.arriving r barr pkg (some b.1))
      else if t.performed then
        (s.countArrival core slot r none t).setWait core slot p true (if barr then .barrier r (t.arrived r + 1) false else .none)
      else s
    | some n =>
      if t.performed && s.released core slot p n false then
        let s := (s.endRelease core slot p false).2
        let t := (s.train core slot).getD t
        (s.countArrival core slot r (some (BitVec.ofNat 64 (coreLog core * 2 ^ 51 + n))) t).setWait core slot p true (if barr then .barrier r (t.arrived r + 1) true else .none)
      else s

/-- A barrier's wait (R229, R432): BARR.pkg goes on to acquire the tokens of the other arriving members. -/
def State.endBarrier (s : State) (core slot p r phase : Nat) (pkg : Bool) (t : Train) : State :=
  if s.phaseOf t.task r < phase then s
  else
    let toks := match s.task t.task with
      | some k => (k.tokens.filter (fun x => decide (x.1 = r) && decide (x.2.1 = phase) && decide (x.2.2.1 ≠ t.index))).map (fun x => x.2.2.2.toNat % 2 ^ 63)
      | none => []
    s.setWait core slot p true (if pkg && !toks.isEmpty then .acquire toks false else .none)

/-- WAITB's wait. -/
def State.endWaitb (s : State) (core slot p r phase : Nat) (t : Train) : State :=
  if s.phaseOf t.task r < phase then s else s.endWait core slot p true

/-! ### Ring stages (R272, R433) -/

/-- A bit of a stage's full word set, as one update in the scratchpad; an ARRIVED bit that is set already is noted (R272). -/
def Scratch.setBit (x : Scratch) (a b : Nat) : Scratch :=
  let w := x.readLe a 4
  let x := if 16 ≤ b then x
    else if w / 2 ^ b % 2 = 1 then { x with doubled := (x.doubled ++ [16 * a + b]).eraseDups } else { x with doubled := x.doubled.filter (fun d => decide (d ≠ 16 * a + b)) }
  x.write a (leBytes 4 (w ||| 2 ^ b))

/-- The stage forms (R433). -/
def State.stage (s : State) (a : BitVec 6) (bit : Nat) : Out :=
  s.scalarGo (fun _ => { op := 0x2C, sregs := [a.toNat], clauses := true, boundary := true }) never
    (fun c => if s.padOk c (c.t.getS a.toNat) 4 then none else some (fADDRRANGE, (c.t.getS a.toNat).toNat))
    (fun c s => s.setScratch c.core c.t.task ((s.scratch c.core c.t.task).setBit (c.t.getS a.toNat).toNat bit))

/-- ARRIVE.stage (R433): ARRIVED bit p. -/
def execArriveStage (a : BitVec 6) (p : BitVec 4) (s : State) : Out := s.stage a p.toNat
/-- ARRIVE.stage.close (R433): CLOSED bit p. -/
def execArriveStageClose (a : BitVec 6) (p : BitVec 4) (s : State) : Out := s.stage a (16 + p.toNat)

/-! ### REPACK (R182, R183, R434) -/

/-- REPACK (R434). -/
def execRepack (r : BitVec 8) (s : State) : Out :=
  s.scalarGo (fun _ => { op := 0x38, clauses := true, boundary := true }) (fun c => decide (c.t.portions.length ≠ 1) || !c.o.stack.isEmpty)
    (fun c => s.routeFault c r.toNat) (fun _ s => s.waitFor (.repack r.toNat))

/-- A train put in its place in rising train index. -/
def byIndex (e : Nat × Train) : List (Nat × Train) → List (Nat × Train)
  | [] => [e]
  | f :: fs => if e.2.index < f.2.index then e :: f :: fs else f :: byIndex e fs

/-- The members of a route resident on a core, in train index order (R183). -/
def State.packers (s : State) (core task r : Nat) : List (Nat × Train) :=
  match s.task task with
  | none => []
  | some k => (((s.trainsOn core).filter (fun e => decide (e.2.task = task) && e.2.onRoute k r)).foldl (fun m e => byIndex e m) [])

/-- Whether a participant has arrived at the REPACK of a route with its flags clear. -/
def Train.packReady (t : Train) (r : Nat) : Bool := t.portions.any (fun o => decide (o.2.wait = .repack r)) && t.flagsClear 0xFFF

/-- A lane's registers below `n`. -/
def Train.laneRegs (t : Train) (l n : Nat) : List W32 := (List.range n).map (fun r => t.getV r l)

/-- The train after the move: `ins` are its receiving lanes with the registers they receive; registers from `lo` up are undefined there (R183; log entry 5). -/
def Train.repacked (t : Train) (lo fresh : Nat) (ins : List (Nat × List W32)) : Train :=
  let t1 := ins.foldl (fun t e => t.setVs 0 e.1 e.2) t
  let hi := budgetRegs t.budget
  let t2 := ins.zipIdx.foldl (fun t e => t.setVs lo e.1.1 ((List.range (hi - lo)).map (fun i => Config.freeWord (fresh + e.2 * 256 + i)))) t1
  let m := maskOf (ins.map Prod.fst)
  { t2 with portions := t2.portions.map (fun (o : Nat × Portion) => (o.1, { o.2 with exm := m, pm := m, wait := .none })) }

/-- The move (R183): live lanes in (train, lane) order fill the lanes that are not dead, in the same order. -/
def State.repackMove (s : State) (core : Nat) (ts : List (Nat × Train)) : State :=
  let lo := (ts.map (fun e => budgetRegs e.2.budget)).foldl min 256
  let movers := ts.flatMap (fun e => (e.2.portions.flatMap (fun o => lanesOf (live o.2.exm e.2.deadm))).map (fun l => e.2.laneRegs l lo))
  let spots := ts.flatMap (fun e => (lanesOf (~~~ e.2.deadm)).map (fun l => (e.1, l)))
  let moves := spots.zip movers
  ts.foldl (fun s e =>
    let ins := (moves.filter (fun m => decide (m.1.1 = e.1))).map (fun m => (m.1.2, m.2))
    { s.setTrain core e.1 (e.2.repacked lo s.fresh ins) with fresh := s.fresh + 256 * 32 }) s

/-- REPACK's wait (R182, R434). -/
def State.endRepack (s : State) (core r : Nat) (t : Train) : State :=
  let ts := s.packers core t.task r
  if ts.all (fun e => e.2.packReady r) then s.repackMove core ts else s

end Sys2Proof.Machine
end

