-- ==== Sys2Proof/Machine/Engines.lean ====
section
/-! DEFINITION. Copy engines, collective jobs, continuations and work distributors (R104-R107, R230, R279-R287, R435, R436, R439, R440): TCP, CONT, WQRY and COLL, and what the engines' own steps do. -/

namespace Sys2Proof.Machine

/-! ### Footprints (R105) -/

/-- Whether two footprints conflict (R105): first byte, byte past the last, space, whether written. -/
def footClash (x y : Nat × Nat × Nat × Bool) : Bool :=
  decide (x.2.2.1 = y.2.2.1) && decide (x.1 < y.2.1) && decide (y.1 < x.2.1) && (x.2.2.2 || y.2.2.2)
def feetClash (xs ys : List (Nat × Nat × Nat × Bool)) : Bool := xs.any (fun x => ys.any (footClash x))

/-- Whether an earlier job or program of the same task, or card of the same queue, conflicts with one numbered `id` (R105, R269); a program whose image is not loaded yet may conflict with anything. -/
def State.earlierClash (s : State) (id task : Nat) (queue : Option Nat) (feet : List (Nat × Nat × Nat × Bool)) : Bool :=
  s.jobs.any (fun e => decide (e.1 < id) && e.2.step.isNone && e.2.queue == queue && (queue.isSome || decide (e.2.task = task)) && feetClash e.2.feet feet) ||
    (queue.isNone && s.pairs.any (fun e => e.2.progs.any (fun m => decide (m.seq < id) && decide (m.task = task) && m.active && (!m.loaded || feetClash m.feet feet))))

/-! ### Tensor layout records (R280, R281) -/

/-- The element size of a layout record, its direction, its dimensions, its dense and tensor kinds. -/
def loE (bs : List Byte) : Nat := 2 ^ (le bs 0x39 1 % 8)
def loDir (bs : List Byte) : Nat := le bs 0x39 1 / 8 % 2
def loD (bs : List Byte) : Nat := le bs 0x3A 1
def loTK (bs : List Byte) : Nat := le bs 0 8 / 2 ^ 57 % 8
def loDK (bs : List Byte) : Nat := le bs 8 8 / 2 ^ 57 % 8
def loTB (bs : List Byte) : Nat := le bs 0 8 % 2 ^ 57
def loDB (bs : List Byte) : Nat := le bs 8 8 % 2 ^ 57
def loExt (bs : List Byte) (d : Nat) : Nat := le bs (0x10 + 4 * d) 4
/-- The stride of a dimension: dimension 0 has stride e. -/
def loStride (bs : List Byte) (d : Nat) : Int := if d = 0 then (loE bs : Int) else toSigned 32 (le bs (0x24 + 4 * (d - 1)) 4)
def loBox (bs : List Byte) (d : Nat) : Nat := le bs (0x34 + d) 1 + 1
/-- The elements of a box, and its bytes. -/
def loCount (bs : List Byte) : Nat := (List.range 5).foldl (fun n d => n * loBox bs d) 1
def loBytes (bs : List Byte) : Nat := loCount bs * loE bs

/-- A valid layout record (R280). -/
def layoutOk (bs : List Byte) : Bool :=
  let counted := (loDir bs = 1 && loTK bs = 4) || (loDir bs = 0 && loDK bs = 4)
  decide (le bs 0 8 < 2 ^ 60) && decide (le bs 8 8 < 2 ^ 60) && (loTK bs = 0 || loTK bs = 4 && loDir bs = 1) &&
    (loDK bs = 0 || loDK bs = 1 || loDK bs = 4 && loDir bs = 0) && decide (le bs 0x39 1 % 8 ≤ 4) && decide (le bs 0x39 1 < 16) &&
    decide (1 ≤ loD bs) && decide (loD bs ≤ 5) && (List.range 5).all (fun d => decide (d < loD bs) || decide (loBox bs d = 1)) &&
    (if counted then decide (1 ≤ le bs 0x3B 1) else le bs 0x3B 1 = 0) && decide (le bs 0x3C 1 ≤ 8) && le bs 0x3D 3 = 0 &&
    decide (loTB bs % loE bs = 0) && (List.range 5).all (fun d => decide (loStride bs d % (loE bs : Int) = 0)) && decide (loDB bs % 32 = 0) &&
    decide (loBytes bs ≤ 262144)

/-- The index of box element `k` in dimension `d` (R281). -/
def boxIndex (bs : List Byte) (d k : Nat) : Nat := k / (List.range d).foldl (fun n i => n * loBox bs i) 1 % loBox bs d

/-- The tensor coordinate of box element `k`; dimensions at and above D take coordinate 0. -/
def boxCoord (bs : List Byte) (origin : List Int) (d k : Nat) : Int := if d < loD bs then (origin[d]?).getD 0 + boxIndex bs d k else 0

/-- The tensor address of box element `k`, if its coordinates lie within the extents (R281). -/
def tensorAt (bs : List Byte) (origin : List Int) (k : Nat) : Option Nat :=
  if (List.range (loD bs)).all (fun d => decide (0 ≤ boxCoord bs origin d k) && decide (boxCoord bs origin d k < loExt bs d)) then
    some (((loTB bs : Int) + (List.range 5).foldl (fun v d => v + boxCoord bs origin d k * loStride bs d) 0) % 2 ^ 64).toNat
  else none

/-- The dense address of box element `k` (R281); a copy step's dense side begins at `base`. -/
def denseAt (bs : List Byte) (base k : Nat) : Nat := base + swz (le bs 0x3C 1) k * loE bs

/-- The lowest byte and the byte past the highest of the elements at some addresses. -/
def spanOf (e : Nat) (as : List Nat) : Option (Nat × Nat) :=
  as.foldl (fun r a => match r with
    | none => some (a, a + e)
    | some (lo, hi) => some (min lo a, max hi (a + e))) none

/-- The derived footprints of a copy (R105). -/
def copyFeet (bs : List Byte) (origin : List Int) (base core : Nat) : List (Nat × Nat × Nat × Bool) :=
  let ks := List.range (loCount bs)
  let t := (spanOf (loE bs) (ks.filterMap (tensorAt bs origin))).map (fun r => (r.1, r.2, 0, decide (loDir bs = 1)))
  let d := (spanOf (loE bs) (ks.map (denseAt bs base))).map (fun r => (r.1, r.2, if loDK bs = 1 then core + 1 else 0, decide (loDir bs = 0)))
  t.toList ++ d.toList

/-! ### The issuing core's records before an engine reads (R230) -/

/-- Whether a granule lies in a footprint that an engine reads in global memory. -/
def readsGran (feet : List (Nat × Nat × Nat × Bool)) (va : Nat) : Bool :=
  feet.any (fun f => !f.2.2.2 && decide (f.2.2.1 = 0) && decide (f.1 < va + 32) && decide (va < f.2.1))

/-- The records of a core log, published or not, that overlap the footprints an engine reads (R230, R245). -/
def State.sourceRecs (s : State) (core p : Nat) (feet : List (Nat × Nat × Nat × Bool)) : List Rec :=
  (s.log core).recs.filter (fun r => decide (r.slot = p) && readsGran feet (r.gran * 32))

/-- The positions of the core's records that link-port logs have taken over and not folded: they keep no VA, so all of the slot's are waited for. -/
def State.sourceFar (s : State) (core p : Nat) : List Nat :=
  s.logs.flatMap (fun e => if e.1 < 1736 then [] else e.2.recs.filterMap (fun r => match r.origin with
    | some (l, n) => if l = core ∧ r.slot = p then some n else none
    | none => none))

/-- The publication of R230, if the log holds unpublished records of the source; the positions the engine waits for. -/
def State.publishSource (s : State) (core p : Nat) (feet : List (Nat × Nat × Nat × Bool)) : List Nat × State :=
  let rs := s.sourceRecs core p feet
  (rs.map Rec.pos ++ s.sourceFar core p, if rs.any (fun r => r.stamp.isNone) then s.publish core else s)

/-- Whether the records a job waits for have folded, at the far home for those sent across a link group. -/
def State.sourceFolded (s : State) (j : Job) : Bool :=
  match j.core with
  | some c => !(s.log c).recs.any (fun r => j.waits.contains r.pos) && !(s.log c).far.any j.waits.contains
  | none => true

/-! ### Ending jobs (R106, R107, R120) -/

/-- The record of a job (Table 6-7). -/
def Job.record (j : Job) (id now : Nat) : List Byte :=
  let spent := if j.status = 2 then 0 else j.cost
  leBytes 2 j.status ++ leBytes 1 3 ++ leBytes 1 1 ++ leBytes 4 (if j.oobz then 0x200 else 0) ++ leBytes 8 (j.grant - spent) ++ leBytes 8 spent ++
    leBytes 8 id ++ leBytes 8 j.begun ++ leBytes 8 now ++ leBytes 4 0 ++ leBytes 2 0 ++ leBytes 2 0 ++ leBytes 4 j.poisoned.length ++ leBytes 4 j.faultCode

/-- A program stopped with a status and a code at its command (R278); a copy step that faults after the end gives its status to a program that ended OK. -/
def MxProg.stop (m : MxProg) (status code : Nat) : MxProg :=
  if m.ended && m.status ≠ 0 then m else { m with ended := true, status := status, code := code, at_ := m.pc }

/-- The program a pair runs changed. -/
def State.modProg (s : State) (leader : Nat) (f : MxProg → MxProg) : State :=
  let p := s.pairOf leader
  s.setPair leader { p with progs := p.progs.map (fun m => if m.active then f m else m) }

/-- Sticky flags of a train, or of its task once the train is gone (R107). -/
def State.flagTrain (s : State) (core slot index task : Nat) (x : W32) : State :=
  match s.train core slot with
  | some t => if t.task = task ∧ t.index = index then s.setTrain core slot (t.flagUp x) else s.modTask task (fun k => { k with xflags := k.xflags ||| x })
  | none => s.modTask task (fun k => { k with xflags := k.xflags ||| x })

/-- The 64-bit completion word of a collective job (Table 22-6). -/
def collWord (status : Nat) : Nat := 2 ^ 63 + status % 256

/-! ### The save area (R150) -/

/-- CSBASE of a slot, in bytes; 0 means none. -/
def State.csBase (s : State) (p : Nat) : Nat := bits (s.slotReg p 0x3A8) 12 40 * 4096
/-- The record of train slot `j` of a core. -/
def State.recordAt (s : State) (p c j : Nat) : Nat := s.csBase p + (32 * s.coreIndex p c + j) * 4096
/-- The scratchpad image of a core. -/
def State.imageAt (s : State) (p c : Nat) : Nat := s.csBase p + (s.coresOf p).length * 131072 + s.coreIndex p c * 327680

/-- Where a task's scratchpad lies in the image of a core that has been saved: the pads lie one after the other, by task. -/
def State.padImage (s : State) (c task : Nat) : Option Nat :=
  let k := s.core c
  if (Table.find k.aside task).isNone then none
  else some (s.imageAt (s.slotOfTask task) c + (k.aside.filter (fun e => decide (e.1 < task))).foldl (fun n e => n + e.2.size) 0)

/-- A write of the device in a task's scratchpad, or in its saved image (R156, R439). -/
def State.padWrite (s : State) (c task off : Nat) (bs : List Byte) : State :=
  match s.padImage c task with
  | none => s.setScratch c task ((s.scratch c task).write off bs)
  | some a => if s.fotRange (s.slotOfTask task) (a + off) bs.length then s.deviceWrite (a + off) bs else s

/-- What a card's record and signal word need (R107): the copy engines write them (log entry 19). -/
def State.jobCompl (s : State) (id : Nat) (j : Job) : Compl :=
  let q := match j.node with
    | some (g, _) => (s.task g).map Task.queue
    | none => j.queue
  { owner := jobOwner id, slot := j.slot, master := 128, queue := if j.node.isSome then none else j.queue, vector := if j.msi then q else none, va := j.complVa.toNat, signal := j.signalVa.toNat }

/-- A job leaves the table, with the answers it had asked for. -/
def State.dropJob (s : State) (id : Nat) : State := ({ s with jobs := Table.drop s.jobs id }).dropFar (jobOwner id)

/-- A card's job ends (R106, R107) once its record is written; until then it stays with its status. -/
def State.endCard (s : State) (id : Nat) (j : Job) : State :=
  match s.writeCompletion (s.jobCompl id j) (j.record id s.clock) with
  | (false, s) => { s with jobs := Table.put s.jobs id j }
  | (true, s) =>
    let s := s.dropJob id
    match j.node with
    | some (g, n) =>
      let spent := if j.status = 2 then 0 else j.cost
      let s := s.modTask g (fun k => { k with rsv := k.rsv - j.grant, alw := k.alw + (j.grant - spent), spent := k.spent + spent, outstanding := k.outstanding - 1 })
      { s with graphs := Table.modify s.graphs g (fun ns => ns.modify n (fun x => { x with state := 2, status := j.status, code := j.faultCode })) }
    | none => match j.queue with
      | some q => s.setQueue q { s.queue q with jobs := (s.queue q).jobs.filter (fun x => decide (x ≠ id)) }
      | none => s

/-- A job ends (R106, R107, R120, R440): a card's as above; a train's has its reservation spent, its flags delivered, its word written unless it faulted, for which Table 22-6 has no code. -/
def State.endJob (s : State) (id : Nat) (j : Job) : State :=
  if j.queue.isSome || j.node.isSome then s.endCard id j
  else
    let s := s.dropJob id
    match j.step, j.core with
    | none, some c =>
      let s := (s.spendRsv j.task j.cost).modTask j.task (fun k => { k with outstanding := k.outstanding - 1 })
      let s := if j.oobz then s.flagTrain c j.trainSlot j.trainIndex j.task xOOBZ else s
      if j.coll && decide (j.status ≠ 4) then s.padWrite c j.task j.pad (leBytes 8 (collWord j.status)) else s
    | _, _ => s

/-- The member core's view lines and stash entries that overlap the destinations of a job are invalidated whole (R230). -/
def State.dropFeet (s : State) (j : Job) : State :=
  match j.core with
  | none => s
  | some c =>
    s.invalidate c (fun key => decide (keySlot key = j.slot) && j.feet.any (fun f => f.2.2.2 && decide (f.2.2.1 = 0) && decide (f.1 < keyVa key / 256 * 256 + 256) && decide (keyVa key / 256 * 256 < f.2.1)))

/-- A job fails (R47, R85, R281): a card ends with the status, a copy step stops its program, a task's job ends and unwinds the task with the fault code. A collective job of a task that meets a link or main-line error ends with its own status, and nothing unwinds (R440). -/
def State.failJob (s : State) (id : Nat) (j : Job) (status code : Nat) : State :=
  match j.step with
  | some (leader, _) => (s.dropJob id).modProg leader (fun m => { m.stop 5 code with copyJob := none })
  | none =>
    let s := s.dropFeet j
    let k := { j with status := status, faultCode := if status = 4 then code else 0 }
    if j.queue.isSome || j.node.isSome || j.coll && decide (status ≠ 4) then s.endJob id k else (s.endJob id k).unwind j.task 4 code

/-- The status that a fault code ends a job with (Table 6-8): a link error, a main-line error, or a fault. -/
def jobStatus (code : Nat) : Nat := if code = fLINKERR ∨ code = fLINKTIMEOUT ∨ code = fLINKDOWN then 9 else if code = fMLTIMEOUT then 10 else 4

/-- An ownership fault, or a link error or timeout, of an engine that works for a slot, counted for it and reported (R78). -/
def State.engineError (s : State) (p master unit code : Nat) : State :=
  if code = fOWNERSHIP then s.event (some p) 3 6 master unit 0 0
  else if code = fLINKERR ∨ code = fLINKTIMEOUT then s.event (some p) 4 8 master unit 0 0 else s

/-- An access of a job's engine fails: it is counted, and the job fails. -/
def State.jobFault (s : State) (id : Nat) (j : Job) (code : Nat) : State := (s.engineError j.slot 128 j.yard code).failJob id j (jobStatus code) code

/-! ### Moving data (R85, R281, R282) -/

/-- One element read by an engine: its value and its granule if that is poisoned; a fault; one that is refused as an access-table failure; a read that must be made first, through a window or at a home that has to be reached (R24). -/
inductive ERead where
  | ok (v : Nat) (pois : Option Nat)
  | fault (code : Nat)
  | denied (pa : Nat)
  | far (pa n : Nat)
  deriving DecidableEq, Repr

/-- The engine that moves a job's data, and an engine's translations of a list of addresses found, page by page, where its walk has reached their entries (R24, R190). -/
def Job.eng (j : Job) : Option Nat := some (copyEngine j.yard)
def State.cachePages (s : State) (eng : Option Nat) (owner p : Nat) (r : Right) (vas : List Nat) : State :=
  (((vas.filter canonical).map (· / 65536)).eraseDups).foldl (fun s n => if (s.engineStops eng owner p (n * 65536)).isSome then s else (s.translateAt eng p (n * 65536) r false).2) s
/-- The pages of a range, by an address in each. -/
def pagesOf (va n : Nat) : List Nat := if n = 0 then [] else (List.range ((va + n + 65535) / 65536 - va / 65536)).map (fun i => (va / 65536 + i) * 65536)

/-- What a job's translation of a VA waits for, or its fault when the main line has lost it (R24, R26). -/
def State.jobWalk (s : State) (id : Nat) (j : Job) (va : Nat) : Option ERead :=
  match s.engineStops j.eng (jobOwner id) j.slot va with
  | none => none
  | some a => some (if s.walkLost (jobOwner id) j.slot va then .fault fMLTIMEOUT else .far a 0)
/-- The walks that a job needs for a list of addresses. -/
def State.walksFor (s : State) (id : Nat) (j : Job) (vas : List Nat) : List (Nat × ERead) :=
  (((vas.filter canonical).map (· / 65536)).eraseDups).map (fun n => (n, (s.jobWalk id j (n * 65536)).getD (.ok 0 none)))

/-- An element of global memory, within a granule, read for a job at its home (R281), past the access table of the copy engines (R76; log entry 19), which no FOT region passes (R71); poison goes along. -/
def State.readGlobal (s : State) (id : Nat) (j : Job) (va n : Nat) : ERead :=
  if !canonical va then .fault fADDRRANGE
  else match s.jobWalk id j va with
  | some r => r
  | none => match (s.translateAt j.eng j.slot va .read false).1 with
  | .fault c => .fault c
  | .ok pa =>
    if isStack pa && fotRegion pa then .denied pa
    else match s.refusal j.slot 0 pa true with
    | some c => .fault c
    | none =>
      if isStack pa then
        (if !s.accessOk (dieOf pa) 128 1 pa then .denied pa
         else if s.gaveUp (jobOwner id) pa then .fault fMLTIMEOUT
         else if s.homeWaits pa || s.away (jobOwner id) pa then .far pa n
         else .ok (s.readLe pa n) (if s.poisoned pa then some (pa / 32) else none))
      else match s.farRead (jobOwner id) va pa n with
        | .ok bs => .ok (leNat bs) none
        | .fault c _ => .fault c
        | _ => .far pa n

/-- An element of a task's scratchpad read for a job: a bad word fails it (R85). -/
def State.readPad (s : State) (core task a n : Nat) : ERead :=
  let x := s.scratch core task
  if x.isBad a n then .fault fUCESCALAR else .ok (x.readLe a n) none

/-- The address an engine writes at a VA, with the checks of R281. -/
def State.writeTarget (s : State) (eng : Option Nat) (p kind va : Nat) : Except Nat Nat :=
  if !canonical va then .error fADDRRANGE else
  match (s.translateAt eng p va .write false).1 with
  | .fault c => .error c
  | .ok pa => match s.refusal p kind pa true with
    | some c => .error c
    | none => .ok pa

/-- Where an engine's write would reach an FOT region: it is refused as an access-table failure, which is logged (R46, R71). -/
def State.regionOf (s : State) (eng : Option Nat) (p va : Nat) : Option Nat := match (s.translateAt eng p va .write false).1 with
  | .ok pa => if isStack pa && fotRegion pa then some pa else none
  | .fault _ => none
/-- A job's write fails: one into an FOT region is logged. -/
def State.writeFault (s : State) (id : Nat) (j : Job) (code : Nat) (vas : List Nat) : State :=
  ((vas.findSome? (fun va => if canonical va then s.regionOf j.eng j.slot va else none)).elim s (fun pa => s.logDenied 128 j.yard pa)).jobFault id j code

/-- Records of an engine's writes appended to its log and published (R207, R230): `cntd` is a counted destination's count, `bad` the granules that carry poison, `stc` the job. -/
def State.engineRecs (s : State) (log p task : Nat) (cntd : Option Nat) (stc : Nat) (bad : List Nat) (ps : List Piece) : State :=
  let s := ps.foldl (fun s x => s.setLog log ((s.log log).push
    { pos := 0, slot := p, count := cntd.getD 0, cntd := cntd.isSome, pois := bad.contains x.gran, task := task, mask := x.mask, gran := x.gran, data := x.data, pa := some x.pa, stc := stc } (x.gran * 32))) s
  s.publish log

/-- The dense base of a job. -/
def Job.base (j : Job) : Nat := j.dense.getD (loDB j.desc)

/-- The box elements of 512-byte chunk `c` (R282), and the number of chunks. -/
def Job.chunk (j : Job) (c : Nat) : List Nat :=
  let e := loE j.desc
  (List.range (512 / e)).filterMap (fun i => if 512 / e * c + i < loCount j.desc then some (512 / e * c + i) else none)
def Job.chunkCount (j : Job) : Nat := (loBytes j.desc + 511) / 512

/-- Where element `k` goes (none: dropped), and whether that is the scratchpad. -/
def Job.target (j : Job) (k : Nat) : Option Nat := if loDir j.desc = 0 then some (denseAt j.desc j.base k) else tensorAt j.desc j.origin k
def Job.toPad (j : Job) : Bool := loDir j.desc = 0 && loDK j.desc = 1

/-- Element `k` of a job read at its source; an element out of bounds reads zero. -/
def State.jobRead (s : State) (id : Nat) (j : Job) (k : Nat) : ERead :=
  let e := loE j.desc
  if loDir j.desc = 0 then
    match tensorAt j.desc j.origin k with
    | none => .ok 0 none
    | some a => s.readGlobal id j a e
  else if loDK j.desc = 1 then s.readPad (j.core.getD 0) j.task (denseAt j.desc j.base k) e
  else s.readGlobal id j (denseAt j.desc j.base k) e

/-- The count of a counted destination. -/
def Job.counted (j : Job) : Option Nat := if (if loDir j.desc = 1 then loTK j.desc else loDK j.desc) = 4 then some (le j.desc 0x3B 1) else none

/-- A fault among the elements of a chunk, the refused access behind it, the reads still to be made, the poisoned granules. -/
def firstFault (rs : List (Nat × ERead)) : Option Nat := rs.findSome? (fun r => match r.2 with
  | .fault c => some c
  | .denied _ => some fOWNERSHIP
  | _ => none)
def firstDenied (rs : List (Nat × ERead)) : Option Nat := rs.findSome? (fun r => match r.2 with
  | .denied pa => some pa
  | _ => none)
def farReads (rs : List (Nat × ERead)) : List (Nat × Nat) := rs.filterMap (fun r => match r.2 with
  | .far pa n => some (pa, n)
  | _ => none)
def poisonIn (rs : List (Nat × ERead)) : List Nat := (rs.filterMap (fun r => match r.2 with
  | .ok _ (some g) => some g
  | _ => none)).eraseDups

/-- What a job does with its reads before it uses them: none if all have been made. A fault fails the job; a read through a window is asked for, one to a home on another die is sent on the main line. -/
def State.readsWait (s : State) (id : Nat) (j : Job) (rs : List (Nat × ERead)) : Option State :=
  match firstFault rs with
  | some code => some (((firstDenied rs).elim s (fun pa => s.logDenied 128 j.yard pa)).jobFault id j code)
  | none => if (farReads rs).isEmpty then none else some ((farReads rs).foldl (fun s f => s.askFar (jobOwner id) f.1 f.2) s)

/-- The elements of a chunk written in the scratchpad; every word of the poisoned ones fails its check (R85). -/
def Scratch.fill (x : Scratch) (e : Nat) (ws : List (Nat × Nat × Bool)) : Scratch :=
  let y := ws.foldl (fun x w => x.write w.1 (leBytes e w.2.1)) x
  { y with bad := (y.bad ++ (ws.filter (fun (w : Nat × Nat × Bool) => w.2.2)).flatMap (fun (w : Nat × Nat × Bool) => (List.range ((w.1 + e + 3) / 4 - w.1 / 4)).map (w.1 / 4 + ·))).eraseDups }

/-- The addresses of global memory that a chunk reads and writes. -/
def Job.sources (j : Job) (ks : List Nat) : List Nat :=
  if loDir j.desc = 0 then ks.filterMap (tensorAt j.desc j.origin) else if loDK j.desc = 1 then [] else ks.map (denseAt j.desc j.base)
def Job.targets (j : Job) (ks : List Nat) : List Nat := if j.toPad then [] else ks.filterMap j.target

/-- The elements `ws` of chunk `c` written (R281): in place in the scratchpad, or as records of the engine's log. -/
def State.putChunk (s : State) (id : Nat) (j : Job) (c : Nat) (ws : List (Nat × Nat × Bool)) : State :=
  let e := loE j.desc
  if j.toPad then
    let core := j.core.getD 0
    let s := s.setScratch core j.task ((s.scratch core j.task).fill e ws)
    { s with jobs := Table.put s.jobs id { j with moved := j.moved ++ [(c, 0)] } }
  else
    let ts := ws.map (fun w => (w, s.writeTarget j.eng j.slot (if j.counted.isSome then 4 else 0) w.1))
    match ts.findSome? (fun t => match t.2 with
      | .error x => some x
      | .ok _ => none) with
    | some code => s.writeFault id j code (ws.map Prod.fst)
    | none =>
      let ok := ts.filterMap (fun t => match t.2 with
        | .ok pa => some (({ lane := 0, j := 0, va := some t.1.1, val := t.1.2.1 } : Elem), pa)
        | .error _ => none)
      let bad := (ws.filter (fun w => w.2.2)).map (fun w => w.1 / 32)
      let log := copyLog j.yard
      let s := s.engineRecs log j.slot j.task j.counted (id + 1) bad (piecesOf e ok)
      { s with jobs := Table.put s.jobs id { j with moved := j.moved ++ [(c, (s.log log).tail)] } }

/-- The bytes of a chunk moved (R281): read at their sources and written. -/
def State.moveChunk (s : State) (id : Nat) (j : Job) (c : Nat) : State :=
  let ks := j.chunk c
  let s := (s.cachePages j.eng (jobOwner id) j.slot .read (j.sources ks)).cachePages j.eng (jobOwner id) j.slot .write (j.targets ks)
  let rs := ks.map (fun k => (k, s.jobRead id j k))
  match s.readsWait id j (rs ++ s.walksFor id j (j.targets ks)) with
  | some s => s
  | none =>
    let s := s.dropTrips (jobOwner id)
    let ws := rs.filterMap (fun r => match r.2, j.target r.1 with
      | .ok v g, some a => some (a, v, g.isSome)
      | _, _ => none)
    let oob := loDir j.desc = 0 && ks.any (fun k => (tensorAt j.desc j.origin k).isNone)
    s.putChunk id { j with poisoned := (j.poisoned ++ poisonIn rs).eraseDups, oobz := j.oobz || oob } c ws

/-- Whether some footprint of a job lies, in some page, in a link or host window, so that it completes at .sys (R106). -/
def State.jobFar (s : State) (j : Job) : Bool :=
  j.feet.any (fun f => decide (f.2.2.1 = 0) && (List.range ((f.2.1 + 65535) / 65536 - f.1 / 65536)).any (fun i =>
    match (s.translateAt j.eng j.slot ((f.1 / 65536 + i) * 65536) .read false).1 with
    | .ok pa => !isStack pa
    | .fault _ => false))

/-- Whether what a job has written for a chunk or rank has folded. -/
def State.chunkFolded (s : State) (j : Job) (c : Nat) : Bool :=
  match j.moved.find? (fun m => decide (m.1 = c)) with
  | some m => (s.log (copyLog j.yard)).acquirable m.2 (s.jobFar j)
  | none => false

/-- A chunk complete (R230, R282): the issuing core's lines of the job's destination are invalidated, then its bit is set. -/
def State.chunkDone (s : State) (id : Nat) (j : Job) (c : Nat) : State :=
  let s := { s with jobs := Table.put s.jobs id { j with done := j.done ++ [c] } }
  match j.core with
  | none => s
  | some core =>
    let s := s.dropFeet j
    if j.step.isSome then s
    else
      let x := s.scratch core j.task
      s.setScratch core j.task (x.write (j.pad + c / 8) [x.read (j.pad + c / 8) ||| BitVec.ofNat 8 (2 ^ (c % 8))])

/-! ### TCP (R435) -/

/-- The lowest lane of a mask. -/
def lowLane (m : W32) : Nat := ((lanesOf m).head?).getD 0

/-- The address of TCP's layout record, and the record as it reads it. -/
def tcpVa (x : LCtx) (o : LR) : Nat := (x.src64 o.b.toNat 0 7 0).toNat
def tcpRead (s : State) (x : LCtx) (o : LR) : DRead :=
  if tcpVa x o % 64 = 0 then s.deviceRead (portionOwner x.c.core x.c.slot x.c.p) (x.c.pslot s) (tcpVa x o) 64 else .fault fADDRRANGE (tcpVa x o)

/-- The record, once it has been read. -/
def tcpRec (s : State) (x : LCtx) (o : LR) : Option (List Byte) := match tcpRead s x o with
  | .ok bs => if x.act = 0 then none else some bs
  | _ => none

/-- Coordinates of TCP's box in the elected lane, and its bitmap's offset. -/
def tcpOrigin (x : LCtx) (o : LR) (bs : List Byte) : List Int :=
  (List.range (loD bs)).map (fun d => (x.c.t.getV (o.a.toNat + d) (lowLane x.act)).toInt)
def tcpPad (x : LCtx) (o : LR) : Nat := (x.src32 o.c.toNat o.imm (lowLane x.act)).toNat

/-- The au a copy reserves (Table 7-3). -/
def copyCost (bytes : Nat) : Nat := 2 + (bytes + 31) / 32

/-- Whether a RESIZE of a task runs on a core (R424). -/
def State.resizes (s : State) (core task : Nat) : Bool :=
  (s.core core).resizing.any (fun k => ((Table.find s.trains (k / 4)).map (fun t => decide (t.task = task))).getD false)

/-- The wait of TCP before it issues (R424, R435): for a RESIZE of its task, or while its core's tasks have 64 incomplete jobs. -/
def tcpStall (s : State) (x : LCtx) (o : LR) : Stall :=
  if x.act = 0 then .no
  else if s.resizes x.c.core x.c.t.task ||
      decide (64 ≤ (s.jobs.filter (fun e => decide (e.2.core = some x.c.core) && e.2.step.isNone)).length) then .waits
  else (tcpRead s x o).stall (portionOwner x.c.core x.c.slot x.c.p)

def tcpReq (s : State) (o : LR) (x : LCtx) : LReq :=
  let d := (tcpRec s x o).map loD
  { op := 0x3C0, boundary := true, memory := true, stall := tcpStall s x o
    cost := if x.act = 0 then 1 else 0
    extra := ((tcpRec s x o).map (fun bs => copyCost (loBytes bs))).getD 0
    reads := (List.range (d.getD 1)).map (o.a.toNat + ·) ++ selRegs o.c.toNat false
    sregs := selScalars o.b.toNat ++ selScalars o.c.toNat }

/-- The faults of TCP in its elected lane, before it is charged (R435). -/
def tcpPre (s : State) (o : LR) (x : LCtx) : List LaneFault :=
  let e := lowLane x.act
  if x.act = 0 then []
  else match tcpRead s x o with
    | .fault c va => [{ lane := e, code := c, va := va }]
    | .poison va => [{ lane := e, code := fUCESCALAR, va := va }]
    | .far _ _ => []
    | .ok bs =>
      let size := (s.scratch x.c.core x.c.t.task).size
      let pad := tcpPad x o
      let dense := ((spanOf (loE bs) ((List.range (loCount bs)).map (denseAt bs (loDB bs)))).map Prod.snd).getD 0
      if !s.slotBit (x.c.pslot s) 0x80 (x.c.core / 8) then [{ lane := e, code := fOWNERSHIP, va := 0 }]
      else if pad % 8 ≠ 0 ∨ size < pad + ((loBytes bs + 511) / 512 + 7) / 8 then [{ lane := e, code := fADDRRANGE, va := pad }]
      else if loDK bs = 1 ∧ size < dense then [{ lane := e, code := fADDRRANGE, va := loDB bs }]
      else []

/-- The bitmap's bits of a copy cleared (R282). -/
def Scratch.clearBits (x : Scratch) (a n : Nat) : Scratch :=
  (List.range ((n + 7) / 8)).foldl (fun x i => x.write (a + i) [x.read (a + i) &&& BitVec.ofNat 8 (0xFF - (2 ^ min 8 (n - 8 * i) - 1))]) x

/-- The job a TCP queues, and R230's publication. -/
def State.tcpQueue (s : State) (x : LCtx) (o : LR) (bs : List Byte) : State :=
  let t := x.c.t
  let p := x.c.pslot s
  let s := (s.reserve t.task (copyCost (loBytes bs))).dropFar (portionOwner x.c.core x.c.slot x.c.p)
  let s := s.setScratch x.c.core t.task ((s.scratch x.c.core t.task).clearBits (tcpPad x o) ((loBytes bs + 511) / 512))
  let feet := copyFeet bs (tcpOrigin x o bs) (loDB bs) x.c.core
  let w := s.publishSource x.c.core p feet
  let s := w.2.modTask t.task (fun k => { k with outstanding := k.outstanding + 1 })
  let j : Job :=
    { coll := false, yard := x.c.core / 8, slot := p, task := t.task, core := some x.c.core, trainSlot := x.c.slot, trainIndex := t.index, desc := bs
      origin := tcpOrigin x o bs, pad := tcpPad x o, bytes := loBytes bs, cost := copyCost (loBytes bs), feet := feet, waits := w.1 }
  { s with jobs := Table.put s.jobs s.nextId j, nextId := s.nextId + 1 }

/-- TCP (R435). -/
def execTcp (o : LR) (s : State) : Out :=
  s.laneTry (tcpReq s o)
    (fun x => !(Instr.tcp o).wf || match tcpRec s x o with
      | some bs => !layoutOk bs
      | none => false)
    (tcpPre s o)
    (fun x s' => match tcpRec s x o with
      | some bs => s'.tcpQueue x o bs
      | none => s')

/-! ### CONT (R283, R436) -/

/-- CONT (R436). -/
def execCont (d a b e : BitVec 6) (s : State) : Out :=
  s.scalarGo (fun _ => { op := 0x30, cost := 2, sregs := [d.toNat, a.toNat, b.toNat, e.toNat], swrites := [d.toNat], clauses := true, boundary := true }) never
    (fun c =>
      if !s.padOk c (c.t.getS a.toNat) 8 then some (fADDRRANGE, (c.t.getS a.toNat).toNat)
      else badTarget (c.t.getS e.toNat))
    (fun c s =>
      let k := s.core c.core
      if 64 ≤ k.conts.length then s.putS d 1
      else
        let x : Cont := { task := c.t.task, off := (c.t.getS a.toNat).toNat, mask := c.t.getS b.toNat, entry := c.t.getS e.toNat, arg := c.t.getS d.toNat
                          index := c.t.index, b := c.t.b }
        let s := s.setCore c.core { k with conts := k.conts ++ [x] }
        (s.modTask c.t.task (fun k => { k with outstanding := k.outstanding + 1 })).putS d 0)

/-- Every continuation of a core looks at its bitmap word (R283). -/
def State.pokeConts (s : State) : State :=
  { s with cores := s.cores.map (fun (e : Nat × Core) =>
      (e.1, { e.2 with conts := e.2.conts.map (fun x =>
        let w := BitVec.ofNat 64 ((s.scratch e.1 x.task).readLe x.off 8)
        if w &&& x.mask = x.mask then { x with ready := true } else x) })) }

/-! ### WQRY (R285, R439) -/

/-- The address of a grid descriptor: translated at issue, in stack memory (R285). -/
def State.gridAt (s : State) (c : Cur) (va : Nat) : Except Nat Nat :=
  match (s.translate c.core (c.pslot s) va .write false).1 with
  | .fault e => .error e
  | .ok pa =>
    if !isStack pa then .error fADDRRANGE
    else match s.refusal (c.pslot s) 0 pa true with
      | some e => .error e
      | none => .ok pa

/-- Where the walk for a WQRY's descriptor stops (R24), once its operand is good. -/
def State.wqryStops (s : State) (c : Cur) (va : Nat) : Option Nat :=
  if va % 32 ≠ 0 || s.walkLost (portionOwner c.core c.slot c.p) (c.pslot s) va then none else s.coreStops c.core (portionOwner c.core c.slot c.p) (c.pslot s) va

def wqryReq (s : State) (a b : BitVec 6) (c : Cur) : SReq :=
  { op := 0x36, cost := 2, sregs := [a.toNat, b.toNat], clauses := true, boundary := true
    stall := match s.wqryStops c (c.t.getS a.toNat).toNat with
      | some x => .far (portionOwner c.core c.slot c.p) x 0
      | none => .no }

/-- The query of a WQRY sent, and its flag set (R285). -/
def State.sendQuery (s : State) (c : Cur) (va pa off f : Nat) : State :=
  let id := s.nextId
  let s := { s with
    nextId := id + 1
    queries := Table.put s.queries id { core := c.core, slot := c.slot, task := c.t.task, gen := ((s.task c.t.task).map Task.gen).getD 0, part := c.pslot s, flag := f, va := va, pa := pa, off := off, began := s.time } }
  s.modCur (fun t => { t with wqry := t.wqry ++ [(f, id)] })

/-- WQRY (R439): an access fault of its own, or the query. -/
def execWqry (a b : BitVec 6) (f : BitVec 4) (s : State) : Out :=
  s.scalarGo (wqryReq s a b) (fun _ => !(Instr.wqry a b f).wf)
    (fun c =>
      let va := (c.t.getS a.toNat).toNat
      if va % 32 ≠ 0 || !canonical va then some (fADDRRANGE, va)
      else if !s.padOk c (c.t.getS b.toNat) 8 then some (fADDRRANGE, (c.t.getS b.toNat).toNat) else none)
    (fun c s' =>
      let va := (c.t.getS a.toNat).toNat
      if !s.slotBit (c.pslot s) 0xA0 (c.core / 192) then s'.accessFault c fOWNERSHIP 0
      else if s.coreStops c.core (portionOwner c.core c.slot c.p) (c.pslot s) va ≠ none then s'.accessFault c fMLTIMEOUT va
      else match s'.gridAt c va with
        | .error e => s'.accessFault c e va
        | .ok pa => s'.sendQuery c va pa (c.t.getS b.toNat).toNat f.toNat)

/-- The two words a query answers (R285). -/
def gridWords (bs : List Byte) (i : Nat) : Nat × Nat :=
  let x := le bs 4 2
  let y := le bs 6 2
  let n := x * y * le bs 8 1
  if i < n then
    let ix := if le bs 9 1 = 0 then i % x else i / y % x
    let iy := if le bs 9 1 = 0 then i / x % y else i % y
    (ix + iy * 2 ^ 12 + i / (x * y) * 2 ^ 24, i)
  else (0xFFFFFFFF, i)

/-- A well-formed grid descriptor (R284). -/
def gridOk (bs : List Byte) : Bool :=
  decide (1 ≤ le bs 4 2) && decide (le bs 4 2 ≤ 4096) && decide (1 ≤ le bs 6 2) && decide (le bs 6 2 ≤ 4096) && decide (1 ≤ le bs 8 1) && decide (le bs 9 1 ≤ 1) &&
    le bs 0xA 22 = 0

/-- A query leaves the distributor, and its flag is clear. -/
def State.dropQuery (s : State) (id : Nat) : State :=
  let clear := fun (e : Nat × Train) => (e.1, { e.2 with wqry := e.2.wqry.filter (fun x => decide (x.2 ≠ id)) })
  { s with queries := Table.drop s.queries id, trains := s.trains.map clear, saved := s.saved.map clear }

/-- Whether the task that sent a query is still there to take its answer: one that unwinds discards it (R128 step 3). -/
def State.queryTaken (s : State) (q : Query) : Bool := (s.task q.task).any (fun k => decide (k.gen = q.gen) && k.held && decide (k.state ≠ .unwinding) && decide (k.state ≠ .done))

/-- The answer of a query written, its flag cleared (R285). -/
def State.answerQuery (s : State) (id : Nat) (q : Query) (w : Nat × Nat) : State :=
  (if s.queryTaken q then s.padWrite q.core q.task q.off (leBytes 4 w.1 ++ leBytes 4 w.2) else s).dropQuery id

/-- A query that fails after its issue (R26, R72, R205): its flag is clear, and its task unwinds with the code, as its train's fault has it (Table 9-4). -/
def State.failQuery (s : State) (id : Nat) (q : Query) (code : Nat) : State :=
  let s := (s.dropQuery id).countFaults q.part q.core [{ lane := 0, code := code, va := q.va }]
  if s.queryTaken q then s.unwind q.task 4 code else s

/-- A query performed by its distributor (R223, R285, R466), past the owner check of its atomic (R72): it waits while the core's log holds records of the granule. -/
def State.serveQuery (s : State) (id : Nat) (q : Query) : State :=
  let p := q.part
  let s := if (s.log q.core).unpublishedIn p (q.va / 32) (q.va / 32) then s.publish q.core else s
  if (s.log q.core).holds p (q.va / 32) then s
  else match s.homeRefuses p q.pa with
  | some c => s.failQuery id q c
  | none =>
  if s.poisoned q.pa then
    (s.answerQuery id q (0xFFFFFFFF, 0xFFFFFFFF)).event (some p) 2 6 0xFFFF (homeOf q.pa) (q.pa / 32 * 32) 0
  else
    let s := s.clearCount q.pa
    let bs := s.readBytes q.pa 32
    if !gridOk bs then s.answerQuery id q (0xFFFFFFFF, 0xFFFFFFFF)
    else
      let i := le bs 0 4
      let s := s.atomicWrite q.core q.pa (leBytes 4 (min 0xFFFFFFFF (i + 1)))
      let s := s.invalidate q.core (fun key => decide (keySlot key = p) && decide (keyVa key / 256 = q.va / 256))
      s.answerQuery id q (gridWords bs i)

/-! ### COLL (R286, R287, R440) -/

/-- The fields of a collective descriptor: members, own rank, bytes contributed, the addresses. -/
def coN (bs : List Byte) : Nat := le bs 4 2
def coRank (bs : List Byte) : Nat := le bs 6 2
def coBytes (bs : List Byte) : Nat := le bs 0x28 4
def coSrc (bs : List Byte) : Nat := le bs 0x10 8
def coLand (bs : List Byte) : Nat := le bs 0x18 8
def coResult (bs : List Byte) : Nat := le bs 0x20 8

/-- A well-formed collective descriptor (Table 15-8). -/
def collOk (bs : List Byte) : Bool :=
  decide (1 ≤ le bs 0 1) && decide (le bs 0 1 ≤ 4) && (le bs 1 1 = 4 || le bs 1 1 = 9 || le bs 1 1 = 10 || le bs 1 1 = 11) && decide (le bs 2 1 ≤ 2) && le bs 3 1 = 0 &&
    decide (2 ≤ coN bs) && decide (coN bs ≤ 1024) && decide (coRank bs < coN bs) && canonical (le bs 8 8) && canonical (coSrc bs) && canonical (coLand bs) &&
    canonical (coResult bs) && decide (coBytes bs % 512 = 0) && le bs 0x2E 2 = 0 && le bs 0x38 8 = 0

/-- Bytes of a member's result: the whole vector, every contribution, or its own segment (log entry 17). -/
def coResultBytes (bs : List Byte) : Nat :=
  if le bs 0 1 = 2 then coN bs * coBytes bs else if le bs 0 1 = 3 then coBytes bs / coN bs / 8 * 8 else coBytes bs

/-- The footprints of a collective job (R440). -/
def collFeet (bs : List Byte) : List (Nat × Nat × Nat × Bool) :=
  [(coSrc bs, coSrc bs + coBytes bs, 0, false), (coLand bs, coLand bs + 128 + coN bs * coBytes bs, 0, true), (coResult bs, coResult bs + coResultBytes bs, 0, true)]

/-- The descriptor of a COLL, once read; none for an operand fault. -/
def State.collRead (s : State) (c : Cur) (a : BitVec 6) : Option DRead :=
  let x := (c.t.getS a.toNat).toNat
  if x % 64 = 0 && canonical x then some (s.deviceRead (portionOwner c.core c.slot c.p) (c.pslot s) x 64) else none

/-- COLL's own fault before its reservation: an engine outside CPENG (R66). -/
def State.collOwn (s : State) (c : Cur) : Bool := s.slotBit (c.pslot s) 0x80 (c.core / 8)

def collReq (s : State) (a b : BitVec 6) (c : Cur) : SReq :=
  { op := 0x37, cost := 0, sregs := [a.toNat, b.toNat], clauses := true, boundary := true
    extra := match s.collRead c a with
      | some (.ok bs) => if s.collOwn c then copyCost (coBytes bs) else 0
      | _ => 0
    stall := match s.collRead c a with
      | some r => r.stall (portionOwner c.core c.slot c.p)
      | none => .no }

/-- The job a COLL submits (R230, R440). -/
def State.collQueue (s : State) (c : Cur) (b : BitVec 6) (bs : List Byte) : State :=
  let p := c.pslot s
  let off := (c.t.getS b.toNat).toNat
  let s := (s.reserve c.t.task (copyCost (coBytes bs))).dropFar (portionOwner c.core c.slot c.p)
  let s := s.setScratch c.core c.t.task ((s.scratch c.core c.t.task).write off (leBytes 8 0))
  let w := s.publishSource c.core p (collFeet bs)
  let s := w.2.modTask c.t.task (fun k => { k with outstanding := k.outstanding + 1 })
  let j : Job := { coll := true, yard := c.core / 8, slot := p, task := c.t.task, core := some c.core, trainSlot := c.slot, trainIndex := c.t.index, desc := bs, pad := off
                   bytes := coBytes bs, cost := copyCost (coBytes bs), feet := collFeet bs, waits := w.1 }
  { s with jobs := Table.put s.jobs s.nextId j, nextId := s.nextId + 1 }

/-- COLL (R440). -/
def execColl (a b : BitVec 6) (s : State) : Out :=
  s.scalarGo (collReq s a b)
    (fun c => match s.collRead c a with
      | some (.ok bs) => !collOk bs
      | _ => false)
    (fun c =>
      if !s.padOk c (c.t.getS b.toNat) 8 then some (fADDRRANGE, (c.t.getS b.toNat).toNat)
      else match s.collRead c a with
        | none => some (fADDRRANGE, (c.t.getS a.toNat).toNat)
        | some (.ok _) => if s.collOwn c then none else some (fOWNERSHIP, 0)
        | some r => r.trouble)
    (fun c s' => match s.collRead c a with
      | some (.ok bs) => s'.collQueue c b bs
      | _ => s')

/-- The pieces of a range that lie in one granule each: the first address and the length. -/
def granPieces (va n : Nat) : List (Nat × Nat) := (List.range ((va + n + 31) / 32 - va / 32)).map (fun i =>
  let lo := max va ((va / 32 + i) * 32)
  (lo, min (va + n) ((va / 32 + i) * 32 + 32) - lo))

/-- Bytes of global memory that a job reads at their homes, granule by granule: each length with the bytes, a fault, or a read to be made first. -/
def State.jobBytes (s : State) (id : Nat) (j : Job) (va n : Nat) : List (Nat × ERead) := (granPieces va n).map (fun x => (x.2, s.readGlobal id j x.1 x.2))
def bytesOf (rs : List (Nat × ERead)) : List Byte := rs.flatMap (fun r => match r.2 with
  | .ok v _ => leBytes r.1 v
  | _ => [])
/-- Whether each of those bytes was read poisoned. -/
def spoiledOf (rs : List (Nat × ERead)) : List Bool := rs.flatMap (fun r => match r.2 with
  | .ok _ g => List.replicate r.1 g.isSome
  | _ => [])

/-- Bytes a collective job writes, as records of its engine's log (R207), poisoned where `bad` says so: `mark` is the rank, or N for the result. -/
def State.collWrite (s : State) (id : Nat) (j : Job) (va mark : Nat) (bs : List Byte) (bad : List Bool) : State :=
  let s := s.cachePages j.eng (jobOwner id) j.slot .write (pagesOf va bs.length)
  let ts := bs.zipIdx.map (fun b => (b, s.writeTarget j.eng j.slot 0 (va + b.2)))
  match ts.findSome? (fun t => match t.2 with
    | .error x => some x
    | .ok _ => none) with
  | some code => s.writeFault id j code (pagesOf va bs.length)
  | none =>
    let ok := ts.filterMap (fun t => match t.2 with
      | .ok pa => some (({ lane := 0, j := 0, va := some (va + t.1.2), val := t.1.1.toNat } : Elem), pa)
      | .error _ => none)
    let spoiled := ((bad.zipIdx.filter Prod.fst).map (fun b => (va + b.2) / 32)).eraseDups
    let s := s.engineRecs (copyLog j.yard) j.slot j.task none (id + 1) spoiled (piecesOf 1 ok)
    { s with jobs := Table.put s.jobs id { j with moved := j.moved.filter (fun m => decide (m.1 ≠ mark)) ++ [(mark, (s.log (copyLog j.yard)).tail)] } }

/-- Whether a collective job's own contribution has been sent. -/
def Job.sentOwn (j : Job) : Bool := j.moved.any (fun m => decide (m.1 = coRank j.desc))

/-- The ACTIVE Ultra Ethernet groups of a job's group mask (R43). -/
def State.etherGroups (s : State) (j : Job) : List Nat := (setBitsOf (le j.desc 0x2C 2) 16).filter (fun g => decide (s.groupState g = 1) && decide (s.groupPers g = 3))

/-- The contribution of a collective job to a rank of the same package put on the main line, to the copy engine `y` (R286). -/
def State.sendNear (s : State) (id : Nat) (j : Job) (y r : Nat) (bs : List Byte) (pois : Bool) : State :=
  { s with
    nextId := s.nextId + 1
    contribs := Table.put s.contribs s.nextId
      { job := id, src := copyLog j.yard, yard := y, rank := coRank j.desc, member := r, data := bs, pois := pois, sent := s.time, msg := s.nextId, deliv := arrived false (agentDie (copyLog j.yard)) (engineKey y) } }
/-- The contribution to a rank of another package sent through an Ultra Ethernet group; the message waits for its acknowledgement (R43). -/
def State.sendEther (s : State) (id : Nat) (j : Job) (g entry : Nat) (bs : List Byte) (pois : Bool) : State :=
  { s with
    sent := s.sent ++ [Sent.contribution (le j.desc 0x2C 2) entry (coRank j.desc) bs pois]
    nextId := s.nextId + 1
    outbound := Table.put s.outbound s.nextId { group := some g, pa := 0, len := coBytes j.desc, write := true, reply := .contribution id, sent := s.time } }

/-- A collective job's own contribution sent to every other member (R286): over the main line to a rank of the same package, else through the ACTIVE Ultra Ethernet groups of its mask; with none those messages wait, until the job's deadline (R43). Which ACTIVE group carries a message when several are the manual leaves open: the model takes the lowest-numbered one (log entry 74). A poisoned endpoint table fails the job, as a record's read does. -/
def State.collSend (s : State) (id : Nat) (j : Job) : State :=
  let n := coN j.desc
  let table := le j.desc 8 8
  let s := s.cachePages j.eng (jobOwner id) j.slot .read (pagesOf (coSrc j.desc) (coBytes j.desc) ++ pagesOf table (8 * n))
  let rs := s.jobBytes id j (coSrc j.desc) (coBytes j.desc)
  let es := s.jobBytes id j table (8 * n)
  match s.readsWait id j (rs ++ es) with
  | some s => s
  | none =>
    if (spoiledOf es).any (fun b => b) then s.jobFault id j fUCESCALAR
    else
      let s := s.dropTrips (jobOwner id)
      let entry := fun (r : Nat) => le (bytesOf es) (8 * r) 8
      let due := (List.range n).filter (fun r => decide (r ≠ coRank j.desc) && !j.sentTo.contains r)
      let near := (List.range n).filter (fun r => (Config.localRank (entry r)).isSome)
      let go := due.filter (fun r => near.contains r || !(s.etherGroups j).isEmpty)
      let pois := (spoiledOf rs).any (fun b => b)
      let s := go.foldl (fun s r => match Config.localRank (entry r) with
        | some y => s.sendNear id j y.val r (bytesOf rs) pois
        | none => s.sendEther id j ((s.etherGroups j).headD 0) (entry r) (bytesOf rs) pois) s
      { s with jobs := Table.put s.jobs id { j with near := some near, sentTo := j.sentTo ++ go, moved := if go = due then j.moved ++ [(coRank j.desc, 0)] else j.moved } }

/-- The ranks whose bit a result needs (R286). -/
def coNeeds (bs : List Byte) : List Nat := (List.range (coN bs)).filter (fun r => decide (r ≠ coRank bs) && (decide (le bs 0 1 ≠ 4) || decide (r = 0)))

/-- One step of a reduction (R286): sum, maximum or minimum of two elements of a type. -/
def coCombine (typ op a b : Nat) : Nat :=
  if typ = 4 then
    (if op = 0 then (a + b) % 2 ^ 32 else if op = 1 then (if toSigned 32 a < toSigned 32 b then b else a) else if toSigned 32 a < toSigned 32 b then a else b)
  else
    let f := fmtOfTyp typ
    if op = 0 then (f.add 0 false (f.decode a) (f.decode b)).1 else (f.minmax (op = 1) a b).1

/-- Contributions combined element by element in ascending rank order (R286). -/
def coReduce (typ op : Nat) (cs : List (List Byte)) : List Byte :=
  let w := typWidth typ / 8
  match cs with
  | [] => []
  | c :: rest => (List.range (c.length / w)).flatMap (fun i =>
      leBytes w (rest.foldl (fun v d => coCombine typ op v (le d (w * i) w)) (le c (w * i) w)))

/-- The result of a collective job from its contributions in rank order (R286). -/
def coValue (bs : List Byte) (cs : List (List Byte)) : List Byte :=
  if le bs 0 1 = 2 then cs.flatten
  else if le bs 0 1 = 4 then (cs.head?).getD []
  else
    let v := coReduce (le bs 1 1) (le bs 2 1) cs
    if le bs 0 1 = 1 then v else (v.drop (coResultBytes bs * coRank bs)).take (coResultBytes bs)

/-- Which bytes of the result come from poisoned ones: those of a contribution copied, or of any of the contributions combined (R80). -/
def coSpoiled (bs : List Byte) (ps : List (List Bool)) : List Bool :=
  if le bs 0 1 = 2 then ps.flatten
  else if le bs 0 1 = 4 then (ps.head?).getD []
  else
    let v := (List.range ((ps.head?).getD []).length).map (fun i => ps.any (fun p => (p[i]?).getD false))
    if le bs 0 1 = 1 then v else (v.drop (coResultBytes bs * coRank bs)).take (coResultBytes bs)

/-- The result of a collective job computed and written, once every bit it needs is set (R286). -/
def State.collResult (s : State) (id : Nat) (j : Job) : State :=
  let c := coBytes j.desc
  let at_ := fun (r : Nat) => if r = coRank j.desc then coSrc j.desc else coLand j.desc + 128 + r * c
  let s := (s.cachePages j.eng (jobOwner id) j.slot .read ((List.range (coN j.desc)).flatMap (fun r => pagesOf (at_ r) c))).cachePages j.eng (jobOwner id) j.slot .write (pagesOf (coResult j.desc) (coResultBytes j.desc))
  let rs := (List.range (coN j.desc)).map (fun r => s.jobBytes id j (at_ r) c)
  match s.readsWait id j (rs.flatten ++ s.walksFor id j (pagesOf (coResult j.desc) (coResultBytes j.desc))) with
  | some s => s
  | none => (s.dropTrips (jobOwner id)).collWrite id j (coResult j.desc) (coN j.desc) (coValue j.desc (rs.map bytesOf)) (coSpoiled j.desc (rs.map spoiledOf))

/-- A contribution placed in its slot (R286), poisoned if it came so; its bit follows once it has folded. -/
def State.collPlace (s : State) (id : Nat) (j : Job) (rank : Nat) (bs : List Byte) (pois : Bool) : State :=
  if j.moved.any (fun m => decide (m.1 = rank)) then
    if s.chunkFolded j rank && !j.done.contains rank then
      let a := coLand j.desc + rank / 8
      let s := s.cachePages j.eng (jobOwner id) j.slot .read [a]
      let r := s.readGlobal id j a 1
      match s.readsWait id j [(0, r)] with
      | some s => s
      | none =>
        let s := s.dropTrips (jobOwner id)
        let j := { j with done := j.done ++ [rank] }
        let old := match r with
          | .ok v _ => v
          | _ => 0
        let bits := j.done.foldl (fun v r => if r / 8 = rank / 8 then v ||| 2 ^ (r % 8) else v) old
        s.collWrite id j a rank [BitVec.ofNat 8 bits] []
    else s
  else if bs.length = coBytes j.desc then
    let a := coLand j.desc + 128 + rank * coBytes j.desc
    let s := s.cachePages j.eng (jobOwner id) j.slot .write (pagesOf a bs.length)
    match s.readsWait id j (s.walksFor id j (pagesOf a bs.length)) with
    | some s => s
    | none => (s.dropTrips (jobOwner id)).collWrite id j a rank bs (List.replicate bs.length pois)
  else s

end Sys2Proof.Machine
end

