-- ==== Sys2Proof/Machine/Sx.lean ====
section
/-! DEFINITION. Shared-exponent blocks (R259-R261): their packing, the values of their elements, quantisation. -/

namespace Sys2Proof.Machine

/-- k of a format code of Table 14-6; 0 for the formats that are not blocks. -/
def sxK (code : Nat) : Nat := if code = 4 then 2 else if code = 5 then 4 else if code = 6 then 7 else 0
/-- Bytes of a block (Table 14-7). -/
def sxBytes (k : Nat) : Nat := 4 * (k + 2)

/-- The sub-shift of element `j`'s quad, its sign, its magnitude. -/
def SxBlock.shift (b : SxBlock) (j : Nat) : Nat := b.sig[j / 4]?.getD 0
def SxBlock.sign (b : SxBlock) (j : Nat) : Bool := (b.els[j]?.getD (false, 0)).1
def SxBlock.mag (b : SxBlock) (j : Nat) : Nat := (b.els[j]?.getD (false, 0)).2

/-- The value of an element (R260) from its E, sub-shift, sign and magnitude. -/
def sxValue (k e sh : Nat) (sg : Bool) (m : Nat) : FVal :=
  if e = 255 then .nan false
  else if e = 0 ∨ m = 0 then .zero sg
  else .fin sg m ((e : Int) - 127 - sh - (k - 1 : Nat))

/-- The value of element `j` of a block (R260). -/
def SxBlock.value (b : SxBlock) (k j : Nat) : FVal := sxValue k b.e (b.shift j) (b.sign j) (b.mag j)

/-- A block as the number of its packed bits (Table 14-7). -/
def SxBlock.pack (b : SxBlock) (k : Nat) : Nat :=
  b.e + (List.range 8).foldl (fun n q => n + b.shift (4 * q) * 2 ^ (8 + 3 * q)) 0 +
    (List.range 32).foldl (fun n j => n + ((if b.sign j then 2 ^ k else 0) + b.mag j) * 2 ^ (32 + j * (k + 1))) 0

/-- The block of packed bits (Table 14-7). -/
def SxBlock.unpack (k n : Nat) : SxBlock :=
  { e := n % 256
    sig := (List.range 8).map (fun q => n / 2 ^ (8 + 3 * q) % 8)
    els := (List.range 32).map (fun j => let x := n / 2 ^ (32 + j * (k + 1)) % 2 ^ (k + 1); (decide (2 ^ k ≤ x), x % 2 ^ k)) }

/-! ### Quantisation (R261) -/

/-- The magnitude of a value. -/
def FVal.abs : FVal → FVal
  | .nan s => .nan s
  | .inf _ => .inf false
  | .zero _ => .zero false
  | .fin _ m e => .fin false m e
def FVal.isInf : FVal → Bool
  | .inf _ => true
  | _ => false

/-- RNE(|x| 2^d), none for an infinity. -/
def rneScaled (x : FVal) (d : Int) : Option Nat := match x with
  | .fin _ m e => some (roundShift 0 false m (-(e + d)) false).1
  | .inf _ => none
  | _ => some 0

/-- Whether Q is within the top magnitude. -/
def fitsTop (top : Nat) : Option Nat → Bool
  | some n => decide (n ≤ top)
  | none => false

/-- The greatest finite magnitude of a list, as a significand and an exponent; a zero is (0, 0). -/
def maxFinite (xs : List FVal) : Nat × Int :=
  xs.foldl (fun b x => match x with
    | .fin _ m e => if b.1 = 0 ∨ (FVal.fin false b.1 b.2).order (.fin false m e) < 0 then (m, e) else b
    | _ => b) (0, 0)

/-- E of the auto mode for a greatest finite magnitude that is not zero. -/
def autoExponent (k : Nat) (a : Nat × Int) : Nat :=
  let e : Int := (blen a.1 : Int) - 1 + a.2
  let e := if 2 ^ k - 1 < ((rneScaled (.fin false a.1 a.2) ((k : Int) - 1 - e)).getD 0) then e + 1 else e
  (max 1 (min 254 (e + 127))).toNat

/-- Q(j, u) of R261 for the exponent E. -/
def quantum (k e u : Nat) (x : FVal) : Option Nat := rneScaled x ((k : Int) - 1 - ((e : Int) - 127) + u)

/-- The sub-shift of a quad. -/
def quadShift (k e : Nat) (xs : List FVal) : Nat :=
  ((List.range 8).reverse.find? (fun u => xs.all (fun x => fitsTop (2 ^ k - 1) (quantum k e u x)))).getD 0

/-- A quantised block: the block, its flags, and which elements overflowed under the zero-and-flag policy. -/
structure Quantised where
  block : SxBlock
  flags : Nat
  lost : List Bool

/-- The elements of a block for the exponent E: sub-shifts, magnitudes, flags (R261). -/
def quantiseAt (k ovp e : Nat) (xs : List FVal) : Quantised :=
  let top := 2 ^ k - 1
  let sig := (List.range 8).map (fun q => quadShift k e ((xs.drop (4 * q)).take 4))
  let js := xs.zipIdx.map (fun y =>
    let q := quantum k e (sig[y.2 / 4]?.getD 0) y.1
    let fit := fitsTop top q
    let m := if fit then q.getD 0 else if ovp = 0 then top else 0
    let sg := if !fit && decide (ovp ≠ 0) then false else y.1.neg
    let drop := !fit && decide (ovp ≠ 0)
    let nx := !drop && !y.1.isInf && decide (y.1.cmp (sxValue k e (sig[y.2 / 4]?.getD 0) sg m) ≠ 0)
    ((sg, m), drop, !fit && decide (ovp = 0), nx))
  { block := { e := e, sig := sig, els := js.map Prod.fst }
    flags := (if js.any (fun j => j.2.2.1) then gSAT else 0) + (if js.any (fun j => j.2.2.2) then gNX else 0)
    lost := js.map (fun j => j.2.1) }

/-- Quantise(x, k, EXPM, OVP, Ex) (R261). -/
def quantise (k expm ovp ex : Nat) (xs : List FVal) : Quantised :=
  if xs.any FVal.isNan then { block := { e := 255, sig := List.replicate 8 0, els := List.replicate 32 (false, 0) }, flags := gNV, lost := [] }
  else if expm = 0 then
    let a := maxFinite xs
    if a.1 = 0 then
      if xs.any FVal.isInf then quantiseAt k ovp 1 xs
      else { block := { e := 0, sig := List.replicate 8 0, els := xs.map (fun x => (x.neg, 0)) }, flags := 0, lost := [] }
    else quantiseAt k ovp (autoExponent k a) xs
  else quantiseAt k ovp (max 1 (min 254 ex)) xs

end Sys2Proof.Machine
end

