-- ==== Sys2Proof/Machine/Matrix.lean ====
section
/-! DEFINITION. Matrix programs (R258, R265-R279, R437, R438, R441): MXFORK, RDV, the image and its checks, ring stages, the commands MLDB to MEND, and the counter-hash generator. -/

namespace Sys2Proof.Machine

/-- The program a pair runs: the first that has not ended, its copy program included (R269). -/
def State.running (s : State) (leader : Nat) : Option MxProg := (s.pairOf leader).progs.find? MxProg.active

/-! ### MXFORK (R437) -/

/-- The header's first 16 bytes, once read; none for an operand fault. -/
def State.headerRead (s : State) (c : Cur) (va : Nat) : Option DRead :=
  if va % 64 = 0 && canonical va then some (s.deviceRead (portionOwner c.core c.slot c.p) (c.pslot s) va 16) else none

/-- What MXFORK finds before it reads: an operand fault, a precise illegality, a fault of the read, a header. -/
def State.forkHeader (s : State) (c : Cur) (a : BitVec 6) : Option (List Byte) := match s.headerRead c (c.t.getS a.toNat).toNat with
  | some (.ok bs) => some bs
  | _ => none

/-- The declared bound of a header. -/
def mxBound (bs : List Byte) : Nat := le bs 8 8

/-- Whether the limits of reduced service exclude a header or FMT (R61). -/
def mxReduced (bs : List Byte) (fmt : W64) : Bool := decide (1 < le bs 2 1) || decide (fmtA fmt ≠ 6) || decide (fmtB fmt ≠ 6) || decide (fmtO fmt ≠ 0)

/-- MXFORK on a follower core, or with AFMT or BFMT 0 (R258, R269). -/
def forkIllegal (c : Cur) : Bool := decide (c.core % 2 = 1) || decide (fmtA c.o.fmt = 0) || decide (fmtB c.o.fmt = 0)

/-- MXFORK's wait: for its header through a window; for a RESIZE of its task (R424) or for its pair (R269), once nothing makes it fault. -/
def forkStall (s : State) (a : BitVec 6) (c : Cur) : Stall :=
  if forkIllegal c then .no
  else match s.headerRead c (c.t.getS a.toNat).toNat with
    | none => .no
    | some (.ok bs) =>
      if (decide (s.level = 1) && mxReduced bs c.o.fmt) || !s.canPay c.t.task (1 + mxBound bs) then .no
      else if s.resizes c.core c.t.task then .waits
      else if (s.running c.core).isSome then .hold (.mxfork a)
      else .no
    | some r => r.stall (portionOwner c.core c.slot c.p)

def forkReq (s : State) (a : BitVec 6) (c : Cur) : SReq :=
  { op := 0x34, sregs := [a.toNat], clauses := true, boundary := true, stall := forkStall s a c
    cost := if forkIllegal c then 1 else match s.headerRead c (c.t.getS a.toNat).toNat with
      | some (.ok _) => 1
      | none => 1
      | _ => 0
    extra := ((s.forkHeader c a).map mxBound).getD 0 }

/-- A program accepted (R437 step 3): its bound reserved, FMT copied. -/
def State.forkAccept (s : State) (c : Cur) (a : BitVec 6) (bs : List Byte) : State :=
  let s := (s.reserve c.t.task (mxBound bs)).dropFar (portionOwner c.core c.slot c.p)
  let s := s.modTask c.t.task (fun k => { k with outstanding := k.outstanding + 1 })
  let m : MxProg := { seq := s.nextId, task := c.t.task, trainSlot := c.slot, trainIndex := c.t.index, va := (c.t.getS a.toNat).toNat, fmt := c.o.fmt, nc := 128 * (le bs 2 1 + 1), bound := mxBound bs }
  let p := s.pairOf c.core
  { s.setPair c.core { p with progs := p.progs ++ [m] } with nextId := s.nextId + 1 }

/-- MXFORK (R437). -/
def execMxfork (a : BitVec 6) (s : State) : Out :=
  s.scalarGo (forkReq s a) forkIllegal
    (fun c => match s.headerRead c (c.t.getS a.toNat).toNat with
      | none => some (fADDRRANGE, (c.t.getS a.toNat).toNat)
      | some (.ok bs) => if s.level = 1 ∧ mxReduced bs c.o.fmt then some (fMXREDUCED, 0) else none
      | some r => r.trouble)
    (fun c s' => match s.forkHeader c a with
      | some bs => s'.forkAccept c a bs
      | none => s')

/-! ### RDV (R278, R438) -/

/-- A collected program's result word (R278). -/
def MxProg.result (m : MxProg) : W64 := BitVec.ofNat 64 (m.status % 256 + m.code % 256 * 2 ^ 8 + m.at_ % 65536 * 2 ^ 16)

/-- The oldest program of a task on a pair, not collected yet. -/
def State.toCollect (s : State) (leader task : Nat) : Option MxProg := (s.pairOf leader).progs.find? (fun m => decide (m.task = task))

/-- A program collected (R121, R266, R438): its unspent bound returns, or is spent if its task unwinds (R128 step 5); its flags go to the train that forked it. -/
def State.collect (s : State) (leader : Nat) (m : MxProg) : State :=
  let p := s.pairOf leader
  let s := s.setPair leader { p with progs := p.progs.filter (fun x => decide (x.seq ≠ m.seq)) }
  let s := if (s.task m.task).any (fun k => decide (k.state = .unwinding)) then s.spendRsv m.task (m.bound - m.used) else s.refund m.task (m.bound - m.used)
  let s := s.modTask m.task (fun k => { k with outstanding := k.outstanding - 1 })
  s.flagTrain leader m.trainSlot m.trainIndex m.task m.xflags

/-- RDV (R438): at once when there is nothing to collect. -/
def execRdv (d : BitVec 6) (s : State) : Out :=
  s.scalarGo (fun _ => { op := 0x35, sregs := [d.toNat], swrites := [d.toNat], clauses := true, boundary := true }) never noFault
    (fun c s' =>
      if c.core % 2 = 1 || (s.toCollect c.core c.t.task).isNone then s'.putS d 0xFFFFFFFF else s'.waitFor (.rdv d.toNat))

/-- RDV's wait. -/
def State.endRdv (s : State) (core slot p d : Nat) (t : Train) : State :=
  match s.toCollect core t.task with
  | none => (s.putReg core slot d 0xFFFFFFFF).endWait core slot p true
  | some m => if m.active then s else ((s.collect core m).putReg core slot d m.result).endWait core slot p true

/-! ### The image (R270, R271, R276) -/

/-- The bytes of entry `i` of a table of an image. -/
def slice (bs : List Byte) (off n : Nat) : List Byte := (bs.drop off).take n
/-- Whether `n` bytes at an offset are zero. -/
def zeros (bs : List Byte) (off n : Nat) : Bool := le bs off n = 0

/-- A ring descriptor's fields (Table 15-2). -/
def rgBase (r : List Byte) : Nat := le r 0 4
def rgBytes (r : List Byte) : Nat := le r 4 4
def rgCtl (r : List Byte) : Nat := le r 8 4
def rgStages (r : List Byte) : Nat := le r 0xC 1
def rgMask (r : List Byte) : Nat := le r 0xE 2

/-- A ring descriptor on its own (R271), in a scratchpad of `size` bytes. -/
def ringOk (size : Nat) (r : List Byte) : Bool :=
  decide (rgBase r % 32 = 0) && decide (rgBytes r % 32 = 0) && decide (32 ≤ rgBytes r) && decide (rgBytes r ≤ 65536) && decide (rgCtl r % 8 = 0) && decide (1 ≤ rgStages r) &&
    decide (rgStages r ≤ 16) && zeros r 0xD 1 && decide (rgMask r ≠ 0) && decide (rgBase r + rgStages r * rgBytes r ≤ size) && decide (rgCtl r + 8 * rgStages r ≤ size)

/-- Whether two byte ranges are apart. -/
def apart (a n b m : Nat) : Bool := decide (a + n ≤ b) || decide (b + m ≤ a)
/-- The data of a ring lies apart from the control pairs of another, or of itself. -/
def dataApart (x y : List Byte) : Bool := apart (rgBase x) (rgStages x * rgBytes x) (rgCtl y) (8 * rgStages y)
/-- Two different rings share no byte. -/
def ringsApart (x y : List Byte) : Bool :=
  dataApart x y && dataApart y x && apart (rgBase x) (rgStages x * rgBytes x) (rgBase y) (rgStages y * rgBytes y) && apart (rgCtl x) (8 * rgStages x) (rgCtl y) (8 * rgStages y)

/-- The rings of an image (R271). -/
def ringsOk (size : Nat) (rs : List (List Byte)) : Bool :=
  rs.all (fun r => ringOk size r && dataApart r r) && rs.zipIdx.all (fun x => rs.zipIdx.all (fun y => decide (y.2 ≤ x.2) || ringsApart x.1 y.1))

/-- A drain descriptor's fields (Table 15-4). -/
def drKind (d : List Byte) : Nat := le d 0 8 / 2 ^ 57 % 8
def drBase (d : List Byte) : Nat := le d 0 8 % 2 ^ 57
def drStride (d : List Byte) : Int := toSigned 32 (le d 8 4)
def drRes (d : List Byte) : Option Nat := if le d 0x10 1 = 0xFF then none else some (le d 0x10 1)
def drainOk (d : List Byte) : Bool := decide (le d 0 8 < 2 ^ 60) && decide (drKind d ≤ 1) && (le d 0x10 1 = 0xFF || decide (le d 0x10 1 ≤ 3)) && decide (le d 0x11 1 ≤ 1)

/-- A footprint (Table 6-6) as this model keeps it. -/
def footOf (f : List Byte) : List (Nat × Nat × Nat × Bool) :=
  let sp := if le f 0xE 1 / 4 % 2 = 1 then le f 0xC 2 + 1 else 0
  (if le f 0xE 1 % 2 = 1 then [(le f 0 8, le f 0 8 + le f 8 4, sp, false)] else []) ++ (if le f 0xE 1 / 2 % 2 = 1 then [(le f 0 8, le f 0 8 + le f 8 4, sp, true)] else [])
/-- A footprint entry that Table 6-6 allows; a scratchpad's COREID must be the leader's (R270). -/
def footOk (leader : Option Nat) (f : List Byte) : Bool :=
  canonical (le f 0 8) && decide (1 ≤ le f 8 4) && decide (le f 0xE 1 < 8) && zeros f 0xF 1 &&
    (le f 0xE 1 / 4 % 2 = 0 || match leader with
      | some c => decide (le f 0xC 2 = c)
      | none => decide (le f 0xC 2 < 1536))

/-- The used slots of a table of an image, and whether the unused ones are zero. -/
def tableOf (bs : List Byte) (off size n : Nat) : List (List Byte) := (List.range n).map (fun i => slice bs (off + size * i) size)
def unusedZero (bs : List Byte) (off size n total : Nat) : Bool := zeros bs (off + size * n) (size * (total - n))

/-- The fixed part of an image (Table 15-1). -/
def imageOk (bs : List Byte) (leader size : Nat) : Bool :=
  decide (1 ≤ le bs 0 2) && decide (le bs 0 2 ≤ 4096) && decide (le bs 2 1 ≤ 3) && decide (le bs 3 1 ≤ 4) && decide (le bs 4 1 ≤ 4) && decide (le bs 5 1 ≤ 4) && decide (le bs 6 1 ≤ 16) &&
    zeros bs 7 1 && (le bs 6 1 = 0 || decide (le bs 0x10 8 ≠ 0)) && zeros bs 0x18 40 &&
    unusedZero bs 0x40 16 (le bs 3 1) 4 && unusedZero bs 0x80 32 (le bs 4 1) 4 && unusedZero bs 0x100 16 (le bs 5 1) 4 &&
    ringsOk size (tableOf bs 0x40 16 (le bs 3 1)) && (tableOf bs 0x80 32 (le bs 4 1)).all drainOk && (tableOf bs 0x100 16 (le bs 5 1)).all (footOk (some leader))

/-- The program with its image (R270). -/
def MxProg.withImage (m : MxProg) (bs cmds : List Byte) : MxProg :=
  { m with
    nc := 128 * (le bs 2 1 + 1)
    ncmd := le bs 0 2
    cmds := cmds
    rings := tableOf bs 0x40 16 (le bs 3 1)
    drains := tableOf bs 0x80 32 (le bs 4 1)
    feet := (tableOf bs 0x100 16 (le bs 5 1)).flatMap footOf
    copyVa := le bs 0x10 8
    copyN := le bs 6 1
    loaded := true }

/-- The image fetched and checked, in the first turn of an accepted program (R270). -/
def State.loadImage (s : State) (leader : Nat) (m : MxProg) : State :=
  let p := s.slotOfTask m.task
  let w := programOwner leader
  let bad := fun (s : State) (code : Nat) => ((s.dropFar w).engineError p 0xFFFF leader code).modProg leader (fun m => m.stop 4 code)
  match s.deviceRead w p m.va 0x140 with
  | .far pa n => s.askFar w pa n
  | .fault c va => bad (s.reportRead p (.fault c va)) c
  | .poison _ => bad s fUCESCALAR
  | .ok bs =>
    if !imageOk bs leader (s.scratch leader m.task).size then bad s 0
    else match s.deviceRead w p (m.va + 0x140) (16 * le bs 0 2) with
      | .far pa n => s.askFar w pa n
      | .fault c va => bad (s.reportRead p (.fault c va)) c
      | .poison _ => bad s fUCESCALAR
      | .ok cmds => (s.dropFar w).modProg leader (fun m => m.withImage bs cmds)

/-- The 128-bit command at the program's index (R441). -/
def MxProg.command (m : MxProg) : Nat := le m.cmds (16 * m.pc) 16

/-! ### Stages (R272, R273) -/

/-- What a command finds at the next stage of its ring. -/
inductive StageAt where
  | waits
  | full (i : Nat)
  | closed
  | error
  | bad
  deriving DecidableEq, Repr

/-- The next stage of a ring. -/
def MxProg.nextStage (m : MxProg) (r : Nat) (ring : List Byte) : Nat := Sparse.get 0 m.next r % max 1 (rgStages ring)

/-- The closed mask of a ring once a full word has been examined (R272). -/
def MxProg.closedMask (m : MxProg) (r full : Nat) : Nat := Sparse.get 0 m.cm r ||| full / 65536 % 65536

/-- The examination of R272. -/
def stageAt (pad : Scratch) (m : MxProg) (r : Nat) (ring : List Byte) : StageAt :=
  let i := m.nextStage r ring
  let a := rgCtl ring + 8 * i
  let full := pad.readLe a 4
  let arr := full % 65536
  let cm := m.closedMask r full
  if pad.isBad a 8 then .bad
  else if arr &&& cm ≠ 0 ∨ pad.doubled.any (fun d => decide (d / 16 = a) && decide (arr / 2 ^ (d % 16) % 2 = 1)) then .error
  else if arr = 0 ∧ cm &&& rgMask ring = rgMask ring then .closed
  else if (arr ||| cm) &&& rgMask ring = rgMask ring then .full i
  else .waits

/-- A stage consumed (R273): ARRIVED cleared, TAKEN up by one. -/
def Scratch.take (pad : Scratch) (ring : List Byte) (i : Nat) : Scratch :=
  let a := rgCtl ring + 8 * i
  let pad := { pad with doubled := pad.doubled.filter (fun d => decide (d / 16 ≠ a)) }
  pad.write a (leBytes 4 (pad.readLe a 4 / 65536 * 65536) ++ leBytes 4 ((pad.readLe (a + 4) 4 + 1) % 2 ^ 32))

/-! ### The run of a command (R274, R275) -/

/-- The program whose command is executed, with its pair. -/
structure MxCtx where
  leader : Nat
  pair : Pair
  m : MxProg

/-- The loaded program of the pair in focus, with commands left to run. -/
def State.mx (s : State) : Option MxCtx :=
  match s.running s.pair with
  | none => none
  | some m => if m.loaded && !m.ended then some { leader := s.pair, pair := s.pairOf s.pair, m := m } else none

/-- End of stream (R275): to the command after the innermost open loop around the command, or the end of the program. -/
def MxProg.endOfStream (m : MxProg) : MxProg :=
  match m.open_.reverse.find? (fun l => decide (l.1 ≤ m.pc) && decide (m.pc ≤ l.2)) with
  | some l => { m with pc := l.2 + 1, loops := Sparse.set 0 m.loops l.2 0, open_ := m.open_.filter (fun x => decide (x.2 ≠ l.2)) }
  | none => m.stop 0 0

/-- What a command asks for: whether its operands meet the limits, the ring it consumes a stage of, the bytes it reads from it and those it writes, whether something else holds it, and addresses in the pages of global memory that it writes. -/
structure MxReq where
  good : Bool
  ring : Option Nat := none
  reads : Nat := 0
  writes : Nat := 0
  waits : Bool := false
  pages : List Nat := []

/-- The au of a command (R121, R274). -/
def MxReq.cost (q : MxReq) : Nat := 1 + (q.reads + q.writes + 31) / 32

/-- The program's au spent, or the stop of a program that would exceed its bound (R121). -/
def State.mxSpend (s : State) (x : MxCtx) (n : Nat) : Option State :=
  if x.m.used + n ≤ x.m.bound then some ((s.spendRsv x.m.task n).modProg x.leader (fun m => { m with used := m.used + n })) else none
def State.mxOverrun (s : State) (x : MxCtx) : State :=
  (s.spendRsv x.m.task (x.m.bound - x.m.used)).modProg x.leader (fun m => { m.stop 1 0 with used := m.bound })

/-- Where the sequencer's translation of what a command writes stops (R24, R190), and whether the main line has given a message of it up (R26). -/
def State.mxStops (s : State) (x : MxCtx) (q : MxReq) : Option Nat := q.pages.findSome? (s.engineStops (some (sequencer x.leader)) (programOwner x.leader) (s.slotOfTask x.m.task))
def State.mxLost (s : State) (x : MxCtx) (q : MxReq) : Bool :=
  q.pages.any (fun va => (s.engineStops (some (sequencer x.leader)) (programOwner x.leader) (s.slotOfTask x.m.task) va).isSome && s.walkLost (programOwner x.leader) (s.slotOfTask x.m.task) va)

/-- The program stopped by a fault of a write (R276, R278), at the command that made it; an ownership or link fault counts for its tenant (R78). -/
def State.mxFault (s : State) (x : MxCtx) (code : Nat) : State :=
  (s.engineError (s.slotOfTask x.m.task) 0xFFFF x.leader code).modProg x.leader (fun m => { m.stop 5 code with at_ := x.m.pc })

/-- A poisoned stage: the pair's accumulators are zeroed and the program ends (R85). -/
def State.mxPoison (s : State) (x : MxCtx) : State := (s.setPair x.leader { s.pairOf x.leader with acc := [] }).modProg x.leader (fun m => m.stop 2 0)

/-- Whether a program may not go on yet: an earlier job or program of its task conflicts with it (R269), or its die is stopped or not usable (R29, R30). -/
def State.mxHeld (s : State) (x : MxCtx) : Bool := s.earlierClash x.m.seq x.m.task none x.m.feet || (s.die (x.leader / 192)).stopped || !s.usable (x.leader / 192)

/-- Granules of an MDRAIN logged in the leader's log, one by one while there is room (R231, R235), under the train that forked the program; those of a task that unwinds are discarded (R128 step 4). Answers the granules left over. -/
def State.drainPieces (s : State) (leader : Nat) (m : MxProg) : List Piece → List Piece × State
  | [] => ([], s)
  | y :: ys =>
    let p := s.slotOfTask m.task
    let mark := ((s.train leader m.trainSlot).map (fun t => t.flash.mark)).getD 0
    let merges := ((s.log leader).newest y.gran p).any (fun r => r.takes p m.trainSlot m.task y.gran mark false)
    if (s.task m.task).any (fun k => decide (k.state = .unwinding)) then ([], s)
    else if !merges && !s.logRoom leader p 1 then (y :: ys, s)
    else State.drainPieces ((s.viewStore leader p y).appendPiece leader p m.trainSlot m.task mark none false 0 y) leader m ys

/-- A program whose MDRAIN has granules left logs what there is room for. -/
def State.drainRest (s : State) (leader : Nat) (m : MxProg) (ps : List Piece) : State :=
  let r := s.drainPieces leader m ps
  r.2.modProg leader (fun m => { m with rest := r.1 })

/-- One command executed in the order of R274, once the MDRAIN before it has logged its granules: limits, its stage (R272, R275), the bound (R121), its effect on the state in which the stage is consumed and the command counted; `eff` is told the bytes read. -/
def State.mxGo (s : State) (q : MxCtx → MxReq) (eff : MxCtx → List Byte → State → State) : Out :=
  match s.mx with
  | none => .fault .noProgram
  | some x =>
    if s.mxHeld x then .next s
    else if !x.m.rest.isEmpty then .next (s.drainRest x.leader x.m x.m.rest)
    else if !(q x).good then .next (s.modProg x.leader (fun m => m.stop 6 0))
    else
      let go := fun (s : State) (data : List Byte) (take : State → State) =>
        if (q x).waits then s
        else if s.mxLost x (q x) then (s.dropTrips (programOwner x.leader)).mxFault x fMLTIMEOUT
        else match s.mxStops x (q x) with
        | some a => s.askFar (programOwner x.leader) a 0
        | none => match s.mxSpend x (q x).cost with
          | none => s.mxOverrun x
          | some s => eff x data ((take s).modProg x.leader (fun m => { m with pc := m.pc + 1 }))
      match (q x).ring with
      | none => .next (go s [] id)
      | some r =>
        let ring := x.m.rings[r]?.getD []
        let pad := s.scratch x.leader x.m.task
        let s := s.modProg x.leader (fun m => { m with cm := Sparse.set 0 m.cm r (m.closedMask r (pad.readLe (rgCtl ring + 8 * m.nextStage r ring) 4)) })
        match stageAt pad x.m r ring with
        | .waits => .next s
        | .bad => .next (s.mxPoison x)
        | .error => .next (s.modProg x.leader (fun m => m.stop 3 0))
        | .closed => .next (s.modProg x.leader MxProg.endOfStream)
        | .full i =>
          let a := rgBase ring + i * rgBytes ring
          if pad.isBad a (q x).reads then .next (s.mxPoison x)
          else
            let data := (List.range (q x).reads).map (fun k => pad.read (a + k))
            .next (go s data (fun s =>
              (s.setScratch x.leader x.m.task (pad.take ring i)).modProg x.leader (fun m => { m with next := Sparse.set 0 m.next r (Sparse.get 0 m.next r + 1) })))

/-- Whether a program has a ring, and a stage of it holds `n` bytes. -/
def MxProg.ringHolds (m : MxProg) (r n : Nat) : Bool := match m.rings[r]? with
  | some ring => decide (n ≤ rgBytes ring)
  | none => false

/-- Bytes of 128 elements along K in a format (R274). -/
def chunkBytes (fmt : Nat) : Nat := if sxK fmt = 0 then 256 else 4 * sxBytes (sxK fmt)

/-- The four blocks of an SX chunk, and the elements of a chunk in any format of R258. -/
def chunkBlocks (k : Nat) (bs : List Byte) : List SxBlock := (List.range 4).map (fun i => SxBlock.unpack k (le bs (i * sxBytes k) (sxBytes k)))
def blocksValues (k : Nat) (xs : List SxBlock) : List FVal := xs.flatMap (fun b => (List.range 32).map (b.value k))
def fmtFloat (fmt : Nat) : FFmt := if fmt = 1 then f16 else if fmt = 2 then bf16 else f32
def chunkValues (fmt : Nat) (bs : List Byte) : List FVal :=
  if sxK fmt = 0 then (List.range 128).map (fun i => (fmtFloat fmt).decode (le bs (2 * i) 2)) else blocksValues (sxK fmt) (chunkBlocks (sxK fmt) bs)

/-! ### MLDB (R274) -/

/-- The k of the B banks: BFMT's, or 7 for a format that is quantised (R274). -/
def bankK (fmt : W64) : Nat := if sxK (fmtB fmt) = 0 then 7 else sxK (fmtB fmt)

/-- A B column as the banks hold it, and its flags. -/
def bankColumn (fmt : Nat) (bs : List Byte) : List SxBlock × Nat :=
  if sxK fmt = 0 then
    let qs := (List.range 4).map (fun i => quantise 7 0 0 0 (((chunkValues fmt bs).drop (32 * i)).take 32))
    (qs.map Quantised.block, qs.foldl (fun f q => f ||| q.flags) 0)
  else (chunkBlocks (sxK fmt) bs, 0)

/-- MLDB's limits and needs. -/
def mldbReq (f : MxFields) (x : MxCtx) : MxReq :=
  let n := f.y.toNat * chunkBytes (fmtB x.m.fmt)
  { good := (Instr.mldb f).wf && decide (f.x.toNat % 16 = 0) && decide (16 ≤ f.y.toNat) && decide (f.y.toNat ≤ 512) && decide (f.y.toNat % 16 = 0) &&
      decide (f.x.toNat + f.y.toNat ≤ x.m.nc) && x.m.ringHolds f.a.toNat n
    ring := some f.a.toNat, reads := n }

/-- Sticky flags of a program (R266). -/
def State.mxFlags (s : State) (leader : Nat) (g : Nat) : State := s.modProg leader (fun m => { m with xflags := m.xflags ||| BitVec.ofNat 32 g })

/-- MLDB (R274): columns n0 to n0 + c - 1 of the B banks. -/
def execMldb (f : MxFields) (s : State) : Out :=
  s.mxGo (mldbReq f) (fun x data s =>
    let n := chunkBytes (fmtB x.m.fmt)
    let cols := (List.range f.y.toNat).map (fun i => (f.x.toNat + i, bankColumn (fmtB x.m.fmt) (slice data (n * i) n)))
    let p := s.pairOf x.leader
    let s := s.setPair x.leader { p with bank := cols.foldl (fun b c => Table.put b c.1 c.2.1) p.bank }
    s.mxFlags x.leader (cols.foldl (fun g c => g ||| c.2.2) 0))

/-! ### MSTRM (R265, R266) -/

/-- The exact sum of a chunk's products, with the special operands of R266. -/
def chunkSum (as bs : List FVal) : FVal :=
  let ps := as.zip bs
  if as.any FVal.isNan || bs.any FVal.isNan then .nan false
  else if ps.any (fun p => match p.1, p.2 with
    | .inf _, .zero _ => true
    | _, _ => false) then .nan false
  else
    let ts := ps.map (fun p => p.1.times p.2)
    let up := ts.any (fun t => decide (t = .inf false))
    let down := ts.any (fun t => decide (t = .inf true))
    if up && down then .nan false
    else if up || down then .inf down
    else
      let fs := ts.filterMap (fun t => match t with
        | .fin n m e => some (n, m, e)
        | _ => none)
      let e0 := fs.foldl (fun e f => min e f.2.2) 0
      let v := fs.foldl (fun (v : Int) f => v + scaled f.1 f.2.1 f.2.2 e0) 0
      if v = 0 then .zero false else .fin (decide (v < 0)) v.natAbs e0

/-- Flags with NV for a result that is a NaN (R266). -/
def nanFlag (r : FRes) : FRes := if (f32.decode r.1).isNan then (r.1, r.2 ||| gNV) else r

/-- One accumulation (R265): the accumulator's new bits and the flags. -/
def accumulate (acc : W32) (p : FVal) : FRes :=
  let r := nanFlag (f32.ofVal 0 false p)
  let t := nanFlag (f32.add 0 false (f32.decode acc.toNat) (f32.decode r.1))
  (t.1, t.2 ||| r.2)

/-- The core of a pair that holds column `n` of its array, the leader or the follower, and the column's place in that core's own bank (R268). -/
def colCore (leader n : Nat) : Nat := leader + n / 128 % 2
def colPlace (n : Nat) : Nat := 128 * (n / 256) + n % 128

/-- The values of a column of the B banks; a column nothing has loaded is zero (log entry 4). -/
def Pair.column (p : Pair) (k n : Nat) : List FVal := match Table.find p.bank n with
  | some bs => blocksValues k bs
  | none => List.replicate 128 (.zero false)

/-- MSTRM's limits and needs. -/
def mstrmReq (f : MxFields) (x : MxCtx) : MxReq :=
  let n := f.y.toNat * chunkBytes (fmtA x.m.fmt)
  { good := (Instr.mstrm f).wf && decide (1 ≤ f.y.toNat) && decide (f.x.toNat + f.y.toNat ≤ 64) && x.m.ringHolds f.a.toNat n, ring := some f.a.toNat, reads := n }

/-- MSTRM (R265, R274): rows of A streamed through the active columns. -/
def execMstrm (f : MxFields) (s : State) : Out :=
  s.mxGo (mstrmReq f) (fun x data s =>
    let n := chunkBytes (fmtA x.m.fmt)
    let p := s.pairOf x.leader
    let cols := (List.range x.m.nc).map (fun c => (c, p.column (bankK x.m.fmt) c))
    let rows := (List.range f.y.toNat).map (fun j => (f.x.toNat + j, chunkValues (fmtA x.m.fmt) (slice data (n * j) n)))
    let out := rows.flatMap (fun r => cols.map (fun c => (512 * r.1 + c.1, accumulate (Sparse.get 0 p.acc (512 * r.1 + c.1)) (chunkSum r.2 c.2))))
    let s := s.setPair x.leader { p with acc := out.foldl (fun m o => Sparse.set 0 m o.1 (BitVec.ofNat 32 o.2.1)) p.acc }
    s.mxFlags x.leader (out.foldl (fun g o => g ||| o.2.2) 0))

/-- MZERO's limits. -/
def mzeroReq (f : MxFields) (_ : MxCtx) : MxReq := { good := (Instr.mzero f).wf && decide (1 ≤ f.y.toNat) && decide (f.x.toNat + f.y.toNat ≤ 64) }

/-- MZERO (R274). -/
def execMzero (f : MxFields) (s : State) : Out :=
  s.mxGo (mzeroReq f) (fun x _ s =>
    let p := s.pairOf x.leader
    s.setPair x.leader { p with acc := p.acc.filter (fun e => !(decide (f.x.toNat ≤ e.1 / 512) && decide (e.1 / 512 < f.x.toNat + f.y.toNat) && decide (e.1 % 512 < x.m.nc))) })

/-! ### MDRAIN (R267, R276, R277) -/

/-- Mix and Gen (R277). -/
def mix (z : W64) : W64 :=
  let z := (z ^^^ (z >>> 30)) * 0xA24BAED4963EE407
  let z := (z ^^^ (z >>> 27)) * 0x9FB21C651E98DF25
  z ^^^ (z >>> 31)
def gen (seed : W64) (stream row col : Nat) : W64 := mix (mix (seed ^^^ BitVec.ofNat 64 (stream * 2 ^ 32 ||| row * 2 ^ 16 ||| col)) ^^^ seed)

/-- Bytes of a row of output in a format. -/
def outRow (fmt nc : Nat) : Nat := if sxK fmt ≠ 0 then nc / 32 * sxBytes (sxK fmt) else if fmt = 0 then 4 * nc else 2 * nc

/-- y of R276 for one element: scale, residual, dropout. -/
def drainValue (d : List Byte) (row col : Nat) (acc : W32) (res : Option Nat) : FRes :=
  let y := nanFlag (f32.mul 0 false (f32.decode acc.toNat) (f32.decode (le d 0xC 4)))
  let y := match res with
    | none => y
    | some r => let z := nanFlag (f32.add 0 false (f32.decode y.1) (f32.decode r)); (z.1, z.2 ||| y.2)
  if le d 0x11 1 % 2 = 1 ∧ (gen (BitVec.ofNat 64 (le d 0x18 8)) (le d 0x14 4) row col).toNat / 2 ^ 48 < le d 0x12 2 then (0, y.2) else y

/-- The bytes of one row in OFMT, and the flags (R267). -/
def drainRow (fmt : W64) (ys : List FRes) : List Byte × Nat :=
  let o := fmtO fmt
  let g := ys.foldl (fun g y => g ||| y.2) 0
  if sxK o ≠ 0 then
    let qs := (List.range (ys.length / 32)).map (fun b => quantise (sxK o) 0 0 0 (((ys.drop (32 * b)).take 32).map (fun y => f32.decode y.1)))
    (qs.flatMap (fun q => leBytes (sxBytes (sxK o)) (q.block.pack (sxK o))), qs.foldl (fun g q => g ||| q.flags) g)
  else if o = 0 then (ys.flatMap (fun y => leBytes 4 y.1), g)
  else
    let zs := ys.map (fun y => let z := (fmtFloat o).ofVal (fmtRnd fmt) false (f32.decode y.1)
                               if (f32.decode y.1).isNan then (z.1, z.2 ||| gNV) else z)
    (zs.flatMap (fun z => leBytes 2 z.1), zs.foldl (fun g z => g ||| z.2) g)

/-- The rows an MDRAIN forms: row number, bytes, flags; `data` is the residual stage. -/
def drainRows (x : MxCtx) (p : Pair) (d : List Byte) (r0 m : Nat) (data : List Byte) : List (Nat × List Byte × Nat) :=
  (List.range m).map (fun j =>
    let ys := (List.range x.m.nc).map (fun n =>
      drainValue d (r0 + j) n (Sparse.get 0 p.acc (512 * (r0 + j) + n)) ((drRes d).map (fun _ => le data (4 * (j * x.m.nc + n)) 4)))
    (j, drainRow x.m.fmt ys))

/-- Where row `j` of a drain begins (R276). -/
def drainAt (d : List Byte) (j : Nat) : Nat := (((drBase d : Int) + j * drStride d) % 2 ^ 64).toNat

/-- The bytes of a drain with their addresses. -/
def drainBytes (d : List Byte) (rows : List (Nat × List Byte × Nat)) : List (Nat × Byte) := rows.flatMap (fun r => r.2.1.zipIdx.map (fun b => (drainAt d r.1 + b.2, b.1)))

/-- A drain's bytes stored: in place in the leader's scratchpad, or logged in the leader's log (R231). -/
def State.drainTo (s : State) (x : MxCtx) (d : List Byte) (bs : List (Nat × Byte)) : State :=
  if drKind d = 1 then
    let pad := s.scratch x.leader x.m.task
    if bs.any (fun b => decide (pad.size ≤ b.1)) then s.mxFault x fADDRRANGE
    else s.setScratch x.leader x.m.task (bs.foldl (fun pad b => pad.write b.1 [b.2]) pad)
  else
    let p := s.slotOfTask x.m.task
    let eng := some (sequencer x.leader)
    let s := (s.cachePages eng (programOwner x.leader) p .write (bs.map Prod.fst)).dropTrips (programOwner x.leader)
    let ts := bs.map (fun b => (b, s.writeTarget eng p 0 b.1))
    match ts.findSome? (fun t => match t.2 with
      | .error c => some c
      | .ok _ => none) with
    | some c => s.mxFault x c
    | none =>
      let ok := ts.filterMap (fun t => match t.2 with
        | .ok pa => some (({ lane := 0, j := 0, va := some t.1.1, val := t.1.2.toNat } : Elem), pa)
        | .error _ => none)
      s.drainRest x.leader x.m (piecesOf 1 ok)

/-- The residual ring an MDRAIN consumes a stage of. -/
def MxProg.residual (m : MxProg) (f : MxFields) : Option Nat := (m.drains[f.a.toNat]?).bind drRes

/-- MDRAIN's limits and needs. -/
def mdrainReq (f : MxFields) (x : MxCtx) : MxReq :=
  let n := f.y.toNat * x.m.nc * 4
  let w := f.y.toNat * outRow (fmtO x.m.fmt) x.m.nc
  { good := (Instr.mdrain f).wf && decide (f.a.toNat < x.m.drains.length) && decide (1 ≤ f.y.toNat) && decide (f.x.toNat + f.y.toNat ≤ 64) &&
      (match x.m.residual f with
       | none => true
       | some r => x.m.ringHolds r n)
    ring := x.m.residual f
    reads := if (x.m.residual f).isSome then n else 0
    writes := w
    pages := match x.m.drains[f.a.toNat]? with
      | some d => if drKind d = 1 then [] else (List.range f.y.toNat).flatMap (fun j => [drainAt d j, drainAt d j + (outRow (fmtO x.m.fmt) x.m.nc - 1)])
      | none => [] }

/-- MDRAIN (R276). -/
def execMdrain (f : MxFields) (s : State) : Out :=
  s.mxGo (mdrainReq f) (fun x data s =>
    let d := x.m.drains[f.a.toNat]?.getD []
    let rows := drainRows x (s.pairOf x.leader) d f.x.toNat f.y.toNat data
    (s.mxFlags x.leader (rows.foldl (fun g r => g ||| r.2.2) 0)).drainTo x d (drainBytes d rows))

/-! ### MLOOP, MRDV, MEND (R274, R275) -/

/-- A loop at its MLOOP: it jumps to `t`, or resets its counter and falls through. -/
def MxProg.loop (m : MxProg) (at_ t n : Nat) : MxProg :=
  let c := Sparse.get 0 m.loops at_
  let isOpen := m.open_.any (fun l => decide (l.2 = at_))
  if n = 0 ∨ c + 1 < n then
    if !isOpen && decide (4 ≤ m.open_.length) then { m.stop 6 0 with at_ := at_ }
    else { m with pc := t, loops := if n = 0 then m.loops else Sparse.set 0 m.loops at_ (c + 1), open_ := if isOpen then m.open_ else m.open_ ++ [(t, at_)] }
  else { m with loops := Sparse.set 0 m.loops at_ 0, open_ := m.open_.filter (fun l => decide (l.2 ≠ at_)) }

/-- The limits of MLOOP, MRDV and MEND; MRDV waits for its copy steps. -/
def mloopReq (f : MxFields) (x : MxCtx) : MxReq := { good := (Instr.mloop f).wf && decide (f.x.toNat < x.m.pc) }
def mrdvReq (f : MxFields) (x : MxCtx) : MxReq :=
  { good := (Instr.mrdv f).wf && decide (1 ≤ f.x.toNat) && decide (f.x.toNat ≤ x.m.copyN), waits := decide (x.m.copyDone < f.x.toNat) }
def mendReq (f : MxFields) (_ : MxCtx) : MxReq := { good := (Instr.mend f).wf }

/-- MLOOP (R274). -/
def execMloop (f : MxFields) (s : State) : Out :=
  s.mxGo (mloopReq f) (fun x _ s => s.modProg x.leader (fun m => m.loop x.m.pc f.x.toNat f.y.toNat))

/-- MRDV (R274): waits for copy steps 0 to k - 1. -/
def execMrdv (f : MxFields) (s : State) : Out :=
  s.mxGo (mrdvReq f) (fun _ _ s => s)

/-- MEND (R274). -/
def execMend (f : MxFields) (s : State) : Out :=
  s.mxGo (mendReq f) (fun x _ s => s.modProg x.leader (fun m => { m.stop 0 0 with at_ := x.m.pc }))

/-! ### Copy programs (R279) -/

/-- Fields of a copy step. -/
def csRing (bs : List Byte) : Nat := le bs 0x1C 1
def csPid (bs : List Byte) : Nat := le bs 0x1D 1
def csClose (bs : List Byte) : Bool := le bs 0x1E 1 = 1

/-- The fill number a step's producer makes next on its ring, by 16 ring + producer. -/
def MxProg.fills (m : MxProg) (bs : List Byte) : Nat := Sparse.get 0 m.filled (16 * csRing bs + csPid bs)

/-- Whether a stage may be filled by its `n`-th fill: TAKEN says the earlier ones are consumed (R273). -/
def stageFree (pad : Scratch) (ring : List Byte) (n : Nat) : Bool :=
  let s := max 1 (rgStages ring)
  decide ((pad.readLe (rgCtl ring + 8 * (n % s) + 4) 4 + 2 ^ 32 - n / s % 2 ^ 32) % 2 ^ 32 < 2 ^ 31)

/-- The address, size and origin of a step checked: the layout record's fault, or none (R279, R280). -/
def stepOk (m : MxProg) (bs rec : List Byte) : Option Nat :=
  let ring := m.rings[csRing bs]?.getD []
  if m.rings.length ≤ csRing bs || decide (16 ≤ csPid bs) || decide (1 < le bs 0x1E 1) || !zeros bs 0x1F 1 || !layoutOk rec || decide (loDir rec ≠ 0) || decide (loDK rec ≠ 1) then some fILLOP
  else if rgBytes ring < loBytes rec then some fADDRRANGE
  else none

/-- A copy step begun (R279): its record read and checked, its cost drawn from the bound, its job started towards the next stage of its producer. -/
def State.beginStep (s : State) (leader : Nat) (m : MxProg) : State :=
  let x : MxCtx := { leader := leader, pair := s.pairOf leader, m := m }
  let p := s.slotOfTask m.task
  let w := programOwner leader
  let stop := fun (s : State) (code : Nat) => ((s.dropFar w).engineError p 0xFFFF leader code).modProg leader (fun m => m.stop 5 code)
  if !s.slotBit p 0x80 (leader / 8) then stop s fOWNERSHIP
  else match s.deviceRead w p (m.copyVa + 32 * m.copyDone) 32 with
    | .far pa n => s.askFar w pa n
    | .fault c va => stop (s.reportRead p (.fault c va)) c
    | .poison _ => stop s fUCESCALAR
    | .ok bs =>
      let va := le bs 0 8
      if va % 64 ≠ 0 ∨ !canonical va then stop s fADDRRANGE
      else match s.deviceRead w p va 64 with
        | .far pa n => s.askFar w pa n
        | .fault c va => stop (s.reportRead p (.fault c va)) c
        | .poison _ => stop s fUCESCALAR
        | .ok rec =>
          match stepOk m bs rec with
          | some c => stop s c
          | none =>
            let ring := m.rings[csRing bs]?.getD []
            let n := m.fills bs
            if !stageFree (s.scratch leader m.task) ring n then s
            else match s.mxSpend x (copyCost (loBytes rec)) with
              | none => (s.dropFar w).mxOverrun x
              | some s =>
                let i := n % max 1 (rgStages ring)
                let base := rgBase ring + i * rgBytes ring
                let o := (List.range 5).map (fun d => toSigned 32 (le bs (8 + 4 * d) 4))
                let j : Job :=
                  { coll := false, yard := leader / 8, slot := p, task := m.task, core := some leader, trainSlot := m.trainSlot, trainIndex := m.trainIndex, desc := rec, origin := o
                    dense := some base, bytes := loBytes rec, cost := copyCost (loBytes rec), feet := copyFeet rec o base leader, started := true, begun := s.clock
                    step := some (leader, csRing bs, csPid bs, csClose bs, i) }
                let id := s.nextId
                let w' := s.publishSource leader p j.feet
                { (w'.2.dropFar w).modProg leader (fun m => { m with copyJob := some id }) with jobs := Table.put s.jobs id { j with waits := w'.1 }, nextId := id + 1 }

/-- A copy step complete: it arrives on its stage, and closes on the following one (R272, R279). -/
def State.endStep (s : State) (id : Nat) (j : Job) : State :=
  match j.step with
  | none => s
  | some (leader, r, pid, close, i) =>
    let ring := ((s.running leader).bind (fun m => m.rings[r]?)).getD []
    let s := ({ s with jobs := Table.drop s.jobs id }).dropFar (jobOwner id)
    let s := if j.oobz then s.modProg leader (fun m => { m with xflags := m.xflags ||| xOOBZ }) else s
    let pad := (s.scratch leader j.task).setBit (rgCtl ring + 8 * i) pid
    let pad := if close then pad.setBit (rgCtl ring + 8 * ((i + 1) % max 1 (rgStages ring))) (16 + pid) else pad
    (s.setScratch leader j.task pad).modProg leader (fun m =>
      { m with copyDone := m.copyDone + 1, copyJob := none, filled := Sparse.set 0 m.filled (16 * r + pid) (Sparse.get 0 m.filled (16 * r + pid) + 1) })

end Sys2Proof.Machine
end

