-- ==== Sys2Proof/Machine/System.lean ====
section
/-! DEFINITION. System instructions (R151, R162, R443-R447): TRAP, FBP, and the supervisor forms RFLT, MAPPG, IVPG and HALT. -/

namespace Sys2Proof.Machine

/-! ### TRAP (R443) -/

/-- TRAP (R443): the train is parked; its record is written by the device (SYSCALL_RECORD_WRITE). -/
def execTrap (i : BitVec 16) (s : State) : Out :=
  s.scalarGo (fun _ => { op := 0x31, cost := 16, clauses := true, boundary := true }) (fun _ => !(Instr.trap i).wf) noFault
    (fun _ s => s.modCur (fun t => { t with call := some { imm := i.toNat, fault := false } }))

/-! ### FBP (R151, R444) -/

/-- Bytes of code fetched word by word, or the first fault with its address. -/
def State.codeWords (s : State) (core p : Nat) : Nat → Nat → Except (Nat × Nat) (List Byte)
  | 0, _ => .ok []
  | n + 1, va => match s.codeAt core p va 4 with
    | .error e => .error (e, va)
    | .ok w => match State.codeWords s core p n (va + 4) with
      | .error e => .error e
      | .ok bs => .ok (leBytes 4 w ++ bs)

/-- The descriptor of an FBP (Table 22-10). -/
def fbpRead (s : State) (w : BitVec 24) (c : Cur) : Except (Nat × Nat) (List Byte) :=
  if s.codeLost c.core (portionOwner c.core c.slot c.p) (c.pslot s) (wordVa c.t.lcb w.toNat) then .error (fMLTIMEOUT, wordVa c.t.lcb w.toNat)
  else s.codeWords c.core (c.pslot s) 9 (wordVa c.t.lcb w.toNat)

/-- The live sets and the recipe of a descriptor. -/
def fbpScalars (bs : List Byte) : List Nat := (List.range (le bs 0x18 1)).map (fun i => le bs i 1)
def fbpLanes (bs : List Byte) : List Nat := (List.range (le bs 0x19 1)).map (fun i => le bs (8 + i) 1)
def fbpRecipe (bs : List Byte) : Option Nat := if le bs 0x1C 4 = 0xFFFFFFFF then none else some (le bs 0x1C 4)

/-- A descriptor that meets Table 22-10 for a budget. -/
def fbpOk (bs : List Byte) (budget : Nat) : Bool :=
  decide (le bs 0x18 1 ≤ 8) && decide (le bs 0x19 1 ≤ 16) && zeros bs 0x1A 2 && zeros bs 0x20 4 &&
    (fbpScalars bs).all (fun n => decide (1 ≤ n) && decide (n ≤ 63)) && (fbpLanes bs).all (fun n => decide (n < budgetRegs budget)) &&
    zeros bs (le bs 0x18 1) (8 - le bs 0x18 1) && zeros bs (8 + le bs 0x19 1) (16 - le bs 0x19 1)

/-- Whether an FBP records a flashback point: not in the handler (R444), nor in a divided train (R178). -/
def Cur.records (c : Cur) : Bool := c.t.handler.isNone && decide (c.t.portions.length = 1) && c.o.stack.isEmpty

/-- Whether a result that an FBP's live set names is outstanding (R151). -/
def Train.liveBusy (t : Train) (bs : List Byte) : Bool :=
  t.pend.any (fun e => match e.2.dest with
    | .scalar d => (fbpScalars bs).contains d
    | .lanes d => (fbpLanes bs).any (fun r => decide (d ≤ r) && decide (r < d + e.2.regs))
    | _ => false)

/-- The flashback store of a train with a descriptor (R151), as portion `o` stands after the FBP. -/
def Train.flashback (t : Train) (o : Portion) (bs : List Byte) (mark : Nat) : Flash :=
  { pc := o.pc, lcb := t.lcb, recipe := fbpRecipe bs, lineage := t.lineage, exm := o.exm, fmt := o.fmt, sig := o.sig, xflags := t.xflags
    sregs := (fbpScalars bs).map (fun n => (n, t.getS n)), vregs := (fbpLanes bs).map (fun r => (r, (List.range 32).map (t.getV r))), k := t.k, b := t.b, mark := mark }

/-- The wait of an FBP for its descriptor (R24). -/
def fbpWait (s : State) (w : BitVec 24) (c : Cur) : Stall :=
  if c.t.handler.isSome then .no
  else (((List.range 9).map (fun i => s.codeStall c (wordVa c.t.lcb w.toNat + 4 * i))).find? (fun x => decide (x ≠ .no))).getD .no

def fbpReq (s : State) (w : BitVec 24) (c : Cur) : SReq :=
  { op := 0x32, clauses := true
    stall := if fbpWait s w c ≠ .no then fbpWait s w c else if c.records then (match fbpRead s w c with
      | .ok bs => if fbpOk bs c.t.budget && c.t.liveBusy bs then .waits else .no
      | .error _ => .no) else .no }

/-- The flashback point taken (R151). -/
def State.takeFbp (s : State) (bs : List Byte) : State :=
  match s.cur with
  | none => s
  | some c => s.setCur { c.t with flash := c.t.flashback c.o bs (s.log c.core).tail, boundary := false, bounds := 0 }

/-- FBP (R444); a poisoned descriptor traps UCESCALAR, precise (R87). -/
def execFbp (w : BitVec 24) (s : State) : Out :=
  s.scalarGo (fbpReq s w)
    (fun c => c.t.handler.isNone && match fbpRead s w c with
      | .ok bs => !fbpOk bs c.t.budget
      | .error _ => false)
    (fun c => if c.t.handler.isSome then none else match fbpRead s w c with
      | .ok _ => none
      | .error e => if e.1 = fUCESCALAR then some (fUCESCALAR, e.2) else none)
    (fun c s' =>
      if c.t.handler.isSome then s'
      else match fbpRead s w c with
        | .error e => s'.accessFault c e.1 e.2
        | .ok bs => if c.records then s'.takeFbp bs else s')

/-! ### The supervisor forms (R162, R446, R447) -/

/-- A supervisor form outside the handler faults ILLOP (R447). -/
def notHandler (c : Cur) : Bool := c.t.handler.isNone

/-- The lanes of a pending fault that take a route, with the slot's handler enabled. -/
def FaultCtx.routed (f : FaultCtx) (r : Route) : List LaneFault := byRoute f.lanes true (match f.access with
  | some x => x.scalar
  | none => true) r

/-- The lanes that wait for the host join the train's pending fault, or make one (R160): behind a handler that runs again, or in the host's record. -/
def State.hostLanes (s : State) (key : Nat) (f : FaultCtx) (fs : List LaneFault) : State :=
  if fs.isEmpty then s
  else match Table.find s.trains key with
    | none => s
    | some t =>
      let own := f.access.map (fun x => (x.only (faultMask fs)).elems)
      let ctx : FaultCtx := match t.fault with
        | none => { f with access := f.access.map (fun x => x.only (faultMask fs)), lanes := fs }
        | some g => { g with access := g.access.map (fun x => { x with elems := x.elems ++ own.getD [] }), lanes := g.lanes ++ fs }
      let s := { s with trains := Table.put s.trains key { t with fault := some ctx } }
      if t.handler.isSome then s else s.toHost key ctx.lanes false

/-- Leaving the handler waits for the handler's own operations, clauses and results (R161, R170). -/
def leaveReq (c : Cur) : SReq :=
  { op := 0x33, clauses := true, stall := if c.t.handler.isSome && !c.t.ours.isEmpty then .waits else .no }

/-- The lanes that an RFLT replays itself: those of the handler's EXM (R160, R162). -/
def FaultCtx.mine (f : FaultCtx) (exm : W32) : List LaneFault := (f.routed .handler).filter (fun x => exm.getLsbD x.lane)

/-- RFLT's wait: a store that it replays waits for room in the log (R235). -/
def rfltReq (s : State) (c : Cur) : SReq :=
  let full := match c.t.fault with
    | none => false
    | some f => !(f.mine c.o.exm).isEmpty && f.access.any (fun x => s.noRoom c.core c.slot (c.pslot s) c.t.task (x.only (faultMask (f.mine c.o.exm))))
  { leaveReq c with stall := if (leaveReq c).stall ≠ .no then .waits else if c.t.handler.isSome && full then .log else .no }

/-- RFLT (R162): the bank restored, the lanes of the handler's EXM replayed free of charge, then the lanes routed to the host (R160). -/
def execRflt (s : State) : Out :=
  s.scalarGo (rfltReq s) notHandler noFault
    (fun c s =>
      match c.t.fault with
      | none => s.modCur Train.leaveHandler
      | some f =>
        let key := trainKey c.core c.slot
        let s := s.modCur (fun t => { t.leaveHandler with fault := none })
        let mine := f.mine c.o.exm
        let s := match f.access with
          | none => s
          | some x => if mine.isEmpty then s else s.access c.core c.slot c.p (x.only (faultMask mine)) []
        s.hostLanes key f (f.routed .host))

/-- HALT (R162): the bank restored; the handler's lanes, and those that waited for the host, take the host route. -/
def execHalt (s : State) : Out :=
  s.scalarGo leaveReq notHandler noFault
    (fun c s =>
      match c.t.fault with
      | none => s.modCur Train.leaveHandler
      | some f =>
        let s := s.modCur (fun t => { t.leaveHandler with fault := none })
        s.hostLanes (trainKey c.core c.slot) f (f.mine c.o.exm ++ f.routed .host))

/-! ### MAPPG (R446) -/

/-- What the walk to a level-0 entry finds: the entry's address, no table, or a fault. -/
inductive LeafAt where
  | entry (pa : Nat)
  | noTable
  | fault
  deriving DecidableEq, Repr

/-- The walk down from the level `l` table (R190, R446). -/
def State.leafFrom (s : State) (id va : Nat) : Nat → Nat → LeafAt
  | 0, table =>
    let a := entryAddr table 0 va
    if !isStack a || !s.usable (dieOf a) || !s.fotOk id a || s.poisoned a then .fault else .entry a
  | l + 1, table =>
    let a := entryAddr table (l + 1) va
    if !isStack a || !s.usable (dieOf a) || !s.fotOk id a || s.poisoned a then .fault
    else
      let e := BitVec.ofNat 64 (s.readLe a 8)
      if !e.getLsbD 0 || e.getLsbD 1 then .noTable
      else match judgeEntry (l + 1) e false with
        | .inr t => s.leafFrom id va l t
        | .inl _ => .fault

/-- The level-0 entry of a VA in a slot's mapping. -/
def State.leafEntry (s : State) (p va : Nat) : LeafAt :=
  let root := s.slotReg p 0x3B0
  if !root.getLsbD 0 then .noTable else s.leafFrom (s.ownid p) va 4 (bits root 12 40 * 4096)

/-- The address of the next entry of a slot's frame pool, and the frame it names (R446). -/
def State.poolAt (s : State) (p : Nat) : Nat := bits (s.slotReg p 0x3E0) 2 50 * 4 + 4 * (s.regBits (slotOff p 0x3E8) 0 32 - 1)
def State.poolFrame (s : State) (p : Nat) : Nat := s.readLe (s.poolAt p) 4 % 2 ^ 24 * 65536

/-- Whether a MAPPG of the entry at `a` takes a frame from the pool, and whether that pool entry is homed on a die that is not usable: it then raises the address-range fault (R30). -/
def State.takesFrame (s : State) (p a : Nat) : Bool := !(BitVec.ofNat 64 (s.readLe a 8)).getLsbD 0 && decide (s.regBits (slotOff p 0x3E8) 0 32 ≠ 0)
def State.poolOut (s : State) (p a : Nat) : Bool := s.takesFrame p a && isStack (s.poolAt p) && !s.usable (dieOf (s.poolAt p))

/-- MAPPG's step at the entry's home (R446): the status and the state. -/
def State.mapPage (s : State) (p a : Nat) (w x : Bool) : Nat × State :=
  if (BitVec.ofNat 64 (s.readLe a 8)).getLsbD 0 then (3, s)
  else
    let n := s.regBits (slotOff p 0x3E8) 0 32
    if n = 0 then (1, s)
    else
      let at_ := s.poolAt p
      let f := s.poolFrame p
      let s := s.setReg (slotOff p 0x3E8) (BitVec.ofNat 64 (n - 1))
      if !isStack at_ || s.poisoned at_ || !s.usable (dieOf f) || !s.fotOk (s.ownid p) f then (4, s)
      else (0, (s.zeroFrame (f / 65536)).deviceWrite a (leBytes 8 (f + (if x then 8 else 0) + (if w then 4 else 0) + 3)))

/-- The whole of MAPPG, or none where its walk faults. -/
def State.mappg (s : State) (p : Nat) (va perms : W64) : Option (Nat × State) :=
  if 4 ≤ perms.toNat then some (5, s)
  else if !canonical va.toNat then none
  else match s.leafEntry p va.toNat with
    | .fault => none
    | .noTable => some (2, s)
    | .entry a => if s.poolOut p a then none else some (s.mapPage p a (perms.getLsbD 0) (perms.getLsbD 1))

/-- The addresses that a MAPPG reaches: the entries of its walk, the pool's entry, the frame it takes. -/
def State.mappgPath (s : State) (p va : Nat) : List Nat :=
  s.walkPath p va ++ match s.leafEntry p va with
    | .entry a => if s.takesFrame p a && isStack (s.poolAt p) then [s.poolAt p, s.poolFrame p] else []
    | _ => []

/-- Whether a MAPPG has a walk to make, and whether the main line has given up a message of it (R26). -/
def mappgWalks (va perms : W64) : Bool := decide (perms.toNat < 4) && canonical va.toNat
def State.mappgLost (s : State) (c : Cur) (va perms : W64) : Bool := mappgWalks va perms && (s.mappgPath (c.pslot s) va.toNat).any (s.gaveUp (portionOwner c.core c.slot c.p))

/-- MAPPG's wait: for the first address whose home its message has not reached, or that is switching mode or whose line a migration has not pulled yet (R24, R90, R204). -/
def State.mappgStall (s : State) (c : Cur) (va perms : W64) : Stall :=
  let w := portionOwner c.core c.slot c.p
  if !mappgWalks va perms || s.mappgLost c va perms then .no
  else match (s.mappgPath (c.pslot s) va.toNat).find? (fun a => isStack a && (s.homeWaits a || s.away w a)) with
    | some a => .far w a 0
    | none => .no

/-- What MAPPG needs of R303: outside the handler it faults at once. -/
def mappgReq (s : State) (d a b : BitVec 6) (c : Cur) : SReq :=
  { op := 0x33, sregs := [d.toNat, a.toNat, b.toNat], swrites := [d.toNat], clauses := true
    stall := if c.t.handler.isSome then s.mappgStall c (c.t.getS a.toNat) (c.t.getS b.toNat) else .no }

/-- MAPPG (R446): a fault of its walk raises DOUBLEFLT (R161). -/
def execMappg (d a b : BitVec 6) (s : State) : Out :=
  s.scalarGo (mappgReq s d a b) notHandler
    (fun c => if s.mappgLost c (c.t.getS a.toNat) (c.t.getS b.toNat) || (s.mappg (c.pslot s) (c.t.getS a.toNat) (c.t.getS b.toNat)).isNone then some (fDOUBLEFLT, 0) else none)
    (fun c s =>
      match s.mappg (c.pslot s) (c.t.getS a.toNat) (c.t.getS b.toNat) with
      | none => s
      | some r => r.2.putS d (BitVec.ofNat 64 r.1))

/-- IVPG (R447): reserved bits, or a VA that is not canonical, raise DOUBLEFLT; the portion waits until the invalidate is complete (R191). -/
def execIvpg (a b : BitVec 6) (s : State) : Out :=
  s.scalarGo (fun _ => { op := 0x33, sregs := [a.toNat, b.toNat], clauses := true }) notHandler
    (fun c => if 4 ≤ (c.t.getS b.toNat).toNat || !canonical (c.t.getS a.toNat).toNat then some (fDOUBLEFLT, 0) else none)
    (fun c s => s.waitFor (.invalidate (c.t.getS a.toNat).toNat (c.t.getS b.toNat).toNat))

end Sys2Proof.Machine
end

