-- ==== Sys2Proof/Machine/Lane.lean ====
section
/-! DEFINITION. What lane instructions of the LR layout share (R316, R356-R359, R377-R380): the registers a word names, results and sticky flags written in the live active lanes, long-latency results, integer operands and results. -/

namespace Sys2Proof.Machine

/-- The lane registers and the scalar registers of an operand, by its use. -/
def useRegs (u : Use) (t sel : Nat) : List Nat := match u with
  | .no => []
  | .typ => selRegs sel (typWide t)
  | .w32 => selRegs sel false
def useScalars (u : Use) (sel : Nat) : List Nat := if u = .no then [] else selScalars sel

/-- The lane registers a destination names. -/
def dstRegs (u : DstUse) (t d : Nat) : List Nat := match u with
  | .typ => destRegs d t
  | .w32 => [d]
  | _ => []

/-- The request of an LR word under its row; `ts` is the type of its sources. -/
def lrReq (sp : LRSpec) (op cost ts : Nat) (o : LR) (_ : LCtx) : LReq :=
  { op := op, cost := cost
    reads := useRegs sp.a ts o.a.toNat ++ useRegs sp.b ts o.b.toNat ++ useRegs sp.c ts o.c.toNat
    writes := dstRegs sp.d o.typ.toNat o.d.toNat
    kregs := if sp.kd = .mask then [o.kd.toNat] else []
    sregs := useScalars sp.a o.a.toNat ++ useScalars sp.b o.b.toNat ++ useScalars sp.c o.c.toNat }

/-- Issue of an LR word whose fields its row judges; `bad` says that it is not well formed. -/
def State.laneLr (s : State) (sp : LRSpec) (op cost : Nat) (o : LR) (bad : Bool) (eff : LCtx → State → State) : Out :=
  s.laneGo (lrReq sp op cost o.typ.toNat o) (fun _ => bad) eff

/-- Results written in their lanes with the sticky flags raised (R251, R380). -/
def State.putLanes (s : State) (d : Nat) (rs : List (Nat × List W32)) (g : Nat) : State :=
  s.modCur (fun t => (t.writeLanes d rs).flagUp (BitVec.ofNat 32 g))

/-- A result for each live active lane, as its value and its flags, written under a type. -/
def State.putTyped (s : State) (x : LCtx) (d typ : Nat) (f : Nat → FRes) : State :=
  let rs := (lanesOf x.act).map (fun l => (l, f l))
  s.putLanes d (rs.map (fun r => (r.1, resultWords typ r.2.1))) (rs.foldl (fun g r => g ||| r.2.2) 0)

/-- The flag of its clause that a long-latency operation counts against (R171). -/
def Clause.flagOf (cl : Clause) (fs : Bool) : Option Nat :=
  let f := if fs then cl.setB else cl.setA
  if f < 12 then some f else none

/-- A long-latency result on its way to V(d) (R171): nothing when no lane is live and active (R84). -/
def State.putLate (s : State) (x : LCtx) (d typ : Nat) (fs : Bool) (f : Nat → FRes) : State :=
  if x.act = 0 then s
  else
    let n := if typWide typ then 2 else 1
    let rs := (lanesOf x.act).map (fun l => (l, f l))
    (s.addPend x.c.core x.c.slot
      { portion := x.c.p, flag := x.cl.flagOf fs, dest := .lanes d, regs := n, size := 4 * n, width := 1, lanes := x.act
        out := rs.map (fun r => (r.1, 0, (resultWords typ r.2.1).foldr (fun w v => w.toNat + v * 2 ^ 32) 0))
        xflags := BitVec.ofNat 32 (rs.foldl (fun g r => g ||| r.2.2) 0) }).2

/-- Mask register `k` as a lane instruction reads it (R170, R359). -/
def LCtx.getK (x : LCtx) (k : Nat) : W32 := Sparse.get 0 x.cl.k k

/-- A mask register written whole (R371, R372, R393), in a fully dead train too: R372 says that it "elects no lane", and writes 0 (log entry 39). -/
def State.putMask (s : State) (x : LCtx) (k : BitVec 4) (v : W32) : State := s.modCur (fun t => t.laneK x.c.p k.toNat v)
/-- The bits of the live active lanes written in a mask register, the others kept (R366). -/
def State.putMaskIn (s : State) (x : LCtx) (k : BitVec 4) (f : Nat → Bool) : State :=
  s.modCur (fun t => t.laneK x.c.p k.toNat ((x.getK k.toNat &&& ~~~ x.act) ||| maskOf ((lanesOf x.act).filter f)))

/-! ### Integer operands and results (R252, R358, R361) -/

/-- The value of a pattern under an integer type. -/
def intOf (t v : Nat) : Int := if typSigned t then toSigned (typWidth t) v else ((v % 2 ^ typWidth t : Nat) : Int)

/-- An operand of an integer type. -/
def LCtx.int (x : LCtx) (sel : BitVec 9) (imm : W32) (t l : Nat) : Int := intOf t (x.src sel.toNat imm t l)
/-- A 32-bit operand, unsigned. -/
def LCtx.u32 (x : LCtx) (sel : BitVec 9) (imm : W32) (l : Nat) : Nat := (x.src32 sel.toNat imm l).toNat

/-- The range of an integer type (R252). -/
def intLo (t : Nat) : Int := if typSigned t then -((2 ^ (typWidth t - 1) : Nat) : Int) else 0
def intHi (t : Nat) : Int := if typSigned t then ((2 ^ (typWidth t - 1) : Nat) : Int) - 1 else ((2 ^ typWidth t : Nat) : Int) - 1

/-- The pattern of an exact result, wrapped or clamped (R252), and SAT. -/
def intFinal (t : Nat) (sat : Bool) (r : Int) : FRes :=
  let m : Int := ((2 ^ typWidth t : Nat) : Int)
  if sat then
    let c := max (intLo t) (min (intHi t) r)
    ((c % m).toNat, if c = r then 0 else gSAT)
  else ((r % m).toNat, 0)

/-- An integer instruction whose result is exact (R361). -/
def State.laneInt (s : State) (sp : LRSpec) (op : Nat) (o : LR) (bad : Bool) (f : Int → Int → Int → Int) : Out :=
  s.laneLr sp op 1 o bad (fun x s =>
    let t := o.typ.toNat
    s.putTyped x o.d.toNat t (fun l => intFinal t o.sat (f (x.int o.a o.imm t l) (x.int o.b o.imm t l) (x.int o.c o.imm t l))))

/-- An instruction on the n-bit patterns of a and b, or of a and c with b read as 32 bits (R361, R363, R364): `f` is told n. -/
def State.laneBits (s : State) (sp : LRSpec) (op : Nat) (o : LR) (bad : Bool) (f : Nat → Nat → Nat → Nat → Nat) : Out :=
  s.laneLr sp op 1 o bad (fun x s =>
    let t := o.typ.toNat
    s.putTyped x o.d.toNat t (fun l =>
      (f (typWidth t) (x.src o.a.toNat o.imm t l) (if sp.b = .w32 then x.u32 o.b o.imm l else x.src o.b.toNat o.imm t l) (x.src o.c.toNat o.imm t l), 0)))

end Sys2Proof.Machine
end

