-- ==== Sys2Proof/Machine/LaneInt.lean ====
section
/-! DEFINITION. Lane integer and cross-lane instructions (19_lane_integer.md, R360-R375). -/

namespace Sys2Proof.Machine

/-- LNOP (R360). -/
def execLnop (o : LR) (s : State) : Out := s.laneGo (fun _ => { op := 0x000 }) (fun _ => !(Instr.lnop o).wf) (fun _ s => s)

/-! ### Integer instructions (Table 19-1) -/

/-- IADD. -/
def execIadd (o : LR) (s : State) : Out := s.laneInt Row.int2sat 0x001 o (!(Instr.iadd o).wf) (fun x y _ => x + y)
/-- ISUB. -/
def execIsub (o : LR) (s : State) : Out := s.laneInt Row.int2sat 0x002 o (!(Instr.isub o).wf) (fun x y _ => x - y)
/-- IMUL. -/
def execImul (o : LR) (s : State) : Out := s.laneInt Row.int2sat 0x003 o (!(Instr.imul o).wf) (fun x y _ => x * y)
/-- IMULH: Floor(x y / 2^n). -/
def execImulh (o : LR) (s : State) : Out :=
  s.laneInt Row.int2 0x004 o (!(Instr.imulh o).wf) (fun x y _ => x * y / ((2 ^ typWidth o.typ.toNat : Nat) : Int))
/-- IMAD. -/
def execImad (o : LR) (s : State) : Out := s.laneInt Row.imad 0x005 o (!(Instr.imad o).wf) (fun x y z => x * y + z)
/-- IABS. -/
def execIabs (o : LR) (s : State) : Out := s.laneInt Row.iabs 0x006 o (!(Instr.iabs o).wf) (fun x _ _ => (x.natAbs : Int))
/-- INEG. -/
def execIneg (o : LR) (s : State) : Out := s.laneInt Row.ineg 0x007 o (!(Instr.ineg o).wf) (fun x _ _ => -x)
/-- IMIN. -/
def execImin (o : LR) (s : State) : Out := s.laneInt Row.int2 0x008 o (!(Instr.imin o).wf) (fun x y _ => min x y)
/-- IMAX. -/
def execImax (o : LR) (s : State) : Out := s.laneInt Row.int2 0x009 o (!(Instr.imax o).wf) (fun x y _ => max x y)
/-- AND. -/
def execLAnd (o : LR) (s : State) : Out := s.laneBits Row.int2 0x00A o (!(Instr.lAnd o).wf) (fun _ x y _ => x &&& y)
/-- OR. -/
def execLOr (o : LR) (s : State) : Out := s.laneBits Row.int2 0x00B o (!(Instr.lOr o).wf) (fun _ x y _ => x ||| y)
/-- XOR. -/
def execLXor (o : LR) (s : State) : Out := s.laneBits Row.int2 0x00C o (!(Instr.lXor o).wf) (fun _ x y _ => x ^^^ y)
/-- ANDN: x AND NOT y. -/
def execAndn (o : LR) (s : State) : Out := s.laneBits Row.int2 0x00D o (!(Instr.andn o).wf) (fun n x y _ => x &&& (2 ^ n - 1 - y))
/-- NOT. -/
def execLNot (o : LR) (s : State) : Out := s.laneBits Row.int1 0x00E o (!(Instr.lNot o).wf) (fun n x _ _ => 2 ^ n - 1 - x)

/-- SHL (R363). -/
def execShl (o : LR) (s : State) : Out :=
  s.laneBits Row.shift 0x00F o (!(Instr.shl o).wf) (fun n x c _ => if c < n then x * 2 ^ c % 2 ^ n else 0)
/-- SHR (R363). -/
def execShr (o : LR) (s : State) : Out := s.laneBits Row.shift 0x010 o (!(Instr.shr o).wf) (fun n x c _ => if c < n then x / 2 ^ c else 0)
/-- SRA (R363). -/
def execSra (o : LR) (s : State) : Out :=
  s.laneBits Row.shift 0x011 o (!(Instr.sra o).wf) (fun n x c _ =>
    (toSigned n x / ((2 ^ min c n : Nat) : Int) % ((2 ^ n : Nat) : Int)).toNat)
/-- ROTL (R363). -/
def execRotl (o : LR) (s : State) : Out :=
  s.laneBits Row.shift 0x012 o (!(Instr.rotl o).wf) (fun n x c _ => (x * 2 ^ (c % n) + x / 2 ^ (n - c % n)) % 2 ^ n)

/-- The position and the effective length of a field descriptor; none for an empty field (R364). -/
def fieldOf (n b : Nat) : Option (Nat × Nat) :=
  if b / 256 % 256 = 0 ∨ n ≤ b % 256 then none else some (b % 256, min (b / 256 % 256) (n - b % 256))

/-- BFE (R364). -/
def execBfe (o : LR) (s : State) : Out :=
  s.laneBits Row.bfe 0x013 o (!(Instr.bfe o).wf) (fun n x b _ => match fieldOf n b with
    | none => 0
    | some (p, f) =>
      let r := x / 2 ^ p % 2 ^ f
      if typSigned o.typ.toNat && decide (2 ^ (f - 1) ≤ r) then r + (2 ^ n - 2 ^ f) else r)
/-- BFI (R364). -/
def execBfi (o : LR) (s : State) : Out :=
  s.laneBits Row.bfi 0x014 o (!(Instr.bfi o).wf) (fun n x b z => match fieldOf n b with
    | none => z
    | some (p, f) => z - z / 2 ^ p % 2 ^ f * 2 ^ p + x % 2 ^ f * 2 ^ p)

/-- POPC. -/
def execPopc (o : LR) (s : State) : Out :=
  s.laneBits Row.bits1 0x015 o (!(Instr.popc o).wf) (fun n x _ _ => ((List.range n).filter (fun i => x / 2 ^ i % 2 = 1)).length)
/-- CLZ; n when x is 0. -/
def execClz (o : LR) (s : State) : Out := s.laneBits Row.bits1 0x016 o (!(Instr.clz o).wf) (fun n x _ _ => n - blen x)
/-- BREV. -/
def execBrev (o : LR) (s : State) : Out :=
  s.laneBits Row.bits1 0x017 o (!(Instr.brev o).wf) (fun n x _ _ => (List.range n).foldl (fun v i => v + x / 2 ^ i % 2 * 2 ^ (n - 1 - i)) 0)

/-- Byte `i` of a PERMB result (R365). -/
def permByte (x y c i : Nat) : Nat :=
  let q := c / 2 ^ (4 * i) % 16
  let b := (y * 2 ^ 32 + x) / 2 ^ (8 * (q % 8)) % 256
  if 8 ≤ q then (if 128 ≤ b then 0xFF else 0) else b

/-- PERMB (R365). -/
def execPermb (o : LR) (s : State) : Out :=
  s.laneLr Row.permb 0x018 1 o (!(Instr.permb o).wf) (fun x s =>
    s.putTyped x o.d.toNat 5 (fun l =>
      ((List.range 4).foldl (fun v i => v + permByte (x.u32 o.a o.imm l) (x.u32 o.b o.imm l) (x.u32 o.c o.imm l) i * 2 ^ (8 * i)) 0, 0)))

/-- An integer condition (R366). -/
def intCond (cc : Nat) (x y : Int) : Bool := match cc with
  | 0 => decide (x = y)
  | 1 => decide (x ≠ y)
  | 2 => decide (x < y)
  | 3 => decide (x ≤ y)
  | 4 => decide (y < x)
  | _ => decide (y ≤ x)

/-- ICMP (R366). -/
def execIcmp (o : LR) (s : State) : Out :=
  s.laneLr Row.icmp 0x019 1 o (!(Instr.icmp o).wf) (fun x s =>
    s.putMaskIn x o.kd (fun l => intCond o.d.toNat (x.int o.a o.imm o.typ.toNat l) (x.int o.b o.imm o.typ.toNat l)))

/-- SEL (R367). -/
def execSel (o : LR) (s : State) : Out :=
  s.laneLr Row.sel 0x01A 1 o (!(Instr.sel o).wf) (fun x s =>
    s.putTyped x o.d.toNat o.typ.toNat (fun l => (x.src (if (x.getK o.kd.toNat).getLsbD l then o.a.toNat else o.b.toNat) o.imm o.typ.toNat l, 0)))

/-- MOV. -/
def execLMov (o : LR) (s : State) : Out := s.laneBits Row.int1 0x01B o (!(Instr.lMov o).wf) (fun _ x _ _ => x)

/-! ### Division (R368, Table 19-2) -/

/-- A quotient with its flags. -/
def divide (t : Nat) (sat : Bool) (x y : Int) : FRes :=
  if y = 0 then (2 ^ typWidth t - 1, gDZ) else intFinal t sat (Int.tdiv x y)
/-- A remainder with its flags. -/
def remainder (t : Nat) (x y : Int) : FRes :=
  if y = 0 then ((intFinal t false x).1, gDZ) else intFinal t false (Int.tmod x y)

/-- IDIV (R368). -/
def execIdiv (o : LR) (s : State) : Out :=
  s.laneLr Row.idiv 0x01C 4 o (!(Instr.idiv o).wf) (fun x s =>
    s.putLate x o.d.toNat o.typ.toNat o.fs (fun l => divide o.typ.toNat o.sat (x.int o.a o.imm o.typ.toNat l) (x.int o.b o.imm o.typ.toNat l)))
/-- IREM (R368). -/
def execIrem (o : LR) (s : State) : Out :=
  s.laneLr Row.irem 0x01D 4 o (!(Instr.irem o).wf) (fun x s =>
    s.putLate x o.d.toNat o.typ.toNat o.fs (fun l => remainder o.typ.toNat (x.int o.a o.imm o.typ.toNat l) (x.int o.b o.imm o.typ.toNat l)))

/-! ### Shuffles (R369, R370) -/

/-- The lanes of a segment (R370). -/
def segment (c : Nat) : Nat := 32 / 2 ^ min (c % 8) 5

/-- A shuffle: `src` gives the source lane from the lane, its segment's size and base, and the operand b. -/
def State.shuffle (s : State) (op : Nat) (o : LR) (bad : Bool) (src : Nat → Nat → Nat → Nat → Nat) : Out :=
  s.laneLr Row.shfl op 1 o bad (fun x s =>
    let t := o.typ.toNat
    s.putTyped x o.d.toNat t (fun l =>
      let w := segment (x.u32 o.c o.imm l)
      let from_ := src l w (l / w * w) (x.u32 o.b o.imm l)
      if x.c.t.deadm.getLsbD from_ then (0, xDEADRD.toNat) else (x.src o.a.toNat o.imm t from_, 0)))

/-- SHFL (R370). -/
def execShfl (o : LR) (s : State) : Out := s.shuffle 0x080 o (!(Instr.shfl o).wf) (fun _ w base k => base + k % w)
/-- SHFLUP (R370). -/
def execShflup (o : LR) (s : State) : Out := s.shuffle 0x081 o (!(Instr.shflup o).wf) (fun l _ base k => if k ≤ l - base then l - k else l)
/-- SHFLDN (R370). -/
def execShfldn (o : LR) (s : State) : Out := s.shuffle 0x082 o (!(Instr.shfldn o).wf) (fun l w base k => if k ≤ base + w - 1 - l then l + k else l)
/-- SHFLX (R370). -/
def execShflx (o : LR) (s : State) : Out := s.shuffle 0x083 o (!(Instr.shflx o).wf) (fun l w base k => base + (l ^^^ k) % w)

/-! ### Votes, election (R371, R372) -/

/-- VOTE (R371). -/
def execVote (o : LR) (s : State) : Out :=
  s.laneLr Row.vote 0x084 1 o (!(Instr.vote o).wf) (fun x s => s.putMask x o.kd (maskOf ((lanesOf x.act).filter (fun l => decide (x.u32 o.a o.imm l ≠ 0)))))

/-- ELECT (R372). -/
def execElect (o : LR) (s : State) : Out :=
  s.laneLr Row.elect 0x087 1 o (!(Instr.elect o).wf) (fun x s => s.putMask x o.kd (match lanesOf x.act with
    | [] => 0
    | l :: _ => 1#32 <<< l))

/-! ### Reductions and scans (R373-R375) -/

/-- The identity of an integer operation under a type (Table 19-3). -/
def intIdentity (op t : Nat) : Int := match op with
  | 1 => intHi t
  | 2 => intLo t
  | 3 => if typSigned t then -1 else intHi t
  | _ => 0
/-- Two integers combined; the sum is exact (R374). -/
def intCombine (op t : Nat) (x y : Int) : Int :=
  let m : Int := ((2 ^ typWidth t : Nat) : Int)
  match op with
  | 0 => x + y
  | 1 => min x y
  | 2 => max x y
  | 3 => intOf t ((x % m).toNat &&& (y % m).toNat)
  | 4 => intOf t ((x % m).toNat ||| (y % m).toNat)
  | _ => intOf t ((x % m).toNat ^^^ (y % m).toNat)
/-- The fold of an integer reduction, finished (R374). -/
def intFold (op t : Nat) (sat : Bool) (xs : List Int) : FRes := intFinal t sat (xs.foldl (intCombine op t) (intIdentity op t))

/-- The identity of a floating operation. -/
def floatIdentity (f : FFmt) (op : Nat) : Nat := match op with
  | 1 => f.infinity false
  | 2 => f.infinity true
  | _ => 0
/-- Two floating values combined, with their flags (R375). -/
def floatCombine (f : FFmt) (op mode : Nat) (ftz : Bool) (x y : Nat) : FRes := match op with
  | 0 => f.add mode ftz (f.decode x) (f.decode y)
  | 1 => f.minmax false x y
  | _ => f.minmax true x y
/-- A value as an instruction writes it: every NaN canonical (R255). -/
def FFmt.canon (f : FFmt) (x : Nat) : Nat := if (f.decode x).isNan then f.nan else x
/-- The fold of a floating reduction in ascending lane order (R375): the first element as read, where a signalling NaN sets NV (R255). -/
def floatFold (f : FFmt) (op mode : Nat) (ftz : Bool) (xs : List Nat) : FRes := match xs with
  | [] => (floatIdentity f op, 0)
  | x :: rest =>
    let r := rest.foldl (fun (r : FRes) y => let z := floatCombine f op mode ftz r.1 y; (z.1, z.2 ||| r.2)) (x, if (f.decode x).isSig then gNV else 0)
    (f.canon r.1, r.2)

/-- The rounding mode of a lane instruction: rnd3, or FMT.RND as its clause's CLS left it (R254). -/
def LCtx.mode (x : LCtx) (rnd : BitVec 3) : Nat := if rnd = 4 then fmtRnd x.cl.fmt else rnd.toNat

/-- The fold of a list of lanes, for an integer or a floating type. -/
def LCtx.fold (x : LCtx) (o : LR) (ls : List Nat) : FRes :=
  let t := o.typ.toNat
  let op := o.kd.toNat % 8
  if t < 8 then intFold op t o.sat (ls.map (x.int o.a o.imm t))
  else
    let f := fmtOfTyp t
    floatFold f op (x.mode o.rnd) o.ftz (ls.map (fun l => f.operand (x.src o.a.toNat o.imm t l) o.ftz false false))

/-- The row REDU and SCAN read their registers by. -/
def foldRow : LRSpec := { a := .typ }
/-- The cost of an instruction that may be FP64-typed (R117). -/
def f64Cost (t n : Nat) : Nat := if t = 11 then 2 * n else n

/-- REDU (R373-R375). -/
def execRedu (o : LR) (s : State) : Out :=
  s.laneLr foldRow 0x085 (f64Cost o.typ.toNat 1) o (!(Instr.redu o).wf) (fun x s =>
    let r := x.fold o (lanesOf x.act)
    s.putTyped x o.d.toNat o.typ.toNat (fun _ => r))

/-- SCAN (R373-R375): each lane folds the lanes below it, and itself unless exclusive. -/
def execScan (o : LR) (s : State) : Out :=
  s.laneLr foldRow 0x086 (f64Cost o.typ.toNat 1) o (!(Instr.scan o).wf) (fun x s =>
    s.putTyped x o.d.toNat o.typ.toNat (fun l => x.fold o ((lanesOf x.act).filter (fun k => if o.kd.getLsbD 3 then decide (k < l) else decide (k ≤ l)))))

end Sys2Proof.Machine
end

