-- ==== Sys2Proof/Machine/LaneMem.lean ====
section
/-! DEFINITION. Lane memory instructions and OUTL (R397-R399, R409-R416): LD, ST, LDC, STC, LDH, PREF, ATOM. -/

namespace Sys2Proof.Machine

/-- The record an LM word names, as its clause's CLS left it (R170). -/
def LCtx.brec (x : LCtx) (o : LM) : BitVec 256 := Sparse.get 0 x.cl.b o.b.toNat
/-- The elements of an access (R320). -/
def lmWidth (o : LM) : Nat := 2 ^ o.w.toNat
/-- The element index of a lane (R186). -/
def LCtx.index (x : LCtx) (o : LM) (l : Nat) : Int := (x.src32 o.i.toNat 0 l).toInt + o.off.toInt

/-- The registers an access of `w` elements uses from `d` (R186). -/
def accRegs (d w e : Nat) : List Nat := (List.range ((w * e + 3) / 4)).map (d + ·)

/-- The elements of an LM access, formed in its live active lanes (R186, R187). -/
def State.formLm (s : State) (x : LCtx) (o : LM) : List Elem × List (Nat × LaneFault) :=
  let r := x.brec o
  formLanes r (rE r) (rE r) (s.scratch x.c.core x.c.t.task).size (lmWidth o) (lanesOf x.act) (x.index o)

/-- g of an LM access (R117, R118). -/
def State.touchLm (s : State) (x : LCtx) (o : LM) : Nat :=
  let r := x.brec o
  formTouch r (rE r) (rE r) (s.scratch x.c.core x.c.t.task).size (lmWidth o) (lanesOf x.act) (x.index o)

/-- Whether an access is a long-latency operation, which counts against a flag (R171): a store and a prefetch are none. -/
def AccOp.late : AccOp → Bool
  | .load | .loadHome | .consume | .atomic _ => true
  | _ => false

/-- An LM access as it issues. -/
def State.lmAcc (s : State) (x : LCtx) (o : LM) (op : AccOp) (dest : Dest) (n : Nat) (f : Elem → Elem) : Acc × List (Nat × LaneFault) :=
  let e := s.formLm x o
  ({ op := op, scalar := false, brec := x.brec o, dest := dest, size := rE (x.brec o), width := lmWidth o, elems := e.1.map f
     flag := if op.late then x.cl.flagOf o.fs else none, cost := n + s.touchLm x o, keep := decide (o.hint ≠ 3), hint := o.hint.toNat, pc := x.cl.pc, word := some x.word }, e.2)

/-- A record that an LM access may not use (R185, R320). R186 applies R166's limits to every register that an access names, and only R414 says of one, ATOM, that 8-byte elements need an even d8: the manual leaves open whether LD, LDC, LDH, ST and STC do, and the model accepts an odd d8 (log entry 81). -/
def LCtx.badRec (x : LCtx) (o : LM) (kind : Nat → Bool) : Bool := !recOk (x.brec o) || !kind (rKind (x.brec o)) || decide (64 < lmWidth o * rE (x.brec o))

/-- The kinds of Table 21-2. -/
def anyKind (_ : Nat) : Bool := true
def countedKind (k : Nat) : Bool := k = 4
def homeKinds (k : Nat) : Bool := k = 0 || k = 2 || k = 4
def atomKinds (k : Nat) : Bool := k ≠ 3

/-- The request of an LM access: its cost is `n` plus g (R117). -/
def lmReq (s : State) (o : LM) (op n : Nat) (reads writes : LCtx → List Nat) (boundary : LCtx → Bool) (acc : LCtx → Acc × List (Nat × LaneFault)) (x : LCtx) : LReq :=
  { op := op, cost := n + s.touchLm x o, reads := selRegs o.i.toNat false ++ reads x, writes := writes x, sregs := selScalars o.i.toNat
    boundary := boundary x, memory := true, stall := s.memStall x.c (acc x).1 }

/-- An LM access issued: its checks, its charge, then the access (R409). -/
def State.laneMem (s : State) (o : LM) (op n : Nat) (reads writes : LCtx → List Nat) (boundary : LCtx → Bool) (ill : LCtx → Bool) (acc : LCtx → Acc × List (Nat × LaneFault)) : Out :=
  s.laneGo (lmReq s o op n reads writes boundary acc) ill (fun x s' => s'.access x.c.core x.c.slot x.c.p (acc x).1 (acc x).2)

/-- Registers of an access from d8. -/
def LCtx.dRegs (x : LCtx) (o : LM) : List Nat := accRegs o.d.toNat (lmWidth o) (rE (x.brec o))

/-- The bytes that element `j` of a lane stores from V(d) up (R411). -/
def LCtx.storeVal (x : LCtx) (o : LM) (e : Elem) : Elem :=
  let n := rE (x.brec o)
  let v := (x.dRegs o).reverse.foldl (fun (v : Nat) r => v * 2 ^ 32 + (x.c.t.getV r e.lane).toNat) 0
  { e with val := v / 2 ^ (8 * n * e.j) % 2 ^ (8 * n) }

/-- A load into V(d) (R410, R412). -/
def State.lmLoad (s : State) (o : LM) (op : Nat) (a : AccOp) (kind : Nat → Bool) (bad : Bool) (boundary : LCtx → Bool) : Out :=
  s.laneMem o op 1 (fun _ => []) (fun x => x.dRegs o) boundary (fun x => bad || x.badRec o kind) (fun x => s.lmAcc x o a (.lanes o.d.toNat) 1 id)

/-- Whether an LM word goes through an IO window. -/
def LCtx.ioWindow (o : LM) (x : LCtx) : Bool := rKind (x.brec o) = 3

/-- LD (R410). -/
def execLd (o : LM) (s : State) : Out := s.lmLoad o 0x300 .load anyKind (!(Instr.ld o).wf) (LCtx.ioWindow o)
/-- LDH (R410). -/
def execLdh (o : LM) (s : State) : Out := s.lmLoad o 0x304 .loadHome homeKinds (!(Instr.ldh o).wf) (fun _ => false)
/-- LDC (R412). -/
def execLdc (o : LM) (s : State) : Out := s.lmLoad o 0x302 .consume countedKind (!(Instr.ldc o).wf) (fun _ => true)

/-- ST (R411). -/
def execSt (o : LM) (s : State) : Out :=
  s.laneMem o 0x301 1 (fun x => x.dRegs o) (fun _ => []) (LCtx.ioWindow o) (fun x => !(Instr.st o).wf || x.badRec o anyKind)
    (fun x => s.lmAcc x o .store .nowhere 1 (x.storeVal o))

/-- The reader count of an STC: the word's, or the record's CNT (R198). -/
def LCtx.stcCount (x : LCtx) (o : LM) : Nat := if o.aux.toNat % 256 = 0 then rCnt (x.brec o) else o.aux.toNat % 256

/-- STC (R411). -/
def execStc (o : LM) (s : State) : Out :=
  s.laneMem o 0x303 1 (fun x => x.dRegs o) (fun _ => []) (fun _ => false) (fun x => !(Instr.stc o).wf || x.badRec o countedKind || x.stcCount o = 0)
    (fun x => s.lmAcc x o (.storeCounted (x.stcCount o)) .nowhere 1 (x.storeVal o))

/-- PREF (R413). -/
def execPref (o : LM) (s : State) : Out :=
  s.laneMem o 0x305 1 (fun _ => []) (fun _ => []) (fun _ => false) (fun x => !(Instr.pref o).wf || x.badRec o homeKinds)
    (fun x => s.lmAcc x o .prefetch .nowhere 1 id)

/-! ### ATOM (R414-R416) -/

/-- The operation, the data register and the compare register of an ATOM (R323). -/
def lmAop (o : LM) : Nat := o.aux.toNat % 16
def lmData (o : LM) : Nat := o.aux.toNat / 16 % 256
def lmCmp (o : LM) : Nat := o.aux.toNat / 4096 % 256

/-- The scope code of an LM word as R306 codes it: 3 is the record's SCOPE (R321). -/
def LCtx.lmScope (x : LCtx) (o : LM) : Nat := if o.scope = 0 then rScope (x.brec o) else o.scope.toNat - 1

/-- The registers of an atomic's operand. -/
def LCtx.opRegs (x : LCtx) (o : LM) (r : Nat) : List Nat := accRegs r 1 (rE (x.brec o))
/-- An operand of an atomic in a lane. -/
def LCtx.opVal (x : LCtx) (o : LM) (r l : Nat) : Nat := ((x.opRegs o r).reverse.foldl (fun (v : Nat) k => v * 2 ^ 32 + (x.c.t.getV k l).toNat) 0) % 2 ^ (8 * rE (x.brec o))

/-- Whether an ATOM's registers or element size fault ILLOP (R166, R414). -/
def LCtx.badAtom (x : LCtx) (o : LM) : Bool :=
  x.badRec o atomKinds || !(rEsz (x.brec o) = 2 || rEsz (x.brec o) = 3) ||
    (rEsz (x.brec o) = 3 && (decide (o.d.toNat % 2 = 1) || decide (lmData o % 2 = 1) || (lmAop o = 10 && decide (lmCmp o % 2 = 1))))

/-- ATOM (R414): bit 58 is .rel, bit 57 .acq. -/
def execAtom (o : LM) (s : State) : Out :=
  s.laneMem o 0x380 2 (fun x => x.opRegs o (lmData o) ++ (if lmAop o = 10 then x.opRegs o (lmCmp o) else [])) (fun x => x.dRegs o) (fun _ => true)
    (fun x => !(Instr.atom o).wf || x.badAtom o)
    (fun x =>
      let a := s.lmAcc x o (.atomic (lmAop o)) (.lanes o.d.toNat) 2
        (fun e => { e with val := x.opVal o (lmData o) e.lane, cmp := if lmAop o = 10 then x.opVal o (lmCmp o) e.lane else 0 })
      ({ a.1 with scope := x.lmScope o, rel := o.hint.getLsbD 1, acq := o.hint.getLsbD 0, keep := true, hint := 0 }, a.2))

/-! ### OUTL (R397-R399) -/

/-- The lanes that append. -/
def LCtx.appending (x : LCtx) (o : LM) : List Nat := (lanesOf x.act).filter (fun l => (x.getK o.kd.toNat).getLsbD l)

/-- Whether an OUTL faults ILLOP: its record must be KIND 0 with ESZ 3 and EXTENT at least 1, its scope above .cor (R397). -/
def LCtx.badOutl (x : LCtx) (o : LM) : Bool :=
  !recOk (x.brec o) || decide (rKind (x.brec o) ≠ 0) || decide (rEsz (x.brec o) ≠ 3) || rExtent (x.brec o) = 0 || x.lmScope o = 0

/-- The access of an OUTL: the add on the header in its lowest lane, and the entry each lane brings (R398). -/
def State.outlAcc (x : LCtx) (o : LM) : Acc × List (Nat × LaneFault) :=
  let r := x.brec o
  let ls := x.appending o
  let entries : List Elem := ls.map (fun l =>
    { lane := l, j := 0, va := none, val := ((x.src32 o.i.toNat 0 l).toNat + o.off.toNat) % 2 ^ 32 + (x.c.t.getV o.d.toNat l).toNat * 2 ^ 32 })
  let a : Acc := { op := .append, scalar := false, brec := r, dest := .nowhere, size := 4, width := 1, elems := [], scope := x.lmScope o, pc := x.cl.pc, word := some x.word }
  match ls with
  | [] => (a, [])
  | q :: _ => match formElem r 8 8 0 0 with
    | .error f => ({ a with elems := entries }, ls.map (fun l => (0, { lane := l, code := f.1, va := f.2 })))
    | .ok va => ({ a with elems := { lane := q, j := 0, va := va, val := ls.length } :: entries }, [])

/-- OUTL (R397): 1 au whatever it writes. -/
def execOutl (o : LM) (s : State) : Out :=
  s.laneGo
    (fun x => { op := 0x205, reads := selRegs o.i.toNat false ++ [o.d.toNat], kregs := [o.kd.toNat], sregs := selScalars o.i.toNat, memory := true
                stall := s.memStall x.c (State.outlAcc x o).1 })
    (fun x => !(Instr.outl o).wf || x.badOutl o)
    (fun x s' => if (x.appending o).isEmpty then s' else s'.access x.c.core x.c.slot x.c.p (State.outlAcc x o).1 (State.outlAcc x o).2)

end Sys2Proof.Machine
end

