-- ==== Sys2Proof/Machine/LaneFloat.lean ====
section
/-! DEFINITION. Lane floating-point and conversion instructions (20_lane_float.md, R377-R396): arithmetic, comparison, the long-latency operations, CVT, and the shared-exponent instructions. -/

namespace Sys2Proof.Machine

/-! ### Operands and results (R378-R380) -/

/-- Whether a type is a packed pair. -/
def typPacked (t : Nat) : Bool := t = 12 || t = 13

/-- Element `i` of an operand's bits under a floating type. -/
def elemBits (t i v : Nat) : Nat := if typPacked t then v / 2 ^ (16 * i) % 2 ^ 16 else v

/-- An operand formed (R378): `n` is its place in neg and abs, 0 for a, 1 for b, 2 for c. -/
def LCtx.fop (x : LCtx) (o : LR) (sel : BitVec 9) (n i l : Nat) : Nat :=
  let t := o.typ.toNat
  (fmtOfTyp t).operand (elemBits t i (x.src sel.toNat o.imm t l)) o.ftz (n < 2 && o.abs.getLsbD (1 - n)) (o.neg.getLsbD (2 - n))

/-- The results of the elements of a type joined, their flags ORed (R251). -/
def joinElems (t : Nat) (f : Nat → FRes) : FRes :=
  if typPacked t then ((f 0).1 + (f 1).1 * 2 ^ 16, (f 0).2 ||| (f 1).2) else f 0

/-- A result clamped where sat says so (R255). -/
def satClamp (f : FFmt) (sat : Bool) (r : FRes) : FRes := if sat then (f.clamp r.1, r.2) else r

/-- A floating operation in one lane: `f` is told the format, the mode, the element, and the operands' bits. -/
def LCtx.float (x : LCtx) (o : LR) (f : FFmt → Nat → Nat → Nat → Nat → FRes) (l : Nat) : FRes :=
  let m := fmtOfTyp o.typ.toNat
  joinElems o.typ.toNat (fun i => satClamp m o.sat (f m (x.mode o.rnd) (x.fop o o.a 0 i l) (x.fop o o.b 1 i l) (x.fop o o.c 2 i l)))

/-- A floating instruction whose result is ready at once. -/
def State.laneFloat (s : State) (sp : LRSpec) (op : Nat) (o : LR) (bad : Bool) (f : FFmt → Nat → Nat → Nat → Nat → FRes) : Out :=
  s.laneLr sp op (f64Cost o.typ.toNat 1) o bad (fun x s => s.putTyped x o.d.toNat o.typ.toNat (x.float o f))

/-- A floating instruction of long latency (R379, R388). -/
def State.laneLong (s : State) (sp : LRSpec) (op : Nat) (o : LR) (bad : Bool) (f : FFmt → Nat → Nat → Nat → Nat → FRes) : Out :=
  s.laneLr sp op (f64Cost o.typ.toNat 4) o bad (fun x s => s.putLate x o.d.toNat o.typ.toNat o.fs (x.float o f))

/-! ### Arithmetic (Table 20-1) -/

/-- FADD. -/
def execFadd (o : LR) (s : State) : Out := s.laneFloat Row.float2 0x100 o (!(Instr.fadd o).wf) (fun f m a b _ => f.add m o.ftz (f.decode a) (f.decode b))
/-- FSUB. -/
def execFsub (o : LR) (s : State) : Out :=
  s.laneFloat Row.float2 0x101 o (!(Instr.fsub o).wf) (fun f m a b _ => f.add m o.ftz (f.decode a) (f.decode b).negate)
/-- FMUL. -/
def execFmul (o : LR) (s : State) : Out := s.laneFloat Row.float2 0x102 o (!(Instr.fmul o).wf) (fun f m a b _ => f.mul m o.ftz (f.decode a) (f.decode b))
/-- FFMA. -/
def execFfma (o : LR) (s : State) : Out :=
  s.laneFloat Row.ffma 0x103 o (!(Instr.ffma o).wf) (fun f m a b c => f.fma m o.ftz (f.decode a) (f.decode b) (f.decode c))
/-- FMIN (R383). -/
def execFmin (o : LR) (s : State) : Out := s.laneFloat Row.fminmax 0x104 o (!(Instr.fmin o).wf) (fun f _ a b _ => f.minmax false a b)
/-- FMAX (R383). -/
def execFmax (o : LR) (s : State) : Out := s.laneFloat Row.fminmax 0x105 o (!(Instr.fmax o).wf) (fun f _ a b _ => f.minmax true a b)

/-- FCMP (R384). -/
def execFcmp (o : LR) (s : State) : Out :=
  s.laneLr Row.fcmp 0x106 (f64Cost o.typ.toNat 1) o (!(Instr.fcmp o).wf) (fun x s =>
    let r := fun l => (fmtOfTyp o.typ.toNat).compare o.d.toNat (x.fop o o.a 0 0 l) (x.fop o o.b 1 0 l)
    (s.putMaskIn x o.kd (fun l => (r l).1)).flagUp (BitVec.ofNat 32 ((lanesOf x.act).foldl (fun g l => g ||| (r l).2) 0)))

/-- FCLASS (R385). -/
def execFclass (o : LR) (s : State) : Out :=
  s.laneLr Row.fclass 0x107 (f64Cost o.typ.toNat 1) o (!(Instr.fclass o).wf) (fun x s =>
    s.putTyped x o.d.toNat 5 (fun l => ((fmtOfTyp o.typ.toNat).classify (x.src o.a.toNat o.imm o.typ.toNat l), 0)))

/-- FRND (R386). -/
def execFrnd (o : LR) (s : State) : Out := s.laneFloat Row.frnd 0x108 o (!(Instr.frnd o).wf) (fun f m a _ _ => f.integral m (f.decode a))

/-- FSCALE (R387): b is a signed 32-bit integer. -/
def execFscale (o : LR) (s : State) : Out :=
  s.laneLr Row.fscale 0x111 (f64Cost o.typ.toNat 1) o (!(Instr.fscale o).wf) (fun x s =>
    s.putTyped x o.d.toNat o.typ.toNat (fun l => x.float o (fun f m a _ _ => f.scale m o.ftz (x.src32 o.b.toNat o.imm l).toInt (f.decode a)) l))

/-! ### Long-latency operations (R388, R389) -/

/-- FRCP. -/
def execFrcp (o : LR) (s : State) : Out := s.laneLong Row.flong 0x109 o (!(Instr.frcp o).wf) (fun f m a _ _ => f.rcp m o.ftz (f.decode a))
/-- FRSQ. -/
def execFrsq (o : LR) (s : State) : Out := s.laneLong Row.flong 0x10A o (!(Instr.frsq o).wf) (fun f m a _ _ => f.rsqrt m o.ftz (f.decode a))
/-- FSQRT. -/
def execFsqrt (o : LR) (s : State) : Out := s.laneLong Row.flong 0x10B o (!(Instr.fsqrt o).wf) (fun f m a _ _ => f.sqrt m o.ftz (f.decode a))
/-- FEXP2. -/
def execFexp2 (o : LR) (s : State) : Out := s.laneLong Row.flong 0x10C o (!(Instr.fexp2 o).wf) (fun f m a _ _ => f.exp2 m o.ftz a (f.decode a))
/-- FLOG2. -/
def execFlog2 (o : LR) (s : State) : Out := s.laneLong Row.flong 0x10D o (!(Instr.flog2 o).wf) (fun f m a _ _ => f.log2 m o.ftz a (f.decode a))
/-- FSINPI. -/
def execFsinpi (o : LR) (s : State) : Out := s.laneLong Row.flong 0x10E o (!(Instr.fsinpi o).wf) (fun f m a _ _ => f.sinpi m o.ftz a (f.decode a))
/-- FCOSPI. -/
def execFcospi (o : LR) (s : State) : Out := s.laneLong Row.flong 0x10F o (!(Instr.fcospi o).wf) (fun f m a _ _ => f.cospi m o.ftz a (f.decode a))
/-- FDIV. -/
def execFdiv (o : LR) (s : State) : Out := s.laneLong Row.fdiv 0x110 o (!(Instr.fdiv o).wf) (fun f m a b _ => f.div m o.ftz (f.decode a) (f.decode b))

/-! ### CVT (R390, R391) -/

/-- The registers a CVT reads: b only where its row names it. -/
def cvtRow (o : LR) : LRSpec :=
  let st := o.kd.toNat
  let dt := o.typ.toNat
  { a := .typ, b := if decide (8 ≤ st) && decide (st ≤ 11) && typPacked dt then .typ else if typPacked st && decide (8 ≤ dt) && decide (dt ≤ 11) then .w32 else .no }

/-- One value converted from type `st` to type `dt` (Table 20-5). -/
def convert (dt st mode : Nat) (ftz sat : Bool) (v : Nat) : FRes :=
  let g := fmtOfTyp dt
  if st < 8 then
    let i := intOf st v
    if dt < 8 then intFinal dt sat i
    else if i = 0 then (0, 0)
    else satClamp g sat (g.round mode ftz (decide (i < 0)) i.natAbs 0 false)
  else
    let f := fmtOfTyp st
    let x := f.decode (f.operand v ftz false false)
    if dt < 8 then toInteger (typWidth dt) (typSigned dt) mode x
    else satClamp g sat (g.ofVal mode ftz x)

/-- The result of a CVT in one lane (R390). -/
def LCtx.cvt (x : LCtx) (o : LR) (l : Nat) : FRes :=
  let st := o.kd.toNat
  let dt := o.typ.toNat
  let a := x.src o.a.toNat o.imm st l
  let one := convert dt st (x.mode o.rnd) o.ftz o.sat
  if typPacked dt then
    joinElems dt (fun i => one (if typPacked st then elemBits st i a else if i = 0 then a else x.src o.b.toNat o.imm st l))
  else if typPacked st then one (elemBits st ((x.src32 o.b.toNat o.imm l).toNat % 2) a)
  else one a

/-- CVT (R390): FP64-typed when either type is. -/
def execCvt (o : LR) (s : State) : Out :=
  s.laneGo (lrReq (cvtRow o) 0x200 (if o.typ.toNat = 11 ∨ o.kd.toNat = 11 then 2 else 1) o.kd.toNat o) (fun _ => !(Instr.cvt o).wf)
    (fun x s => s.putTyped x o.d.toNat o.typ.toNat (x.cvt o))

/-! ### Shared-exponent instructions (R392-R396) -/

/-- k of an instruction's format code (R392). -/
def LCtx.sxk (_ : LCtx) (o : LR) : Nat := if o.abs = 1 then 2 else if o.abs = 2 then 4 else 7

/-- A lane code (Table 20-6). -/
def laneCode (k : Nat) (b : SxBlock) (j : Nat) : Nat := b.mag j + (if b.sign j then 2 ^ k else 0) + b.e * 2 ^ 8 + b.shift j * 2 ^ 16

/-- QSX (R393). -/
def execQsx (o : LR) (s : State) : Out :=
  s.laneLr Row.qsx 0x201 1 o (!(Instr.qsx o).wf) (fun x s =>
    let k := x.sxk o
    let f := fmtOfTyp o.typ.toNat
    let xs := (List.range 32).map (fun j => if x.act.getLsbD j then f.decode ((x.src32 o.a.toNat o.imm j).toNat % 2 ^ f.width) else .zero false)
    let ex := (x.src32 o.b.toNat o.imm (lowLane x.act)).toNat % 256
    let q := quantise k (fmtExpm x.cl.fmt) (fmtOvp x.cl.fmt) ex xs
    if x.act = 0 then s.putMask x o.kd 0
    else
      (s.putLanes o.d.toNat ((lanesOf x.act).map (fun l => (l, [BitVec.ofNat 32 (laneCode k q.block l)]))) q.flags).putMask x o.kd
        (maskOf ((lanesOf x.act).filter (fun l => q.lost[l]?.getD false))))

/-- What a cross-lane read of every lane finds: a dead lane reads 0 and sets DEADRD (R369). -/
def LCtx.allLanes (x : LCtx) (o : LR) (l : Nat) : Nat := if x.c.t.deadm.getLsbD l then 0 else (x.src32 o.a.toNat o.imm l).toNat
/-- DEADRD when some of the lanes read is dead. -/
def LCtx.deadRead (x : LCtx) (n : Nat) : Nat := if (List.range n).any (fun l => x.c.t.deadm.getLsbD l) then xDEADRD.toNat else 0

/-- The block that lane codes form (R394). -/
def blockOfCodes (k : Nat) (c : Nat → Nat) : SxBlock :=
  { e := c 0 / 2 ^ 8 % 256, sig := (List.range 8).map (fun q => c (4 * q) / 2 ^ 16 % 8), els := (List.range 32).map (fun j => (decide (c j / 2 ^ k % 2 = 1), c j % 2 ^ k)) }

/-- PKSX (R394). -/
def execPksx (o : LR) (s : State) : Out :=
  s.laneLr Row.sx1 0x202 1 o (!(Instr.pksx o).wf) (fun x s =>
    let k := x.sxk o
    let n := (blockOfCodes k (x.allLanes o)).pack k
    if x.act = 0 then s
    else s.putLanes o.d.toNat ((lanesOf x.act).map (fun l => (l, [BitVec.ofNat 32 (if l < sxBytes k / 4 then n / 2 ^ (32 * l) else 0)]))) (x.deadRead 32))

/-- UPSX (R395). -/
def execUpsx (o : LR) (s : State) : Out :=
  s.laneLr Row.sx1 0x203 1 o (!(Instr.upsx o).wf) (fun x s =>
    let k := x.sxk o
    let w := sxBytes k / 4
    let b := SxBlock.unpack k ((List.range w).foldl (fun v i => v + x.allLanes o i * 2 ^ (32 * i)) 0)
    if x.act = 0 then s
    else s.putLanes o.d.toNat ((lanesOf x.act).map (fun l => (l, [BitVec.ofNat 32 (laneCode k b l)]))) (x.deadRead w))

/-- The FP32 bits of a lane code (R396). -/
def decodeCode (k c : Nat) : Nat := (f32.ofVal 0 false (sxValue k (c / 2 ^ 8 % 256) (c / 2 ^ 16 % 8) (decide (c / 2 ^ k % 2 = 1)) (c % 2 ^ k))).1

/-- DQSX (R396). -/
def execDqsx (o : LR) (s : State) : Out :=
  s.laneLr Row.sx1 0x204 1 o (!(Instr.dqsx o).wf) (fun x s =>
    s.putTyped x o.d.toNat 5 (fun l => (decodeCode (x.sxk o) (x.src32 o.a.toNat o.imm l).toNat, 0)))

end Sys2Proof.Machine
end

