-- ==== Sys2Proof/Machine/Resume.lean ====
section
/-! DEFINITION. Waits in their turn: what a portion's scalar stream or lane cursor that waits does when its turn comes (each wait's own operation stands with its instruction). -/

namespace Sys2Proof.Machine

/-- Whether a train's waits may go on: its task runs, or is STARVED and the instruction was issued before (R124), no fault waits for the host, no start acquire is left, its die is not stopped, and only the handler's portion moves while there is a handler. -/
def State.waitMay (s : State) (core p : Nat) (t : Train) : Bool :=
  ((s.task t.task).map (fun k => k.issues || k.state = .starved)).getD false && t.startAcq.isNone && t.startAcqAll.isNone && !t.heldByHandler p && !(s.die (core / 192)).stopped

/-- The logs and positions whose zero-length reads at the host port a wait of .sys scope asks for (R53, R219, R222). -/
def Wait.sysTails (w : Wait) (core : Nat) : List (Nat × Nat) := match w with
  | .release tail true _ _ => [(core, tail)]
  | .fence (some tail) true _ => [(core, tail)]
  | .relAtomic tail true _ => [(core, tail)]
  | .acquire toks true => toks.map (fun k => (k / 2 ^ 51 % 2 ^ 12, k % 2 ^ 51))
  | .acqAll tails true => tails
  | _ => []

/-- A wait of a portion's scalar stream in its turn. The answer of an operation, a write, or a free pair end the others. -/
def State.resumeWait (s : State) (core slot p : Nat) (t : Train) (w : Wait) : State :=
  match w with
  | .none => s
  | .flags m => s.endFlags core slot p m t
  | .release tail sys d tok => s.endRel core slot p tail sys d tok t
  | .fence tail sys d => s.endFence core slot p tail sys d t
  | .acquire toks sys => s.endAcquire core slot p toks sys t
  | .acqAll tails sys => s.endAcqAll core slot p tails sys
  | .relAtomic tail sys x => s.endRelAtomic core slot p tail sys x t
  | .reply _ => s
  | .watch .. => s
  | .arriving r barr pkg tail => s.endArriving core slot p r barr pkg tail t
  | .barrier r ph pkg => s.endBarrier core slot p r ph pkg t
  | .waitb r ph => s.endWaitb core slot p r ph t
  | .join id d => s.endJoin core slot p id d t
  | .joinAny d b => s.endJoinAny core slot p d b t
  | .ending tail => s.endTrain core slot p tail t
  | .mxfork _ => s
  | .rdv d => s.endRdv core slot p d t
  | .repack r => s.endRepack core r t
  | .resize a b d tail => s.endResize core slot p a b d tail t
  | .invalidate va sz => s.endInvalidate core slot p va sz t
  | .settle d => s.endFence core slot p none false d t

/-- A turn of a portion's scalar stream that waits. -/
def State.resume (s : State) (core slot p : Nat) : State :=
  match s.train core slot with
  | none => s
  | some t =>
    match t.portion p with
    | none => s
    | some o => if s.waitMay core p t then ((o.wait.sysTails core).foldl (fun s e => s.hostReads e.1 e.2) s).resumeWait core slot p t o.wait else s

/-- A turn of a portion's lane cursor that waits. -/
def State.resumeLane (s : State) (core slot p : Nat) : State :=
  match s.train core slot with
  | none => s
  | some t =>
    match t.portion p with
    | none => s
    | some o => match o.lwait with
      | .relAtomic tail sys x => if s.waitMay core p t then ((o.lwait.sysTails core).foldl (fun s e => s.hostReads e.1 e.2) s).endRelAtomic core slot p tail sys x t else s
      | _ => s

end Sys2Proof.Machine
end

