-- ==== Sys2Proof/Machine/Homes.lean ====
section
/-! DEFINITION. What happens at the homes (01 R25, R26; 11 R191-R193, R202-R206; 12 R215-R239): the main line, folding of records in stack memory, link-port logs and the host port, fills, atomics, home loads, invalidates, pressure publications, compaction and page migration. Each step acts only when its condition holds; else it changes nothing. -/

namespace Sys2Proof.Machine

/-! ### The main line (R24-R26) -/

/-- The die a record is sent from: that of its log, or of the fold unit that holds its segment (R235). -/
def State.recDie (s : State) (log : Nat) (r : Rec) : Nat := if r.spilled then dieOf (s.segBase r.slot log) else agentDie log

/-- The home of a published record. -/
def State.recHome (s : State) (r : Rec) : Nat := s.homeKey (r.pa.getD 0)

/-- A message on the main line: a log record, an access, the request of a sector, a query, a request to a window, an inbound request, an agent's read or write of its own, a collective's contribution. -/
inductive LineMsg where
  | record (pos : Nat)
  | access (id : Nat)
  | sector (key : Nat) (stash : Bool)
  | query (id : Nat)
  | window (id : Nat)
  | inbound (id : Nat)
  | trip (owner pa : Nat)
  | contribution (id : Nat)
  deriving DecidableEq, Repr

/-- The records, accesses, sectors and queries that the agent `x` has sent to the home `y`, each with its time and its number, until they arrive. -/
def State.recMsgs (s : State) (x y : Nat) : List (Nat × Nat × LineMsg) :=
  ((s.log x).recs.filter (fun r => r.stamp.isSome && decide (s.recHome r = y) && !arrived r.deliv (s.recDie x r) y)).map (fun r => (r.sent, r.msg, .record r.pos))
def State.opMsgs (s : State) (x y cls : Nat) : List (Nat × Nat × LineMsg) :=
  (s.homeOps.filter (fun e => decide (e.2.core = x) && decide (e.2.home = y) && decide (e.2.cls = cls) && !arrived e.2.deliv (x / 192) y)).map (fun e => (e.2.sent, e.1, .access e.1))
def State.fillMsgs (s : State) (x y : Nat) : List (Nat × Nat × LineMsg) :=
  ((s.core x).fills.filter (fun f => isStack f.pa && decide (homeOf f.pa = y) && !arrived f.deliv (x / 192) y)).map (fun f => (f.sent, f.msg, .sector f.key f.stash))
def State.queryMsgs (s : State) (x y : Nat) : List (Nat × Nat × LineMsg) :=
  (s.queries.filter (fun e => decide (e.2.core = x) && decide (homeOf e.2.pa = y) && !arrived e.2.deliv (x / 192) y)).map (fun e => (e.2.began, e.1, .query e.1))
/-- The requests to windows that it has sent to the port of a group, with or without an atomic. -/
def State.windowMsgs (s : State) (x y : Nat) (atom : Bool) : List (Nat × Nat × LineMsg) :=
  (s.outbound.filter (fun e => decide (e.2.src = x) && !e.2.deliv && !e.2.held && (e.2.aop.isSome == atom) && decide (e.2.group.map (4096 + ·) = some y))).map (fun e => (e.2.sent, e.1, .window e.1))
/-- The requests that a link port has taken, by class. -/
def State.inboundMsgs (s : State) (x y : Nat) (atom : Bool) : List (Nat × Nat × LineMsg) :=
  (s.inbound.filter (fun e => match e.2.group with
    | some g => decide (inboundPort e.2.master = x) && decide (homeOf e.2.acc.addr = y) && !arrived e.2.deliv (g / 2) y && (atom == (match e.2.acc.kind with
      | .atomic _ => true
      | _ => false))
    | none => false)).map (fun e => (e.2.at_, e.1, .inbound e.1))
/-- The messages that an agent has sent for its own reads and writes at homes (R425), and a copy engine's contributions (R286). -/
def State.tripMsgs (s : State) (x y : Nat) : List (Nat × Nat × LineMsg) :=
  (s.far.filter (fun f => decide (f.len = 0) && isStack f.pa && f.data.isNone && decide (f.code = 0) && decide (homeOf f.pa = y) && decide (s.ownerAgent f.owner = x))).map (fun f => (f.sent, f.msg, .trip f.owner f.pa))
def State.contribMsgs (s : State) (x y : Nat) : List (Nat × Nat × LineMsg) :=
  (s.contribs.filter (fun e => decide (e.2.src = x) && decide (engineKey e.2.yard = y) && !e.2.deliv)).map (fun e => (e.2.sent, e.2.msg, .contribution e.1))

/-- The messages of an agent to a home in a class (R25): 0 requests and records, 2 atomics, a distributor's query among them (R285). -/
def State.lineMsgs (s : State) (x y z : Nat) : List (Nat × Nat × LineMsg) :=
  if z = 0 then s.recMsgs x y ++ s.opMsgs x y 0 ++ s.fillMsgs x y ++ s.windowMsgs x y false ++ s.inboundMsgs x y false ++ s.tripMsgs x y ++ s.contribMsgs x y
  else if z = 2 then s.opMsgs x y 2 ++ s.queryMsgs x y ++ s.windowMsgs x y true ++ s.inboundMsgs x y true
  else []

/-- The message that was sent first. -/
def firstMsg (ms : List (Nat × Nat × LineMsg)) : Option (Nat × Nat × LineMsg) :=
  ms.foldl (fun b m => match b with
    | none => some m
    | some k => if m.1 < k.1 ∨ (m.1 = k.1 ∧ m.2.1 < k.2.1) then some m else b) none

/-- The oldest message of an agent to a home in a class: the main line delivers it next (R25). -/
def State.lineNext (s : State) (x y z : Nat) : Option (Nat × Nat × LineMsg) := firstMsg (s.lineMsgs x y z)

/-- A record of a log changed by position. -/
def State.modRec (s : State) (log pos : Nat) (f : Rec → Rec) : State :=
  let g := s.log log
  s.setLog log { g with recs := g.recs.map (fun r => if r.pos = pos then f r else r) }

/-! ### Records dropped (R238) -/

/-- A record taken out of its log (R216). -/
def State.takeRec (s : State) (log pos : Nat) : State :=
  let g := s.log log
  s.setLog log { g with recs := g.recs.filter (fun r => decide (r.pos ≠ pos)) }

/-- The fault code with which a dropped record fails the engine job that wrote it. -/
def dropCode (reason : Nat) : Nat :=
  if reason = 1 then fOWNERSHIP else if reason = 2 then fADDRRANGE else if reason = 3 then fMIGRATIONLOST else if reason = 5 then fMLTIMEOUT
  else if reason = 6 then fLINKERR else if reason = 7 then fLINKTIMEOUT else if reason = 8 then fLINKDOWN else fUCESCALAR

/-- The status with which it fails the job (Table 6-8): a link error, a main-line error, or a fault. -/
def dropStatus (reason : Nat) : Nat := jobStatus (dropCode reason)

/-- The log and position a record came from: its own, or those of the record a link-port log took over. -/
def Rec.source (r : Rec) (log : Nat) : Nat × Nat := r.origin.getD (log, r.pos)

/-- A link-port record's acknowledgement reaches the log it came from (R215). -/
def State.acked (s : State) (log pos : Nat) : State :=
  let g := s.log log
  s.setLog log { g with far := g.far.filter (fun q => decide (q ≠ pos)), hostp := g.hostp.filter (fun q => decide (q ≠ pos)) }

/-- A record's error (R238): held, counted and reported; the engine job that wrote it fails (R47, R80). -/
def State.recFails (s : State) (log : Nat) (r : Rec) (reason : Nat) : State :=
  let src := r.source log
  let s := s.dropReport log r reason
  if 1536 ≤ src.1 ∧ src.1 < 1728 ∧ 0 < r.stc then
    match Table.find s.jobs (r.stc - 1) with
    | some j => if j.status = 0 then s.failJob (r.stc - 1) j (dropStatus reason) (dropCode reason) else s
    | none => s
  else s

/-- A record dropped with a reason (R238): its position counts as folded. -/
def State.dropRec (s : State) (log : Nat) (r : Rec) (reason : Nat) : State :=
  let src := r.source log
  ((s.takeRec log r.pos).acked src.1 src.2).recFails log r reason

/-! ### Folding (R216, R217, R53, R32) -/

/-- The master whose rights a folding record needs (R76): copy engines for their logs, fold units for spilled records (log entry 19). -/
def foldMaster (log : Nat) (r : Rec) : Option Nat := if r.spilled then some 130 else if 1536 ≤ log ∧ log < 1728 then some 128 else none

/-- Whether the access table lets a record fold in stack memory (R76); none lets it into an FOT region (R71). -/
def State.foldAllowed (s : State) (log : Nat) (r : Rec) (pa : Nat) : Bool := match foldMaster log r with
  | some m => s.accessOk (dieOf pa) m 2 pa && !fotRegion pa
  | none => true

/-- A record folded in stack memory (R217, R198, R200), or dropped: the access table, whose refusal is logged too (R46, R71, R76), or its frame's owner (R72) does not let it. -/
def State.foldStack (s : State) (log : Nat) (r : Rec) (pa : Nat) : State :=
  if !s.foldAllowed log r pa then (s.logDenied ((foldMaster log r).getD 0) (homeOf pa) pa).dropRec log r 1
  else if !s.fotOk (s.ownid r.slot) pa then s.dropRec log r 1
  else
    let s := s.takeRec log r.pos
    let s := if r.cntd then s.declareLine pa r else s.clearCount pa
    (s.foldGranule (pa / 32 * 32) r.data r.mask r.pois (r.stamp.getD 0, log)).pokeWatch

/-- A record that enters a link-port log (R32, R215): it waits while its window holds requests, and is dropped where the link is cut (R33, R44). -/
def State.foldLink (s : State) (log : Nat) (r : Rec) (n pa : Nat) : State :=
  if s.linkCut n pa then s.dropRec log r 8
  else if s.inTransition n then s
  else
    let s := s.takeRec log r.pos
    let g := s.log log
    let s := s.setLog log { g with far := g.far ++ [r.pos] }
    let l := linkLog (s.portGroup n pa) pa
    let s := s.setLog l ((s.log l).push { r with gran := pa / 32, spilled := false, deliv := true, origin := some (log, r.pos) } (pa / 32 * 32))
    let g := s.log l
    s.setLog l { g with pub := g.tail, pubs := (s.nextStamp l, g.tail) :: g.pubs, last := s.nextStamp l }

/-- Bytes with the mask beside them, as a masked write carries them (log entry 8). -/
def maskedData (data : List Byte) (mask : W32) : List Byte := data ++ leBytes 4 mask.toNat

/-- A record accepted by the host port (R53, R215): a posted write. The zero-length read that a release of .sys scope lets follow stands ready behind it, and its completion acknowledges the fold. -/
def State.foldHost (s : State) (log : Nat) (r : Rec) (n pa : Nat) : State :=
  if s.hwd n 10 8 ≠ s.ownid r.slot then s.dropRec log r 1
  else
    let s := s.takeRec log r.pos
    let g := s.log log
    let s := (s.setLog log { g with hostp := g.hostp ++ [r.pos] }).post (pa / 32 * 32) (maskedData r.data r.mask) r.pois
    let id := s.nextId
    let s := s.request log pa 0 false none [] (.releaseRead log r.pos r.slot r.train r.task r.stc) false
    { s with outbound := Table.modify s.outbound id (fun o => { o with deliv := false }) }

/-- The bytes of a record that a CXL port's stamps let it write (R35, R217), with their stamps noted; another personality takes them all. -/
def State.portMask (s : State) (r : Rec) (cxl : Bool) (st : Nat × Nat) : W32 × State :=
  let a := r.gran * 32
  let is := (List.range 32).filter (fun i => r.mask.getLsbD i && (!cxl || s.yields (a + i) st))
  (maskOf is, if cxl then { s with stamps := is.foldl (fun m i => Sparse.set (0, 0) m (a + i) st) s.stamps } else s)

/-- Whether a request sent before QUIESCING waits behind a record of its line (log entry 73): the record goes out while the group drains (R43). -/
def State.lineAsked (s : State) (r : Rec) : Bool := s.outbound.any (fun e => !e.2.held && e.2.deliv && decide (e.2.pa / 256 = r.gran / 8) && decide (r.pos < e.2.mark) &&
  e.2.group.any (fun g => decide (s.groupState g = 2)))

/-- A record of a link-port log sent across its group (R35, R215), in position order; it stays until it is acknowledged. A CXL port takes its line's lock; poison goes along (R80, R82). -/
def State.sendFar (s : State) (log : Nat) (r : Rec) : State :=
  let pa := r.gran * 32
  match s.place pa with
  | .link n =>
    if s.linkCut n pa then s.dropRec log r 8
    else if s.inTransition n && !s.lineAsked r || decide (s.lwd n 4 2 = 1) && s.lineLocked pa then s
    else
      let w := s.portMask r (s.lwd n 4 2 = 1) (r.stamp.getD 0, (r.source log).1)
      (w.2.modRec log r.pos (fun r => { r with far := true })).sendOut n
        { group := none, pa := pa, len := 32, write := true, data := maskedData r.data w.1, reply := .fold log r.pos, sent := s.time, src := log, pois := r.pois }
  | _ => s.dropRec log r 2

/-- Whether a record may fold now: published, arrived, no earlier record of its log to the same home left (R216), and its home not waiting. -/
def State.foldable (s : State) (log : Nat) (r : Rec) : Bool :=
  r.stamp.isSome && !r.far && arrived r.deliv (s.recDie log r) (s.recHome r) &&
    (s.log log).recs.all (fun q => decide (r.pos ≤ q.pos) || q.far || decide (s.recHome q ≠ s.recHome r) || q.stamp.isNone) && !(isStack (r.pa.getD 0) && s.homeWaits (r.pa.getD 0))

/-- A record folds where its address leads. -/
def State.foldRec (s : State) (log : Nat) (r : Rec) : State :=
  let pa := r.pa.getD 0
  if 1736 ≤ log then s.sendFar log r
  else match s.place pa with
    | .stack => s.foldStack log r pa
    | .link n => s.foldLink log r n pa
    | .host n => s.foldHost log r n pa
    | .nowhere => s.dropRec log r 2

/-- RECORD_FOLD (R217): the record of log `x` at position `y`. -/
def execRecordFold (s : State) : Out :=
  .next (match (s.log s.ev.x).recs.find? (fun r => decide (r.pos = s.ev.y)) with
    | some r => if s.foldable s.ev.x r then s.foldRec s.ev.x r else s
    | none => s)

/-- Every record of a frame that its home has received folded in position order, log by log (R74 step 2, R203 step 2). -/
def State.foldReceived (s : State) (frame : Nat) : State :=
  (s.logs.filter (fun e => decide (e.1 < 1736))).foldl (fun s e =>
    e.2.recs.foldl (fun s r =>
      if r.stamp.isSome && decide ((r.pa.getD 0) / 65536 = frame) && arrived r.deliv (s.recDie e.1 r) (s.recHome r) then s.foldStack e.1 r (r.pa.getD 0) else s) s) s



/-! ### Compaction, pressure (R234, R236) -/

/-- The later record laid over the earlier (R236). -/
def Rec.join (r q : Rec) : Rec := { r with mask := r.mask ||| q.mask, data := overlay r.data q.data (maskBits q.mask) }

/-- Whether a fold unit may merge two records: spilled, of one publication, one granule, one origin, neither counted nor poisoned, nothing of the granule between them. -/
def Log.mayJoin (g : Log) (r q : Rec) : Bool :=
  r.spilled && q.spilled && r.stamp.isSome && decide (r.stamp = q.stamp) && decide (r.pa = q.pa) && decide (r.gran = q.gran) && decide (r.slot = q.slot) &&
    decide (r.train = q.train) && decide (r.task = q.task) && !r.cntd && !q.cntd && !r.pois && !q.pois && decide (r.pos < q.pos) &&
    g.recs.all (fun x => !(decide (r.pos < x.pos) && decide (x.pos < q.pos) && decide (x.pa = r.pa)))

/-- FOLD_UNIT_COMPACT (R236): the records of log `x` at positions `y` and `z`. -/
def execFoldUnitCompact (s : State) : Out :=
  .next (
    let g := s.log s.ev.x
    match g.recs.find? (fun r => decide (r.pos = s.ev.y)), g.recs.find? (fun r => decide (r.pos = s.ev.z)) with
    | some r, some q => if g.mayJoin r q then (s.modRec s.ev.x r.pos (fun r => r.join q)).takeRec s.ev.x q.pos else s
    | _, _ => s)

/-- Whether a core's log stands at its pressure point (R233, R234): with no segment, when a store finds no room in the ring. -/
def State.pressed (s : State) (core p : Nat) : Bool :=
  let g := s.log core
  let c := s.segCap p
  g.recs.any (fun r => r.stamp.isNone) &&
    (if c = 0 then decide (512 ≤ g.ring.length) || s.trains.any (fun e => decide (e.1 / 32 = core) && e.2.logWait) else decide ((7 * c + 7) / 8 ≤ g.inSegment.length))

/-- PRESSURE_PUBLICATION (R234) of core `x`. -/
def execPressurePublication (s : State) : Out :=
  .next (match s.slotOfCore s.ev.x with
    | some p =>
      if s.pressed s.ev.x p then
        let s := s.publish s.ev.x
        let off := slotOff p 0x3D0
        s.setReg off (if s.reg off = 0xFFFFFFFFFFFFFFFF then s.reg off else s.reg off + 1)
      else s
    | none => s)

/-! ### Fills (R72, R192, R193, R196, R218) -/

/-- SECTOR_FILL (R192): core `x`, the sector of VA `val`, in the stash of its task `z` if `yes`. A sector in a window whose request found no room is asked for again, and fails where the link is cut (R33, R44); the line waits for room (R193). -/
def execSectorFill (s : State) : Out :=
  .next (
    let a := s.ev
    match s.slotOfCore a.x with
    | none => s
    | some p =>
      let key := elemKey a.yes a.z p a.val.toNat
      match (s.core a.x).fills.find? (fun f => decide (f.key = key) && (f.stash == a.yes)) with
      | none => s
      | some f =>
        if !isStack f.pa then (if s.cutOff f.pa && !s.sectorSent a.x key f.stash then s.fillFails a.x key f.stash fLINKDOWN else s.sendSector a.x key f.pa f.stash)
        else if s.homeWaits f.pa || !arrived f.deliv (a.x / 192) (homeOf f.pa) then s
        else match s.homeRefuses p f.pa with
          | some c => s.fillFails a.x key f.stash c
          | none => let s := s.lineBack (f.pa / 256)
                    (s.fillArrives a.x key f.stash (s.filled a.x key f.pa)).2)

/-! ### Atomics and home loads (R223, R225) -/

/-- Whether an access may be served at its home now: those that a migration brought to its line before it go first (R203 step 6). -/
def State.servable (s : State) (id : Nat) (h : HomeOp) : Bool :=
  !s.queuedBehind id h && arrived h.deliv (h.core / 192) h.home && !h.elems.any (fun y => isStack y.2 &&
    (s.homeShut y.2 || s.homeOps.any (fun e => decide (e.1 < id) && e.2.replayed && e.2.elems.any (fun w => decide (w.2 / 256 = y.2 / 256)))))

/-- The records of an atomic's granule that its core appended after its issue, published as well: the atomic waits until every record of the granule has folded (R223 steps 1 and 2). -/
def State.atomicPublishes (s : State) (h : HomeOp) : State :=
  if h.elems.any (fun y => (s.log h.core).unpublishedIn h.part (y.1.va.getD 0 / 32) (y.1.va.getD 0 / 32)) then s.publish h.core else s

/-- ATOMIC_AT_HOME (R223): the atomic `x`. -/
def execAtomicAtHome (s : State) : Out :=
  .next (match Table.find s.homeOps s.ev.x with
    | some h => if h.cls = 2 && s.servable s.ev.x h then
        (if s.atomicHeld h then s.atomicPublishes h else (s.atomicServe s.ev.x).pokeWatch) else s
    | none => s)

/-- HOME_LOAD (R225): the LDH, SLDH, LDC or counted LD `x`. -/
def execHomeLoad (s : State) : Out :=
  .next (match Table.find s.homeOps s.ev.x with
    | some h => if h.cls = 0 && s.servable s.ev.x h then s.homeServe s.ev.x else s
    | none => s)

/-- DISTRIBUTOR_QUERY (R285): the query `x`. -/
def execDistributorQuery (s : State) : Out :=
  .next (match Table.find s.queries s.ev.x with
    | some q => if s.homeWaits q.pa || !arrived q.deliv (q.core / 192) (homeOf q.pa) then s else (s.serveQuery s.ev.x q).pokeWatch
    | none => s)

/-- RESULT_LANDS (R171): operation `z` of the train at core `x`, slot `y`. -/
def execResultLands (s : State) : Out := .next (s.land s.ev.x s.ev.y s.ev.z)

/-! ### Page migration (R202-R206) -/

/-- The registers that a lost page's leaf and engine show (R205). -/
def State.leafLost (s : State) (d : Nat) : State :=
  let a := (s.die d).leaf
  let s := (s.setRegBits (migOff d 0x10) 0 8 4).setRegBits (migOff d 0x10) 63 1 0
  s.deviceWrite a [Memory.read s.mem a ||| 0x10]

/-- Copies of a frame's lines invalidated by physical address (R191): translations of cores and engines, view lines, stash entries, lines in the slices that no pin holds; unpublished records are translated again, and parked waiters find their element anew. -/
def State.dropFrame (s : State) (frame : Nat) : State :=
  let s := s.dropTlbs (fun x => decide (x.pa < frame * 65536 + 65536) && decide (frame * 65536 < x.pa + 2 ^ levelShift x.level))
  let s := s.cores.foldl (fun s e =>
    s.setCore e.1 { (s.core e.1) with
      view := (s.core e.1).view.filter (fun x => decide (x.2.pa / 65536 ≠ frame))
      stash := (s.core e.1).stash.filter (fun x => decide (x.2.pa / 65536 ≠ frame))
      stashUse := (s.core e.1).stashUse.filter (fun n => (s.core e.1).stash.any (fun x => decide (x.1 / 2 = n) && decide (x.2.pa / 65536 ≠ frame))) }) s
  let s := (s.sets.filter (fun e => e.2.any (fun x => !x.2.pinned && decide (x.2.line / 256 = frame)))).foldl (fun s e =>
    s.putLines e.1 (e.2.filter (fun x => x.2.pinned || decide (x.2.line / 256 ≠ frame)))) s
  let s := { s with
    logs := s.logs.map (fun (e : Nat × Log) =>
      if e.1 < 1728 then
        (e.1, { e.2 with recs := e.2.recs.map (fun (r : Rec) => if r.stamp.isNone ∧ (r.pa.map (· / 65536)) = some frame then { r with pa := none } else r) })
      else e) }
  s.rewatch (fun _ _ pa => decide (pa / 65536 = frame))

/-- A load under way to a frame of a window sent to the page's new home instead: its answer would come from the old frame. -/
def State.rehome (s : State) (o : Outbound) (pa : Nat) : State :=
  match o.reply with
  | .element core slot pend lane j =>
    match (s.train core slot).bind (fun t => (Table.find t.pend pend).map (fun q => (t, q))) with
    | some (t, q) => match q.acc with
      | some x => match x.elems.find? (fun e => decide (e.lane = lane) && decide (e.j = j)) with
        | some e =>
          let at_ := if o.len = x.size then pa else pa + e.va.getD 0 % 32
          s.sendHome core slot (s.slotOfTask t.task) t.task pend .loadHome x.size 0 [(homeOf at_, [(e, at_)])]
        | none => s
      | none => s
    | none => s
  | .far owner _ => { s with far := s.far.filter (fun f => decide (f.owner ≠ owner) || decide (f.pa ≠ o.pa)) }
  | _ => s

/-- A pair of numbers set in a list that rises by the first, then the second. -/
def insertPair (x : Nat × Nat) : List (Nat × Nat) → List (Nat × Nat)
  | [] => [x]
  | y :: ys => if x.1 < y.1 ∨ (x.1 = y.1 ∧ x.2 ≤ y.2) then x :: y :: ys else y :: insertPair x ys

/-- Accesses in the order in which their home would take them: by arrival, those still on their way last, and none before an earlier one of its train (R203 step 6, R225). -/
def State.arrivalOrder (s : State) (ops : List (Nat × HomeOp)) : List Nat :=
  let came := fun (e : Nat × HomeOp) => if arrived e.2.deliv (e.2.core / 192) e.2.home then e.2.came else s.nextId
  let turn := fun (e : Nat × HomeOp) => ops.foldl (fun n x => if x.1 ≤ e.1 ∧ x.2.core = e.2.core ∧ x.2.slot = e.2.slot then max n (came x) else n) 0
  ((ops.map (fun e => (turn e, e.1))).foldl (fun l x => insertPair x l) []).map Prod.snd

/-- The elements of an access that lie in a frame go to another as an access of its own, in its place at the new home (R203 step 6). -/
def State.replayOp (s : State) (src : Nat) (go : Nat → Nat) (id : Nat) : State :=
  match Table.find s.homeOps id with
  | none => s
  | some h =>
    let rest := h.elems.filter (fun y => decide (y.2 / 65536 ≠ src))
    let moved := (h.elems.filter (fun y => decide (y.2 / 65536 = src))).map (fun y => (y.1, go y.2))
    { s with
      nextId := s.nextId + 1
      homeOps := Table.put (if rest.isEmpty then Table.drop s.homeOps id else Table.put s.homeOps id { h with elems := rest }) s.nextId
        { h with home := ((moved.head?).map (fun y => homeOf y.2)).getD h.home, elems := moved, deliv := true, came := s.nextId, replayed := true } }

/-- What is under way to a frame goes to another: accesses are replayed at the new home in the order of their arrival (R203 step 6, R206); a fill or a query that has arrived stands at the new home, and what is still on its way goes there (log entry 20). -/
def State.replay (s : State) (src dst : Nat) : State :=
  let go := fun (pa : Nat) => if pa / 65536 = src then dst * 65536 + pa % 65536 else pa
  let away := fun (o : Outbound) => decide (o.pa / 65536 = src) && !o.write && o.aop.isNone && match o.reply with
    | .sector .. => true
    | .element .. => true
    | .far .. => true
    | _ => false
  let reads := (s.outbound.filter (fun e => away e.2)).map Prod.snd
  let ops := s.homeOps.filter (fun e => e.2.elems.any (fun y => decide (y.2 / 65536 = src)))
  let s := { s with
    cores := s.cores.map (fun (e : Nat × Core) => (e.1, { e.2 with fills := e.2.fills.map (fun (f : Fill) => if f.pa / 65536 = src then { f with pa := go f.pa, deliv := arrived f.deliv (e.1 / 192) (homeOf f.pa) } else f) }))
    queries := s.queries.map (fun (e : Nat × Query) => if e.2.pa / 65536 = src then (e.1, { e.2 with pa := go e.2.pa, deliv := arrived e.2.deliv (e.2.core / 192) (homeOf e.2.pa) }) else e)
    outbound := s.outbound.map (fun (e : Nat × Outbound) => if away e.2 then (e.1, { e.2 with reply := .nobody }) else e)
    logs := s.logs.map (fun (e : Nat × Log) =>
      if e.1 < 1736 then (e.1, { e.2 with recs := e.2.recs.map (fun (r : Rec) => if r.stamp.isSome ∧ (r.pa.getD 0) / 65536 = src then { r with pa := r.pa.map go, deliv := false } else r) })
      else e) }
  let s := (s.arrivalOrder ops).foldl (fun s id => s.replayOp src go id) s
  reads.foldl (fun s o => s.rehome o (go o.pa)) s

/-- A frame's bytes, stamps and poison copied to another (R203 step 3, R217). -/
def State.copyFrame (s : State) (src dst : Nat) : State :=
  let z := s.zeroFrame dst
  let move := fun (k : Nat) (n : Nat) => dst * n + k % n
  { z with
    mem := (s.mem.filter (fun e => decide (e.1 / 65536 = src))).foldl (fun m e => Memory.write m (move e.1 65536) e.2) z.mem
    stamps := (s.stamps.filter (fun e => decide (e.1 / 65536 = src))).foldl (fun m e => Sparse.set (0, 0) m (move e.1 65536) e.2) z.stamps
    poison := (s.poison.filter (fun e => decide (e.1 / 2048 = src))).foldl (fun m e => Sparse.set false m (move e.1 2048) e.2) z.poison
    counted := (s.counted.filter (fun e => decide (e.1 / 256 = src))).foldl (fun m e => Table.put m (move e.1 256) e.2) (z.counted.filter (fun e => decide (e.1 / 256 ≠ src))) }

/-- The first `n` bytes at an address written at another, their stamps, and the poison of `n` granules (R79). -/
def copyBytes (m : List Host.Cell) (src dst n : Nat) : List Host.Cell := (List.range n).foldl (fun m' i => Memory.write m' (dst + i) (Memory.read m (src + i))) m
def State.copyStamps (s : State) (src dst n : Nat) : Sparse (Nat × Nat) := (List.range n).foldl (fun m i => Sparse.set (0, 0) m (dst + i) (s.stampOf (src + i))) s.stamps
def State.copyPoison (s : State) (src dst n : Nat) : Sparse Bool := (List.range n).foldl (fun m i => Sparse.set false m (dst + i) (s.poisoned (32 * (src + i)))) s.poison

/-- A line copied to another with its stamps, its poison and its count (R79, R203 step 3, R204). -/
def State.copyLine (s : State) (src dst : Nat) : State :=
  { s with
    mem := copyBytes s.mem (256 * src) (256 * dst) 256
    stamps := s.copyStamps (256 * src) (256 * dst) 256
    poison := s.copyPoison (8 * src) (8 * dst) 8
    counted := match Table.find s.counted src with
      | some c => Table.put s.counted dst c
      | none => Table.drop s.counted dst }

/-- Bytes cut or zero-padded to a length. -/
def padTo (n : Nat) (bs : List Byte) : List Byte := (bs ++ List.replicate n 0).take n

/-- A line that came across a window: its bytes, with the least stamps and no poison. -/
def State.fillLine (s : State) (line : Nat) (bs : List Byte) : State :=
  { s with
    mem := Memory.writeBytes s.mem (line * 256) (padTo 256 bs)
    stamps := s.stamps.filter (fun e => decide (e.1 / 256 ≠ line))
    poison := s.poison.filter (fun e => decide (e.1 / 8 ≠ line)) }

/-- The migration registers of a die. -/
def migErr (s : State) (d code : Nat) : State := s.setRegBits (migOff d 0x10) 0 8 code

/-- The leaf a migration names, if it is a valid level-0 leaf (R190, R202). -/
def State.migLeaf (s : State) (d : Nat) : Option (Nat × W64) :=
  let a := (s.reg (migOff d 0)).toNat
  let e := BitVec.ofNat 64 (s.readLe a 8)
  if !isStack a || !s.usable (dieOf a) || s.poisoned a then none
  else match judgeEntry 0 e false with
    | .inl (.leaf _ _ _ _) => some (a, e)
    | _ => none

/-- A leaf's ADDR written. -/
def State.setLeaf (s : State) (a : Nat) (e : W64) (frame : Nat) : State := s.deviceWrite a (leBytes 8 (setBits e 8 44 (frame * 256)).toNat)

/-- The owner of the page a leaf maps: that of its frame, or of the leaf's own frame for a page in a link window (log entry 20). -/
def State.pageOwner (s : State) (leaf src : Nat) : Nat := if isStack (src * 65536) then s.frameOwner src else s.frameOwner (leaf / 65536)

/-- The accesses of the migration engine (master 129) that a command needs: the leaf's read and write, the destination's write, a stack source's read (R76), none of them in an FOT region (R71); an access that its table refuses is logged (R46), and the command ends with the error of what it could not reach (log entry 19). -/
def State.migDenied (s : State) (d a src dst : Nat) : Option (Nat × Nat) :=
  let from_ := src * 65536
  if fotRegion a || !s.accessOk (dieOf a) 129 1 a || !s.accessOk (dieOf a) 129 2 a then some (2, a)
  else if fotRegion (dst * 65536) || !s.accessOk d 129 2 (dst * 65536) then some (3, dst * 65536)
  else if isStack from_ && (fotRegion from_ || !s.accessOk (dieOf from_) 129 1 from_) then some (4, from_)
  else none

/-- The addresses whose homes a command needs: its leaf, and the lines of a source in stack memory (R203 steps 1-3). -/
def State.migHomes (s : State) (d : Nat) : List Nat :=
  (s.reg (migOff d 0)).toNat :: (match s.migLeaf d with
    | some (_, e) => if isStack (bits e 16 36 * 65536) then (List.range 256).map (fun i => bits e 16 36 * 65536 + 256 * i) else []
    | none => [])
/-- The first of them that the engine's message has not reached, or whose home takes no access (R24, R90). -/
def State.migStops (s : State) (d : Nat) : Option Nat :=
  (s.migHomes d).find? (fun a => isStack a && s.usable (dieOf a) && !s.gaveUp (migOwner d) a && (s.homeWaits a || s.away (migOwner d) a))
/-- The error of a command whose leaf or source cannot be reached: a message given up, a source on a die that is gone (R26, R30; log entry 19). -/
def State.migLost (s : State) (d : Nat) : Option Nat :=
  if s.gaveUp (migOwner d) (s.reg (migOff d 0)).toNat then some 2
  else if (s.migHomes d).any (fun a => isStack a && (s.gaveUp (migOwner d) a || !s.usable (dieOf a))) then some 4 else none

/-- A migration command performed (R202-R204): `post` says which. A page in a link window can only be pulled. -/
def State.migrate (s : State) (d : Nat) (v : W64) (post : Bool) : State :=
  if s.regBits (migOff d 0x10) 63 1 = 1 then migErr s d 1
  else
  let s := s.setReg (migOff d 8) (v &&& 0xFFFFFF0002)
  match s.migLeaf d with
    | none => migErr s d 2
    | some (a, e) =>
      let src := bits e 16 36
      let dst := bits v 16 24
      if dieOf (dst * 65536) ≠ d ∨ s.frameOwner dst ≠ s.pageOwner a src ∨ !s.usable d then migErr s d 3
      else match s.migDenied d a src dst, s.migLost d with
        | some (code, pa), _ => migErr (s.logDenied 129 d pa) d code
        | none, some code => migErr s d code
        | none, none =>
        let s := migErr s d 0
        let s := if isStack (src * 65536) then s.foldReceived src else s
        let pre := !post && isStack (src * 65536)
        let s := ((((if pre then s.copyFrame src dst else s).setLeaf a e dst).replay src dst).dropFrame src)
        if pre then s
        else (s.setRegBits (migOff d 0x10) 63 1 1).setDie d { s.die d with pulling := (List.range 256).map (256 * dst + ·), source := src, leaf := a }

/-- A migration command accepted: it is performed once the engine's messages have reached the homes it needs (R24, R203 step 1). -/
def State.migGo (s : State) (d : Nat) (v : W64) (post : Bool) : State :=
  if s.regBits (migOff d 0x10) 63 1 = 1 then migErr s d 1
  else match s.migStops d with
    | some a => s.sendTo (migOwner d) a
    | none => ((s.migrate d v post).dropTrips (migOwner d)).pokeWatch

/-- A line has been pulled, and its home takes accesses (R90): BUSY clears with the last. -/
def State.pulled (s : State) (d line : Nat) : State :=
  let k := s.die d
  let rest := k.pulling.filter (fun n => decide (n ≠ line))
  let s := (s.setDie d { k with pulling := rest }).flushPosts
  if rest.isEmpty then s.setRegBits (migOff d 0x10) 63 1 0 else s

/-- Whether something of a source line in a window is still on its way to its far home: a record in a link-port log, a write or an atomic sent (R204 step 2, R206). -/
def State.farBusy (s : State) (pa : Nat) : Bool :=
  s.logs.any (fun e => decide (1736 ≤ e.1) && e.2.recs.any (fun r => decide (r.gran * 32 / 256 = pa / 256))) ||
    s.outbound.any (fun e => decide (e.2.pa / 256 = pa / 256) && (e.2.write || e.2.aop.isSome || match e.2.reply with
      | .cxlRead .. => true
      | _ => false))

/-- What waits for a lost page faults MIGRATION_LOST in its lanes (R205): the elements of accesses on it, the loads that wait for its sectors, queries, and parked waiters, which the leaf's LOST bit stops. -/
def State.pageLost (s : State) (dst : Nat) : State :=
  let ops := s.homeOps.filter (fun e => e.2.elems.any (fun y => decide (y.2 / 65536 = dst)))
  let s := ops.foldl (fun s e =>
    let rest := e.2.elems.filter (fun y => decide (y.2 / 65536 ≠ dst))
    let s := if rest.isEmpty then { s with homeOps := Table.drop s.homeOps e.1 } else { s with homeOps := Table.put s.homeOps e.1 { e.2 with elems := rest } }
    s.modPend e.2.core e.2.slot e.2.pend (fun q => (e.2.elems.filter (fun y => decide (y.2 / 65536 = dst))).foldl (fun (q : Pend) (y : Elem × Nat) => q.answer y.1 0 (some fMIGRATIONLOST) none) q)) s
  let s := s.cores.foldl (fun s e => (e.2.fills.filter (fun f => decide (f.pa / 65536 = dst))).foldl (fun s f => s.fillFails e.1 f.key f.stash fMIGRATIONLOST) s) s
  (s.queries.filter (fun e => decide (e.2.pa / 65536 = dst))).foldl (fun s e => s.failQuery e.1 e.2 fMIGRATIONLOST) s

/-- A page's source is gone (R205, R206): its waiters fault MIGRATION_LOST, the records on their way are dropped with reason 3, LOST is set in the leaf, the pulled lines are discarded, and the owner's ring is told. The frame's bytes and poison stay as they stand (R79; log entry 20). -/
def State.pullFails (s : State) (d : Nat) : State :=
  match (s.die d).pulling with
  | [] => s
  | l :: _ =>
    let dst := l / 256
    let s := ((s.leafLost d).setDie d { s.die d with pulling := [] }).flushPosts
    let s := s.pageLost dst
    let s := s.logs.foldl (fun s e => (e.2.recs.filter (fun r => decide (e.1 < 1736) && r.stamp.isSome && decide ((r.pa.getD 0) / 65536 = dst))).foldl (fun s r => s.dropRec e.1 r 3) s) s
    let s := { s with counted := s.counted.filter (fun e => decide (e.1 / 256 ≠ dst)) }
    let s := s.dropFrame dst
    s.event (s.slotOfFrame (dst * 65536)) 1 6 129 d (dst * 65536) 0

/-- MIGRATION_PULL (R204): die `x`, line `y`; one in stack memory once the engine's message has reached it (R24); one of a page in a link window is asked for across the link, once nothing of it is on its way there. -/
def execMigrationPull (s : State) : Out :=
  .next (
    let k := s.die s.ev.x
    if !k.pulling.contains s.ev.y || s.sramSwitching s.ev.x then s
    else
      let pa := k.source * 65536 + s.ev.y % 256 * 256
      if isStack pa then
        if !s.usable (dieOf pa) then s
        else if s.gaveUp (migOwner s.ev.x) pa then (s.dropTrips (migOwner s.ev.x)).pullFails s.ev.x
        else if s.homeShut pa || s.away (migOwner s.ev.x) pa then s.sendTo (migOwner s.ev.x) pa
        else ((s.copyLine (pa / 256) s.ev.y).dropTrips (migOwner s.ev.x)).pulled s.ev.x s.ev.y
      else if s.farBusy pa || s.holdFull pa || s.outbound.any (fun e => e.2.reply == .pull s.ev.x s.ev.y) then s
      else match s.place pa with
        | .link n => if s.linkCut n pa then s.pullFails s.ev.x else s.request (migrationEngine s.ev.x) pa 256 false none [] (.pull s.ev.x s.ev.y) false
        | _ => s.pullFails s.ev.x)

/-- Whether the source of a die's migration is gone (R205): its chip, or its link. -/
def State.sourceGone (s : State) (d : Nat) : Bool :=
  let pa := (s.die d).source * 65536
  if isStack pa then !s.usable (dieOf pa) else match s.place pa with
    | .link n => s.linkCut n pa
    | _ => true

/-- MIGRATION_PULL_FAIL (R205): die `x`, whose source is gone. -/
def execMigrationPullFail (s : State) : Out := .next (if s.sourceGone s.ev.x then s.pullFails s.ev.x else s)

/-! ### Invalidates by INVCMD (R189, R191) -/

/-- Whether every BAR4 write of a master has folded. -/
def State.writesFolded (s : State) (master : Nat) : Bool := s.logs.all (fun e => decide (e.1 < 1728) || decide (1736 ≤ e.1) || e.2.recs.all (fun r => decide (r.task ≠ master)))

/-- INVALIDATE_COMPLETE (R191): slot `x`. -/
def execInvalidateComplete (s : State) : Out :=
  .next (
    let p := s.ev.x
    match (s.pslot p).inval with
    | none => s
    | some (va, sz, m) =>
      if s.mappingIdle p va sz && s.writesFolded m then
        ((s.dropMapping p va sz).setPslot p { s.pslot p with inval := none }).setRegBits (slotOff p 0x3C0) 62 1 0
      else s)

end Sys2Proof.Machine
end

