-- ==== Sys2Proof/Machine/Package.lean ====
section
/-! DEFINITION. The package controller (03_host_and_trust.md, 01 R29-R31, 05 R89-R90): who may write a register (R50, R55, R76), plain register writes, ownership (R56-R58), attestation (R60), firmware (R59), dies and service levels (R30, R61, R62), thermal events (R29), the SRAM rail (R90) and the reset of the part. -/

namespace Sys2Proof.Machine

/-! ### Masters and their rights (R50, R55, R76) -/

/-- The master id (Table 4-6). -/
def masterId : Master → Nat
  | .host => 0
  | .vf n => n
  | .bmc => 65
  | .peer => 66

/-- The owner code (Table 3-4); a VF has none. -/
def masterCode : Master → Nat
  | .host => 1
  | .bmc => 2
  | .peer => 3
  | .vf _ => 0

/-- Whether a master is the owner. -/
def State.isOwner (s : State) (w : Master) : Bool := decide (masterCode w ≠ 0) && decide (s.regBits ownstatOff 0 2 = masterCode w)

/-- Whether an offset lies in a block of PF BAR0 (Table 3-2). -/
def inBlock (off : Nat) : Bool :=
  decide (off < 0x30000) || decide (0x100000 ≤ off) && decide (off < 0x210000) || decide (0x400000 ≤ off) && decide (off < 0x1900000)

/-- Registers that the host alone writes, in the configuration space of its function (R48; log entry 62). -/
def hostOnly (off : Nat) : Bool := off = numVfsOff || off = apsizeOff || off = vfapsizeOff

/-- Registers that only the owner writes (R55): the global block, HANDOFF, the link, host-window, partition and queue blocks, and the SRAM rails (R90). -/
def ownerOnly (off : Nat) : Bool :=
  (decide (off < 0x10000) && !hostOnly off) || decide (off = handoffOff) || decide (0x100000 ≤ off) && decide (off < 0x1800000) || decide (0x1800100 ≤ off) && decide (off < 0x1800140)

/-- ATTGO of requester `r` (R60; log entry 6). -/
def attgoOff (r : Nat) : Nat := 0x18000 + 0x40 * r + 0x20

/-- Whether VF `n` is there: NumVFs says how many are, and in recovery none is (R48, R59). -/
def State.vfOn (s : State) (n : Nat) : Bool := decide (1 ≤ n) && decide (n ≤ s.regBits numVfsOff 0 7) && !s.owner.recovery

/-- Registers that VF `n` reaches through its own BAR0 (R50, R55, R70, R78, R91, R189, R445): those of its slot that are its own, its counters, its ring, its attestation registers. -/
def State.vfMay (s : State) (n off : Nat) : Bool :=
  s.vfOn n &&
    (decide (slotOff n 0x300 ≤ off) && decide (off < slotOff n 0x380) || off = slotOff n 0x3C0 || off = slotOff n 0x3E0 || off = slotOff n 0x3E8 ||
      decide (counterOff n 0 ≤ off) && decide (off ≤ counterOff n 6) || decide (ringOff n 0 ≤ off) && decide (off < ringOff n 0x20) ||
      decide (attnonceOff n 0 ≤ off) && decide (off ≤ attdoneOff n))

/-- Registers banked by master of which each writes its own (R56, R60): CLAIMKEY and the attestation registers. -/
def otherBank (w : Master) (off : Nat) : Bool :=
  decide (0x10020 ≤ off) && decide (off < 0x10080) && decide ((off - 0x10020) / 0x20 + 1 ≠ masterCode w) ||
    decide (0x18000 ≤ off) && decide (off < 0x1A000) && decide ((off - 0x18000) / 0x40 ≠ masterId w)

/-- What becomes of a register write: ignored, refused by the access table, refused as not the owner's, or accepted. -/
inductive Verdict where
  | ignored
  | table
  | notOwner
  | ok
  deriving DecidableEq, Repr

/-- The link block (Table 3-2), whose refused writes by a VF are logged as another master's are (R39). -/
def linkBlock (off : Nat) : Bool := decide (0x100000 ≤ off) && decide (off < 0x200000)

/-- The checks of a register write (R39, R50, R55, R59, R76). A VF's write reaches its own registers, is refused and logged in the link block, or reaches nothing. -/
def State.writeVerdict (s : State) (w : Master) (off : Nat) : Verdict :=
  let vf := decide (masterCode w = 0)
  if off % 8 ≠ 0 || !inBlock off || otherBank w off || vf && !s.vfMay (masterId w) off && !(linkBlock off && s.vfOn (masterId w)) || hostOnly off && decide (w ≠ .host) ||
    s.owner.recovery && decide (0x30000 ≤ off) then .ignored
  else if !s.accessOk 8 (masterId w) 2 off then .table
  else if (if vf then linkBlock off else ownerOnly off && !s.isOwner w) then .notOwner else .ok

/-- A write refused under R55: counted, the last one recorded, an event in slot 0's ring (R91). -/
def State.refuseWrite (s : State) (w : Master) (off : Nat) : State :=
  let n := min 0xFFFF (s.regBits ownstatOff 16 16 + 1)
  let s := (s.setRegBits ownstatOff 16 16 n).setRegBits ownstatOff 32 32 (masterCode w * 2 ^ 30 + off % 2 ^ 26)
  s.event none 0x21 8 (masterId w) 0 0 0

/-! ### Election (R56) -/

/-- The claims of an earlier interval judged: host before BMC before peer; the losers, and all claims once there is an owner, set CLERR. -/
def State.elect (s : State) : State :=
  let cs := s.owner.claims
  let s := { s with owner := { s.owner with claims := [] } }
  let win := (cs.map Prod.fst).foldl min 4
  let lost := if s.regBits ownstatOff 0 2 = 0 then cs.filter (fun c => decide (c.1 ≠ win)) else cs
  let s := lost.foldl (fun s c => s.setRegBits ownstatOff (7 + c.1) 1 1) s
  if s.regBits ownstatOff 0 2 = 0 then
    match cs.find? (fun c => decide (c.1 = win)) with
    | some c => { s.setRegBits ownstatOff 0 2 c.1 with owner := { s.owner with keyHash := c.2 } }
    | none => s
  else s

/-- The arbitration interval of CLOCK: 100 ns (R56). -/
def State.interval100 (s : State) : Nat := s.clock / 100

/-- Claims of an interval that has ended are judged. -/
def State.settleClaims (s : State) : State := if s.owner.claims.isEmpty || s.owner.interval = s.interval100 then s else s.elect

/-- A register write past its checks; `f` is what the register does. -/
def State.regWrite (s : State) (w : Master) (off : Nat) (f : State → State) : State :=
  let s := s.settleClaims
  match s.writeVerdict w off with
  | .ignored => s
  | .table => s.event none 0x20 8 (masterId w) 0 0 0
  | .notOwner => s.refuseWrite w off
  | .ok => f s

/-- A claim (R56): complete when all four words of the master's CLAIMKEY have been written since its last CLAIMGO. The manual records the winner's copy "at election"; the model takes the copy as it stands at CLAIMGO, and a second complete claim of the same master in one interval replaces the first and sets no CLERR (log entry 64). -/
def State.claim (s : State) (w : Master) : State :=
  let c := masterCode w
  let whole := Sparse.get 0 s.owner.written c = 15
  let s := { s with owner := { s.owner with written := Sparse.set 0 s.owner.written c 0 } }
  if !whole || s.regBits ownstatOff 0 2 ≠ 0 then s.setRegBits ownstatOff (7 + c) 1 1
  else
    let key : BitVec 256 := s.reg (claimkeyOff (c - 1) 3) ++ s.reg (claimkeyOff (c - 1) 2) ++ s.reg (claimkeyOff (c - 1) 1) ++ s.reg (claimkeyOff (c - 1) 0)
    { s with owner := { s.owner with claims := s.owner.claims.filter (fun x => decide (x.1 ≠ c)) ++ [(c, key)], interval := s.interval100 } }

/-- CLAIMGO (R56). -/
def execClaimgo (s : State) : Out :=
  .next (s.regWrite s.ev.who claimgoOff (fun s => if s.ev.val = 1 ∧ masterCode s.ev.who ≠ 0 then s.claim s.ev.who else s))

/-- ARBITRATION_INTERVAL_END (R56). -/
def execArbitrationIntervalEnd (s : State) : Out := .next s.settleClaims

/-! ### Handover and vacancy (R57, R58) -/

/-- A pending handoff older than 100 ms is cancelled (R57). -/
def State.expireHandoff (s : State) : State :=
  if s.regBits ownstatOff 4 2 ≠ 0 ∧ 8 * 100000000 < s.time - s.owner.handoffAt then s.setRegBits ownstatOff 4 2 0 else s

/-- HANDOFF (R57): of a value above 3, for which the manual says nothing, PEND takes the low two bits (log entry 64). -/
def execHandoff (s : State) : Out :=
  .next (s.regWrite s.ev.who handoffOff (fun s => { s.setRegBits ownstatOff 4 2 s.ev.val.toNat with owner := { s.owner with handoffAt := s.time } }))

/-- HANDACK (R57): the successor's acceptance transfers ownership; one from another master is a refused write. The key hash taken is what the successor's CLAIMKEY holds, written since the HANDOFF or before it (log entry 64). -/
def execHandack (s : State) : Out :=
  .next (s.regWrite s.ev.who handackOff (fun s =>
    let s := s.expireHandoff
    let c := masterCode s.ev.who
    if c = 0 ∨ s.regBits ownstatOff 4 2 ≠ c then s.refuseWrite s.ev.who handackOff
    else if s.ev.val ≠ 1 then s
    else
      let key : BitVec 256 := s.reg (claimkeyOff (c - 1) 3) ++ s.reg (claimkeyOff (c - 1) 2) ++ s.reg (claimkeyOff (c - 1) 1) ++ s.reg (claimkeyOff (c - 1) 0)
      { (s.setRegBits ownstatOff 0 2 c).setRegBits ownstatOff 4 2 0 with owner := { s.owner with keyHash := key } }))

/-- HANDOFF_TIMEOUT (R57). -/
def execHandoffTimeout (s : State) : Out := .next s.expireHandoff

/-- OWNER_PATH_LOSS (R58): a pending handoff stays, which the manual leaves open, so its successor can still accept (log entry 64). -/
def execOwnerPathLoss (s : State) : Out := .next (s.setRegBits ownstatOff 0 2 0)

/-! ### Plain register writes (R9) -/

/-- Whether slot `p`'s resources may be changed (R65). -/
def State.slotOpen (s : State) (p : Nat) : Bool := decide (s.pctlState p < 2)

/-- Registers of a partition slot written without a request (R65, R114, R145, R149, R233). A STOPPED slot takes any OWNID here: R63's rule that no two slots carry the same is checked when one of them is to run (log entry 64). -/
def State.slotWrite (s : State) (p r : Nat) (v : W64) : State :=
  let off := slotOff p r
  if r = 0 ∨ 0x40 ≤ r ∧ r < 0x58 ∨ 0x80 ≤ r ∧ r < 0x98 ∨ r = 0xA0 ∨ 0x100 ≤ r ∧ r < 0x260 then
    if s.slotOpen p then s.plainWrite off (if r = 0 ∧ p = 0 then v &&& 0xFFFFFFFFFFFFFF else v) else s.setRegBits (slotOff p 0) 12 4 7
  else if r = 0x388 then
    (let v := if bits v 16 4 = 0 then setBits v 16 4 1 else v
     s.plainWrite off (if bits v 0 12 < 16 then setBits v 0 12 16 else v))
  else if r = 0x390 then s.plainWrite off (if bits v 32 16 = 0 then setBits v 32 16 1 else v)
  else if r = 0x3C8 then (if s.slotOpen p then s.plainWrite off (if bits v 0 3 = 7 then setBits v 0 3 6 else v) else s)
  else s.plainWrite off v

/-- Queue registers other than the control word (R93): stored while EN is 0; while it is 1 a change sets ERR 2. -/
def State.queueWrite (s : State) (q r : Nat) (v : W64) : State :=
  let m : W64 := if r = 0 then 0xFFFFFFFFFFF80 else if r = 0x18 then 0xFFFFFFFFFFFC0 else if r = 0x20 then 0xFFFF else 0
  let off := queueOff q r
  if s.regBits (queueOff q 8) 63 1 = 0 then s.setReg off ((s.reg off &&& ~~~ m) ||| (v &&& m))
  else if v &&& m = s.reg off &&& m then s else s.setRegBits (queueOff q 8) 24 8 2

/-- Registers whose writes have a step of their own. -/
def ownStep (off : Nat) : Bool :=
  decide (0x102000 ≤ off) && decide (off < 0x102100) && off % 16 = 0 || decide (0x200000 ≤ off) && decide (off < 0x200400) || off = claimgoOff || off = handoffOff || off = handackOff ||
    off = svcstatOff || decide (0x420000 ≤ off) && decide (off < 0x424000) || off = fotOff 8 || decide (0x450000 ≤ off) && decide (off < 0x450100) && off % 32 = 8 ||
    decide (0x1800100 ≤ off) && decide (off < 0x1800140) || decide (0x800000 ≤ off) && decide (off < 0x840000) && off % 0x40 = 8 ||
    decide (0x18000 ≤ off) && decide (off < 0x1A000) && off % 0x40 = 0x20 ||
    decide (0x400000 ≤ off) && decide (off < 0x410400) && (off % 0x400 = 0x3C0 || decide (0x300 ≤ off % 0x400) && decide (off % 0x400 < 0x380))

/-- Aperture bases cut down to a multiple of their aperture's size (R49). -/
def State.alignBases (s : State) (fns : List Nat) : State :=
  fns.foldl (fun s fn =>
    let off := if fn = 0 then apbaseOff else vfapbaseOff fn
    s.setReg off (BitVec.ofNat 64 ((s.reg off).toNat / 2 ^ s.apSize fn * 2 ^ s.apSize fn))) s

/-- An aperture resized: to 1 GiB-1 TiB for the PF, 1-64 GiB for the VFs; another size is not offered, and is ignored (R49). -/
def State.resizeAperture (s : State) (off : Nat) (v : W64) : State :=
  let n := bits v 0 6
  if n < 30 ∨ (if off = apsizeOff then 40 else 36) < n then s
  else (s.plainWrite off v).alignBases (if off = apsizeOff then [0] else (List.range 64).map (· + 1))

/-- The store of a register with no step of its own. NumVFs takes 0 to 64, an aperture's base is aligned to its size (R48, R49); CLAIMKEY notes the word written; ATTDONE cleared clears ATTBUSY unless the request is pending. -/
def State.storeReg (s : State) (w : Master) (off : Nat) (v : W64) : State :=
  if 0x400000 ≤ off ∧ off < 0x410400 then s.slotWrite ((off - 0x400000) / 0x400) (off % 0x400) v
  else if 0x800000 ≤ off ∧ off < 0x840000 then s.queueWrite ((off - 0x800000) / 0x40) (off % 0x40) v
  else if 0x460000 ≤ off ∧ off < 0x484000 then
    (let m := (off - 0x460000) / 64 % 256
     if m < 67 ∨ 96 ≤ m ∧ m < 131 then s.plainWrite off v else s)
  else if off = numVfsOff then (if 64 < bits v 0 7 then s else s.plainWrite off v)
  else if off = apsizeOff ∨ off = vfapsizeOff then s.resizeAperture off v
  else if off = apbaseOff then (s.plainWrite off v).alignBases [0]
  else if 0x208 ≤ off ∧ off ≤ 0x400 then (s.plainWrite off v).alignBases [(off - 0x200) / 8]
  else if 0x10020 ≤ off ∧ off < 0x10080 then
    (let c := masterCode w
     { s.setReg off v with owner := { s.owner with written := Sparse.set 0 s.owner.written c (Sparse.get 0 s.owner.written c ||| 2 ^ ((off - 0x10020) / 8 % 4)) } })
  else if 0x18000 ≤ off ∧ off < 0x1A000 then
    (if off % 0x40 < 0x20 then s.setReg off v
     else if off % 0x40 = 0x28 ∧ v.getLsbD 0 then s.setReg off (if s.owner.attQueue.contains ((off - 0x18000) / 0x40) then s.reg off &&& 2 else 0)
     else s)
  else if counterOff 65 0 ≤ off ∧ off ≤ counterOff 65 6 then (if bits v 0 32 = 0 then s.clearSum ((off - counterOff 65 0) / 8) else s)
  else s.plainWrite off v

/-- The register that an offset stands for to a master: the trust block's attestation registers are its own copy (R60). -/
def ownOff (w : Master) (off : Nat) : Nat := if 0x10100 ≤ off ∧ off < 0x10130 then attnonceOff (masterId w) 0 + (off - 0x10100) else off

/-- Whether a write is a request to a partition slot, which the PCTL steps act on (R65). -/
def isRequest (off : Nat) (v : W64) : Bool := decide (0x400000 ≤ off) && decide (off < 0x410400) && off % 0x400 = 0 && bits v 8 2 ≠ 0

/-- REGISTER_WRITE (R55): the register at PF BAR0 offset `x`. -/
def execRegisterWrite (s : State) : Out :=
  .next (
    let off := ownOff s.ev.who s.ev.x
    s.regWrite s.ev.who off (fun s => if ownStep off || isRequest off s.ev.val then s else s.storeReg s.ev.who off s.ev.val))

/-! ### Firmware (R59) -/

/-- Lengths of the public key and of the signature of a parameter set (Table 3-7). -/
def keyLen (set : Nat) : Nat := if set = 1 ∨ set = 2 then 32 else if set = 3 ∨ set = 4 then 48 else 64
def sigLen (set : Nat) : Nat :=
  if set = 1 then 7856 else if set = 2 then 17088 else if set = 3 then 16224 else if set = 4 then 35664 else if set = 5 then 29792 else 49856

/-- Whether a stage's image is accepted (R59); its reserved bytes are zero (R10, Table 3-6). -/
def imageGood (stage : Nat) (bs : List Byte) : Bool :=
  let set := Config.pset
  let key := (bs.drop 0x30).take (keyLen set)
  let sig := (bs.drop 0x80).take (sigLen set)
  let body := (bs.drop (0x80 + sigLen set)).take (le bs 0xC 4)
  le bs 0 4 = 0x46575848 && le bs 6 1 = stage && le bs 7 1 = set && decide (le bs 0x70 16 = 0) && decide (0x80 + sigLen set + le bs 0xC 4 ≤ bs.length) &&
    (Config.sha256 key == Config.keyHash 0 && !Config.keyRevoked 0 || Config.sha256 key == Config.keyHash 1 && !Config.keyRevoked 1) &&
    Config.slhVerify set key (bs.take 0x80) sig && leBytes 32 (Config.sha256 body).toNat == (bs.drop 0x10).take 32 && decide (Config.minSvn stage ≤ le bs 8 4)

/-- No die is usable: no core runs, and the dies' slices and stacks serve nothing (R30, R59). -/
def State.noDies (s : State) : State := s.setRegBits svcstatOff 24 8 0

/-- FIRMWARE_STAGE_VERIFY (R59): stage `x`, image `bytes`. A refused package controller puts the part in recovery, where no core runs; refused Twicor firmware leaves the dies unusable. -/
def execFirmwareStageVerify (s : State) : Out :=
  .next (
    let n := s.ev.x
    if n = 0 ∨ 3 < n then s
    else if imageGood n s.ev.bytes then { s with owner := { s.owner with stages := Table.put s.owner.stages n (s.ev.bytes.take 0x80), recovery := s.owner.recovery && decide (n ≠ 1) } }
    else if n = 1 then { s.noDies with owner := { s.owner with recovery := true } }
    else if n = 3 then (s.setRegBits fwfailOff n 1 1).noDies
    else s.setRegBits fwfailOff n 1 1)

/-! ### Attestation (R60) -/

/-- The requester's owner id. -/
def State.requesterOwner (s : State) (r : Nat) : Nat := if 1 ≤ r ∧ r ≤ 64 then s.ownid r else 0

/-- The bytes of a slot's registers, as its partition measurement takes them. -/
def State.slotBytes (s : State) (p : Nat) : List Byte := (List.range 128).flatMap (fun i => leBytes 8 (s.slotReg p (8 * i)).toNat)

/-- The attestation report before its signature (Table 3-8). -/
def State.reportBody (s : State) (r : Nat) : List Byte :=
  leBytes 4 0x54415848 ++ leBytes 2 1 ++ leBytes 2 Config.pset ++ leBytes 8 Config.serial.toNat ++
    (List.range 4).flatMap (fun i => leBytes 8 (s.reg (attnonceOff r i)).toNat) ++ leBytes 32 Config.romHash.toNat ++
    leBytes 32 (Config.sha256 (s.owner.stages.vals.flatten)).toNat ++
    leBytes 32 (Config.sha256 (Config.fuseBytes ++ leBytes 1 Config.pset ++ leBytes 32 s.owner.keyHash.toNat)).toNat ++
    leBytes 4 (((Table.find s.owner.stages 1).map (fun h => le h 8 4)).getD 0) ++ leBytes 1 (s.regBits ownstatOff 0 2) ++ leBytes 1 r ++ leBytes 1 (s.requesterOwner r) ++
    leBytes 1 s.level ++ leBytes 1 (s.regBits svcstatOff 24 8) ++ leBytes 7 0 ++
    (if 1 ≤ r ∧ r ≤ 64 then leBytes 32 (Config.sha256 (s.slotBytes r)).toNat else leBytes 32 0) ++ leBytes 8 s.clock ++ leBytes 24 0 ++ padTo 64 Config.attKey

/-- ATTGO (R60). -/
def execAttgo (s : State) : Out :=
  .next (
    let r := masterId s.ev.who
    s.regWrite s.ev.who (attgoOff r) (fun s =>
      if s.ev.val ≠ 1 then s
      else
        let s' := s.setRegBits (attdoneOff r) 1 1 1
        if s.owner.attQueue.contains r ∨ s.regBits (attdoneOff r) 0 1 = 1 then s' else { s' with owner := { s.owner with attQueue := s.owner.attQueue ++ [r] } }))

/-- ATTESTATION_SIGNED (R60): requester `x`, the first that waits. -/
def execAttestationSigned (s : State) : Out :=
  .next (
    let r := s.ev.x
    if s.owner.attQueue.head? ≠ some r then s
    else
      let body := s.reportBody r
      let s := { s with owner := { s.owner with attQueue := s.owner.attQueue.drop 1, reports := Table.put s.owner.reports r (body ++ Config.slhSign Config.pset body) } }
      s.setRegBits (attdoneOff r) 0 2 1)

/-! ### Dies and service levels (R29, R30, R61, R62) -/

/-- LEVEL from USABLE and DIERET; full service lasts until the next reset. -/
def State.relevel (s : State) : State :=
  let u := s.regBits svcstatOff 24 8
  if s.level = 2 then s else s.setRegBits svcstatOff 0 2 (if u ||| s.regBits svcstatOff 8 8 = 0xFF then 2 else if u = 0 then 0 else 1)

/-- DIE_TRAINING_COMPLETE (R30): die `x`, its stack if `yes`; it has trained if `ok`. A die whose Twicor firmware was refused stays unusable (R59). -/
def execDieTrainingComplete (s : State) : Out :=
  .next (
    let d := s.ev.x
    if 8 ≤ d ∨ s.owner.recovery then s
    else if !s.ev.ok then (s.setDie d { s.die d with failed := true }).setRegBits svcstatOff (16 + d) 1 1
    else
      let k := s.die d
      let k := if s.ev.yes then { k with stackOk := true } else { k with dieOk := true }
      let s := s.setDie d k
      if k.dieOk && k.stackOk && !k.failed && s.regBits fwfailOff 3 1 = 0 && s.regBits svcstatOff (8 + d) 1 = 0 then (s.setRegBits svcstatOff (24 + d) 1 1).relevel else s)

/-- DIERET_WRITE (R62): bits of usable dies are ignored; a retired die's groups are OFF. -/
def execDieretWrite (s : State) : Out :=
  .next (s.regWrite s.ev.who svcstatOff (fun s =>
    if s.level = 2 then s
    else
      let u := s.regBits svcstatOff 24 8
      let v := bits s.ev.val 8 8
      let s := s.setRegBits svcstatOff 8 8 (v - (v &&& u))
      let off := (List.range 8).filter (fun d => s.regBits svcstatOff (8 + d) 1 = 1)
      let s := off.foldl (fun s d => ((s.setRegBits (lgstatOff (2 * d)) 16 3 0).setRegBits (lgstatOff (2 * d)) 8 2 0).setRegBits (lgstatOff (2 * d + 1)) 16 3 0 |>.setRegBits (lgstatOff (2 * d + 1)) 8 2 0) s
      s.relevel))

/-- Tasks with trains on a die. -/
def State.tasksOnDie (s : State) (d : Nat) : List Nat := ((s.trains.filter (fun e => decide (e.1 / 32 / 192 = d))).map (fun e => e.2.task)).eraseDups

/-- THERMAL_EVENT (R29): die `x` stops issuing, the owner is told, and every task with trains on it is unwound with status RESET (R154). -/
def execThermalEvent (s : State) : Out :=
  .next (
    let d := s.ev.x
    if 8 ≤ d then s
    else
      let s := s.setDie d { s.die d with stopped := true }
      (s.tasksOnDie d).foldl (fun s t => s.unwind t 12 0) { s with sent := s.sent ++ [.thermal d (s.regBits ownstatOff 0 2)] })

/-- THERMAL_EVENT_CLEAR (R29): by the owner, at `y` °C. -/
def execThermalEventClear (s : State) : Out :=
  .next (if s.isOwner s.ev.who && decide (s.ev.y ≤ 95) && decide (s.ev.x < 8) then s.setDie s.ev.x { s.die s.ev.x with stopped := false } else s)

/-! ### The SRAM rail (R69, R89, R90) -/

/-- Ways taken for the check bits (R69): the unassigned ones first, then from the unpinned ways of the highest non-empty entry, and so on down. Answers the register and what each entry lent. DESIGN CHOICE: the ways that an empty entry (SLOT 0x7F) names count as assigned, and none is taken of them; the manual does not say what they are (log entry 75). -/
def takeWays (r : W64) : W64 × List (Nat × Nat) :=
  let need := 2 - min 2 (16 - quotaSum r)
  let out := [3, 2, 1, 0].foldl (fun (x : W64 × Nat × List (Nat × Nat)) e =>
    let n := if quotaSlot x.1 e = 0x7F then 0 else min x.2.1 (quotaWays x.1 e - quotaPinned x.1 e)
    if n = 0 then x else (setBits x.1 (16 * e + 4) 5 (quotaWays x.1 e - n), x.2.1 - n, x.2.2 ++ [(e, n)])) (r, need, [])
  (out.1, out.2.2)

/-- The slices of a die take two ways each (R90 step 1). -/
def State.lendWays (s : State) (d : Nat) : State :=
  (List.range 256).foldl (fun s i =>
    let sl := 256 * d + i
    if quotaSum (s.quota sl) ≤ 14 then s
    else
    let r := takeWays (s.quota sl)
    let s := (s.requota sl (s.quota sl) r.1).setReg (squotaOff sl) r.1
    s.setDie d { s.die d with lent := r.2.foldl (fun m e => Sparse.set 0 m (4 * sl + e.1) e.2) (s.die d).lent }) s

/-- The ways go back to the entries they came from (R90 step 2). -/
def State.returnWays (s : State) (d : Nat) : State :=
  let s' := (s.die d).lent.foldl (fun s e =>
    let sl := e.1 / 4
    let r := setBits (s.quota sl) (16 * (e.1 % 4) + 4) 5 (quotaWays (s.quota sl) (e.1 % 4) + e.2)
    (s.requota sl (s.quota sl) r).setReg (squotaOff sl) r) s
  s'.setDie d { s'.die d with lent := [] }

/-- SETMV_WRITE (R90): die `x`. MODE reads 1 during a switch; a plain rail move sets BUSY alone. -/
def execSetmvWrite (s : State) : Out :=
  .next (
    let d := s.ev.x
    if 8 ≤ d then s
    else s.regWrite s.ev.who (sramrailOff d) (fun s =>
      let off := sramrailOff d
      if s.regBits off 34 1 = 1 then s
      else
        let mode := s.regBits off 32 2
        let below := decide (bits s.ev.val 0 16 < s.regBits off 16 16)
        let s := (s.setRegBits off 0 16 (bits s.ev.val 0 16)).setRegBits off 34 1 1
        if below && mode = 0 then (s.lendWays d).setRegBits off 32 2 1
        else if !below && mode = 2 then s.setRegBits off 32 2 1
        else s))

/-- SRAM_MODE_SWITCH_COMPLETE (R90): die `x`. A quota written while the slices were on their way to DEC-TED gives up its two ways now; then the accesses that wait at the slices go on. -/
def execSramModeSwitchComplete (s : State) : Out :=
  .next (
    let d := s.ev.x
    let off := sramrailOff d
    if 8 ≤ d ∨ s.regBits off 34 1 = 0 then s
    else
      let s := s.setRegBits off 34 1 0
      if s.regBits off 32 2 ≠ 1 then s
      else if s.regBits off 0 16 < s.regBits off 16 16 then ((s.lendWays d).setRegBits off 32 2 2).flushPosts
      else ((s.returnWays d).setRegBits off 32 2 0).flushPosts)

/-! ### Reset (R31, R63, R217) -/

/-- PART_RESET (R31): the reset state; the agenda and the free-value counter are the model's own and go on. -/
def execPartReset (s : State) : Out := .next { State.reset with agenda := s.agenda, fresh := s.fresh }

end Sys2Proof.Machine
end

