-- ==== Sys2Proof/Machine/Preempt.lean ====
section
/-! DEFINITION. Pre-emption (09 R149-R157, R161, R163, R164): the three tiers, train records and scratchpad images, saving and restoring, system-call replies, handler time-out. -/

namespace Sys2Proof.Machine

/-! ### What a slot has resident -/

/-- The trains of a slot, with their keys. -/
def State.trainsIn (s : State) (p : Nat) : List (Nat × Train) := s.trains.filter (fun e => decide (s.slotOfTask e.2.task = p))
/-- The saved trains of a slot, with the keys of the train slots they were saved from. -/
def State.savedIn (s : State) (p : Nat) : List (Nat × Train) := s.saved.filter (fun e => decide (s.slotOfTask e.2.task = p))
/-- The scratchpads of a slot's tasks on a core, by ascending task slot: how several gangs share the core's image (R155) the manual leaves open, and the model lays them one after the other in this order (log entry 80). -/
def State.padsIn (s : State) (p c : Nat) : List (Nat × Scratch) := (s.core c).scratch.filter (fun e => decide (s.slotOfTask e.1 = p) && decide (0 < e.2.ways + e.2.stash))

/-- Cores with something of a slot to save or saved. -/
def State.usedCores (s : State) (p : Nat) : List Nat :=
  (((s.savedIn p).map (fun (e : Nat × Train) => e.1 / 32)) ++ (s.cores.map Prod.fst).filter (fun c => !(s.padsIn p c).isEmpty)).eraseDups

/-! ### Train records (Table 9-2) -/

/-- The 4 KiB record of a train in train slot `slot` of a task; a reply is staged in it later (R164). -/
def Train.recordBytes (t : Train) (id slot : Nat) : List Byte :=
  let f := t.flash
  let fault := (t.call.map Call.fault).getD false
  let flags := (if f.lineage then 1 else 0) + (if t.call.isSome && !fault then 2 else 0) + (if fault then 8 else 0)
  leBytes 8 id ++ leBytes 8 f.pc.toNat ++ leBytes 8 f.lcb.toNat ++ leBytes 4 (f.recipe.getD 0xFFFFFFFF) ++ leBytes 2 slot ++ leBytes 1 flags ++ leBytes 1 0 ++
    leBytes 4 f.exm.toNat ++ leBytes 4 t.deadm.toNat ++ leBytes 8 f.fmt.toNat ++ leBytes 4 f.sig.toNat ++ leBytes 4 f.xflags.toNat ++
    leBytes 8 0 ++ padTo 8 (f.sregs.map (fun e => BitVec.ofNat 8 e.1)) ++ padTo 16 (f.vregs.map (fun e => BitVec.ofNat 8 e.1)) ++
    leBytes 1 f.sregs.length ++ leBytes 1 f.vregs.length ++ leBytes 6 0 ++ leBytes 8 (if fault then t.fltinfo.toNat else 0) ++ leBytes 4 (if fault then t.fltmask.toNat else 0) ++
    leBytes 20 0 ++ padTo 64 (f.sregs.flatMap (fun e => leBytes 8 e.2.toNat)) ++ (List.range 16).flatMap (fun i => leBytes 4 (Sparse.get 0 f.k i).toNat) ++
    (List.range 16).flatMap (fun i => leBytes 32 (Sparse.get 0 f.b i).toNat) ++ padTo 2048 (f.vregs.flatMap (fun e => (List.range 32).flatMap (fun l => leBytes 4 ((e.2[l]?).getD 0).toNat))) ++
    leBytes 1280 0

/-- The flashback store that a record holds; `mark` is the log tail at the restore. -/
def flashOf (bs : List Byte) (mark : Nat) : Flash :=
  { pc := BitVec.ofNat 64 (le bs 8 8), lcb := BitVec.ofNat 64 (le bs 0x10 8), recipe := if le bs 0x18 4 = 0xFFFFFFFF then none else some (le bs 0x18 4)
    lineage := decide (le bs 0x1E 1 % 2 = 1), exm := BitVec.ofNat 32 (le bs 0x20 4), fmt := BitVec.ofNat 64 (le bs 0x28 8), sig := BitVec.ofNat 32 (le bs 0x30 4)
    xflags := BitVec.ofNat 32 (le bs 0x34 4)
    sregs := (List.range (min 8 (le bs 0x58 1))).map (fun i => (le bs (0x40 + i) 1, BitVec.ofNat 64 (le bs (0x80 + 8 * i) 8)))
    vregs := (List.range (min 16 (le bs 0x59 1))).map (fun i => (le bs (0x48 + i) 1, (List.range 32).map (fun l => BitVec.ofNat 32 (le bs (0x300 + 128 * i + 4 * l) 4))))
    k := (List.range 16).foldl (fun m i => Sparse.set 0 m i (BitVec.ofNat 32 (le bs (0xC0 + 4 * i) 4))) []
    b := (List.range 16).foldl (fun m i => Sparse.set 0 m i (BitVec.ofNat 256 (le bs (0x100 + 32 * i) 32))) []
    mark := mark }

/-! ### Saving (R153-R155) -/

/-- Whether what a portion waits for is a boundary instruction short of its commit point (Table 22-1): the child form of JOIN, JOINANY, BARR before its barrier completes, REPACK, RDV. -/
def State.withdrawable (s : State) (t : Train) (w : Wait) : Bool := match w with
  | .join .. => true
  | .joinAny .. => true
  | .arriving _ barr _ _ => barr
  | .barrier r ph _ => decide (s.phaseOf t.task r < ph)
  | .repack _ => true
  | .rdv _ => true
  | _ => false

/-- The boundary instructions of a train that can still be withdrawn (R426), a TRAP whose record is not written among them. -/
def State.withdrawals (s : State) (t : Train) : Nat :=
  (t.portions.filter (fun o => s.withdrawable t o.2.wait)).length + if t.call.any (fun c => !c.fault && c.seq.isNone) then 1 else 0

/-- Whether a train can be rewound (R152, R426): every boundary instruction since its flashback point can still be withdrawn. -/
def State.rewindable (s : State) (t : Train) : Bool := !t.boundary || decide (t.bounds = s.withdrawals t)

/-- Whether a train is parked on a trap or a fault whose record stands, so that it keeps its registers for the reply (R163, R164; log entries 52 and 68). -/
def Train.onCall (t : Train) : Bool := t.call.any (fun c => c.fault || c.seq.isSome)

/-- Whether a train can be saved now (R154, R164): it can be rewound, or it is parked on a call and every operation of it has its answers. -/
def State.savable (s : State) (t : Train) : Bool := if t.onCall then t.pend.all (fun e => e.2.missing.isEmpty) && t.wqry.isEmpty else s.rewindable t

/-- What Table 22-1 takes back where a waiting BARR is withdrawn: its arrival, with the token that it brought. -/
def State.takeBack (s : State) (key : Nat) (w : Wait) : State := match w with
  | .barrier r ph _ =>
    match Table.find s.trains key with
    | none => s
    | some t =>
      ({ s with trains := Table.put s.trains key { t with arrivals := Sparse.set 0 t.arrivals r (ph - 1) } }).modTask t.task (fun k =>
        { k with tokens := k.tokens.filter (fun (x : Nat × Nat × Nat × W64) => !(decide (x.1 = r) && decide (x.2.1 = ph) && decide (x.2.2.1 = t.index))) })
  | _ => s

/-- A train's waiting boundary instructions withdrawn, and the train rewound (R153, R426). -/
def State.withdraw (s : State) (key : Nat) (t : Train) : State := ((t.portions.map (fun o => o.2.wait)).foldl (fun s w => s.takeBack key w) s).rewind key

/-- A train taken off its core, its task unchanged (R155). -/
def State.detach (s : State) (key : Nat) : State :=
  let s := { s with trains := Table.drop s.trains key }
  let s := s.dropTickets key
  let k := s.core (key / 32)
  s.setCore (key / 32) { k with active := k.active.filter (fun e => decide (e.slot ≠ key % 32)) }

/-- A train saved (R154, R155, R164): rewound, unless it is parked on a call whose record stands, and its record written; a write that fails its FOT check saves nothing. -/
def State.saveTrain (s : State) (key : Nat) : State :=
  match Table.find s.trains key with
  | none => s
  | some t =>
    let p := s.slotOfTask t.task
    let a := s.recordAt p (key / 32) (key % 32)
    if !s.fotRange p a 4096 then { s with trains := Table.put s.trains key { t with draining := false, rewound := true } }
    else
      let s := if t.onCall then s else s.withdraw key t
      match Table.find s.trains key with
      | none => s
      | some t =>
        let id := ((s.task t.task).map (fun k => k.id t.task)).getD 0
        let s := (s.detach key).deviceWrite a (t.recordBytes id (key % 32))
        { s with saved := Table.put s.saved key { t with draining := false } }

/-- Every train that waits to be saved and can be (R154). -/
def State.saveDrained (s : State) : State :=
  (s.trains.filter (fun e => e.2.draining && s.savable e.2)).foldl (fun s e => s.saveTrain e.1) s

/-- Whether engine work of a slot runs: copy jobs, steps and matrix programs (R154). -/
def State.enginesRun (s : State) (p : Nat) : Bool :=
  s.jobs.any (fun e => decide (e.2.slot = p) && e.2.started && !e.2.coll) || s.pairs.any (fun e => e.2.progs.any (fun m => m.active && decide (s.slotOfTask m.task = p)))

/-- Whether started engine work that writes a core's scratchpad, or a query that is to write a pair in it, is under way (R155 step 3, R439). -/
def State.padBusy (s : State) (p c : Nat) : Bool :=
  s.jobs.any (fun e => decide (e.2.slot = p) && e.2.started && !e.2.coll && (decide (e.2.core = some c) || e.2.feet.any (fun x => decide (x.2.2.1 = c + 1) && x.2.2.2))) ||
    s.pairs.any (fun e => decide (e.1 / 2 = c / 2) && e.2.progs.any (fun m => m.active && decide (s.slotOfTask m.task = p))) ||
    s.queries.any (fun e => decide (e.2.core = c) && decide (s.slotOfTask e.2.task = p))

/-- The bytes of some scratchpads one after the other, and the offsets of their bad words. -/
def padBytes (ps : List (Nat × Scratch)) : List Byte := ps.flatMap (fun e => (List.range e.2.size).map e.2.read)
def padBad (ps : List (Nat × Scratch)) : List Nat :=
  (ps.foldl (fun (x : Nat × List Nat) e => (x.1 + e.2.size, x.2 ++ e.2.bad.map (fun w => x.1 + 4 * w))) (0, [])).2

/-- CORE_SAVE (R155): core `x`, once its trains are saved: the log tail published and settled, the image written, the view discarded. -/
def execCoreSave (s : State) : Out :=
  .next (
    let c := s.ev.x
    match s.slotOfCore c with
    | none => s
    | some p =>
      if s.pctlState p ≠ 3 || decide ((s.pslot p).tier < 2) || s.csBase p = 0 || (s.core c).saved || !(s.usedCores p).contains c || (s.trainsIn p).any (fun e => decide (e.1 / 32 = c)) then s
      else if (s.log c).recs.any (fun r => r.stamp.isNone) then s.publish c
      else if !(s.log c).settledPkg (s.log c).tail || s.padBusy p c then s
      else
        let pads := s.padsIn p c
        let bs := padBytes pads
        let a := s.imageAt p c
        if !bs.isEmpty && !s.fotRange p a bs.length then s
        else
          let s := s.deviceWrite a bs
          let s := (padBad pads).foldl (fun s o => s.setPoison (a + o) true) s
          let k := s.core c
          s.setCore c { k with
            saved := true, view := [], stash := [], stashUse := []
            aside := pads.map (fun e => (e.1, { ways := e.2.ways, stash := e.2.stash, doubled := e.2.doubled }))
            scratch := k.scratch.filter (fun e => decide (s.slotOfTask e.1 ≠ p)) })

/-! ### The tiers (R154) -/

/-- Time since a stop was asked for, in nanoseconds. -/
def State.stopAge (s : State) (p : Nat) : Nat := (s.time - (s.pslot p).stopAt) / 8

/-- DRAINUS of a slot, in nanoseconds. -/
def State.drainNs (s : State) (p : Nat) : Nat := s.regBits (slotOff p 0x390) 32 16 * 1000

/-- A tier reached. -/
def State.setTier (s : State) (p n : Nat) : State := (s.setPslot p { s.pslot p with tier := n }).setRegBits (slotOff p 0x390) 16 2 n

/-- TIER2_START (R154): slot `x`. -/
def execTier2Start (s : State) : Out :=
  .next (
    let p := s.ev.x
    if s.pctlState p = 3 ∧ (s.pslot p).tier = 1 ∧ s.drainNs p ≤ s.stopAge p ∧ s.csBase p ≠ 0 then
      let s := s.setTier p 2
      ({ s with trains := s.trains.map (fun (e : Nat × Train) => (e.1, if s.slotOfTask e.2.task = p then { e.2 with draining := true } else e.2)) }).saveDrained
    else s)

/-- Tasks of a slot with anything not yet saved (R154 tier 3). -/
def State.unsaved (s : State) (p : Nat) : List Nat :=
  ((s.trainsIn p).map (fun e => e.2.task) ++ ((s.savedIn p).filter (fun e => !(s.core (e.1 / 32)).saved)).map (fun e => e.2.task) ++
    (s.cores.map Prod.fst).flatMap (fun c => (s.padsIn p c).map Prod.fst)).eraseDups

/-- Tier 3 (R154): everything not yet saved is unwound with status RESET. -/
def State.forceReset (s : State) (p : Nat) : State := (s.unsaved p).foldl (fun s t => s.unwind t 12 0) (s.setTier p 3)

/-- TIER3_START (R150, R154): slot `x`. -/
def execTier3Start (s : State) : Out :=
  .next (
    let p := s.ev.x
    let at_ := s.drainNs p + if s.csBase p = 0 then 0 else 20000
    if s.pctlState p = 3 ∧ (s.pslot p).tier < 3 ∧ at_ ≤ s.stopAge p then s.forceReset p else s)

/-- FORCE (R149): slot `x`; the write stores DRAINUS as any other. -/
def execForce (s : State) : Out :=
  .next (
    let p := s.ev.x
    if 64 < p then s
    else s.regWrite s.ev.who (slotOff p 0x390) (fun s =>
      let s := s.slotWrite p 0x390 s.ev.val
      if s.ev.val.getLsbD 0 && s.pctlState p = 3 then s.forceReset p else s))

/-- Whether nothing of a stopping slot remains resident (R154). -/
def State.slotQuiet (s : State) (p : Nat) : Bool :=
  (s.trainsIn p).isEmpty && !s.enginesRun p && (s.usedCores p).all (fun c => (s.core c).saved)

/-- Slots that have nothing resident any more are STOPPED (R154). -/
def State.settleStops (s : State) : State :=
  (List.range 65).foldl (fun s p => if s.pctlState p = 3 ∧ s.slotQuiet p then s.setRegBits (slotOff p 0) 0 2 1 else s) s

/-! ### Replies (R110, R163, R164) -/

/-- A reply applied to a parked train: a trap's goes to S1; a fault's replays the instruction when it is 0, a store once the log has room for it (R235), and else unwinds the task. -/
def State.applyReply (s : State) (key : Nat) (v : W64) : State :=
  match Table.find s.trains key with
  | none => s
  | some t =>
    match t.call with
    | none => s
    | some c =>
      if !c.fault then { s with trains := Table.put s.trains key { t.setS 1 v with call := none } }
      else if v ≠ 0 then s.unwind t.task 4 (c.imm - 0xFF00)
      else match t.fault with
        | none => { s with trains := Table.put s.trains key { t with call := none } }
        | some f =>
          if f.access.any (s.noRoom (key / 32) (key % 32) (s.slotOfTask t.task) t.task) then { s with trains := Table.put s.trains key { t with call := some { c with go := true }, logWait := true } }
          else
          let t := { t with call := none, fault := none, logWait := false }
          match f.access with
          | some x => ({ s with trains := Table.put s.trains key t }).access (key / 32) (key % 32) f.portion x []
          | none =>
            let t := { t with portions := Table.modify t.portions f.portion (fun o => { o with again := if f.charged then .free else .no }) }
            { s with trains := Table.put s.trains key t }

/-- The replays that wait for room in their logs look again (R235). -/
def State.pokeReplays (s : State) : State := (s.trains.filter (fun e => e.2.call.any Call.go)).foldl (fun s e => s.applyReply e.1 0) s

/-- Whether a reply has been staged in the record of a saved train (R164). -/
def Train.staged (t : Train) : Bool := t.call.any Call.go

/-- A reply that commits while its train is saved (R164): staged in the train's record at 0x038, with bit 2 of the byte at 0x01E. -/
def State.stageReply (s : State) (key : Nat) (t : Train) (v : W64) : State :=
  let p := s.slotOfTask t.task
  let a := s.recordAt p (key / 32) (key % 32)
  if !s.fotRange p a 4096 then s
  else
    let s := (s.deviceWrite (a + 0x38) (leBytes 8 v.toNat)).deviceWrite (a + 0x1E) (leBytes 1 (le (t.recordBytes 0 0) 0x1E 1 ||| 4))
    { s with saved := Table.put s.saved key { t with call := t.call.map (fun c => { c with go := true }) } }

/-! ### Restoring (R157) -/

/-- A start with the effect of ACQALL.pkg on a core (R96, R157, R222): the tails it waits for, and the core's stamp used. -/
def State.startAll (s : State) (core : Nat) : List (Nat × Nat) × State :=
  let st := s.nextStamp core
  (s.acqAllTails core st false, s.setLog core { s.log core with last := st })

/-- A core's scratchpads reloaded from its image, one after the other; words of poisoned granules fail their check. Where the read fails its FOT check, the tasks that hold them are unwound with status RESET (R150, R154). -/
def State.restorePads (s : State) (p c : Nat) : State :=
  let k := s.core c
  let a := s.imageAt p c
  let len := k.aside.foldl (fun n e => n + e.2.size) 0
  if decide (0 < len) && !s.fotRange p a len then
    (k.aside.map Prod.fst).foldl (fun s t => s.unwind t 12 0) (s.setCore c { k with scratch := k.aside.foldl (fun m e => Table.put m e.1 e.2) k.scratch, aside := [], saved := false })
  else
  let out := k.aside.foldl (fun (x : Nat × Table Scratch) e =>
    let n := e.2.size
    let pad := { e.2 with
      bytes := (List.range n).foldl (fun m i => Sparse.set 0 m i (Memory.read s.mem (a + x.1 + i))) []
      bad := (List.range (n / 4)).filter (fun w => s.poisoned (a + x.1 + 4 * w)) }
    (x.1 + n, Table.put x.2 e.1 pad)) (0, k.scratch)
  s.setCore c { k with scratch := out.2, aside := [], saved := false }

/-- Whether the reserved fields of a train record are zero (R10, Table 9-2). -/
def recordGood (bs : List Byte) : Bool := decide (le bs 0x1E 1 < 16) && zeros bs 0x1F 1 && zeros bs 0x5A 6 && zeros bs 0x6C 20 && zeros bs 0xB00 1280

/-- A train as it comes back (R153 steps 3 to 5, R157, R346): from its record; one parked on a call with the registers that its reply is for. Every portion's PM is all ones. -/
def Train.comesBack (t : Train) (bs : List Byte) (mark : Nat) : Train :=
  let t := if t.call.isSome then { t with call := t.call.map (fun c => { c with go := false }) } else t.reloaded (flashOf bs mark)
  { t with deadm := BitVec.ofNat 32 (le bs 0x24 4), readySince := 0, portions := t.portions.map (fun o => (o.1, { o.2 with pm := 0xFFFFFFFF })) }

/-- A saved train restored to the core and train slot it was saved from (R157, R164), or its task unwound with status RESET: its yard is gone, its record fails its FOT check or is poisoned, or a reserved field of it is not zero (R10; log entry 82). -/
def State.restoreTrain (s : State) (p : Nat) (e : Nat × Train) : State :=
  let c := e.1 / 32
  let a := s.recordAt p c (e.1 % 32)
  let bs := s.readBytes a 4096
  if (Table.find s.saved e.1).isNone then s
  else if !s.slotBit p 0x40 (c / 8) || !s.fotRange p a 4096 || s.anyPoison a 4096 || !recordGood bs then s.unwind e.2.task 12 0
  else
    let w := { s with saved := Table.drop s.saved e.1 }.startAll c
    let s := w.2
    let t := { e.2.comesBack bs (s.log c).tail with startAcqAll := some w.1 }
    let s := { s with trains := Table.put s.trains e.1 t }
    if t.call.isSome && decide (le bs 0x1E 1 / 4 % 2 = 1) then s.applyReply e.1 (BitVec.ofNat 64 (le bs 0x38 8)) else s

/-- Whether what a slot has saved cannot be read back yet: a home of its save area takes no access, or a write there has still to be made (R90). -/
def State.restoreWaits (s : State) (p : Nat) : Bool :=
  let size := (s.coresOf p).length * 458752
  (s.savedIn p).any (fun e => (List.range 16).any (fun i => s.homeWaits (s.recordAt p (e.1 / 32) (e.1 % 32) + 256 * i))) ||
    s.posts.any (fun x => decide (s.csBase p ≤ x.pa) && decide (x.pa < s.csBase p + size))

/-- Everything saved of a slot restored (R157). -/
def State.restoreSlot (s : State) (p : Nat) : State :=
  let cores := ((s.savedIn p).map (fun (e : Nat × Train) => e.1 / 32) ++ (s.cores.filter (fun (e : Nat × Core) => e.2.saved && e.2.aside.any (fun x => decide (s.slotOfTask x.1 = p)))).map Prod.fst).eraseDups
  let s := cores.foldl (fun s c => s.restorePads p c) s
  (s.savedIn p).foldl (fun s e => s.restoreTrain p e) s

/-! ### Time-out of the handler (R161) -/

/-- HANDLER_TIMEOUT (R161): the train at core `x`, slot `y`. -/
def execHandlerTimeout (s : State) : Out :=
  .next (match s.train s.ev.x s.ev.y with
    | none => s
    | some t => match t.handler with
      | none => s
      | some h => if 1000000 < cyclesSince s.time h.since then s.unwind t.task 4 fDOUBLEFLT else s)

/-! ### System-call records (R109, R163) -/

/-- The record of a call (Table 6-9; R163 for a fault). -/
def Train.callBytes (t : Train) (c : Call) (seq id core slot : Nat) : List Byte :=
  leBytes 2 c.imm ++ leBytes 2 0 ++ leBytes 4 seq ++ leBytes 8 id ++ leBytes 2 slot ++ leBytes 2 core ++ leBytes 4 0 ++
    (if c.fault then
      leBytes 8 t.fltinfo.toNat ++ leBytes 8 t.fltmask.toNat ++ leBytes 8 ((t.fault.map (fun f => f.pc.toNat)).getD 0) ++
        leBytes 8 (((t.fault.bind FaultCtx.word)).getD (2 ^ 64 - 1)) ++ leBytes 8 0
     else (List.range 5).flatMap (fun i => leBytes 8 (t.getS (i + 1)).toNat))

/-- The train of a host-routed fault switched out to its train record with the fault-pending bit (R163); a slot with no save area writes none (R150; log entry 68). -/
def State.faultRecord (s : State) (core slot : Nat) (t : Train) (id : Nat) : State :=
  let p := s.slotOfTask t.task
  let a := s.recordAt p core slot
  if t.call.any Call.fault && decide (s.csBase p ≠ 0) && s.fotRange p a 4096 then s.deviceWrite a (t.recordBytes id slot) else s

/-- SYSCALL_RECORD_WRITE (R109, R163): the train at core `x`, slot `y`, once the ring of its root's queue has room. -/
def execSyscallRecordWrite (s : State) : Out :=
  .next (match s.train s.ev.x s.ev.y with
    | none => s
    | some t => match t.call, s.task t.task with
      | some c, some k =>
        if c.seq.isSome then s
        else
          let q := k.queue
          let head := s.regBits (queueOff q 0x28) 0 32
          let tail := s.regBits (queueOff q 0x28) 32 32
          let size := s.regBits (queueOff q 0x20) 0 16
          if size < (head + 2 ^ 32 - tail) % 2 ^ 32 then s
          else
            let a := s.regBits (queueOff q 0x18) 6 46 * 64 + 64 * (head % (size + 1))
            if !s.fotRange (s.regBits (queueOff q 8) 8 7) a 64 then s.unwind t.task 4 fOWNERSHIP
            else
              let s := (s.deviceWrite a (t.callBytes c head (k.id t.task) s.ev.x s.ev.y)).pokeWatch
              let s := (s.setRegBits (queueOff q 0x28) 0 32 (head + 1)).faultRecord s.ev.x s.ev.y t (k.id t.task)
              s.setTrain s.ev.x s.ev.y { t with call := some { c with seq := some head } }
      | _, _ => s)

end Sys2Proof.Machine
end

