-- ==== Sys2Proof/Machine/Partition.lean ====
section
/-! DEFINITION. Partitions (04_partitions.md): slot requests (R65), way quotas and pinned frames (R67-R70), the frame ownership table (R71-R74), INVCMD (R189) and the migration commands (R202-R204). -/

namespace Sys2Proof.Machine

/-! ### Slot requests (R65) -/

/-- OWNID and WGT of a request's write: they take effect while the slot is FREE or STOPPED. -/
def State.pctlFields (s : State) (p : Nat) (v : W64) : State :=
  if s.slotOpen p then s.plainWrite (slotOff p 0) (if p = 0 then v &&& 0xFFFFFFFFFFFFFF else v) else s

/-- The result of a request. -/
def State.pctlErr (s : State) (p code : Nat) : State := s.setRegBits (slotOff p 0) 12 4 code

/-- The other slots that are not FREE. -/
def State.otherSlots (s : State) (p : Nat) : List Nat := (List.range 65).filter (fun q => decide (q ≠ p) && decide (s.pctlState q ≠ 0))

/-- Whether bitmap words at `off` of a slot meet those of another slot. -/
def State.bitmapClash (s : State) (p off words : Nat) : Bool :=
  (s.otherSlots p).any (fun q => (List.range words).any (fun i => decide (s.slotReg p (off + 8 * i) &&& s.slotReg q (off + 8 * i) ≠ 0)))

/-- Whether a slice's quota register gives a slot at least one way. -/
def State.hasWays (s : State) (p sl : Nat) : Bool := (List.range 4).any (fun e => decide (quotaSlot (s.reg (squotaOff sl)) e = p) && decide (0 < quotaWays (s.reg (squotaOff sl)) e))

/-- The failing checks of a run request, lowest code first (R65). -/
def State.runErrs (s : State) (p : Nat) : List Nat :=
  (if (p ≠ 0 ∧ s.ownid p = 0) ∨ (s.otherSlots p).any (fun q => decide (s.ownid q = s.ownid p)) then [1] else []) ++
    (if s.bitmapClash p 0x40 3 then [2] else []) ++ (if s.bitmapClash p 0x80 3 then [3] else []) ++ (if s.bitmapClash p 0xA0 1 then [4] else []) ++
    (if (List.range 2048).any (fun i => s.slotBit p 0x100 i && !s.hasWays p i) then [5] else []) ++ (if bits (s.slotReg p 0) 46 10 = 0 then [6] else [])

/-- PCTL_STOP (R65): slot `x`, the written value `val`. -/
def execPctlStop (s : State) : Out :=
  .next (
    let p := s.ev.x
    if 64 < p ∨ bits s.ev.val 8 2 ≠ 1 then s
    else s.regWrite s.ev.who (slotOff p 0) (fun s =>
      let s := s.pctlFields p s.ev.val
      if s.pctlState p ≠ 2 then s.pctlErr p 7
      else
        let s := (s.pctlErr p 0).setRegBits (slotOff p 0) 0 2 3
        (s.setPslot p { s.pslot p with stopAt := s.time }).setTier p 1))

/-- PCTL_RUN (R65, R157): it waits for the homes that a restore reads from. -/
def execPctlRun (s : State) : Out :=
  .next (
    let p := s.ev.x
    if 64 < p ∨ bits s.ev.val 8 2 ≠ 2 then s
    else s.regWrite s.ev.who (slotOff p 0) (fun s =>
      let s := s.pctlFields p s.ev.val
      if !s.slotOpen p then s.pctlErr p 7
      else match s.runErrs p with
        | e :: _ => s.pctlErr p e
        | [] => if s.restoreWaits p then s else ((s.pctlErr p 0).setRegBits (slotOff p 0) 0 2 2).restoreSlot p))

/-- Whether some frame carries an owner id. -/
def State.ownsFrames (s : State) (id : Nat) : Bool := if id = 0 then decide (s.fot.length < 2 ^ 24) else s.fot.any (fun e => decide (e.2.toNat = id))

/-- A slot's bitmaps cleared. -/
def State.clearBitmaps (s : State) (p : Nat) : State :=
  ((List.range 3).map (0x40 + 8 * ·) ++ (List.range 3).map (0x80 + 8 * ·) ++ [0xA0] ++ (List.range 44).map (0x100 + 8 * ·)).foldl (fun s r => s.setReg (slotOff p r) 0) s

/-- PCTL_FREE (R65). -/
def execPctlFree (s : State) : Out :=
  .next (
    let p := s.ev.x
    if 64 < p ∨ bits s.ev.val 8 2 ≠ 3 then s
    else s.regWrite s.ev.who (slotOff p 0) (fun s =>
      let s := s.pctlFields p s.ev.val
      if s.pctlState p ≠ 1 then s.pctlErr p 7
      else if s.ownsFrames (s.ownid p) then s.pctlErr p 8
      else ((s.pctlErr p 0).setRegBits (slotOff p 0) 0 2 0).clearBitmaps p))

/-! ### Pinned frames (R70) -/

/-- The first of the four slices of a frame (R22). -/
def frameSlice (f : Nat) : Nat := homeOf (f * 65536) / 4 * 4

/-- PINn of a slot. -/
def State.pin (s : State) (p n : Nat) : W64 := s.slotReg p (0x300 + 8 * n)

/-- The pinned frames of a slot that are homed in a slice. -/
def State.pinsIn (s : State) (p sl : Nat) : Nat :=
  ((List.range 16).filter (fun n => (s.pin p n).getLsbD 63 && decide (frameSlice (bits (s.pin p n) 0 24) = sl / 4 * 4))).length

/-- The pinned ways of a slot in a slice. -/
def State.pinWays (s : State) (p sl : Nat) : Nat :=
  (List.range 4).foldl (fun n e => if quotaSlot (s.reg (squotaOff sl)) e = p then n + quotaPinned (s.reg (squotaOff sl)) e else n) 0

/-- Whether a frame may be pinned: its owner's, with a free pinned way in each of its slices; no frame of an FOT region, which is closed to every access (R71; log entry 64). -/
def State.mayPin (s : State) (p f : Nat) : Bool :=
  decide (s.frameOwner f = s.ownid p) && !fotRegion (f * 65536) && (List.range 4).all (fun i => decide (s.pinsIn p (frameSlice f + i) < s.pinWays p (frameSlice f + i)))

/-- PIN register `n` of a slot is not being filled any longer. -/
def State.pinFilled (s : State) (p n : Nat) : State := s.setPslot p { s.pslot p with filling := (s.pslot p).filling.filter (fun m => decide (m ≠ n)) }

/-- A frame unpinned: its dirty sectors are written back, and its lines leave the pinned ways (log entry 63). -/
def State.unpin (s : State) (p n : Nat) : State := ((s.pinFilled p n).evictFrame (bits (s.pin p n) 0 24)).flushPosts

/-- A write to PINn (R70). -/
def State.pinWrite (s : State) (p n : Nat) (v : W64) : State :=
  let off := slotOff p (0x300 + 8 * n)
  let old := s.reg off
  let f := bits v 0 24
  if v.getLsbD 63 && old.getLsbD 63 then (if f = bits old 0 24 then s else s.setRegBits off 62 1 1)
  else
    let s := if old.getLsbD 63 then s.unpin p n else s
    let s := (s.setRegBits off 63 1 0).setRegBits off 0 24 f
    if !v.getLsbD 63 then s
    else if s.mayPin p f then
      ((s.setRegBits off 63 1 1).setRegBits off 62 1 0).setPslot p { s.pslot p with filling := (s.pslot p).filling ++ [n] }
    else s.setRegBits off 62 1 1

/-- PIN_SET (R70): PIN register `y` of slot `x`. -/
def execPinSet (s : State) : Out :=
  .next (if 64 < s.ev.x ∨ 15 < s.ev.y ∨ !s.ev.val.getLsbD 63 then s
    else s.regWrite s.ev.who (slotOff s.ev.x (0x300 + 8 * s.ev.y)) (fun s => s.pinWrite s.ev.x s.ev.y s.ev.val))

/-- PIN_CLEAR (R70). -/
def execPinClear (s : State) : Out :=
  .next (if 64 < s.ev.x ∨ 15 < s.ev.y ∨ s.ev.val.getLsbD 63 then s
    else s.regWrite s.ev.who (slotOff s.ev.x (0x300 + 8 * s.ev.y)) (fun s => s.pinWrite s.ev.x s.ev.y s.ev.val))

/-- PIN_FILL_COMPLETE (R70): the frame's lines lie locked in the slot's pinned ways. -/
def execPinFillComplete (s : State) : Out :=
  .next (if (s.pslot s.ev.x).filling.contains s.ev.y then ((s.pinFilled s.ev.x s.ev.y).pinLines s.ev.x (bits (s.pin s.ev.x s.ev.y) 0 24)).flushPosts else s)

/-! ### Way quotas (R68) -/

/-- Whether a quota write is refused (R68, R90). -/
def State.quotaBad (s : State) (sl : Nat) (v : W64) : Bool :=
  let es := List.range 4
  let top := if s.regBits (sramrailOff (sl / 256)) 32 2 = 2 then 14 else 16
  decide (top < quotaSum v) || decide (14 < es.foldl (fun n e => n + quotaPinned v e) 0) ||
    es.any (fun e => es.any (fun f => decide (e < f) && decide (quotaSlot v e = quotaSlot v f) && decide (quotaSlot v e ≠ 0x7F))) ||
    es.any (fun e => decide (quotaWays v e < quotaPinned v e)) || es.any (fun e => decide (65 ≤ quotaSlot v e) && decide (quotaSlot v e ≠ 0x7F)) ||
    (List.range 65).any (fun p => decide (es.foldl (fun n e => if quotaSlot v e = p then n + quotaPinned v e else n) 0 < s.pinsIn p sl))

/-- SQUOTA_WRITE (R68): slice `x`. A write while the slice runs DEC-TED leaves nothing to return (R90 step 2). -/
def execSquotaWrite (s : State) : Out :=
  .next (
    let sl := s.ev.x
    if 2048 ≤ sl then s
    else s.regWrite s.ev.who (squotaOff sl) (fun s =>
      if s.quotaBad sl s.ev.val then s.setRegBits partStatusOff 1 1 1
      else
        let d := sl / 256
        ((s.requota sl (s.quota sl) s.ev.val).setReg (squotaOff sl) s.ev.val).setDie d { s.die d with lent := (s.die d).lent.filter (fun e => decide (e.1 / 4 ≠ sl)) }))

/-! ### The frame ownership table (R73, R74) -/

/-- What a range of frames fails on: an unusable die, an FOT region, and, for a tenant, its slot, its pseudo-channels and slices. A range that runs past the last frame fails as one on an unusable die does; the manual names no code for it (log entry 64). -/
def State.fotErr (s : State) (first count new : Nat) : Nat :=
  let fs := (List.range count).map (first + ·)
  if fs.any (fun f => decide (2 ^ 24 ≤ f) || !s.usable (dieOf (f * 65536))) then 5
  else if fs.any (fun f => fotRegion (f * 65536)) then 6
  else if new = 0 then 0
  else match (List.range 65).find? (fun p => (decide (s.pctlState p = 1) || decide (s.pctlState p = 2)) && decide (s.ownid p = new)) with
    | none => 1
    | some p =>
      if fs.any (fun f => !s.slotBit p 0x200 (dieOf (f * 65536) * 64 + pchOf (f * 65536))) then 2
      else if fs.any (fun f => (List.range 4).any (fun i => !s.slotBit p 0x100 (frameSlice f + i))) then 3
      else 0

/-- FOT_GO (R74): a write at offset 0x08 of the FOT command. -/
def execFotGo (s : State) : Out :=
  .next (s.regWrite s.ev.who (fotOff 8) (fun s =>
    if s.ev.val.getLsbD 63 && s.regBits (fotOff 0x10) 63 1 = 1 then s.setRegBits (fotOff 0x10) 48 8 4
    else
    let s := s.plainWrite (fotOff 8) s.ev.val
    if !s.ev.val.getLsbD 63 then s
    else
      let range := s.reg (fotOff 0)
      let e := s.fotErr (bits range 0 24) (bits range 24 24 + 1) (bits s.ev.val 0 8)
      let s := s.setRegBits (fotOff 0x10) 48 8 e
      if e ≠ 0 then s else { (s.setRegBits (fotOff 0x10) 63 1 1).setRegBits (fotOff 0x10) 0 24 0 with fotCmd := (range, s.ev.val) }))

/-- The PIN registers that pin a frame cleared (R74 step 3). -/
def State.unpinFrame (s : State) (f : Nat) : State :=
  (List.range 65).foldl (fun s p => (List.range 16).foldl (fun s n =>
    if (s.pin p n).getLsbD 63 && decide (bits (s.pin p n) 0 24 = f) then (s.unpin p n).setReg (slotOff p (0x300 + 8 * n)) 0 else s) s) s

/-- One frame changed (R74 steps 1-7); what waits at the frame is asked for again under the new owner (R191). -/
def State.changeFrame (s : State) (f new : Nat) (scrub : Bool) : State :=
  let s := (s.foldReceived f).unpinFrame f
  let s := (s.counted.filter (fun e => decide (e.1 / 256 = f))).foldl (fun s e => s.dropLine e.1) s
  let s := if scrub then s.zeroFrame f else s
  { s with fot := Sparse.set 0 s.fot f (BitVec.ofNat 8 new) }.dropFrame f

/-- FOT_FRAME_CHANGE (R74): the next frame of the command. -/
def execFotFrameChange (s : State) : Out :=
  .next (
    if s.regBits (fotOff 0x10) 63 1 = 0 then s
    else
      let range := s.fotCmd.1
      let n := s.regBits (fotOff 0x10) 0 24
      let s := s.changeFrame (bits range 0 24 + n) (bits s.fotCmd.2 0 8) (s.fotCmd.2.getLsbD 8)
      let s := s.setRegBits (fotOff 0x10) 0 24 (n + 1)
      (if n = bits range 24 24 then s.setRegBits (fotOff 0x10) 63 1 0 else s).pokeWatch)

/-! ### INVCMD (R189, R191) -/

/-- INVCMD (R189): slot `x`; a GO while one is in progress is ignored. -/
def execInvcmd (s : State) : Out :=
  .next (
    let p := s.ev.x
    if 64 < p then s
    else s.regWrite s.ev.who (slotOff p 0x3C0) (fun s =>
      if s.regBits (slotOff p 0x3C0) 62 1 = 1 then s
      else
        let s := s.plainWrite (slotOff p 0x3C0) s.ev.val
        if !s.ev.val.getLsbD 63 then s
        else (s.setRegBits (slotOff p 0x3C0) 62 1 1).setPslot p
          { s.pslot p with inval := some (bits s.ev.val 16 41 * 65536, bits s.ev.val 57 2, masterId s.ev.who) }))

/-! ### Migration commands (R202-R204) -/

/-- MIGRATION_PRECOPY (R203): die `x`. -/
def execMigrationPrecopy (s : State) : Out :=
  .next (
    let d := s.ev.x
    if 8 ≤ d ∨ s.ev.val.getLsbD 1 then s
    else s.regWrite s.ev.who (migOff d 8) (fun s => if s.ev.val.getLsbD 0 then s.migGo d s.ev.val false else s.plainWrite (migOff d 8) s.ev.val))

/-- MIGRATION_POSTCOPY (R204): die `x`. -/
def execMigrationPostcopy (s : State) : Out :=
  .next (
    let d := s.ev.x
    if 8 ≤ d ∨ !s.ev.val.getLsbD 1 then s
    else s.regWrite s.ev.who (migOff d 8) (fun s => if s.ev.val.getLsbD 0 then s.migGo d s.ev.val true else s.plainWrite (migOff d 8) s.ev.val))

end Sys2Proof.Machine
end

