-- ==== Sys2Proof/Machine/Links.lean ====
section
/-! DEFINITION. Link groups and the host link (02_link_personalities.md, 03 R48-R54): the switch sequence, window installation, completions and time-outs of requests, inbound requests, BAR4 accesses and host window writes. -/

namespace Sys2Proof.Machine

/-! ### Answers to requests (R44, R47, R54) -/

/-- The drop reason of a fault code (Table 12-7). -/
def reasonOf (code : Nat) : Nat := if code = fLINKERR then 6 else if code = fLINKTIMEOUT then 7 else if code = fLINKDOWN then 8 else if code = fMLTIMEOUT then 5 else 2

/-- The element of an outstanding access answered. -/
def Pend.answerAt (q : Pend) (lane j v : Nat) (code : Option Nat) : Pend :=
  match q.missing.find? (fun e => decide (e.lane = lane) && decide (e.j = j)) with
  | some e => q.answer e v code none
  | none => q

/-- Who is answered in the end: a CXL port's read-modify-write answers for its atomic (R35). -/
def OutFor.base : OutFor → OutFor
  | .cxlRead _ _ _ _ back => back.base
  | .cxlWrite _ back => back.base
  | o => o

/-- A record that stands for one accepted by the host port whose zero-length read failed. -/
def lostRec (pos slot train task stc pa : Nat) : Rec := { pos := pos, slot := slot, train := train, task := task, mask := 0, gran := 0, data := [], pa := some pa, stc := stc }

/-- The zero-length reads of a log through a host window up to one of them: it follows the writes of them all (R53). -/
def State.readsUpTo (s : State) (id log : Nat) (win : Option Nat) : List (Nat × Outbound) :=
  s.outbound.filter (fun e => decide (e.1 ≤ id) && decide (e.2.win = win) && match e.2.reply with
    | .releaseRead l .. => decide (l = log)
    | _ => false)

/-- A write that a zero-length read stood for acknowledged: folded, or with the code that the read failed with (R53, R54). -/
def State.readEnds (s : State) (log : Nat) (code : Option Nat) (e : Nat × Outbound) : State :=
  let s := { s with outbound := Table.drop s.outbound e.1 }
  match e.2.reply with
  | .releaseRead _ pos p train task stc =>
    let s := s.acked log pos
    match code with
    | none => s
    | some c => s.recFails log (lostRec pos p train task stc e.2.pa) (reasonOf c)
  | _ => s

/-- The answer to a read or write of an agent through a window (R425, R107). -/
def State.farEnds (s : State) (owner pa : Nat) (bs : List Byte) (code : Nat) : State :=
  { s with far := s.far.map (fun f => if f.owner = owner ∧ f.pa = pa ∧ f.data.isNone then { f with data := some bs, code := code } else f) }

/-- A request ends with a fault code (R44, R47, R80). -/
def State.outFail (s : State) (id : Nat) (o : Outbound) (code : Nat) : State :=
  let reads := match o.reply with
    | .releaseRead log .. => s.readsUpTo id log o.win
    | _ => []
  let s := { s with outbound := Table.drop s.outbound id }
  match o.reply.base with
  | .sector core key stash => s.fillFails core key stash code
  | .element core slot pend lane j => s.modPend core slot pend (fun q => q.answerAt lane j 0 (some code))
  | .atomic core slot pend lane j _ => s.modPend core slot pend (fun q => q.answerAt lane j 0 (some code))
  | .fold log pos => match (s.log log).recs.find? (fun r => decide (r.pos = pos)) with
    | some r => s.dropRec log r (reasonOf code)
    | none => s
  | .releaseRead log .. => reads.foldl (fun s e => s.readEnds log (some code) e) s
  | .pull die _ => s.pullFails die
  | .far owner pa => s.farEnds owner pa [] code
  | .contribution job => match Table.find s.jobs job with
    | some j => if j.status = 0 then s.jobFault job j code else s
    | none => s
  | _ => s

/-- The atomic that a request carries: operation, size, operand, compare value, and who is answered. -/
def Outbound.atom (o : Outbound) : Option (Nat × Nat × Nat × Nat × OutFor) := match o.reply, o.aop with
  | .cxlRead a size v c back, _ => some (a, size, v, c, back)
  | back, some a => some (a, o.len, leNat (o.data.take o.len), leNat (o.data.drop o.len), back)
  | _, none => none

/-- An atomic across a window has been performed: the line goes from the issuing core's view and stashes, then the element is answered (R223 step 4). -/
def State.atomicDone (s : State) (core slot pend lane j key v : Nat) : State :=
  (s.atomicLine core key).modPend core slot pend (fun q => q.answerAt lane j v none)

/-- The end of a CXL port's read-modify-write with its answer (R35). -/
def State.cxlEnds (s : State) (back : OutFor) (v : Nat) : State := match back with
  | .atomic core slot pend lane j key => s.atomicDone core slot pend lane j key v
  | .far owner pa => s.farEnds owner pa (leBytes 8 v) 0
  | _ => s

/-- The flags that an atomic leaves noted with its access (R223). -/
def State.atomicFlags (s : State) (back : OutFor) (x : Nat) : State := match back with
  | .atomic core slot pend .. => s.modPend core slot pend (fun q => { q with xflags := q.xflags ||| BitVec.ofNat 32 x })
  | _ => s

/-- The log whose id an atomic stamps with: the issuing core's (R223 step 3), or that of the agent whose own atomic it is. -/
def State.stampLog (s : State) (back : OutFor) : Nat := match back.base with
  | .atomic core .. => core
  | .far owner _ => s.ownerAgent owner
  | _ => 0

/-- A CXL port has read the operand of an atomic: it computes, stamps the bytes as R223 step 3 does and writes them, which is the second half of a request already sent (R43), or is done where the operation writes nothing (R35). -/
def State.cxlStep (s : State) (o : Outbound) (aop size v c m : Nat) (back : OutFor) : State :=
  let r := atomicNew aop (8 * size) m v c
  let s := s.atomicFlags back r.2
  if atomicWrites aop (8 * size) m c then
    let s := { s with stamps := (List.range size).foldl (fun t i => Sparse.set (0, 0) t (o.pa + i) (max s.clock ((s.stampOf (o.pa + i)).1 + 1), s.stampLog back)) s.stamps }
    { s with
      nextId := s.nextId + 1
      outbound := Table.put s.outbound s.nextId { o with write := true, aop := none, data := leBytes size r.1, reply := .cxlWrite (atomicAnswer aop m r.1) back, sent := s.time } }
  else s.cxlEnds back (atomicAnswer aop m r.1)

/-- The element of an outstanding access answered with the bytes of its request: across a link those of its granule (R33). -/
def Pend.answerFrom (q : Pend) (lane j len : Nat) (bs : List Byte) : Pend :=
  match q.missing.find? (fun e => decide (e.lane = lane) && decide (e.j = j)) with
  | some e => q.answer e (leNat ((bs.drop (if len = q.size then 0 else e.va.getD 0 % 32)).take q.size)) none none
  | none => q

/-- The answer to an atomic sent as one request: its flags are those of the operation on the old value, and a put answers what it stored (R415, R418). -/
def State.atomicBack (s : State) (o : Outbound) (core slot pend lane j key m : Nat) : State := match o.atom with
  | some (a, size, v, c, _) =>
    let r := atomicNew a (8 * size) m v c
    (s.atomicFlags o.reply r.2).atomicDone core slot pend lane j key (atomicAnswer a m r.1)
  | none => s.atomicDone core slot pend lane j key m

/-- A request completes with its bytes (R47, R53, R215). -/
def State.outDone (s : State) (id : Nat) (o : Outbound) (bs : List Byte) : State :=
  let reads := match o.reply with
    | .releaseRead log .. => s.readsUpTo id log o.win
    | _ => []
  let s := { s with outbound := Table.drop s.outbound id }
  match o.reply with
  | .nobody => s
  | .sector core key stash => (s.fillArrives core key stash (s.overlaid core key { data := padTo 128 bs, pa := o.pa, pois := 0 })).2
  | .element core slot pend lane j => s.modPend core slot pend (fun q => q.answerFrom lane j o.len bs)
  | .atomic core slot pend lane j key => s.atomicBack o core slot pend lane j key (leNat (bs.take o.len))
  | .fold log pos => match (s.log log).recs.find? (fun r => decide (r.pos = pos)) with
    | some r => (s.takeRec log pos).acked (r.source log).1 (r.source log).2
    | none => s
  | .releaseRead log .. => reads.foldl (fun s e => s.readEnds log none e) s
  | .pull die line => (s.fillLine line bs).pulled die line
  | .far owner pa => s.farEnds owner pa (padTo o.len bs) 0
  | .contribution _ => s
  | .cxlRead aop size v c back => s.cxlStep o aop size v c (leNat (bs.take size)) back
  | .cxlWrite v back => s.cxlEnds back v

/-- Whether a request is under way at its link: sent, and delivered there. -/
def Outbound.out (o : Outbound) : Bool := !o.held && o.deliv

/-- Whether a request is a posted write of a fold (Table 2-6), and whether it is a message of a collective job. -/
def Outbound.posted (o : Outbound) : Bool := match o.reply with
  | .fold .. => true
  | _ => false
def Outbound.ether (o : Outbound) : Bool := match o.reply with
  | .contribution _ => true
  | _ => false

/-- Whether an answer has to wait for what stands before its request at the link port: the requests and records of a line are answered in the order in which they reached it, so that a reader finds what the port has taken over (R218, R228, R240; log entry 73). -/
def State.lineBefore (s : State) (o : Outbound) : Bool := match s.place o.pa with
  | .link n => match o.reply with
    | .contribution _ => false
    | .fold _ pos => s.outbound.any (fun e => e.2.out && !e.2.posted && !e.2.ether && decide (e.2.pa / 256 = o.pa / 256) && decide (e.2.mark ≤ pos))
    | _ => (s.log (linkLog (s.portGroup n o.pa) o.pa)).recs.any (fun r => decide (r.gran / 8 = o.pa / 256) && decide (r.pos < o.mark))
  | _ => false

/-- OUTBOUND_COMPLETION (R47, R54): request `x`, without error if `ok`; a poisoned completion is an error. -/
def execOutboundCompletion (s : State) : Out :=
  .next (match Table.find s.outbound s.ev.x with
    | some o => if !o.out || s.lineBefore o then s else if s.ev.ok then s.outDone s.ev.x o s.ev.bytes else s.outFail s.ev.x o fLINKERR
    | none => s)

/-- OUTBOUND_TIMEOUT (R47): request `x`, sent 1 ms ago or earlier. -/
def execOutboundTimeout (s : State) : Out :=
  .next (match Table.find s.outbound s.ev.x with
    | some o => if !o.out || decide (s.time - o.sent < 8 * 1000000) then s else s.outFail s.ev.x o fLINKTIMEOUT
    | none => s)

/-! ### Messages that the main line loses (R26, R80) -/

/-- A request reaches the port of its group (R31). While its window is in transition it is judged as one not sent yet (R44, Table 2-6): a posted write goes on while the group drains, unless its window is FAIL and its record was published after GO; any other is held, or ends with LINKDOWN where the window is FAIL or its group is down. A message of a collective job is Ultra Ethernet's. -/
def State.windowArrives (s : State) (id : Nat) (o : Outbound) : State :=
  let late := fun (n g : Nat) => match o.reply with
    | .fold log pos => decide (s.lwd n 3 1 = 1) && (s.log log).recs.any (fun r => decide (r.pos = pos) && decide ((s.group g).began / 8 < r.stamp.getD 0))
    | _ => false
  let take := fun (n : Nat) => { s with outbound := Table.put s.outbound id { o with deliv := true, sent := s.time, mark := (s.log (linkLog (s.portGroup n o.pa) o.pa)).tail } }
  if o.ether then { s with outbound := Table.put s.outbound id { o with deliv := true, sent := s.time } }
  else match s.place o.pa with
    | .link n =>
      let g := o.group.getD 0
      if s.inTransition n && o.posted && decide (s.groupState g = 2) then (if late n g then s.outFail id o fLINKDOWN else take n)
      else if s.linkCut n o.pa then s.outFail id o fLINKDOWN
      else if s.inTransition n then (if s.holdFull o.pa then s else s.hold (s.transitionGroup n) id { o with deliv := true })
      else take n
    | _ => s.outFail id o fADDRRANGE

/-- A message of agent `x` reaches its home `y`. -/
def State.lineArrives (s : State) (x y : Nat) (m : LineMsg) : State :=
  match m with
  | .record pos => s.modRec x pos (fun r => { r with deliv := true })
  | .access id => { s with nextId := s.nextId + 1, homeOps := Table.modify s.homeOps id (fun h => { h with deliv := true, came := s.nextId }) }
  | .sector key stash =>
    let k := s.core x
    s.setCore x { k with fills := k.fills.map (fun f => if f.key = key ∧ f.stash = stash then { f with deliv := true } else f) }
  | .query id => { s with queries := Table.modify s.queries id (fun q => { q with deliv := true }) }
  | .window id => match Table.find s.outbound id with
    | some o => s.windowArrives id o
    | none => s
  | .inbound id => { s with inbound := Table.modify s.inbound id (fun b => { b with deliv := true }) }
  | .trip owner _ => { s with far := s.far.map (fun f => if f.owner = owner ∧ f.len = 0 ∧ isStack f.pa ∧ homeOf f.pa = y then { f with data := some [] } else f) }
  | .contribution id => { s with contribs := Table.modify s.contribs id (fun c => { c with deliv := true }) }

/-- MAIN_LINE_MESSAGE (R25, R26): the oldest message of agent `x` to home `y` in class `z` (0 requests and records, 2 atomics) is delivered, or retried when its check fails. Replies and fold acknowledgements reach their agent in the step that sends them; one that is lost is MAIN_LINE_TIMEOUT's. -/
def execMainLineMessage (s : State) : Out :=
  .next (
    if !s.ev.ok then s
    else match s.lineNext s.ev.x s.ev.y s.ev.z with
      | some m => s.lineArrives s.ev.x s.ev.y m.2.2
      | none => s)

/-- A refusal logged for the owner of the frame concerned, or for the PF (R46). -/
def State.logRefusal (s : State) (m pa : Nat) : State := s.event (if isStack pa then s.slotOfFrame pa else none) 0x20 8 m 0 (pa / 32 * 32) 0

/-- A message of agent `x` given up by its port: a record is dropped with reason 5, an access, a fill, a query, a request to a window and what an agent reads or writes itself end with MLTIMEOUT, a contribution fails its sender's job, an inbound request ends with the error completion, logged as one that its home does not answer (R46). -/
def State.lineLost (s : State) (x : Nat) (m : LineMsg) : State :=
  match m with
  | .record pos => match (s.log x).recs.find? (fun r => decide (r.pos = pos)) with
    | some r => s.dropRec x r 5
    | none => s
  | .access id => match Table.find s.homeOps id with
    | some h => { s with homeOps := Table.drop s.homeOps id }.modPend h.core h.slot h.pend (fun q => h.elems.foldl (fun (q : Pend) (y : Elem × Nat) => q.answer y.1 0 (some fMLTIMEOUT) none) q)
    | none => s
  | .sector key stash => s.fillFails x key stash fMLTIMEOUT
  | .query id => match Table.find s.queries id with
    | some q => s.failQuery id q fMLTIMEOUT
    | none => s
  | .window id => match Table.find s.outbound id with
    | some o => s.outFail id o fMLTIMEOUT
    | none => s
  | .inbound id => match Table.find s.inbound id with
    | some w => { s with inbound := Table.drop s.inbound id, sent := s.sent ++ [Sent.answer id false []] }.logRefusal w.master w.acc.addr
    | none => s
  | .trip owner pa => { s with far := s.far.map (fun f => if f.owner = owner ∧ f.len = 0 ∧ isStack f.pa ∧ homeOf f.pa = homeOf pa then { f with data := none, code := fMLTIMEOUT } else f) }
  | .contribution id => match Table.find s.contribs id with
    | some c =>
      let s := { s with contribs := Table.drop s.contribs id }
      match Table.find s.jobs c.job with
      | some j => if j.status = 0 then s.jobFault c.job j fMLTIMEOUT else s
      | none => s
    | none => s

/-- The messages of agent `x` that the main line has carried to home `y` and that could be answered now: their replies and fold acknowledgements cross it back. -/
def State.lineServed (s : State) (x y : Nat) : List (Nat × LineMsg) :=
  ((s.log x).recs.filter (fun r => r.deliv && decide (s.recHome r = y) && !arrived false (s.recDie x r) y && decide (x < 1736) && s.foldable x r)).map (fun r => (r.sent, .record r.pos)) ++
    (s.homeOps.filter (fun e => e.2.deliv && decide (e.2.core = x) && decide (e.2.home = y) && s.servable e.1 e.2 && !s.atomicHeld e.2)).map (fun e => (e.2.sent, .access e.1)) ++
    ((s.core x).fills.filter (fun f => f.deliv && isStack f.pa && decide (homeOf f.pa = y) && !s.homeWaits f.pa)).map (fun f => (f.sent, .sector f.key f.stash)) ++
    (s.queries.filter (fun e => e.2.deliv && decide (e.2.core = x) && decide (homeOf e.2.pa = y) && !s.homeWaits e.2.pa)).map (fun e => (e.2.began, .query e.1)) ++
    (s.outbound.filter (fun e => e.2.out && decide (e.2.src = x) && decide (e.2.group.map (4096 + ·) = some y) && !arrived false (agentDie x) y)).map (fun e => (e.2.sent, .window e.1)) ++
    (s.far.filter (fun f => decide (f.len = 0) && isStack f.pa && f.data.isSome && decide (homeOf f.pa = y) && decide (s.ownerAgent f.owner = x))).map (fun f => (f.sent, .trip f.owner f.pa))

/-- The reply to a message lost: its home has acted, the requester has the outcome of R80. -/
def State.replyLost (s : State) (x : Nat) (m : LineMsg) : State :=
  match m with
  | .record pos => match (s.log x).recs.find? (fun r => decide (r.pos = pos)) with
    | some r => (s.foldRec x r).recFails x r 5
    | none => s
  | .access id => match Table.find s.homeOps id with
    | some h =>
      let s := s.modPend h.core h.slot h.pend (fun q => h.elems.foldl (fun (q : Pend) (y : Elem × Nat) => q.answer y.1 0 (some fMLTIMEOUT) none) q)
      if h.cls = 2 then s.atomicServe id else s.homeServe id
    | none => s
  | .query id => match Table.find s.queries id with
    | some q =>
      let z := s.serveQuery id q
      if (Table.find z.queries id).isSome then s
      else { s with mem := z.mem, stamps := z.stamps, counted := z.counted }.failQuery id q fMLTIMEOUT
    | none => s
  | m => s.lineLost x m

/-- MAIN_LINE_TIMEOUT (R26, R80): the oldest message of agent `x` to home `y` in class `z` is not delivered within 10 µs, or, in class 1, the reply to the `val`-th message that the home can answer is not: the port gives it up, the owner is told, the requester has the outcome of R80. -/
def execMainLineTimeout (s : State) : Out :=
  .next (
    let a := s.ev
    let tell := fun (s : State) => s.event none 1 5 0xFFFF a.y 0 0
    let old := fun (t : Nat) => decide (80000 ≤ s.time - t)
    if a.z = 1 then match (s.lineServed a.x a.y)[a.val.toNat]? with
      | some m => if old m.1 then tell (s.replyLost a.x m.2) else s
      | none => s
    else match s.lineNext a.x a.y a.z with
      | some m => if old m.1 then tell (s.lineLost a.x m.2.2) else s
      | none => s)

/-! ### The switch sequence (R40-R45) -/

/-- A group enters a state. -/
def State.enterGroup (s : State) (g st : Nat) : State := (s.setRegBits (lgstatOff g) 16 3 st).setGroup g { s.group g with since := s.time }
/-- An error of the sequence under way, shown in LGSTAT at once (R42); the first one stays. -/
def State.groupErr (s : State) (g e : Nat) : State :=
  if (s.group g).err = 0 then (s.setGroup g { s.group g with err := e }).setRegBits (lgstatOff g) 24 8 e else s

/-- LGCTL_GO (R39-R41): group `x`; a write with GO 0 stores TGT and RMO. An accepted GO clears ERR, which the manual leaves open (log entry 48). -/
def execLgctlGo (s : State) : Out :=
  .next (
    let g := s.ev.x
    if 16 ≤ g then s
    else s.regWrite s.ev.who (lgctlOff g) (fun s =>
      let v := s.ev.val
      let tgt := bits v 8 2
      let rmo := v.getLsbD 1
      let st := s.groupState g
      if !v.getLsbD 0 then s.setReg (lgctlOff g) (v &&& 0x302)
      else if st ≠ 0 ∧ st ≠ 1 then s.setRegBits (lgstatOff g) 24 8 1
      else if !rmo ∧ tgt = s.groupPers g then s.setRegBits (lgstatOff g) 24 8 2
      else
        let s := (s.setReg (lgctlOff g) (v &&& 0x302)).setRegBits (lgstatOff g) 24 8 0
        let s := s.setGroup g { s.group g with target := tgt, remapOnly := rmo, began := s.time, quiesced := decide (st = 1), err := 0, named := [] }
        s.enterGroup g (if st = 1 then 2 else if tgt ≠ 0 then 4 else 5)))

/-- The requests of a group that have been sent and not answered, contributions not acknowledged and posted writes on their way to the port among them. -/
def State.unanswered (s : State) (g : Nat) : List (Nat × Outbound) := s.outbound.filter (fun e => decide (e.2.group = some g) && !e.2.held && (e.2.deliv || e.2.posted))

/-- DRAIN_COMPLETE (R41, R43): every request sent has been answered, and every one that came in. -/
def execDrainComplete (s : State) : Out :=
  .next (
    let g := s.ev.x
    if s.groupState g = 2 ∧ (s.unanswered g).isEmpty ∧ s.inbound.all (fun e => decide (e.2.group ≠ some g)) then s.enterGroup g 3 else s)

/-- QUIESCE_TIMEOUT (R42, R43): the non-posted requests still unanswered time out, and messages not acknowledged fail their jobs. -/
def execQuiesceTimeout (s : State) : Out :=
  .next (
    let g := s.ev.x
    let xs := (s.unanswered g).filter (fun e => !e.2.posted)
    if s.groupState g = 2 ∧ 8 * 500000 ≤ s.time - (s.group g).since ∧ !xs.isEmpty then
      let s := xs.foldl (fun s e => s.outFail e.1 e.2 fLINKTIMEOUT) s
      (if xs.any (fun e => !e.2.ether) then s.groupErr g 4 else s).enterGroup g 3
    else s)

/-- FENCE_COMPLETE (R41, R43): records of FAIL windows are dropped, those of HOLD windows stay for the new descriptor. -/
def execFenceComplete (s : State) : Out :=
  .next (
    let g := s.ev.x
    if s.groupState g ≠ 3 then s
    else
      let s := [0, 1, 2, 3].foldl (fun s i => ((s.log (1736 + 4 * g + i)).recs.filter (fun r => !r.far)).foldl (fun s r => match s.place (r.pa.getD 0) with
        | .link n => if s.lwd n 3 1 = 1 then s.dropRec (1736 + 4 * g + i) r 8 else s
        | _ => s) s) s
      s.enterGroup g (if (s.group g).remapOnly || (s.group g).target = 0 then 5 else 4))

/-- RETRAIN_COMPLETE (R41): a group of a retired die does not train (R62). -/
def execRetrainComplete (s : State) : Out :=
  .next (
    let g := s.ev.x
    if s.groupState g = 4 ∧ s.regBits svcstatOff (8 + g / 2) 1 = 0 then (s.setRegBits (lgstatOff g) 8 2 (s.group g).target).enterGroup g 5 else s)

/-- RETRAIN_TIMEOUT (R42): the group becomes OFF with TRAINFAIL, and REMAP still runs. -/
def execRetrainTimeout (s : State) : Out :=
  .next (
    let g := s.ev.x
    if s.groupState g = 4 ∧ 8 * 1300000 ≤ s.time - (s.group g).since then
      let s := (s.groupErr g 3).setRegBits (lgstatOff g) 8 2 0
      (s.setGroup g { s.group g with target := 0 }).enterGroup g 5
    else s)

/-! ### Windows (R37, R45) -/

/-- Bits of the pending copy of a descriptor. -/
def State.lwp (s : State) (n lo k : Nat) : Nat := s.regBits (lwdOff n (lo / 64)) (lo % 64) k

/-- Whether a descriptor names a group in its active or its pending copy (R40). -/
def State.lwdNames (s : State) (n g : Nat) : Bool := s.lwd n (96 + g) 1 = 1 || s.lwp n (96 + g) 1 = 1

/-- The personality a group carries once the switch of group `g` ends (R37). -/
def State.willCarry (s : State) (g x : Nat) : Nat :=
  let k := s.group x
  if x = g then (if k.target = 0 then 0 else s.groupPers x)
  else if 2 ≤ s.groupState x then (if k.target = 0 then 0 else if k.remapOnly ∧ s.groupPers x ≠ 0 then s.groupPers x else k.target)
  else if s.groupState x = 1 then s.groupPers x else 0

/-- Whether a pending descriptor meets R37 but for the overlap. -/
def State.windowFits (s : State) (g n : Nat) : Bool :=
  s.lwp n 0 1 = 0 ||
    (decide (s.lwp n 42 22 ≤ s.lwp n 66 22) && decide (0x40000 ≤ s.lwp n 42 22) && decide (s.lwp n 66 22 < 0x300000) && (s.lwp n 4 2 = 1 || s.lwp n 4 2 = 2) &&
      decide ((setBitsOf (s.lwp n 96 16) 16).length = 2 ^ s.lwp n 6 2) && (setBitsOf (s.lwp n 96 16) 16).all (fun x => decide (s.willCarry g x = s.lwp n 4 2)))

/-- The range of a descriptor once those in `good` are installed, if it is enabled; another one keeps its active copy. -/
def State.rangeAfter (s : State) (good : List Nat) (n : Nat) : Option (Nat × Nat) :=
  if good.contains n then (if s.lwp n 0 1 = 1 then some (s.lwp n 42 22, s.lwp n 66 22) else none)
  else if s.lwd n 0 1 = 1 then some (s.lwd n 42 22, s.lwd n 66 22) else none

/-- Whether a pending range overlaps no other descriptor's (R37). -/
def State.rangeFree (s : State) (good : List Nat) (n : Nat) : Bool :=
  s.lwp n 0 1 = 0 || (List.range 256).all (fun m => decide (m = n) || match s.rangeAfter good m with
    | some r => decide (r.2 < s.lwp n 42 22) || decide (s.lwp n 66 22 < r.1)
    | none => true)

/-- The descriptors that a REMAP installs (R37): those left when the ones that overlap another valid one, or the range that an invalid one keeps, have gone, round by round (log entry 48); `fuel` bounds the rounds. -/
def State.goodWindows (s : State) : Nat → List Nat → List Nat
  | 0, _ => []
  | fuel + 1, ns =>
    let ok := ns.filter (s.rangeFree ns)
    if ok.length = ns.length then ns else State.goodWindows s fuel ok

/-- Copies of an address range invalidated (R45): translations of cores and engines, view lines, stash entries; those lines that hold unfolded records of their core are asked for anew (R218). -/
def State.dropRange (s : State) (lo hi : Nat) : State :=
  let s := s.dropTlbs (fun x => decide (x.pa < hi) && decide (lo < x.pa + 2 ^ levelShift x.level))
  let inside := fun (x : Nat × Sector) => decide (lo ≤ x.2.pa) && decide (x.2.pa < hi)
  s.cores.foldl (fun s e =>
    let k := s.core e.1
    (s.setCore e.1 { k with
      view := k.view.filter (fun x => !inside x)
      stash := k.stash.filter (fun x => !inside x)
      stashUse := k.stashUse.filter (fun n => k.stash.any (fun x => decide (x.1 / 2 = n) && !inside x)) }).askAgain e.1 ((k.view.filter inside).map Prod.fst) ((k.stash.filter inside).map Prod.fst)) s

/-- The active halves of a descriptor. -/
def State.lwdHalf (s : State) (n h : Nat) : W64 := (Table.find s.lwdAct (2 * n + h)).getD 0

/-- The half of a pending copy that is installed: of a CXL window's TARGET, bits 15:2 are RZ (Table 2-2). -/
def State.pendHalf (s : State) (n h : Nat) : W64 := if h = 1 ∧ s.lwp n 4 2 = 1 then s.reg (lwdOff n 1) &&& 0x3FFFFFFFFFFFF else s.reg (lwdOff n h)

/-- Whether the installation of a descriptor changes it (R45). -/
def State.windowChanges (s : State) (n : Nat) : Bool := !(decide (s.lwdHalf n 0 ||| 8 = s.pendHalf n 0 ||| 8) && decide (s.lwdHalf n 1 = s.pendHalf n 1))

/-- Whether an access under the old descriptor is still on its way to an address of a window that changes: the invalidate of R45 waits for it (R191 step 1). -/
def State.windowBusy (s : State) (n : Nat) : Bool :=
  s.windowChanges n && s.outbound.any (fun e => !e.2.held && (decide (s.lwd n 0 1 = 1) && decide (s.lwd n 42 22 * 2 ^ 30 ≤ e.2.pa) && decide (e.2.pa < (s.lwd n 66 22 + 1) * 2 ^ 30) ||
    decide (s.lwp n 0 1 = 1) && decide (s.lwp n 42 22 * 2 ^ 30 ≤ e.2.pa) && decide (e.2.pa < (s.lwp n 66 22 + 1) * 2 ^ 30)))

/-- A descriptor installed by the REMAP of group `g`; if it changed, copies of its old and new ranges are invalidated (R45). It stays in transition until the other groups that it names, and that switch, have left REMAP (R40). -/
def State.installWindow (s : State) (g n : Nat) : State :=
  let old := (s.lwd n 42 22, s.lwd n 66 22)
  let same := !s.windowChanges n
  let others := (List.range 16).filter (fun x => decide (x ≠ g) && decide (2 ≤ s.groupState x) && s.lwdNames n x)
  let s := others.foldl (fun s x => s.setGroup x { s.group x with named := (s.group x).named ++ [n] }) s
  let s := { s with lwdAct := Table.put (Table.put s.lwdAct (2 * n) (s.pendHalf n 0)) (2 * n + 1) (s.pendHalf n 1) }
  if same then s else (s.dropRange (old.1 * 2 ^ 30) ((old.2 + 1) * 2 ^ 30)).dropRange (s.lwd n 42 22 * 2 ^ 30) ((s.lwd n 66 22 + 1) * 2 ^ 30)

/-- An atomic whose line a CXL port has locked waits at the port (R35): a train's as an access that has arrived there; another agent asks again. -/
def State.atomicWaits (s : State) (pa size aop v c : Nat) (back : OutFor) : State := match back with
  | .atomic core slot pend lane j _ =>
    match (s.train core slot).bind (fun t => (Table.find t.pend pend).bind (fun q => (q.missing.find? (fun e => decide (e.lane = lane) && decide (e.j = j))).map (fun e => (t, e)))) with
    | some (t, e) => { s with
        nextId := s.nextId + 1
        homeOps := Table.put s.homeOps s.nextId
          { core := core, slot := slot, task := t.task, part := s.slotOfTask t.task, pend := pend, op := .atomic aop, size := size, home := s.homeKey pa
            elems := [({ e with val := v, cmp := c }, pa)], cls := 2, deliv := true, sent := s.time, came := s.nextId } }
    | none => s
  | .far owner a => { s with far := s.far.filter (fun f => decide (f.owner ≠ owner) || decide (f.pa ≠ a)) }
  | _ => s

/-- A held request issued under the new descriptors (R44); a window in `bad` kept its old one, and its requests get the error of R44 (R42). An atomic that the new window does not offer was never sent (R34); one whose line is locked waits (R35). -/
def State.reissue (s : State) (bad : List Nat) (id : Nat) : State :=
  match Table.find s.outbound id with
  | none => s
  | some o =>
    match s.place o.pa with
    | .link n =>
      if bad.contains n || s.linkCut n o.pa then s.outFail id o fLINKDOWN
      else if o.atom.any (fun a => s.atomRefused (.atomic a.1) o.pa) then s.outFail id o fLINKERR
      else
        let s := { s with outbound := Table.drop s.outbound id }
        match o.atom with
        | some a => if s.portLocked o.pa then s.atomicWaits o.pa a.2.1 a.1 a.2.2.1 a.2.2.2.1 a.2.2.2.2 else s.atomicTo o.src o.pa a.2.1 a.1 a.2.2.1 a.2.2.2.1 a.2.2.2.2
        | none => s.request o.src o.pa o.len o.write none o.data o.reply o.pois
    | _ => s.outFail id o fADDRRANGE

/-- REMAP (R41, R44, R45): group `x`, once the accesses under descriptors that change have ended. -/
def execRemap (s : State) : Out :=
  .next (
    let g := s.ev.x
    if s.groupState g ≠ 5 then s
    else
      let ns := (List.range 256).filter (fun n => s.lwdNames n g)
      let good := s.goodWindows 257 (ns.filter (s.windowFits g))
      if good.any s.windowBusy then s
      else
      let s := if good.length = ns.length then s else s.groupErr g 5
      let s := good.foldl (fun s n => s.installWindow g n) s
      let k := s.group g
      let s := if k.target = 0 then (s.setRegBits (lgstatOff g) 8 2 0).setRegBits (lgstatOff g) 16 3 0 else s.setRegBits (lgstatOff g) 16 3 1
      let s := (s.setRegBits (lgstatOff g) 0 1 1).setRegBits (lgstatOff g) 32 32 ((s.time - k.began) / 8 / 1000)
      let s := if k.err = 0 then s else s.setRegBits (lgstatOff g) 24 8 k.err
      let s := s.setGroup g { k with hold := [], named := [], quiesced := false }
      k.hold.foldl (fun s id => s.reissue (ns.filter (fun n => !good.contains n)) id) s)

/-! ### Inbound requests (R46, R51) -/

/-- The right an access needs (R76). -/
def accessRight (a : Access) : Nat := match a.kind with
  | .read => 1
  | .write => 2
  | .atomic _ => 3
/-- The bytes an access covers. -/
def accessSize (a : Access) : Nat := match a.kind with
  | .read => max 1 a.len
  | .write => max 1 a.data.length
  | .atomic _ => a.data.length

/-- The first frame of an inbound request that fails a check, in the order access table, address map, FOT (R46), if any. -/
def State.inboundFails (s : State) (m p : Nat) (a : Access) : Option Nat :=
  (framesOf a.addr (accessSize a)).find? (fun f =>
    !(isStack (f * 65536) && s.accessOk (dieOf (f * 65536)) m (accessRight a) (f * 65536) && s.usable (dieOf (f * 65536)) && s.fotOk (s.ownid p) (f * 65536)))

/-- Whether an atomic is one the port offers (R33, R48): on the host link, fetch-add, swap and compare-and-swap. -/
def atomicOffered (host : Bool) (aop n : Nat) : Bool := (n = 4 || n = 8) && (if host then aop = 0 || aop = 9 || aop = 10 else decide (aop ≤ 12))

/-- An answer sent. -/
def State.answer (s : State) (id : Nat) (ok : Bool) (bs : List Byte) : State := { s with sent := s.sent ++ [.answer id ok bs] }

/-- A poisoned granule met by an inbound request, counted and reported (R46, R78). DESIGN CHOICE: it counts in class 1, uncorrectable; the manual names no class for it (log entry 76). -/
def State.inboundPoison (s : State) (m pa : Nat) : State := s.event (s.slotOfFrame pa) 1 6 m (homeOf pa) (pa / 32 * 32) 0

/-- An accepted write enters the inbound log of each home's die; its records are published and stamped one by one (R46, R51, R213). -/
def State.inboundWrite (s : State) (m p : Nat) (a : Access) : State :=
  let ok := a.data.zipIdx.map (fun b => (({ lane := 0, j := 0, va := some (a.addr + b.2), val := b.1.toNat } : Elem), a.addr + b.2))
  (piecesOf 1 ok).foldl (fun s x => s.engineRecs (inboundLog (dieOf x.pa)) p m none 0 [] [x]) s

/-- The first poisoned granule of a range. -/
def State.poisonIn (s : State) (a n : Nat) : Option Nat := (List.range n).findSome? (fun i => s.poisonAt (a + i))

/-- Whether a UALink request has a size that the personality supports (Table 2-1): reads and writes of 32 to 256 bytes. -/
def sizeOffered (host : Bool) (a : Access) : Bool := host || match a.kind with
  | .atomic _ => true
  | _ => decide (32 ≤ accessSize a) && decide (accessSize a ≤ 256)

/-- An inbound request served at its home (R33, R46, R51, R85). -/
def State.serveInbound (s : State) (id : Nat) (host : Bool) (m p : Nat) (a : Access) : State :=
  if !sizeOffered host a then s.answer id false []
  else match s.inboundFails m p a with
  | some f =>
    let s := s.logRefusal m (max a.addr (f * 65536))
    if host && a.kind = .write then s else s.answer id false []
  | none => match a.kind with
    | .write =>
      let s := s.inboundWrite m p a
      if host then s else s.answer id true []
    | .read => match s.poisonIn a.addr a.len with
      | some g => { s.inboundPoison m g with sent := (s.inboundPoison m g).sent ++ [.poisoned id] }
      | none =>
        let s := (List.range ((a.addr + max 1 a.len + 255) / 256 - a.addr / 256)).foldl (fun s i => s.lineBack (a.addr / 256 + i)) s
        s.answer id true (s.readBytes a.addr a.len)
    | .atomic op =>
      let n := a.data.length
      if !atomicOffered host op n || decide (a.addr % n ≠ 0) then s.answer id false []
      else if s.poisoned a.addr then (s.inboundPoison m a.addr).answer id false []
      else
        let r := s.atomicAt (inboundLog (dieOf a.addr)) op n a.addr (leNat a.data) (leNat a.compare)
        (r.1.answer id true (leBytes n r.2.1)).pokeWatch

/-- Whether a request waits at its home: the home itself waits, or a BAR4 read follows writes of its master that have not folded (R460). -/
def State.inboundWaits (s : State) (host : Bool) (m : Nat) (a : Access) : Bool :=
  (List.range ((a.addr + accessSize a + 255) / 256 - a.addr / 256)).any (fun i => let pa := (a.addr / 256 + i) * 256
    isStack pa && s.homeWaits pa) || host && a.kind ≠ .write && !s.writesFolded m

/-- Whether a host access waits for a write of its function that came before `id` and is not accepted yet; one with the Relaxed Ordering attribute may be accepted after it (R460). -/
def State.behindWrite (s : State) (host : Bool) (m id : Nat) : Bool :=
  host && s.inbound.any (fun e => decide (e.1 < id) && e.2.group.isNone && decide (e.2.master = m) && !e.2.free && e.2.acc.kind = .write)

/-- Whether an inbound request has reached its home: one that came through a group crosses the main line to another die (R24). -/
def inboundHere (group : Option Nat) (deliv : Bool) (a : Access) : Bool := match group with
  | some g => !isStack a.addr || arrived deliv (g / 2) (homeOf a.addr)
  | none => true

/-- A request that arrives: served, or kept until its home answers; `free` marks a write with the Relaxed Ordering attribute (R460). -/
def State.inboundArrives (s : State) (group : Option Nat) (m p : Nat) (a : Access) (now free : Bool) : State :=
  let id := s.nextId
  let s := { s with nextId := id + 1 }
  if now && inboundHere group false a && !s.inboundWaits group.isNone m a && !s.behindWrite group.isNone m id then s.serveInbound id group.isNone m p a
  else { s with inbound := Table.put s.inbound id { group := group, master := m, slot := p, acc := a, at_ := s.time, free := free && a.kind = .write } }

/-- A request that waits gets its turn. -/
def State.inboundTurn (s : State) (id : Nat) : State :=
  match Table.find s.inbound id with
  | none => s
  | some w =>
    if s.inboundWaits w.group.isNone w.master w.acc || s.behindWrite w.group.isNone w.master id || !inboundHere w.group w.deliv w.acc then s
    else ({ s with inbound := Table.drop s.inbound id }).serveInbound id w.group.isNone w.master w.slot w.acc

/-- LINK_INBOUND_REQUEST (R33, R43, R46): group `x`, port `y`; with `z` not 0, the waiting request `z` - 1 gets its turn. Only UALink carries requests into the package. The manual does not say under which owner id the frame ownership table is asked for a link-port request: the model takes that of the partition slot `val` mod 65, which the far side's mapping names; a slot without one has owner id 0 (log entry 32). -/
def execLinkInboundRequest (s : State) : Out :=
  .next (
    let g := s.ev.x
    if s.ev.z ≠ 0 then s.inboundTurn (s.ev.z - 1)
    else if 16 ≤ g ∨ (s.groupState g ≠ 1 ∧ s.groupState g ≠ 2) then s
    else if s.groupPers g ≠ 2 then ({ s with nextId := s.nextId + 1 }).answer s.nextId false []
    else s.inboundArrives (some g) (96 + 2 * g + s.ev.y % 2) (s.ev.val.toNat % 65) s.ev.access s.ev.ok false)

/-- INBOUND_HOME_TIMEOUT (R46): the waiting request `x`, 1 ms after it came; a posted write has no answer. -/
def execInboundHomeTimeout (s : State) : Out :=
  .next (match Table.find s.inbound s.ev.x with
    | none => s
    | some w =>
      if s.time - w.at_ < 8 * 1000000 then s
      else
        let s := ({ s with inbound := Table.drop s.inbound s.ev.x }).logRefusal w.master w.acc.addr
        if w.group.isNone && w.acc.kind = .write then s else s.answer s.ev.x false [])

/-- The first address of a function's memory aperture (R49). -/
def State.apBase (s : State) (fn : Nat) : Nat := (s.reg (if fn = 0 then apbaseOff else vfapbaseOff fn)).toNat

/-- BAR4_ACCESS (R48, R49, R51): function `x` at an offset of its aperture, `yes` for the Relaxed Ordering attribute; with `z` not 0, the waiting access `z` - 1 gets its turn. -/
def execBar4Access (s : State) : Out :=
  .next (
    let fn := s.ev.x
    let a := s.ev.access
    if s.ev.z ≠ 0 then s.inboundTurn (s.ev.z - 1)
    else if (fn ≠ 0 ∧ !s.vfOn fn) ∨ 2 ^ s.apSize fn < a.addr + accessSize a then s
    else s.inboundArrives none fn fn { a with addr := s.apBase fn + a.addr } s.ev.ok s.ev.yes)

/-! ### Host windows (R52) -/

/-- Whether an enabled host window descriptor is valid (R52). -/
def State.hwdOk (s : State) (n : Nat) : Bool :=
  let sz := s.hwd n 18 6
  let lo := s.hwd n 24 40
  decide (12 ≤ sz) && decide (sz ≤ 40) && decide (lo % 2 ^ (sz - 12) = 0) && decide (0xC000000000 ≤ lo) && decide (lo + 2 ^ (sz - 12) ≤ 0x10000000000) &&
    decide (s.hwd n 3 7 ≤ 64) && decide (s.hwd n 64 52 % 2 ^ (sz - 12) = 0) &&
    (List.range 64).all (fun m => decide (m = n) || s.hwd m 0 1 = 0 || decide (lo + 2 ^ (sz - 12) ≤ s.hwd m 24 40) || decide (s.hwd m 24 40 + 2 ^ (s.hwd m 18 6 - 12) ≤ lo))

/-- HWD_WRITE (R52): half `y` of descriptor `x`. -/
def execHwdWrite (s : State) : Out :=
  .next (
    let n := s.ev.x
    let h := s.ev.y % 2
    if 64 ≤ n then s
    else s.regWrite s.ev.who (hwdOff n h) (fun s =>
      let s := s.setReg (hwdOff n h) (s.ev.val &&& (if h = 0 then 0xFFFFFFFFFFFFFFFD else 0xFFFFFFFFFFFFF))
      if s.hwd n 0 1 = 1 ∧ !s.hwdOk n then (s.setRegBits (hwdOff n 0) 0 1 0).setRegBits hwdStatusOff 0 1 1 else s))

/-! ### Reads that the state gives without a field of its own -/

/-- HWDRAIN (R52): the windows with a request outstanding. -/
def State.hwdrain (s : State) : W64 :=
  s.outbound.foldl (fun m e => match e.2.win with
    | some n => if e.2.deliv then m ||| (1#64 <<< n) else m
    | none => m) 0

/-- The TRANS bit of a link window (R36, R40, R44): it is in transition, or a group that it names, and that another group's REMAP left switching, has not left REMAP. -/
def State.trans (s : State) (n : Nat) : Bool := s.inTransition n || s.groups.any (fun e => decide (2 ≤ s.groupState e.1) && e.2.named.contains n)

/-- The task table entry that a register read returns (Table 7-1). -/
def Task.entry64 (k : Task) (t : Nat) : List Byte :=
  if !k.held then leBytes 8 (k.id t) ++ leBytes 40 0 ++ leBytes 1 5 ++ leBytes 15 0
  else
    leBytes 8 (k.id t) ++ leBytes 8 k.parent ++ leBytes 8 k.alw ++ leBytes 8 k.rsv ++ leBytes 8 k.spent ++ leBytes 8 (if k.state = .starved then k.expiry else k.limit) ++ leBytes 1 k.state.code ++
      leBytes 1 ((if k.park then 1 else 0) + k.retryN * 2 + k.retryC * 16 + (if k.root then 128 else 0)) ++ leBytes 2 k.slot ++ leBytes 2 k.live ++ leBytes 2 k.children ++
      leBytes 4 k.outstanding ++ leBytes 4 0

/-- A register as a read sees it: the active copy of a link window with its TRANS bit, HWDRAIN, the sum of the counters and the task table are views of the state (R36, R52, R78, R113). -/
def State.readReg (s : State) (off : Nat) : W64 :=
  if off = hwdrainOff then s.hwdrain
  else if counterOff 65 0 ≤ off ∧ off ≤ counterOff 65 6 then s.counterSum ((off - counterOff 65 0) / 8)
  else if 0x100000 ≤ off ∧ off < 0x101000 ∧ off % 8 = 0 then
    let n := (off - 0x100000) / 16
    if off % 16 = 0 then setBits (s.lwdHalf n 0) 2 1 (if s.trans n then 1 else 0) else s.lwdHalf n 1
  else if 0xC00000 ≤ off ∧ off < 0x1000000 then
    match s.task ((off - 0xC00000) / 64) with
    | some k => BitVec.ofNat 64 (le (k.entry64 ((off - 0xC00000) / 64)) (off % 64) 8)
    | none => 0
  else s.reg off

/-- Whether VF `n` reads a register through its own BAR0 (R50, R93): those that it may write, its error counters, the descriptors of its own queues. -/
def State.vfSees (s : State) (n off : Nat) : Bool :=
  s.vfMay n off || s.vfOn n && decide (0x800000 ≤ off) && decide (off < 0x840000) && decide (s.regBits (queueOff ((off - 0x800000) / 64) 8) 8 7 = n) && decide (s.regBits (queueOff ((off - 0x800000) / 64) 8) 63 1 = 1)

/-- What a read of `n` bytes at an offset returns to a master (R50, R55, R60, R76): zero where the access is narrow or misaligned, the block is not exposed to it, or the access table refuses it; its own copy of the attestation registers, and its own mailbox. -/
def State.readBy (s : State) (w : Master) (off n : Nat) : W64 :=
  let m := masterId w
  let off := ownOff w off
  if n ≠ 8 || off % 8 ≠ 0 || !inBlock off || !s.accessOk 8 m 1 off || s.owner.recovery && decide (0x30000 ≤ off) || decide (masterCode w = 0) && !s.vfOn m then 0
  else if 0x20000 ≤ off ∧ off < 0x30000 then BitVec.ofNat 64 (le ((Table.find s.owner.reports m).getD []) (off - 0x20000) 8)
  else if otherBank w off || decide (masterCode w = 0) && !s.vfSees m off then 0
  else s.readReg off

end Sys2Proof.Machine
end

