-- ==== Sys2Proof/Machine/Queues.lean ====
section
/-! DEFINITION. Queues (06_queues_and_launch.md, 04 R77): descriptors, doorbells, fetching, the order of dispatch and the front-end share, rejected entries, launch graphs and job cards. -/

namespace Sys2Proof.Machine

/-! ### Descriptors (R93, R94) -/

/-- A write of a queue's control word (R93, R94). -/
def State.queueControl (s : State) (q : Nat) (v : W64) : State :=
  let m : W64 := 0x7FF001F7F1F
  let off := queueOff q 8
  let old := s.reg off
  if old.getLsbD 63 then
    (if v &&& m ≠ old &&& m then s.queueErr q 2 else if v.getLsbD 63 then s else s.setRegBits off 63 1 0)
  else
    let s := s.setReg off ((old &&& ~~~ m) ||| (v &&& m))
    if !v.getLsbD 63 then s
    else
      let p := s.regBits off 8 7
      if s.regBits off 0 5 ≤ 23 ∧ 4 ≤ s.regBits off 16 5 ∧ s.regBits off 16 5 ≤ 16 ∧ p ≤ 64 ∧ s.pctlState p ≠ 0 then (s.queueErr q 0).setRegBits off 63 1 1 else s.queueErr q 4

/-- QUEUE_ENABLE (R94): the control word of queue `x` written with EN 1. -/
def execQueueEnable (s : State) : Out :=
  .next (if 4096 ≤ s.ev.x ∨ !s.ev.val.getLsbD 63 then s else s.regWrite s.ev.who (queueOff s.ev.x 8) (fun s => s.queueControl s.ev.x s.ev.val))

/-- QUEUE_DISABLE (R94): written with EN 0. -/
def execQueueDisable (s : State) : Out :=
  .next (if 4096 ≤ s.ev.x ∨ s.ev.val.getLsbD 63 then s else s.regWrite s.ev.who (queueOff s.ev.x 8) (fun s => s.queueControl s.ev.x s.ev.val))

/-! ### Doorbells (R95, R110) -/

/-- The queue of a doorbell page: page q of the PF, or a VF's page-th enabled queue. -/
def State.pageQueue (s : State) (fn page : Nat) : Option Nat :=
  if fn = 0 then (if page < 4096 then some page else none)
  else if !s.vfOn fn ∨ 64 ≤ page then none
  else ((List.range 4096).filter (fun q => s.regBits (queueOff q 8) 63 1 = 1 && decide (s.regBits (queueOff q 8) 8 7 = fn)))[page]?

/-- Counts of queue `q`: HEAD, TAIL, the ring's entries, the slot, the level. -/
def State.qHead (s : State) (q : Nat) : Nat := s.regBits (queueOff q 0x10) 0 32
def State.qTail (s : State) (q : Nat) : Nat := s.regBits (queueOff q 0x10) 32 32
def State.qSize (s : State) (q : Nat) : Nat := 2 ^ s.regBits (queueOff q 8) 16 5
def State.qSlot (s : State) (q : Nat) : Nat := s.regBits (queueOff q 8) 8 7
def State.qLevel (s : State) (q : Nat) : Nat := s.regBits (queueOff q 8) 0 5

/-- What a doorbell follows (R95): the tails of the inbound logs. -/
def State.inboundTails (s : State) : List (Nat × Nat) := (List.range 8).map (fun d => (inboundLog d, (s.log (inboundLog d)).tail))

/-- A write to a doorbell page acts on its queue once the function's earlier posted writes are accepted (R95, R460). -/
def State.atDoorbell (s : State) (f : Nat → State) : State :=
  match s.pageQueue s.ev.x s.ev.y with
  | none => s
  | some q => if s.behindWrite true s.ev.x s.nextId then s else f q

/-- DOORBELL_TAIL (R95): function `x`, page `y`. -/
def execDoorbellTail (s : State) : Out :=
  .next (s.atDoorbell (fun q =>
      let v := s.ev.val.toNat
      if v < 2 ^ 32 ∧ (v + 2 ^ 32 - s.qHead q) % 2 ^ 32 ≤ s.qSize q ∧ (v + 2 ^ 32 - s.qTail q) % 2 ^ 32 ≤ s.qSize q then
        let s := s.setRegBits (queueOff q 0x10) 32 32 v
        let k := s.queue q
        s.setQueue q { k with accepts := k.accepts ++ [(v, s.clock, s.ev.x, s.inboundTails)], stuck := false }
      else s.queueErr q 1))

/-- DOORBELL_REPLY_VALUE (R110). -/
def execDoorbellReplyValue (s : State) : Out :=
  .next (s.atDoorbell (fun q => s.setQueue q { s.queue q with staged := s.ev.val }))

/-- Whether a train is parked on the call of queue `q` numbered `n`, with no reply staged for it yet. -/
def State.parkedOn (s : State) (q n : Nat) (t : Train) : Bool :=
  ((t.call.bind Call.seq) == some n) && ((s.task t.task).map (fun k => decide (k.queue = q))).getD false

/-- DOORBELL_REPLY_COMMIT (R110, R164): a reply to a saved train is staged. -/
def execDoorbellReplyCommit (s : State) : Out :=
  .next (s.atDoorbell (fun q =>
      let n := s.ev.val.toNat % 2 ^ 32
      let v := (s.queue q).staged
      match s.trains.find? (fun (e : Nat × Train) => s.parkedOn q n e.2), s.saved.find? (fun (e : Nat × Train) => s.parkedOn q n e.2 && !e.2.staged) with
      | some e, _ => s.applyReply e.1 v
      | none, some e => s.stageReply e.1 e.2 v
      | none, none => s.queueErr q 1))

/-- DOORBELL_STAIL (R95). -/
def execDoorbellStail (s : State) : Out :=
  .next (s.atDoorbell (fun q =>
      let v := s.ev.val.toNat % 2 ^ 32
      let old := s.regBits (queueOff q 0x28) 32 32
      let head := s.regBits (queueOff q 0x28) 0 32
      if (v + 2 ^ 32 - old) % 2 ^ 32 ≤ (head + 2 ^ 32 - old) % 2 ^ 32 then s.setRegBits (queueOff q 0x28) 32 32 v else s.queueErr q 1))

/-! ### Fetching (R95) -/

/-- Whether count `a` lies after count `b` on the wheel of 2^32. -/
def after32 (a b : Nat) : Bool := decide (a ≠ b) && decide ((a + 2 ^ 32 - b) % 2 ^ 32 < 2 ^ 31)

/-- Whether the BAR4 writes that a doorbell follows have folded (R95). -/
def State.doorbellFolded (s : State) (x : Nat × Nat × Nat × List (Nat × Nat)) : Bool :=
  x.2.2.2.all (fun e => (s.log e.1).recs.all (fun r => decide (r.task ≠ x.2.2.1) || decide (e.2 ≤ r.pos)))

/-- Whether the slot of a queue runs and its dispatch is up (R59, R65). -/
def State.slotRuns (s : State) (p : Nat) : Bool := decide (s.pctlState p = 2) && s.regBits fwfailOff 2 1 = 0

/-- Whether the entry at a queue's HEAD can be fetched (R95): it is accepted, none is fetched already, and no failed fetch holds the queue. -/
def State.fetchable (s : State) (q : Nat) : Bool :=
  let k := s.queue q
  s.regBits (queueOff q 8) 63 1 = 1 && decide (s.qHead q ≠ s.qTail q) && k.head.isNone && !k.stuck && s.regBits fwfailOff 2 1 = 0 && !s.owner.recovery

/-- The TAIL write that made it fetchable. -/
def State.headAccept (s : State) (q : Nat) : Option (Nat × Nat × Nat × List (Nat × Nat)) := (s.queue q).accepts.find? (fun x => after32 x.1 (s.qHead q))

/-- ENTRY_FETCH (R95): queue `x`, once its engine's message has reached the entry's home (R24). An entry in a poisoned granule, and one that the main line does not reach (R26), count as a failed fetch. -/
def execEntryFetch (s : State) : Out :=
  .next (
    let q := s.ev.x
    let k := s.queue q
    let w := queueOwner q
    if !s.fetchable q then s
    else match s.headAccept q with
      | none => s
      | some x =>
        let a := s.regBits (queueOff q 0) 7 45 * 128 + s.qHead q % s.qSize q * 128
        if !s.doorbellFolded x then s
        else if !s.fotRange (s.qSlot q) a 128 || s.gaveUp w a then ((s.dropTrips w).queueErr q 3).setQueue q { k with stuck := true }
        else if s.homeWaits a || s.away w a then s.sendTo w a
        else if s.anyPoison a 128 then ((s.dropTrips w).queueErr q 3).setQueue q { k with stuck := true }
        else
          let h := (s.qHead q + 1) % 2 ^ 32
          ((s.dropTrips w).setRegBits (queueOff q 0x10) 0 32 h).setQueue q { k with head := some { bytes := s.readBytes a 128, accepted := x.2.1 }, accepts := k.accepts.filter (fun y => after32 y.1 h) })

/-! ### What may be dispatched (R61, R77, R96, R97, R102, R105) -/

/-- Whether a well-formed entry of kind 2 (R101). -/
def graphEntryOk (bs : List Byte) : Bool :=
  le bs 0 1 = 2 && decide (le bs 1 1 < 8) && zeros bs 2 6 && zeros bs 0x28 88 && canonical (le bs 8 8) && decide (le bs 0x18 8 % 64 = 0) && canonical (le bs 0x18 8) &&
    decide (le bs 0x20 8 % 8 = 0) && canonical (le bs 0x20 8)

/-- A well-formed job card (R104). -/
def cardOk (bs : List Byte) : Bool :=
  le bs 0 1 = 3 && decide (le bs 1 1 < 8) && (le bs 2 1 = 1 || le bs 2 1 = 2) && decide (le bs 3 1 ≤ 4) && zeros bs 6 2 && zeros bs 0x2C 4 &&
    (if le bs 2 1 = 1 then decide (le bs 4 2 < 192) || le bs 4 2 = 0xFFFF else zeros bs 4 2 && zeros bs 0x18 20) && decide (le bs 0x10 8 % 64 = 0) && canonical (le bs 0x10 8) &&
    decide (le bs 0x30 8 % 64 = 0) && canonical (le bs 0x30 8) && decide (le bs 0x38 8 % 8 = 0) && canonical (le bs 0x38 8) &&
    (tableOf bs 0x40 16 (le bs 3 1)).all (footOk none)

/-- Whether the head entry of a queue could be dispatched now. DESIGN CHOICE: an entry that was fetched before its queue was disabled and rewritten is dispatched under the SLOT and LEVEL that the queue has at its dispatch; the manual says only that it runs to completion (R94; log entry 77). -/
def State.headReady (s : State) (q : Nat) : Bool :=
  let k := s.queue q
  match k.head with
  | none => false
  | some e =>
    let fl := le e.bytes 1 1
    s.slotRuns (s.qSlot q) && k.dispatching.isNone && (fl / 4 % 2 = 0 || k.running.isEmpty && k.jobs.isEmpty) && (s.level = 2 || s.level = 1 && fl % 2 = 1) &&
      (if le e.bytes 0 1 = 1 then !(launchOk e.bytes && launchFits e.bytes) || s.taskRoom (s.qSlot q)
       else if le e.bytes 0 1 = 2 then !graphEntryOk e.bytes || s.taskRoom (s.qSlot q)
       else if le e.bytes 0 1 = 3 then !cardOk e.bytes || decide (k.jobs.length < 64)
       else true)

/-- When the head entry of a queue of a running slot was accepted: that of one fetched, or of one that can be fetched (R97). -/
def State.headTime (s : State) (q : Nat) : Option Nat :=
  match (s.queue q).head with
  | some e => some e.accepted
  | none => if s.fetchable q && s.slotRuns (s.qSlot q) then (s.headAccept q).map (fun x => x.2.1) else none

/-- Whether the head entry of a queue comes before that of another queue of its slot (R97): at its level or one before it, and accepted earlier. -/
def State.headBefore (s : State) (a q : Nat) : Bool :=
  decide (a ≠ q) && decide (s.qSlot a = s.qSlot q) && decide (s.qLevel a ≤ s.qLevel q) && match s.headTime a, s.headTime q with
    | some x, some y => decide (x < y) || decide (x = y) && decide (a < q)
    | _, _ => false

/-- Whether a head that comes before is being placed, and not in the siding queue, which has its own order (R97, R135, R148). -/
def State.behindPlacing (s : State) (q : Nat) : Bool :=
  s.queues.any (fun e => s.headBefore e.1 q && match e.2.dispatching with
    | some t => ((s.task t).map (fun k => k.siding.isNone)).getD false
    | none => false)

/-- Whether the head of a queue is still to be tried: to be fetched, ready to be dispatched, or dispatched with no attempt made. -/
def State.untried (s : State) (q : Nat) : Bool := match (s.queue q).dispatching with
  | some t => ((s.task t).map (fun k => decide (k.attempts = 0) && k.siding.isNone && k.placing.isNone)).getD false
  | none => s.headReady q || (s.queue q).head.isNone && (s.headTime q).isSome

/-- Whether a head of the slot that is served first has not been tried yet (R97): one at a level before its own, or one at its level accepted earlier. -/
def State.outranked (s : State) (q : Nat) : Bool :=
  s.queues.any (fun e => decide (s.qSlot e.1 = s.qSlot q) && (decide (s.qLevel e.1 < s.qLevel q) || s.headBefore e.1 q) && s.untried e.1)

/-- How often a node is named by nodes that have ended. -/
def endedBefore (ns : List GNode) (n : Nat) : Nat := (ns.filter (fun x => decide (x.state = 2))).foldl (fun k x => k + (x.succs.filter (fun i => decide (i = n))).length) 0

/-- The lowest ready task or job node of a graph (R102). -/
def readyNode (ns : List GNode) : Option Nat :=
  (List.range ns.length).find? (fun n => match ns[n]? with
    | some x => decide (x.state = 0) && decide (x.typ ≠ 3) && decide (endedBefore ns n = x.count)
    | none => false)

/-- Whether a node's launch record keeps it waiting for full service (R61): read, and not marked as reduced-capable. -/
def State.nodeUnmarked (s : State) (g : Nat) (k : Task) (x : GNode) : Bool :=
  decide (x.typ = 1) && decide (s.level = 1) && match s.deviceRead (taskOwner g) k.slot x.va 128 with
    | .ok bs => decide (le bs 1 1 % 2 = 0)
    | _ => false

/-- Whether a graph has a node that could be dispatched now. -/
def State.graphReady (s : State) (g : Nat) : Bool :=
  match s.task g, (Table.find s.graphs g).bind readyNode, Table.find s.graphs g with
  | some k, some n, some ns =>
    k.held && decide (k.state ≠ .unwinding) && s.slotRuns k.slot && match ns[n]? with
      | some x => !s.nodeUnmarked g k x && (if x.typ = 1 then s.taskRoom k.slot else decide ((s.queue k.queue).jobs.length < 64))
      | none => false
  | _, _, _ => false

/-- What could be dispatched for slot `p` at level `l`: the time that orders it, and its key (a queue, or 4096 + a graph). -/
def State.candidates (s : State) (p l : Nat) : List (Nat × Nat) :=
  (s.queues.filter (fun e => decide (s.qSlot e.1 = p) && decide (s.qLevel e.1 = l) && s.headReady e.1 && !s.behindPlacing e.1)).map (fun e => (((e.2.head.map QEntry.accepted).getD 0), e.1)) ++
    (s.graphs.filter (fun e => ((s.task e.1).map (fun k => decide (k.slot = p) && decide (k.level = l))).getD false && s.graphReady e.1)).map
      (fun e => (((s.task e.1).map Task.began).getD 0, 4096 + e.1))

/-- The heads of slot `p` at level `l` that are still to be fetched, with the time that orders them. -/
def State.unfetched (s : State) (p l : Nat) : List (Nat × Nat) :=
  (s.queues.filter (fun e => decide (s.qSlot e.1 = p) && decide (s.qLevel e.1 = l) && e.2.head.isNone && (s.headTime e.1).isSome)).map (fun e => ((s.headTime e.1).getD 0, e.1))

/-- What waits to be dispatched for slot `p` at level `l`, fetched or not. -/
def State.awaiting (s : State) (p l : Nat) : List (Nat × Nat) := s.candidates p l ++ s.unfetched p l

/-- The oldest candidate. -/
def oldest (cs : List (Nat × Nat)) : Option Nat :=
  (cs.foldl (fun (b : Option (Nat × Nat)) c => match b with
    | none => some c
    | some d => if c.1 < d.1 then some c else some d) none).map Prod.snd

/-! ### The front-end share (R77) -/

/-- The key of slot `p` at level `l`. -/
def shareKey (p l : Nat) : Nat := 32 * p + l

/-- D(p, L). -/
def State.share (s : State) (p l : Nat) : Int := Sparse.get 0 s.deficit (shareKey p l)

/-- D(p, L) set, saturating at ±2^40. -/
def State.setShare (s : State) (p l : Nat) (v : Int) : State := { s with deficit := Sparse.set 0 s.deficit (shareKey p l) (max (-(2 ^ 40)) (min (2 ^ 40) v)) }

/-- At the end of an interval of 1 µs, each deficit falls by the core-cycles of the interval. -/
def State.decay (s : State) : State :=
  if s.interval = s.clock / 1000 then s
  else { (s.used.foldl (fun s e => s.setShare (e.1 / 32) (e.1 % 32) (s.share (e.1 / 32) (e.1 % 32) - e.2)) s) with used := [], interval := s.clock / 1000 }

/-- DEFICIT_DECREMENT (R77). -/
def execDeficitDecrement (s : State) : Out := .next s.decay

/-- The slot whose turn it is at a level; 65 before the first turn. -/
def State.turnOf (s : State) (l : Nat) : Nat := Sparse.get 65 s.turns l

/-- Whether the turn at a level is over. -/
def State.turnOver (s : State) (l : Nat) : Bool :=
  let c := s.turnOf l
  decide (c = 65) || (s.awaiting c l).isEmpty || decide (s.share c l ≤ 0)

/-- The slot that comes next: running slots in ascending order, wrapping. The manual does not say where the first round of a level begins: the model begins with slot 1, and slot 0 comes last (log entry 49). -/
def State.nextSlot (s : State) (l : Nat) : Option Nat :=
  let c := s.turnOf l
  ((List.range 65).map (fun i => (c + 1 + i) % 65)).find? (fun p => decide (s.pctlState p = 2))

/-- SLOT_TURN (R77): level `x`, slot `y`. -/
def execSlotTurn (s : State) : Out :=
  .next (
    let l := s.ev.x
    let p := s.ev.y
    if 24 ≤ l || !s.turnOver l || s.nextSlot l ≠ some p then s
    else
      let s := { s with turns := Sparse.set 65 s.turns l p }
      if (s.awaiting p l).isEmpty then s.setShare p l (min (s.share p l) 0)
      else s.setShare p l (s.share p l + (bits (s.slotReg p 0) 46 10 * 16384 : Nat)))

/-- Whether a candidate is the one to be dispatched (R77, R97): nothing waits at a lower level number, it is its slot's turn with credit left, and it is the oldest. -/
def State.myTurn (s : State) (p l key : Nat) : Bool :=
  (List.range l).all (fun m => (List.range 65).all (fun q => (s.awaiting q m).isEmpty)) && decide (s.turnOf l = p) && decide (0 < s.share p l) &&
    oldest (s.awaiting p l) == some key

/-! ### Rejected entries (R98, R107) -/

/-- The completion record of work that never ran. -/
def idleRecord (status kind remainder spent now failed code : Nat) : List Byte :=
  leBytes 2 status ++ leBytes 1 kind ++ leBytes 1 1 ++ leBytes 4 0 ++ leBytes 8 remainder ++ leBytes 8 spent ++ leBytes 8 0 ++ leBytes 8 now ++ leBytes 8 now ++ leBytes 4 0 ++
    leBytes 2 0 ++ leBytes 2 0 ++ leBytes 4 failed ++ leBytes 4 code

/-- The grant of an entry, and where its completion record and signal word lie. -/
def entryGrant (bs : List Byte) : Nat := if le bs 0 1 = 2 then le bs 0x10 8 else le bs 8 8
def entryCompl (bs : List Byte) : Nat := if le bs 0 1 = 1 then le bs 0x48 8 else if le bs 0 1 = 2 then le bs 0x18 8 else le bs 0x30 8
def entrySignal (bs : List Byte) : Nat := if le bs 0 1 = 1 then le bs 0x50 8 else if le bs 0 1 = 2 then le bs 0x20 8 else le bs 0x38 8

/-- An address of the wanted alignment, or one that no translation accepts. -/
def alignedOr (n va : Nat) : Nat := if va % n = 0 then va else 2 ^ 63

/-- A queue's head entry leaves it. -/
def State.popHead (s : State) (q : Nat) : State := (s.dropFar (queueOwner q)).setQueue q { s.queue q with head := none, dispatching := none }

/-- What the record of an entry that never ran needs (R107): the engine that would have written it, the queue's vector if the MSI flag is set. -/
def entryEnd (owner p q : Nat) (bs : List Byte) (head : Bool) : Compl :=
  { owner := owner, slot := p, master := if le bs 0 1 = 3 then 128 else 130, queue := if head then some q else none
    vector := if le bs 1 1 / 2 % 2 = 1 then some q else none, va := alignedOr 64 (entryCompl bs), signal := alignedOr 8 (entrySignal bs) }

/-- An entry ends without running (R98, R99, R102): it leaves its queue once its record is written or has failed. -/
def State.reject (s : State) (q : Nat) (bs : List Byte) (status code : Nat) : State :=
  match s.writeCompletion (entryEnd (queueOwner q) (s.qSlot q) q bs true) (idleRecord status (le bs 0 1) (entryGrant bs) 0 s.clock 0 code) with
  | (false, s) => s
  | (true, s) => s.popHead q

/-- The launch at the head of a queue ends because what it names cannot be read (R425). -/
def State.rejectRead (s : State) (q : Nat) (bs : List Byte) (r : DRead) : State :=
  let z := s.reject q bs 4 ((r.trouble.map Prod.fst).getD 0)
  if (z.queue q).head.isNone then z.reportRead (s.qSlot q) r else z

/-- An entry of unknown kind (R98). -/
def State.rejectUnknown (s : State) (q : Nat) (bs : List Byte) : State :=
  let s := ((s.popHead q).queueErr q 6).event (some (s.qSlot q)) 0x22 8 0xFFFF 0 0 0
  if le bs 1 1 / 2 % 2 = 1 then s.raise (s.qSlot q) q else s

/-! ### Launches (R96-R100) -/

/-- The launch record of a queue accepted: its task, READY, is to be placed by the queue engine (R134). -/
def State.launch (s : State) (q : Nat) (bs : List Byte) : State :=
  match s.newTask { launchTask bs (s.qSlot q) 0 (s.qLevel q) q with msi := decide (le bs 1 1 / 2 % 2 = 1), ordered := decide (le bs 1 1 / 4 % 2 = 1) } with
  | none => s
  | some (t, s) => s.setQueue q { s.queue q with dispatching := some t }

/-- ENTRY_DISPATCH (R96): queue `x`. A launch record's task is created; its entry leaves the queue when its placement commits. Entries that are rejected end here. -/
def execEntryDispatch (s : State) : Out :=
  .next (
    let q := s.ev.x
    match (s.queue q).head with
    | none => s
    | some e =>
      if !s.headReady q || !s.myTurn (s.qSlot q) (s.qLevel q) q then s
      else if le e.bytes 0 1 = 1 then
        (if !launchOk e.bytes then s.reject q e.bytes 5 0 else if !launchFits e.bytes then s.reject q e.bytes 8 0 else s.launch q e.bytes)
      else if le e.bytes 0 1 = 2 then (if graphEntryOk e.bytes then s else s.reject q e.bytes 5 0)
      else if le e.bytes 0 1 = 3 then (if cardOk e.bytes then s else s.reject q e.bytes 5 0)
      else s.rejectUnknown q e.bytes)

/-! ### Launch graphs (R101-R103) -/

/-- A node of a graph image (Table 6-4). -/
def nodeOf (bs : List Byte) : GNode :=
  { typ := le bs 0 1, count := le bs 2 2, succs := (List.range (min 12 (le bs 4 2))).map (fun i => le bs (0x10 + 2 * i) 2), va := le bs 8 8 }

/-- A node that meets R98. -/
def nodeOk (n : Nat) (bs : List Byte) : Bool :=
  decide (1 ≤ le bs 0 1) && decide (le bs 0 1 ≤ 3) && zeros bs 1 1 && decide (le bs 2 2 ≤ 4095) && decide (le bs 4 2 ≤ 12) && zeros bs 6 2 &&
    zeros bs (0x10 + 2 * le bs 4 2) (24 - 2 * le bs 4 2) && zeros bs 0x28 24 && (decide (le bs 0 1 ≠ 3) || le bs 8 8 = 0) && canonical (le bs 8 8) &&
    (nodeOf bs).succs.all (fun i => decide (i < n))

/-- Nodes of count zero removed repeatedly (R102): what is left; `fuel` bounds the rounds. -/
def peel (ns : List GNode) : Nat → List Nat → List Nat
  | 0, left => left
  | fuel + 1, left =>
    let gone := left.filter (fun n => (left.all (fun m => !((ns[m]?.map GNode.succs).getD []).contains n)))
    if gone.isEmpty then left else peel ns fuel (left.filter (fun n => !gone.contains n))

/-- A graph whose counts are right and whose edges form no cycle (R102). -/
def graphOk (ns : List GNode) : Bool :=
  ns.zipIdx.all (fun x => decide (x.1.count = ns.foldl (fun k y => k + (y.succs.filter (fun i => decide (i = x.2))).length) 0)) && (peel ns ns.length (List.range ns.length)).isEmpty

/-- The graph instance: an implicit root task that holds the grant (R103). -/
def State.startGraph (s : State) (q : Nat) (bs : List Byte) (ns : List GNode) : State :=
  match s.newTask { gen := 1, alw := le bs 0x10 8, grant := le bs 0x10 8, slot := s.qSlot q, state := .waiting, root := true, kind := 2, queue := q, level := s.qLevel q
                    complVa := BitVec.ofNat 64 (le bs 0x18 8), signalVa := BitVec.ofNat 64 (le bs 0x20 8), msi := decide (le bs 1 1 / 2 % 2 = 1), began := s.clock } with
  | none => s
  | some (g, s) =>
    let s := (s.popHead q).setQueue q { (s.popHead q).queue q with running := (s.queue q).running ++ [g] }
    { s with graphs := Table.put s.graphs g ns }

/-- GRAPH_VALIDATION (R102): the graph launch at the head of queue `x`; a fault of its reads ends it with status FAULT. -/
def execGraphValidation (s : State) : Out :=
  .next (
    let q := s.ev.x
    match (s.queue q).head with
    | none => s
    | some e =>
      let bs := e.bytes
      if !graphEntryOk bs || !s.headReady q || !s.myTurn (s.qSlot q) (s.qLevel q) q then s
      else match s.deviceRead (queueOwner q) (s.qSlot q) (le bs 8 8) 64 with
        | .far pa n => s.askFar (queueOwner q) pa n
        | .ok h =>
          let n := le h 0 4
          if n = 0 ∨ 4096 < n ∨ !zeros h 4 60 then s.reject q bs 6 0
          else (match s.deviceRead (queueOwner q) (s.qSlot q) (le bs 8 8 + 64) (64 * n) with
            | .far pa m => s.askFar (queueOwner q) pa m
            | .ok body =>
              let imgs := tableOf body 0 64 n
              if imgs.all (nodeOk n) && graphOk (imgs.map nodeOf) then s.startGraph q bs (imgs.map nodeOf) else s.reject q bs 6 0
            | r => s.rejectRead q bs r)
        | r => s.rejectRead q bs r)

/-- A node of a graph ended with a status and a fault code. -/
def State.endNode (s : State) (g n status code : Nat) : State :=
  { s with graphs := Table.modify s.graphs g (fun ns => ns.modify n (fun x => { x with state := 2, status := status, code := code })) }

/-- Nodes of one graph settled once: empty nodes that are ready end, and nodes behind a failed one are SKIPPED (R102). DESIGN CHOICE: a node that is SKIPPED writes no completion record of its own; the manual does not say whether its launch record or job card gets one (log entry 79). -/
def settleNodes (ns : List GNode) : List GNode :=
  ns.zipIdx.map (fun x =>
    if x.1.state ≠ 0 then x.1
    else if ns.any (fun y => decide (y.state = 2) && decide (y.status ≠ 0) && y.succs.contains x.2) then { x.1 with state := 2, status := 7 }
    else if x.1.typ = 3 ∧ endedBefore ns x.2 = x.1.count then { x.1 with state := 2 }
    else x.1)

/-- Every graph settled as far as it goes. -/
def State.settleGraphs (s : State) : State :=
  { s with graphs := s.graphs.map (fun (e : Nat × List GNode) => (e.1, (List.range e.2.length).foldl (fun ns _ => settleNodes ns) e.2)) }

/-! ### Job cards (R104-R107) -/

/-- The copy engine of a card: the one it names, or any of the slot's on usable dies (R30), which one being the device's choice (log entry 5). -/
def State.cardYard (s : State) (p : Nat) (bs : List Byte) : Option Nat :=
  let ys := (List.range 192).filter (fun y => s.slotBit p 0x80 y && s.usable (y / 24))
  if le bs 2 1 = 1 ∧ le bs 4 2 ≠ 0xFFFF then (if ys.contains (le bs 4 2) then some (le bs 4 2) else none) else ys[Config.pick s.fresh % max 1 ys.length]?

/-- What a card names, once read: its layout record or descriptor. -/
def State.cardRead (s : State) (owner p : Nat) (bs : List Byte) : DRead := s.deviceRead owner p (le bs 0x10 8) 64

/-- A layout record or descriptor that a card may name: the dense side of a copy is global memory. -/
def cardDescOk (bs d : List Byte) : Bool := if le bs 2 1 = 1 then layoutOk d && decide (loDK d ≠ 1) else collOk d

/-- The cost of a card's job. -/
def cardCost (bs d : List Byte) : Nat := copyCost (if le bs 2 1 = 1 then loBytes d else coBytes d)

/-- The job of a card. -/
def cardJob (bs d : List Byte) (p y q now : Nat) (node : Option (Nat × Nat)) : Job :=
  let org := (List.range 5).map (fun i => toSigned 32 (le bs (0x18 + 4 * i) 4))
  { coll := decide (le bs 2 1 = 2), yard := y, slot := p, queue := some q, desc := d, origin := org, bytes := if le bs 2 1 = 1 then loBytes d else coBytes d, cost := cardCost bs d
    feet := (if le bs 2 1 = 1 then copyFeet d org (loDB d) 0 else collFeet d) ++ (tableOf bs 0x40 16 (le bs 3 1)).flatMap footOf
    begun := now, complVa := BitVec.ofNat 64 (le bs 0x30 8), signalVa := BitVec.ofNat 64 (le bs 0x38 8), msi := decide (le bs 1 1 / 2 % 2 = 1), grant := le bs 8 8, node := node }

/-- A card's job accepted: the engine is chosen, and a grant below the cost ends it with EXHAUST, nothing moved (R104). -/
def State.acceptCard (s : State) (bs d : List Byte) (p q : Nat) (node : Option (Nat × Nat)) : State :=
  let y := s.cardYard p bs
  let j := cardJob bs d p (y.getD 0) q s.clock node
  let id := s.nextId
  let s := { s with nextId := id + 1, fresh := s.fresh + 1, jobs := Table.put s.jobs id j }
  let s := s.setQueue q { s.queue q with jobs := (s.queue q).jobs ++ [id] }
  if y.isNone then s.endJob id { j with status := 4, faultCode := fOWNERSHIP, cost := 0 }
  else if j.grant < j.cost then s.endJob id { j with status := 2 }
  else s

/-- JOB_CARD_ACCEPT (R105): the job card at the head of queue `x`. -/
def execJobCardAccept (s : State) : Out :=
  .next (
    let q := s.ev.x
    match (s.queue q).head with
    | none => s
    | some e =>
      let bs := e.bytes
      if !cardOk bs || !s.headReady q || !s.myTurn (s.qSlot q) (s.qLevel q) q then s
      else match s.cardRead (queueOwner q) (s.qSlot q) bs with
        | .far pa n => s.askFar (queueOwner q) pa n
        | .ok d => if cardDescOk bs d then (s.popHead q).acceptCard bs d (s.qSlot q) q none else s.reject q bs 5 0
        | r => s.rejectRead q bs r)

/-! ### Running graph nodes (R102, R103) -/

/-- A node ends without running: once its own record is written, or has failed, its status stands in the graph. DESIGN CHOICE: the record of a node whose kind byte is another one, or unknown, lies where that byte says, at 0x30 for an unknown one; the manual rejects such a record and names no address for it (R98; log entry 78). -/
def State.failNode (s : State) (g n : Nat) (k : Task) (bs : List Byte) (status code : Nat) : State :=
  match s.writeCompletion (entryEnd (taskOwner g) k.slot k.queue bs false) (idleRecord status (le bs 0 1) (entryGrant bs) 0 s.clock 0 code) with
  | (false, s) => s
  | (true, s) => s.endNode g n status code

/-- A node whose launch record or card cannot be read (R425). -/
def State.nodeUnread (s : State) (g n : Nat) (k : Task) (r : DRead) : State := ((s.dropFar (taskOwner g)).endNode g n 4 ((r.trouble.map Prod.fst).getD 0)).reportRead k.slot r
/-- A job node whose descriptor cannot be read. -/
def State.cardUnread (s : State) (g n : Nat) (k : Task) (bs : List Byte) (r : DRead) : State :=
  let z := s.failNode g n k bs 4 ((r.trouble.map Prod.fst).getD 0)
  if ((Table.find z.graphs g).bind (fun ns => ns[n]?)).any (fun x => decide (x.state = 2)) then z.reportRead k.slot r else z

/-- A task node run: its grant moves from the pool, and its task is to be placed by the queue engine. -/
def State.runTaskNode (s : State) (g n : Nat) (k : Task) (bs : List Byte) : State :=
  if !launchOk bs then s.failNode g n k bs 5 0
  else if !launchFits bs then s.failNode g n k bs 8 0
  else if k.alw < launchGrant bs then s.failNode g n k bs 2 0
  else if s.level = 1 ∧ le bs 1 1 % 2 = 0 then s
  else match s.newTask { launchTask bs k.slot (k.id g) k.level k.queue with node := some (g, n), msi := decide (le bs 1 1 / 2 % 2 = 1), ordered := decide (le bs 1 1 / 4 % 2 = 1) } with
    | none => s
    | some (_, s) =>
      let s := (s.dropFar (taskOwner g)).modTask g (fun x => { x with alw := x.alw - launchGrant bs, children := x.children + 1 })
      { s with graphs := Table.modify s.graphs g (fun ns => ns.modify n (fun x => { x with state := 1 })) }

/-- A job node run. -/
def State.runJobNode (s : State) (g n : Nat) (k : Task) (bs d : List Byte) : State :=
  if !cardDescOk bs d then s.failNode g n k bs 5 0
  else if k.alw < le bs 8 8 then s.failNode g n k bs 2 0
  else
    let s := (s.dropFar (taskOwner g)).modTask g (fun x => { x with alw := x.alw - le bs 8 8, rsv := x.rsv + le bs 8 8, outstanding := x.outstanding + 1 })
    let s := { s with graphs := Table.modify s.graphs g (fun ns => ns.modify n (fun x => { x with state := 1 })) }
    s.acceptCard bs d k.slot k.queue (some (g, n))

/-- GRAPH_NODE_DISPATCH (R102, R103): node `y` of graph `x`, its lowest ready one. -/
def execGraphNodeDispatch (s : State) : Out :=
  .next (
    let g := s.ev.x
    let n := s.ev.y
    match s.task g, Table.find s.graphs g with
    | some k, some ns =>
      if readyNode ns ≠ some n || !s.graphReady g || !s.myTurn k.slot k.level (4096 + g) then s
      else match ns[n]? with
        | none => s
        | some x =>
          match s.deviceRead (taskOwner g) k.slot x.va 128 with
          | .far pa m => s.askFar (taskOwner g) pa m
          | .ok bs =>
            if x.typ = 1 then s.runTaskNode g n k bs
            else if !cardOk bs then s.failNode g n k bs 5 0
            else (match s.cardRead (taskOwner g) k.slot bs with
              | .far pa m => s.askFar (taskOwner g) pa m
              | .ok d => s.runJobNode g n k bs d
              | r => s.cardUnread g n k bs r)
          | r => s.nodeUnread g n k r
    | _, _ => s)

end Sys2Proof.Machine
end

