-- ==== Sys2Proof/Machine/Placement.lean ====
section
/-! DEFINITION. Placement, stealing and the active set (08_placement_and_issue.md R131-R145), and the close of a task (07 R122, R124, R125, 06 R107). -/

namespace Sys2Proof.Machine

/-! ### Windows (R131, R134) -/

/-- A window: its yard and its first position. -/
abbrev Window := Nat × Nat

/-- The cores of a window of `c` cores. -/
def windowCores (w : Window) (c : Nat) : List Nat := (List.range c).map (fun i => 8 * w.1 + w.2 + i)

/-- The windows of a yard for a gang of `c` cores, lowest first. -/
def yardWindows (y c : Nat) : List Window := (List.range (9 - c)).map (fun w => (y, w))

/-- Yards in ascending order from `y`, wrapping. -/
def rotated (ys : List Nat) (y : Nat) : List Nat := ys.filter (fun x => decide (y ≤ x)) ++ ys.filter (fun x => decide (x < y))

/-- The windows a queue engine of a die tries for a root task of slot `p` (R134). -/
def State.rootWindows (s : State) (p c : Nat) : List Window := (rotated (s.yards p) (s.pslot p).pointer).flatMap (fun y => yardWindows y c)

/-- The windows a core's queue engine tries (R134). -/
def State.coreWindows (s : State) (p core c : Nat) : List Window :=
  let mine := fun (w : Window) => decide (w.2 ≤ core % 8) && decide (core % 8 < w.2 + c)
  let own := if (s.yards p).contains (core / 8) then yardWindows (core / 8) c else []
  own.filter mine ++ own.filter (fun w => !mine w) ++ ((rotated (s.yards p) (core / 8)).filter (fun y => decide (y ≠ core / 8))).flatMap (fun y => yardWindows y c)

/-- The windows of a task in the order its agent tries them, on usable dies (R30). -/
def State.windows (s : State) (k : Task) : List Window :=
  (match k.agentCore with
  | some c => s.coreWindows k.slot c k.cores
  | none => s.rootWindows k.slot k.cores).filter (fun w => s.usable (w.1 / 24))

/-! ### Free amounts (R132) -/

/-- Trains of a gang on each core of its window. -/
def Task.share (k : Task) : Nat := (k.trains + k.cores - 1) / max 1 k.cores

/-- The free trains, lane registers and ways of a core: its capacity less what is allocated and reserved (R132). -/
def State.freeAmounts (s : State) (core : Nat) : Nat × Nat × Nat :=
  let ts := s.trainsOn core
  let rs := (s.core core).resv
  (32 - (ts.length + rs.foldl (fun n r => n + r.trains) 0), 2048 - (ts.foldl (fun n e => n + budgetRegs e.2.budget) 0 + rs.foldl (fun n r => n + r.regs) 0),
    10 - ((s.core core).scratch.foldl (fun n e => n + e.2.ways + e.2.stash) 0 + rs.foldl (fun n r => n + r.ways) 0))

/-- Whether a gang's need on a core is at most the amounts `a` (R132). -/
def Task.fitsIn (k : Task) (a : Nat × Nat × Nat) : Bool := decide (k.share ≤ a.1) && decide (k.share * budgetRegs k.budget ≤ a.2.1) && decide (k.ways ≤ a.2.2)

/-- Whether a core, of a usable die (R30), could grant a task's reservation. -/
def State.fits (s : State) (k : Task) (core : Nat) : Bool := s.usable (core / 192) && k.fitsIn (s.freeAmounts core)

/-- The window an attempt chooses: the first, in the agent's order, whose cores' advertised amounts fit (R134). -/
def State.chooseWindow (s : State) (k : Task) : Option Window := (s.windows k).find? (fun w => (windowCores w k.cores).all (fun c => k.fitsIn (s.core c).advert))

/-- A core tells the agents its free amounts (R134), where they have changed. -/
def State.advertise (s : State) (core : Nat) : State :=
  if (s.core core).advert = s.freeAmounts core then s else s.setCore core { s.core core with advert := s.freeAmounts core }

/-- The advertised amounts that reach an agent before it chooses: those of every core of its windows if `ok`, else of core `z` if `yes`; the others stay as they were told last (R134; log entry 53). -/
def State.adverts (s : State) (k : Task) : State :=
  if s.ev.ok then ((s.windows k).flatMap (fun w => windowCores w k.cores)).eraseDups.foldl (fun s c => s.advertise c) s
  else if s.ev.yes then s.advertise s.ev.z else s

/-! ### The agents' generators (R141) -/

/-- One step of a Galois LFSR (R141). -/
def lfsrStep (v : BitVec 16) : BitVec 16 := if v.getLsbD 0 then (v >>> 1) ^^^ 0xB400 else v >>> 1

/-- A step of the LFSR of a task's agent, and its value. -/
def State.agentDraw (s : State) (k : Task) : Nat × State :=
  match k.agentCore with
  | some c =>
    let v := lfsrStep (s.core c).lfsr
    (v.toNat, s.setCore c { s.core c with lfsr := v })
  | none =>
    let d := s.queueDie k.queue
    let v := lfsrStep (s.die d).lfsr
    (v.toNat, s.setDie d { s.die d with lfsr := v })

/-! ### Attempts (R133, R135) -/

/-- RETRIES of a slot (R145). -/
def State.retries (s : State) (p : Nat) : Nat := s.regBits (slotOff p 0x388) 16 4

/-- A task taken off the ready queue it heads. -/
def State.offQueue (s : State) (t : Nat) (k : Task) : State :=
  match k.agentCore with
  | some c => s.setCore c { s.core c with readyQ := (s.core c).readyQ.filter (fun x => decide (x ≠ t)) }
  | none => s

/-- A siding queue with a task in its place: by level, then by the time of entry. -/
def State.sidingWith (s : State) (t level : Nat) (q : List Nat) : List Nat :=
  let before := fun (x : Nat) => decide (((s.task x).map Task.level).getD 0 ≤ level)
  q.filter before ++ [t] ++ q.filter (fun x => !before x)

/-- A task enters its slot's placement siding queue (R135); what was freed while the queue was empty makes no attempt. -/
def State.enterSiding (s : State) (t : Nat) (k : Task) : State :=
  let s := (s.offQueue t k).setTask t { k with placing := none, retryAt := 0, siding := some s.clock }
  let p := s.pslot k.slot
  s.setPslot k.slot { p with siding := s.sidingWith t k.level p.siding, freed := p.freed && !p.siding.isEmpty }

/-- The jitter of an agent below `span` (R135): one step of its LFSR, or two where its 16 bits do not reach (log entry 53). -/
def State.jitter (s : State) (k : Task) (span : Nat) : Nat × State :=
  let a := s.agentDraw k
  if span ≤ 65536 then (a.1 % span, a.2)
  else
    let b := a.2.agentDraw k
    ((a.1 + 65536 * b.1) % span, b.2)

/-- A failed attempt (R135): a task in the siding queue stays there; after RETRIES the task enters it; else it waits, with a jitter of its agent's. -/
def State.failAttempt (s : State) (t : Nat) : State :=
  match s.task t with
  | none => s
  | some k =>
    if k.siding.isSome then s.setTask t { k with placing := none }
    else
      let n := k.attempts + 1
      let k := { k with placing := none, attempts := n }
      if s.retries k.slot ≤ n then s.enterSiding t k
      else
        let span := 32 * 2 ^ n
        let r := s.jitter k span
        r.2.setTask t { k with retryAt := s.time + 8 * (span + r.1) }

/-- The agent of a READY task that is up for placement: the queue engine of a die (none) or a core's; a task behind the head of a ready queue has none yet. -/
def State.agentOf (s : State) (t : Nat) (k : Task) : Option (Option Nat) :=
  if k.siding.isSome then some k.agentCore
  else if k.node.isSome || k.root then (if k.node.isSome || (s.queue k.queue).dispatching == some t then some none else none)
  else (s.cores.find? (fun (e : Nat × Core) => e.2.readyQ.head? == some t)).map (fun e => some e.1)

/-- Whether a root task's entry would pass one of its slot that is served first: one not tried yet, or one accepted earlier that is being placed (R97, R148). -/
def State.passes (s : State) (k : Task) : Bool := k.root && k.node.isNone && (s.outranked k.queue || s.behindPlacing k.queue)

/-- Whether an attempt for a task may begin: in reduced service, for a task marked as reduced-capable alone (R61, R99). -/
def State.mayPlace (s : State) (t : Nat) (k : Task) : Bool :=
  k.held && decide (k.state = .ready) && k.placing.isNone && (s.agentOf t k).isSome && s.slotRuns k.slot && (s.level ≠ 1 || k.reduced) && !s.passes k

/-- An attempt (R133 step 1): the requests are on their way to every core of the window. -/
def State.attempt (s : State) (t : Nat) (k : Task) : State :=
  let k := { k with agentCore := (s.agentOf t k).getD none }
  let s := (s.adverts k).setTask t k
  match s.chooseWindow k with
  | none => s.failAttempt t
  | some w => s.setTask t { k with placing := some { yard := w.1, w := w.2, asked := windowCores w k.cores, granted := [], refused := [] } }

/-- Whether the siding queue of a task's slot holds a task that goes before it (R135). -/
def State.behindSiding (s : State) (k : Task) : Bool := (s.pslot k.slot).siding.any (fun x => decide (((s.task x).map Task.level).getD 0 ≤ k.level))

/-- PLACEMENT_ATTEMPT (R133, R135): task slot `x`. -/
def execPlacementAttempt (s : State) : Out :=
  .next (
    let t := s.ev.x
    match s.task t with
    | none => s
    | some k =>
      if !s.mayPlace t k || k.siding.isSome || k.retryAt ≠ 0 then s
      else if k.attempts = 0 && s.behindSiding k then s.enterSiding t { k with agentCore := (s.agentOf t k).getD none }
      else s.attempt t k)

/-- PLACEMENT_BACKOFF_EXPIRY (R135): task slot `x`. -/
def execPlacementBackoffExpiry (s : State) : Out :=
  .next (
    let t := s.ev.x
    match s.task t with
    | none => s
    | some k =>
      if !s.mayPlace t k || k.siding.isSome || k.retryAt = 0 || decide (s.time < k.retryAt) then s
      else if s.retries k.slot ≤ k.attempts then s.enterSiding t k
      else s.attempt t { k with retryAt := 0 })

/-- PLACEMENT_SIDING_ATTEMPT (R135): slot `x`. -/
def execPlacementSidingAttempt (s : State) : Out :=
  .next (
    let p := s.ev.x
    let q := s.pslot p
    match q.siding with
    | [] => s
    | t :: _ =>
      match s.task t with
      | none => s
      | some k => if !q.freed || !s.mayPlace t k then s else (s.setPslot p { q with freed := false }).attempt t k)

/-- A task's attempt changed. -/
def State.setPlacing (s : State) (t : Nat) (f : Placing → Placing) : State := s.modTask t (fun k => { k with placing := k.placing.map f })

/-- RESERVE_REQUEST (R132, R133): task slot `x`, core `y`; the core holds the amounts, or refuses. -/
def execReserveRequest (s : State) : Out :=
  .next (
    let t := s.ev.x
    let c := s.ev.y
    match s.task t with
    | none => s
    | some k => match k.placing with
      | none => s
      | some pl =>
        if !pl.asked.contains c then s
        else if s.fits k c then
          let s := s.setCore c { s.core c with resv := (s.core c).resv ++ [{ task := t, trains := k.share, regs := k.share * budgetRegs k.budget, ways := k.ways }] }
          s.setPlacing t (fun pl => { pl with asked := pl.asked.filter (fun x => decide (x ≠ c)), granted := pl.granted ++ [c] })
        else s.setPlacing t (fun pl => { pl with asked := pl.asked.filter (fun x => decide (x ≠ c)), refused := pl.refused ++ [c] }))

/-- Whether every core has answered. -/
def Placing.answered (pl : Placing) (c : Nat) : Bool := pl.asked.isEmpty && decide (pl.heard.length = c)

/-- RESERVE_ANSWER (R133): task slot `x`, core `y`. Where nothing was granted, nothing is left to release, and the attempt has failed. -/
def execReserveAnswer (s : State) : Out :=
  .next (
    let t := s.ev.x
    let c := s.ev.y
    match s.task t with
    | none => s
    | some k => match k.placing with
      | none => s
      | some pl =>
        if pl.heard.contains c || !(pl.granted.contains c || pl.refused.contains c) then s
        else
          let pl := { pl with heard := pl.heard ++ [c] }
          let s := s.setTask t { k with placing := some pl }
          if pl.answered k.cores && pl.granted.isEmpty && k.state = .ready then s.failAttempt t else s)

/-- What a task holds reserved on a core dropped (R133 step 3), which counts as freeing. -/
def State.dropResv (s : State) (t c : Nat) : State :=
  let s := s.setCore c { s.core c with resv := (s.core c).resv.filter (fun r => decide (r.task ≠ t)) }
  let p := s.slotOfTask t
  s.setPslot p { s.pslot p with freed := true }

/-- PLACEMENT_RELEASE (R133 step 3): task slot `x`, core `y`; also of a task that is READY no longer. -/
def execPlacementRelease (s : State) : Out :=
  .next (
    let t := s.ev.x
    let c := s.ev.y
    match s.task t with
    | none => s
    | some k => match k.placing with
      | none => s
      | some pl =>
        if k.state = .ready && !(pl.answered k.cores && !pl.refused.isEmpty) then s
        else
          let s := if pl.granted.contains c then s.dropResv t c else s
          let pl := { pl with granted := pl.granted.filter (fun x => decide (x ≠ c)), asked := if k.state = .ready then pl.asked else [] }
          if !pl.granted.isEmpty then s.setTask t { k with placing := some pl }
          else if k.state = .ready then s.failAttempt t
          else s.setTask t { k with placing := none })

/-! ### The commit (R96, R100, R133 step 2, R136) -/

/-- The entries of a route table image. -/
def routeMasks (bs : List Byte) (n : Nat) : List W32 := (List.range n).map (fun i => BitVec.ofNat 32 (le bs (8 * i) 4))

/-- A route table that meets R136. -/
def routesOk (bs : List Byte) (n trains : Nat) : Bool :=
  let ms := routeMasks bs n
  (List.range n).all (fun i => le bs (8 * i + 4) 4 = 0) && ms.all (fun m => decide (m ≠ 0) && decide (m.toNat < 2 ^ trains)) &&
    (List.range 32).all (fun i => decide ((ms.filter (fun m => m.getLsbD i)).length ≤ 4))

/-- The buffer registers of a block of 16 records. -/
def blockRegs (bs : List Byte) : Sparse (BitVec 256) := (List.range 16).foldl (fun m i => Sparse.set 0 m i (BitVec.ofNat 256 (le bs (32 * i) 32))) []

/-- A train as it starts (R100): its flashback point is its start (R151). `id` keeps its operations apart from those of trains that held its slot before. -/
def startingTrain (k : Task) (t index id mark : Nat) (s1 s2 s3 : W64) (b : Sparse (BitVec 256)) (entry lcb : W64) : Train :=
  let f : Flash := { pc := entry, lcb := lcb, sregs := [(1, s1), (2, s2), (3, s3)], b := b, mark := mark }
  { task := t, index := index, budget := k.budget, s := f.scalars, b := b, lcb := lcb, portions := [(0, { pc := entry })], flash := f, nextPend := 2 ^ 64 * id }

/-- The train slot of a core that a new train takes; which free one is the device's choice (log entry 5). -/
def State.freeTrainSlot (s : State) (core : Nat) : Option Nat :=
  ((List.range 32).map (fun i => (Config.pick s.fresh + i) % 32)).find? (fun n => (s.train core n).isNone)

/-- A new train resident on a core. -/
def State.addTrain (s : State) (core : Nat) (f : Nat → Nat → Train) : State :=
  match s.freeTrainSlot core with
  | none => s
  | some n => { s.setTrain core n (f s.nextId (s.log core).tail) with nextId := s.nextId + 1, fresh := s.fresh + 1 }

/-- The starts that a core's new trains wait for: ACQALL.pkg for an ORDERED task (R96), and the publication that R197 wants where ways change hands. -/
def State.startWaits (s : State) (k : Task) (core : Nat) : Option (List (Nat × Nat)) × State :=
  let a := if k.ordered then
      let r := s.startAll core
      (some r.1, r.2)
    else (none, s)
  if k.ways = 0 then a
  else
    let s := if (a.2.log core).recs.any (fun r => r.stamp.isNone) then a.2.publish core else a.2
    (some ((a.1.getD []).filter (fun e => decide (e.1 ≠ core)) ++ [(core, (s.log core).pub)]), s)

/-- The trains of a gang that fall to a core, started. The core's reservation is the task's allocation from now on (R133 step 2): what its trains here do not take of it stays the task's until it is DONE. -/
def State.startOn (s : State) (t : Nat) (k : Task) (b : Sparse (BitVec 256)) (first i : Nat) : State :=
  let core := first + i
  let ns := (List.range k.trains).filter (fun n => decide (n % max 1 k.cores = i))
  let left := k.share - ns.length
  let w := s.startWaits k core
  let s := if k.ways = 0 then w.2 else w.2.setScratch core t { ways := k.ways }
  let s := s.setCore core { s.core core with
    resv := (s.core core).resv.filter (fun r => decide (r.task ≠ t)) ++ if left = 0 then [] else [{ task := t, trains := left, regs := left * budgetRegs k.budget, ways := 0 }] }
  ns.foldl (fun s n =>
    s.addTrain core (fun id mark =>
      { startingTrain k t n id mark k.arg (BitVec.ofNat 64 n) (BitVec.ofNat 64 k.trains) b k.entry k.lcb with startAcq := k.token, startAcqAll := w.1 })) s

/-- A root task's entry leaves its queue, which knows the task as an entry not completed (R95, R96). -/
def State.leaveHead (s : State) (t : Nat) (k : Task) : State :=
  if k.root && k.node.isNone && (s.queue k.queue).dispatching == some t then
    let s := s.popHead k.queue
    s.setQueue k.queue { s.queue k.queue with running := (s.queue k.queue).running ++ [t] }
  else s

/-- The rotating pointer of a slot one yard on (R134). -/
def State.movePointer (s : State) (p : Nat) : State :=
  let ys := rotated (s.yards p) (s.pslot p).pointer
  s.setPslot p { s.pslot p with pointer := (ys[1]?).getD ((ys[0]?).getD 0) }

/-- The placement committed (R133 step 2): allocations, routes and trains. -/
def State.placeAll (s : State) (t : Nat) (k : Task) (pl : Placing) (routes : List W32) (b : Sparse (BitVec 256)) : State :=
  let s := (s.leaveHead t k).offQueue t k
  let s := if k.agentCore.isNone then s.movePointer k.slot else s
  let s := s.setPslot k.slot { s.pslot k.slot with siding := (s.pslot k.slot).siding.filter (fun x => decide (x ≠ t)) }
  let s := (s.setTask t { k with
    state := .running, live := k.trains, member := BitVec.ofNat 32 (2 ^ k.trains - 1), routes := routes, began := s.clock, placing := none, siding := none, retryAt := 0 }).dropFar (taskOwner t)
  (List.range k.cores).foldl (fun s i => s.startOn t k b (8 * pl.yard + pl.w) i) s

/-- The placement ends in an unwind (R136): the reservations are released, and no train starts. -/
def State.placeFails (s : State) (t : Nat) (k : Task) (pl : Placing) (status code : Nat) : State :=
  let s := pl.granted.foldl (fun s c => s.dropResv t c) s
  (((s.modTask t (fun k => { k with placing := none })).dropFar (taskOwner t)).leaveHead t k).unwind t status code

/-- A route table or buffer record block that cannot be read (R425). -/
def State.placeUnread (s : State) (t : Nat) (k : Task) (pl : Placing) (r : DRead) : State := (s.reportRead k.slot r).placeFails t k pl 4 ((r.trouble.map Prod.fst).getD 0)

/-- Whether every record of a buffer record block meets Table 11-1 (R184). -/
def blockOk (bs : List Byte) : Bool := (List.range 16).all (fun i => recOk (BitVec.ofNat 256 (le bs (32 * i) 32)))

/-- PLACEMENT_COMMIT (R133 step 2, R136, R184): task slot `x`, once every core of its window has granted. -/
def execPlacementCommit (s : State) : Out :=
  .next (
    let t := s.ev.x
    match s.task t with
    | none => s
    | some k => match k.placing with
      | none => s
      | some pl =>
        let w := taskOwner t
        if k.state ≠ .ready || !pl.answered k.cores || !pl.refused.isEmpty || !s.slotRuns k.slot || s.passes k then s
        else match (if k.routesN = 0 then DRead.ok [] else s.deviceRead w k.slot k.routesVa.toNat (8 * k.routesN)) with
          | .far pa n => s.askFar w pa n
          | .ok rt =>
            (match (if k.blockVa = 0 then DRead.ok [] else s.deviceRead w k.slot k.blockVa.toNat 512) with
            | .far pa n => s.askFar w pa n
            | .ok bs => if !routesOk rt k.routesN k.trains || !blockOk bs then s.placeFails t k pl 5 0 else s.placeAll t k pl (routeMasks rt k.routesN) (blockRegs bs)
            | r => s.placeUnread t k pl r)
          | r => s.placeUnread t k pl r)

/-! ### Train states (R142, R143) -/

/-- SWAPTH of a slot (R145). -/
def State.swapth (s : State) (p : Nat) : Nat := s.regBits (slotOff p 0x388) 0 12

/-- Whether a flag of a train has been outstanding longer than SWAPTH. -/
def State.flagOld (s : State) (th : Nat) (t : Train) (f : Nat) : Bool :=
  t.pend.any (fun e => e.2.flag == some f && decide (th < cyclesSince s.time e.2.began)) ||
    t.wqry.any (fun x => decide (x.1 = f) && ((Table.find s.queries x.2).map (fun q => decide (th < cyclesSince s.time q.began))).getD false)

/-- Whether the next clause of a portion's lane cursor, which has not started, waits on such a flag. -/
def State.laneBlocked (s : State) (th : Nat) (t : Train) (o : Portion) : Bool :=
  match o.clauses with
  | [] => false
  | c :: _ => c.next.isNone && (List.range 12).any (fun f => c.waits / 2 ^ f % 2 = 1 && s.flagOld th t f)

/-- The portions of a train that are not at a junction. -/
def Train.going (t : Train) : List (Nat × Portion) := t.portions.filter (fun o => !o.2.atJunc)

/-- Whether a portion's scalar stream waits at WAITF on such a flag (R352). -/
def State.waitfOld (s : State) (th : Nat) (t : Train) (o : Portion) : Bool := match o.wait with
  | .flags mask => (List.range 12).any (fun f => mask / 2 ^ f % 2 = 1 && s.flagOld th t f)
  | _ => false

/-- Whether a portion is blocked (R142, R352): at its lane cursor, or at WAITF, and neither stream of it could issue when the cycle began. -/
def State.portionBlocked (s : State) (t : Train) (p : Nat) (o : Portion) : Bool :=
  let th := s.swapth (s.slotOfTask t.task)
  (s.laneBlocked th t o || s.waitfOld th t o) && t.stuck.contains p

/-- Blocked (R142): none of the portions that are not at a junction could issue, and at least one is blocked; the others are parked. -/
def State.trainBlocked (s : State) (t : Train) : Bool :=
  let os := t.going.filter (fun o => !o.2.wait.parks)
  !os.isEmpty && os.all (fun o => s.portionBlocked t o.1 o.2)

/-- Whether a train is stopped or parked: it holds no active-set entry (R142, R148). -/
def State.trainAside (s : State) (t : Train) : Bool := t.parked || !((s.task t.task).map Task.issues).getD false

/-- Whether a train is ready (R142). -/
def State.trainReady (s : State) (t : Train) : Bool := !s.trainAside t && !s.trainBlocked t

/-- The train slots of a core with an active-set entry. -/
def Core.actives (k : Core) : List Nat := k.active.map Entry.slot

/-- The ready siding train of a core that has been ready longest: its train slot and since when. -/
def State.readiest (s : State) (core : Nat) : Option (Nat × Nat) :=
  ((s.trainsOn core).filter (fun e => !(s.core core).actives.contains e.1 && s.trainReady e.2)).foldl (fun (b : Option (Nat × Nat)) e => match b with
    | none => some (e.1, e.2.readySince)
    | some x => if e.2.readySince < x.2 then some (e.1, e.2.readySince) else b) none

/-- A train given an active-set entry. -/
def State.activate (s : State) (core slot : Nat) (urgent : Bool) : State :=
  let s := s.setCore core { s.core core with active := (s.core core).active ++ [{ slot := slot, since := s.time, urgent := urgent }] }
  s.modTrain core slot (fun t => { t with readySince := 0 })

/-- A train put back in the siding. -/
def State.deactivate (s : State) (core slot : Nat) : State :=
  let s := s.setCore core { s.core core with active := (s.core core).active.filter (fun e => decide (e.slot ≠ slot)) }
  s.modTrain core slot (fun t => { t with readySince := if s.trainReady t then max 1 s.time else 0 })

/-- ACTIVE_ENTRY_FILL (R142): core `x`. -/
def execActiveEntryFill (s : State) : Out :=
  .next (if 8 ≤ (s.core s.ev.x).active.length then s else match s.readiest s.ev.x with
    | none => s
    | some r => s.activate s.ev.x r.1 false)

/-- BLOCKED_SWAP (R143): the active train at core `x`, train slot `y`. -/
def execBlockedSwap (s : State) : Out :=
  .next (match s.train s.ev.x s.ev.y, s.readiest s.ev.x with
    | some t, some r => if (s.core s.ev.x).actives.contains s.ev.y && s.trainBlocked t then (s.deactivate s.ev.x s.ev.y).activate s.ev.x r.1 false else s
    | _, _ => s)

/-- The active entry held longest, but for those given as urgent within the last 512 cycles (R144). -/
def State.longestHeld (s : State) (core : Nat) : Option Nat :=
  (((s.core core).active.filter (fun e => !(e.urgent && decide (cyclesSince s.time e.since < 512)))).foldl (fun (b : Option Entry) e => match b with
    | none => some e
    | some x => if e.since < x.since then some e else b) none).map Entry.slot

/-- URGENT_PROMOTION (R144): core `x`. -/
def execUrgentPromotion (s : State) : Out :=
  .next (
    let c := s.ev.x
    match s.readiest c, s.longestHeld c with
    | some r, some old =>
      let k := s.core c
      if k.active.length < 8 || decide (r.2 = 0) || decide (cyclesSince s.time r.2 < 2048) || (decide (k.lastUrgent ≠ 0) && decide (cyclesSince s.time k.lastUrgent < 8)) then s
      else
        let s := (s.deactivate c old).activate c r.1 true
        s.setCore c { s.core c with lastUrgent := s.time }
    | _, _ => s)

/-- Whether a core of a usable die (R30) is idle (R139). -/
def State.coreIdle (s : State) (c : Nat) : Bool := s.usable (c / 192) && (s.core c).readyQ.isEmpty && !(s.trainsOn c).any (fun e => s.trainReady e.2)

/-- The entries of trains that are parked, stopped or gone become free, and the siding trains that become ready are dated (R142, R143); a core that is idle no longer forgets the answer that made it wait (R139). -/
def State.settleActive (s : State) : State :=
  let s := { s with trains := s.trains.map (fun (e : Nat × Train) =>
    (e.1, if (s.core (e.1 / 32)).actives.contains (e.1 % 32) || !s.trainReady e.2 then { e.2 with readySince := 0 }
          else if e.2.readySince = 0 then { e.2 with readySince := s.time } else e.2)) }
  { s with cores := s.cores.map (fun (e : Nat × Core) =>
    (e.1, { e.2 with active := e.2.active.filter (fun a => match s.train e.1 a.slot with
      | some t => !s.trainAside t
      | none => false), stealAt := if s.coreIdle e.1 then e.2.stealAt else 0 })) }

/-! ### Stealing (R138-R141) -/

/-- The victim of a steal (R141): the LFSR steps until it names another core; `fuel` bounds the steps. -/
def drawVictim (cores : List Nat) (thief : Nat) : Nat → BitVec 16 → Option Nat × BitVec 16
  | 0, v => (none, v)
  | fuel + 1, v =>
    let v := lfsrStep v
    match cores[v.toNat % max 1 cores.length]? with
    | none => (none, v)
    | some c => if c = thief then drawVictim cores thief fuel v else (some c, v)

/-- A steal request sent (R139, R141), if the slot has another core. -/
def State.sendSteal (s : State) (c : Nat) : State :=
  match s.slotOfCore c with
  | none => s
  | some p =>
    let cs := s.coresOf p
    if !s.slotRuns p || cs.length < 2 then s
    else
      let r := drawVictim cs c 65536 (s.core c).lfsr
      s.setCore c { s.core c with lfsr := r.2, stealTo := r.1, stealAt := 0 }

/-- The victim's answer (R139, R140): the task at its tail, unless that is its head. -/
def State.answerSteal (s : State) (thief victim : Nat) : State :=
  let v := s.core victim
  let t := if s.usable (victim / 192) ∧ 2 ≤ v.readyQ.length then v.readyQ.getLast? else none
  let s := match t with
    | some x => s.setCore victim { v with readyQ := v.readyQ.filter (fun y => decide (y ≠ x)) }
    | none => s
  s.setCore thief { s.core thief with stealAnswer := some t }

/-- STEAL_REQUEST (R139): the thief is core `x`; an idle core that has none under way sends its request now. -/
def execStealRequest (s : State) : Out :=
  .next (
    let c := s.ev.x
    if (s.core c).stealAnswer.isSome then s
    else
      let s := if (s.core c).stealTo.isNone && (s.core c).stealAt = 0 && s.coreIdle c then s.sendSteal c else s
      match (s.core c).stealTo with
      | none => s
      | some v => s.answerSteal c v)

/-- STEAL_REPLY (R139): the answer reaches core `x`. A task that has left READY meanwhile is not queued. -/
def execStealReply (s : State) : Out :=
  .next (
    let c := s.ev.x
    let k := s.core c
    match k.stealAnswer with
    | none => s
    | some none => s.setCore c { k with stealTo := none, stealAnswer := none, stealAt := s.time + 64 * cycle }
    | some (some t) =>
      let ok := ((s.task t).map (fun x => x.held && decide (x.state = .ready))).getD false
      s.setCore c { k with stealTo := none, stealAnswer := none, readyQ := if ok then k.readyQ ++ [t] else k.readyQ })

/-- STEAL_RETRY_EXPIRY (R139): core `x`. -/
def execStealRetryExpiry (s : State) : Out :=
  .next (
    let c := s.ev.x
    let k := s.core c
    if k.stealAt = 0 || decide (s.time < k.stealAt) || k.stealTo.isSome then s
    else if s.coreIdle c then (s.setCore c { k with stealAt := 0 }).sendSteal c
    else s.setCore c { k with stealAt := 0 })

/-! ### The close of a task (R107, R122, R125, R128) -/

/-- The failed node of a graph with the lowest index, with its status and fault code (R102, R108): nodes skipped behind one do not count. -/
def failedOf (ns : List GNode) : Nat × Nat × Nat :=
  match (ns.zipIdx.find? (fun x => decide (x.1.status ≠ 0) && decide (x.1.status ≠ 7))) with
  | some x => (x.2, x.1.status, x.1.code)
  | none => (0, 0, 0)

/-- Whether nothing of a task is left to run (R122): a graph's nodes have all ended. -/
def State.spentOut (s : State) (t : Nat) (k : Task) : Bool :=
  decide (k.live = 0) && decide (k.children = 0) && decide (k.outstanding = 0) && k.placing.isNone &&
    ((Table.find s.graphs t).map (fun ns => ns.all (fun x => decide (x.state = 2)))).getD true

/-- The logs that hold records of a task, for the publication of what is left of them (R107). -/
def State.publishOf (s : State) (t : Nat) : State :=
  ((s.logs.filter (fun e => decide (e.1 < 1728) && e.2.recs.any (fun r => r.stamp.isNone && decide (r.task = t)))).map Prod.fst).foldl (fun s l => s.publish l) s

/-- A task closed, if nothing of it is left (R122). A graph takes the status of its failed node. -/
def State.closeTask (s : State) (t : Nat) : State :=
  match s.task t with
  | none => s
  | some k =>
    if !k.held || k.closing || !(k.state = .running || k.state = .waiting) || !s.spentOut t k then s
    else
      let f := failedOf ((Table.find s.graphs t).getD [])
      (s.setTask t { k with state := .waiting, closing := true, status := if k.kind = 2 then f.2.1 else k.status, faultCode := if k.kind = 2 then f.2.2 else k.faultCode, failedNode := f.1 }).publishOf t

/-- Every task closed at the first moment at which it can be (R122). -/
def State.closeTasks (s : State) : State := (s.tasks.map Prod.fst).foldl (fun s t => s.closeTask t) s

/-- TASK_CLOSE (R122): task slot `x`. -/
def execTaskClose (s : State) : Out := .next (s.closeTask s.ev.x)

/-- Whether every record of a task has folded at .pkg scope (R107). -/
def State.recordsFolded (s : State) (t : Nat) : Bool := s.logs.all (fun e => decide (1728 ≤ e.1) || e.2.recs.all (fun r => decide (r.task ≠ t) || r.spilled))

/-- COMPLETION_RECORD_WRITTEN (R107, R122, R128 step 6): task slot `x`, closing, or UNWINDING with its subtree finished; a parent's parked JOIN is answered in the same step. -/
def execCompletionRecordWritten (s : State) : Out :=
  .next (
    let t := s.ev.x
    match s.task t with
    | none => s
    | some k =>
      if !k.held || !(k.closing || decide (k.state = .unwinding) && decide (k.children = 0) && decide (k.outstanding = 0) && k.placing.isNone) then s
      else if !s.recordsFolded t then s.publishOf t
      else
        let s := ((s.leaveHead t k).finishTask t).pokeJoins
        { s with graphs := Table.drop s.graphs t })

/-- PARK_LIMIT_EXPIRY (R124, R125): task slot `x`. -/
def execParkLimitExpiry (s : State) : Out :=
  .next (
    let t := s.ev.x
    match s.task t with
    | none => s
    | some k => if k.held && decide (k.state = .starved) && decide (k.expiry ≤ s.clock) then s.unwind t 2 0 else s)

end Sys2Proof.Machine
end

