-- ==== Sys2Proof/Machine/EngineSteps.lean ====
section
/-! DEFINITION. What the engines do of themselves (15_engines.md R269, R278, R279, R281-R283, R286, R287, 06 R105, R106): starting, moving and completing copy and collective jobs and copy steps, collecting programs, firing continuations, accepting a waiting MXFORK. -/

namespace Sys2Proof.Machine

/-! ### Jobs (R105, R106) -/

/-- Whether a job that has not started may (R29, R30, R105, R154, R230): its slot runs, or stops in tier 1, where resident tasks run; no earlier conflicting job or program is left, the records its sources need have folded. -/
def State.jobMay (s : State) (id : Nat) (j : Job) : Bool :=
  !j.started && j.status = 0 && j.step.isNone && (decide (s.pctlState j.slot = 2) || decide (s.pctlState j.slot = 3) && decide ((s.pslot j.slot).tier ≤ 1)) && !(s.die (j.yard / 24)).stopped && s.usable (j.yard / 24) && !s.earlierClash id j.task j.queue j.feet && s.sourceFolded j

/-- Whether an engine of a die works: it is usable and not stopped (R29, R30). -/
def State.dieWorks (s : State) (d : Nat) : Bool := s.usable d && !(s.die d).stopped

/-- Whether a started collective job goes on (R154, R156, R287): not while its member is saved, nor, for a card, in a stopped slot. -/
def State.collRuns (s : State) (j : Job) : Bool :=
  j.coll && j.started && j.status = 0 && s.dieWorks (j.yard / 24) && match j.core with
    | some c => !(s.core c).saved
    | none => decide (s.pctlState j.slot = 2 ∨ s.pctlState j.slot = 3)

/-- The zero-length reads that a job which completes at .sys scope waits for behind its writes to host windows (R53, R106). -/
def State.jobReads (s : State) (j : Job) : State := if s.jobFar j then (j.moved.map Prod.snd).foldl (fun s t => s.hostReads (copyLog j.yard) t) s else s

/-- JOB_START (R105): job `x`; a collective job sends its contribution (R286). -/
def execJobStart (s : State) : Out :=
  .next (match Table.find s.jobs s.ev.x with
    | none => s
    | some j =>
      if !s.jobMay s.ev.x j then s
      else
        let j := { j with started := true, startAt := s.clock }
        let s := { s with jobs := Table.put s.jobs s.ev.x j }
        if j.coll then s.collSend s.ev.x j else s)

/-- Whether the program of a copy step has ended with a status other than OK (R278). -/
def State.stepCut (s : State) (j : Job) : Bool :=
  match j.step with
  | some (leader, _) => ((s.running leader).map (fun m => m.ended && decide (m.status ≠ 0))).getD false
  | none => false

/-- A copy step cancelled (R278). -/
def State.cutStep (s : State) (id : Nat) (j : Job) : State :=
  match j.step with
  | some (leader, _) => (s.dropJob id).modProg leader (fun m => { m with copyJob := none })
  | none => s

/-- Whether every chunk that a copy has moved is complete. -/
def Job.chunksDone (j : Job) : Bool := j.moved.all (fun m => j.done.contains m.1)

/-- COPY_CHUNK_COMPLETE (R281, R282): chunk `y` of job `x` is moved; once what it wrote has folded, its bit is set. A step whose program has failed begins no further chunk. -/
def execCopyChunkComplete (s : State) : Out :=
  .next (
    let id := s.ev.x
    let c := s.ev.y
    match Table.find s.jobs id with
    | none => s
    | some j =>
      if j.coll || j.status ≠ 0 || !j.started || decide (j.chunkCount ≤ c) || j.done.contains c || !s.dieWorks (j.yard / 24) || !s.sourceFolded j then s
      else if j.moved.any (fun m => decide (m.1 = c)) then (if s.chunkFolded j c then s.chunkDone id j c else s.jobReads j)
      else if s.stepCut j then s
      else s.moveChunk id j c)

/-- A collective job goes on (R286): its contribution is sent, its result is written once every bit it needs is set, and it ends once the result has folded. -/
def State.collStep (s : State) (id : Nat) (j : Job) : State :=
  if !s.collRuns j then s
  else if !j.sentOwn then s.collSend id j
  else if j.moved.any (fun m => decide (m.1 = coN j.desc)) then (if s.chunkFolded j (coN j.desc) then (s.dropFeet j).endJob id j else s.jobReads j)
  else if (coNeeds j.desc).all (fun r => j.done.contains r && s.chunkFolded j r) then s.collResult id j
  else s.jobReads j

/-- JOB_COMPLETE (R106, R107, R279, R286): job `x`; one that has ended with an error waits for its record to be written. -/
def execJobComplete (s : State) : Out :=
  .next (
    let id := s.ev.x
    match Table.find s.jobs id with
    | none => s
    | some j =>
      if j.status ≠ 0 then s.endJob id j
      else if j.coll then s.collStep id j
      else if s.stepCut j && j.chunksDone then s.cutStep id j
      else if !j.started || !(List.range j.chunkCount).all j.done.contains then s
      else if j.step.isSome then s.endStep id j
      else s.endJob id j)

/-- Whether a contribution that came over the main line is for a job: it has arrived at the job's engine, from rank `r` to the job's own rank, and is of the job's size (R286). -/
def Contrib.fits (c : Contrib) (j : Job) (r : Nat) : Bool :=
  c.deliv && decide (c.yard = j.yard) && decide (c.rank = r) && decide (c.member = coRank j.desc) && decide (c.data.length = coBytes j.desc)

/-- A contribution placed, and used up once it is. -/
def State.takeContrib (s : State) (id : Nat) (j : Job) (n : Nat) (c : Contrib) : State :=
  let s := s.collPlace id j c.rank c.data c.pois
  if (Table.find s.jobs id).any (fun k => decide (k.status ≠ 0) || k.moved.any (fun m => decide (m.1 = c.rank))) then { s with contribs := Table.drop s.contribs n } else s

/-- COLLECTIVE_CONTRIBUTION (R286): the contribution of rank `y` to job `x` is placed; once it has folded, its bit is set. It comes from another package, with its bytes, poisoned if `yes`; or, with `z` not 0, from this one: contribution `z` - 1 of the main line. -/
def execCollectiveContribution (s : State) : Out :=
  .next (match Table.find s.jobs s.ev.x with
    | none => s
    | some j =>
      let r := s.ev.y
      if !s.collRuns j || decide (coN j.desc ≤ r) || decide (r = coRank j.desc) then s
      else if j.moved.any (fun m => decide (m.1 = r)) then (s.jobReads j).collPlace s.ev.x j r [] false
      else if s.ev.z = 0 then (if j.near.any (fun ns => !ns.contains r) then s.collPlace s.ev.x j r s.ev.bytes s.ev.yes else s)
      else match Table.find s.contribs (s.ev.z - 1) with
        | some c => if c.fits j r then s.takeContrib s.ev.x j (s.ev.z - 1) c else s
        | none => s)

/-- COLLECTIVE_DEADLINE (R287): job `x`, unless its result is being written. -/
def execCollectiveDeadline (s : State) : Out :=
  .next (match Table.find s.jobs s.ev.x with
    | none => s
    | some j =>
      if !j.coll || !j.started || j.status ≠ 0 || decide (s.clock < j.startAt + le j.desc 0x30 8) || j.moved.any (fun m => decide (m.1 = coN j.desc)) then s
      else (s.dropFeet j).endJob s.ev.x { j with status := 11 })

/-! ### Programs (R269, R278, R279, R438) -/

/-- COPY_STEP (R279): the next step of the copy program of pair leader `x` begins. -/
def execCopyStep (s : State) : Out :=
  .next (
    let l := s.ev.x
    match s.running l with
    | none => s
    | some m =>
      if !m.loaded || m.copyJob.isSome || decide (m.copyN ≤ m.copyDone) || (m.ended && decide (m.status ≠ 0)) || s.mxHeld { leader := l, pair := s.pairOf l, m := m } then s
      else s.beginStep l m)

/-- PROGRAM_AUTO_COLLECT (R438): a program on pair leader `x` that has ended after every train of its task. -/
def execProgramAutoCollect (s : State) : Out :=
  .next (match (s.pairOf s.ev.x).progs.find? (fun m => !m.active && ((s.task m.task).map (fun k => decide (k.live = 0))).getD false) with
    | none => s
    | some m => s.collect s.ev.x m)

/-- MXFORK_ACCEPT (R269, R437): the MXFORK that portion `z` of the train at leader core `x`, slot `y` waits with issues, its pair being free. -/
def execMxforkAccept (s : State) : Out :=
  match (s.train s.ev.x s.ev.y).bind (fun t => t.portion s.ev.z) with
  | none => .next s
  | some o =>
    match o.wait with
    | .mxfork a =>
      if (s.running s.ev.x).isSome then .next s
      else execMxfork a ({ s with focus := { core := s.ev.x, slot := s.ev.y, portion := s.ev.z } }.modPortion (fun o => { o with wait := .none }))
    | _ => .next s

/-! ### Continuations (R129, R283) -/

/-- Whether a core has a train slot and the registers for one more train of a task. -/
def State.roomFor (s : State) (core : Nat) (k : Task) : Bool := s.fits { k with trains := 1, cores := 1, ways := 0 } core

/-- CONTINUATION_FIRE (R283): continuation `y` of core `x`. -/
def execContinuationFire (s : State) : Out :=
  .next (
    let c := s.ev.x
    let q := s.core c
    match q.conts[s.ev.y]? with
    | none => s
    | some x =>
      match s.task x.task with
      | none => s
      | some k =>
        if !x.ready || !k.held || !k.issues || decide (s.pctlState k.slot ≠ 2) || !s.roomFor c k then s
        else
          let s := s.setCore c { q with conts := q.conts.eraseIdx s.ev.y }
          let s := s.setTask x.task { k with outstanding := k.outstanding - 1, live := k.live + 1 }
          s.addTrain c (fun id mark => { startingTrain k x.task x.index id mark x.arg (BitVec.ofNat 64 x.index) 0 x.b x.entry k.lcb with member := false }))

end Sys2Proof.Machine
end

