-- ==== Sys2Proof/Machine/Upsets.lean ====
section
/-! DEFINITION. Errors in the code segments of Table 5-1 (R79-R85, R87, R91): what the part does when one is detected. A turn of the agenda says that one is (log entry 61). -/

namespace Sys2Proof.Machine

/-! ### The registers an instruction reads -/

/-- The lane registers that an LR word reads under its row, with operands of type `t`; most rows give them the word's own. -/
def lrReadsAs (sp : LRSpec) (t : Nat) (o : LR) : List Nat := useRegs sp.a t o.a.toNat ++ useRegs sp.b t o.b.toNat ++ useRegs sp.c t o.c.toNat
def lrReads (sp : LRSpec) (o : LR) : List Nat := lrReadsAs sp o.typ.toNat o

/-- The lane registers that an instruction reads as operands (R316, R409): of an LM word its index register and, where it stores, what it stores. -/
def laneReads : Instr → List Nat
  | .iadd o | .isub o | .imul o | .imulh o | .imin o | .imax o | .lAnd o | .lOr o | .lXor o | .andn o | .idiv o | .irem o | .icmp o | .sel o => lrReads Row.int2 o
  | .imad o => lrReads Row.imad o
  | .iabs o | .ineg o | .lNot o | .lMov o | .popc o | .clz o | .brev o | .fclass o | .frnd o => lrReads Row.int1 o
  | .shl o | .shr o | .sra o | .rotl o | .bfe o | .fscale o => lrReads Row.shift o
  | .bfi o => lrReads Row.bfi o
  | .permb o => lrReads Row.permb o
  | .shfl o | .shflup o | .shfldn o | .shflx o => lrReads Row.shfl o
  | .vote o | .pksx o | .upsx o | .dqsx o => lrReads Row.vote o
  | .redu o | .scan o | .frcp o | .frsq o | .fsqrt o | .fexp2 o | .flog2 o | .fsinpi o | .fcospi o | .tcp o => lrReads Row.flong o
  | .cvt o => lrReadsAs (cvtRow o) o.kd.toNat o
  | .fadd o | .fsub o | .fmul o | .fmin o | .fmax o | .fcmp o | .fdiv o => lrReads Row.float2 o
  | .ffma o => lrReads Row.ffma o
  | .qsx o => lrReads Row.qsx o
  | .ld o | .ldc o | .ldh o | .pref o => selRegs o.i.toNat false
  | .st o | .stc o | .outl o | .atom o => selRegs o.i.toNat false ++ [o.d.toNat]
  | _ => []

/-- Whether an instruction reads the registers of lanes that need not be active: the shuffles, and the shared-exponent packings (R369, R394, R395). -/
def readsAcross : Instr → Bool
  | .shfl _ | .shflup _ | .shfldn _ | .shflx _ | .pksx _ | .upsx _ => true
  | _ => false

/-- The scalar registers that an instruction reads as operands. -/
def scalarReads : Instr → List (BitVec 6)
  | .sadd _ a b | .ssub _ a b | .sand _ a b | .sor _ a b | .sxor _ a b | .sshl _ a b | .sshr _ a b | .ssra _ a b | .smul _ a b | .smulh _ a b | .smulhu _ a b => [a, b]
  | .smin _ a b | .smax _ a b | .sminu _ a b | .smaxu _ a b | .sslt _ a b | .ssltu _ a b | .sseq _ a b | .sdiv _ a b | .sdivu _ a b | .srem _ a b | .sremu _ a b => [a, b]
  | .spopc _ a | .sclz _ a | .sctz _ a | .sbrev _ a | .saddi _ a _ | .sandi _ a _ | .sori _ a _ | .sxori _ a _ | .sshli _ a _ | .sshri _ a _ | .ssrai _ a _ | .sslti _ a _ => [a]
  | .shori d _ | .sst d _ _ _ | .mts d _ => [d]
  | .sldx _ _ _ a _ | .brbase _ a _ | .broff _ a _ | .brext _ a _ | .brstr _ a _ | .brswz _ a _ | .brflg _ a _ => [a]
  | .sstx d _ _ a _ | .satom d _ a _ _ _ _ => [d, a]
  | .bz a _ | .bnz a _ | .bltz a _ | .bgez a _ | .blez a _ | .bgtz a _ | .jr a | .callr a | .ret a | .clsr a | .stok _ a | .putfmt a => [a]
  | .spawn _ a | .joinChild _ a | .cut _ a | .tstat _ a | .arriveStage a _ | .arriveStageClose a _ | .mxfork a => [a]
  | .spawnf _ a b | .grant _ a b | .waita _ a b | .waitm _ a b | .resize _ a b | .mappg _ a b | .ivpg a b | .wqry a b _ | .coll a b => [a, b]
  | .acq a _ n => (List.range (n.toNat + 1)).map (fun i => a + BitVec.ofNat 6 i)
  | .cont d a b c => [d, a, b, c]
  | _ => []

/-! ### What an error does -/

/-- A scratchpad word that fails its check (R85). -/
def Scratch.spoil (x : Scratch) (off : Nat) : Scratch := { x with bad := (x.bad ++ [off / 4]).eraseDups }

/-- A record of a log with its poison bit set (R82). -/
def State.recordSpoiled (s : State) (log pos : Nat) : State :=
  match (s.log log).recs.find? (fun r => decide (r.pos = pos)) with
  | some r => (s.modRec log pos (fun r => { r with pois := true })).event (some r.slot) 1 4 0xFFFF log 0 0
  | none => s

/-- A record whose header fails its check (R82): dropped with reason 4. -/
def State.recordLost (s : State) (log pos : Nat) : State :=
  match (s.log log).recs.find? (fun r => decide (r.pos = pos)) with
  | some r => s.dropRec log r 4
  | none => s

/-- An error in a view or stash sector (R81): a line with no unpublished record of its core is invalidated and asked for again, and the error is counted as corrected; else the granules are poisoned in the sector. -/
def State.sectorSpoiled (s : State) (core key : Nat) (stash : Bool) (grans : BitVec 4) : State :=
  let k := s.core core
  match k.sector stash key with
  | none => s
  | some x =>
    if s.rowPinned core (key / 2) then
      let y : Sector := { x with pois := x.pois ||| grans }
      (s.setCore core (if stash then { k with stash := Table.put k.stash key y } else { k with view := Table.put k.view key y })).event
        (some (keySlot key)) 1 2 0xFFFF core 0 0
    else
      let line := (if stash then k.stash else k.view).filter (fun (e : Nat × Sector) => decide (e.1 / 2 = key / 2))
      (line.foldl (fun (s : State) (e : Nat × Sector) => s.wantSector core e.1 e.2.pa stash true) (s.setCore core (k.dropRow stash (key / 2)))).event
        (some (keySlot key)) 0 2 0xFFFF core 0 0

/-- The next lane instruction of a portion, as its core would read it: one that is well formed, reads lane registers and waits for no result in them. -/
def State.laneNext (s : State) (c : Cur) (cl : Clause) : Option Instr :=
  match cl.next with
  | none => none
  | some n => ((s.peekLane c.core (c.pslot s) cl.lcb (cl.off + n)).bind decodeLane).filter (fun i =>
      i.wf && !(laneReads i).isEmpty && !c.t.awaitsLane c.p { op := 0, reads := laneReads i })

/-- Lanes of the focus portion whose register operand fails its check (R83), as its next lane instruction reads it: they die before it acts. A shuffle reads the registers of inactive lanes too. -/
def State.lanesSpoiled (s : State) (lanes : W32) : State :=
  match s.cur with
  | none => s
  | some c => match c.clause with
    | none => s
    | some cl => match s.laneNext c cl with
      | none => s
      | some i =>
        if s.laneMay c && decide (c.o.lwait = .none) then
          s.killed c.core c.slot (lanes &&& live (if readsAcross i then 0xFFFFFFFF else cl.exm) c.t.deadm) 1 0 0
        else s

/-- The next scalar instruction of a portion, as its core would read it. -/
def State.scalarNext (s : State) (c : Cur) : Option Instr := (s.peekCode c.core (c.pslot s) c.o.pc.toNat).bind decodeScalar

/-- A scalar register of the focus portion that fails its check as its next instruction reads it (R87, R88): UCESCALAR; DOUBLEFLT in the handler. -/
def State.scalarSpoiled (s : State) : State :=
  match s.cur with
  | none => s
  | some c =>
    let reads := (((s.scalarNext c).map scalarReads).getD []).filter (fun r => decide (r ≠ 0))
    if !s.scalarMay c || reads.isEmpty || c.t.awaits { op := 0, sregs := reads.map BitVec.toNat } then s
    else
      let s := if c.t.handler.isSome then s.event (some (c.pslot s)) 1 1 0xFFFF c.core 0 0 else s
      s.takeFault c.core c.slot c.p { lanes := [{ lane := 0, code := fUCESCALAR, va := 0 }], pc := c.o.pc, seg := 1 }

/-- A B or accumulator word of a pair column that fails its check (R85): the pair's program stops with POISON at a command that reads the column, and the event names the core that holds it (R268). -/
def State.bankSpoiled (s : State) (leader col : Nat) : State :=
  match s.running leader with
  | none => s
  | some m =>
    if m.ended || !m.loaded || decide (m.nc ≤ col) then s
    else
      let hit := (s.mxPoison { leader := leader, pair := s.pairOf leader, m := m }).event (some (s.slotOfTask m.task)) 1 3 0xFFFF (colCore leader col) 0 0
      match (if m.pc < m.ncmd then decodeMx m.command else none) with
      | some (.mstrm _) => hit
      | some (.mdrain _) => hit
      | _ => s

/-- An error detected (R79-R85, R91). -/
def State.upset (s : State) (u : Upset) : State :=
  match u with
  | .scratch core task off =>
    if (s.scratch core task).size ≤ off then s
    else (s.setScratch core task ((s.scratch core task).spoil off)).event (some (s.slotOfTask task)) 1 3 0xFFFF core 0 0
  | .granule pa => if isStack pa then (s.setPoison pa true).event (s.slotOfFrame pa) 1 6 0xFFFF (homeOf pa) (pa / 32 * 32) 0 else s
  | .recordData log pos => s.recordSpoiled log pos
  | .recordHeader log pos => s.recordLost log pos
  | .sector core key stash grans => s.sectorSpoiled core key stash grans
  | .laneOperand f lanes => { s with focus := f, ev := {} }.lanesSpoiled lanes
  | .scalarOperand f => { s with focus := f, ev := {} }.scalarSpoiled
  | .bank leader column => s.bankSpoiled leader column
  | .corrected slot => s.count (if slot ≤ 64 then slot else 66) 0 1
  | .shared seg unit => s.event none 1 seg 0xFFFF unit 0 0

end Sys2Proof.Machine
end

