-- ==== Sys2Proof/Machine/Fetch.lean ====
section
/-! DEFINITION. What a turn does before an instruction's meaning: fetching scalar words, clause headers, lane words and matrix commands (R169, R269, R302, R314, R344, R441), evictions (R193, R200), and what follows every step. -/

namespace Sys2Proof.Machine

/-- What a turn comes to: a state, or an instruction to run in a state. -/
inductive Fetched where
  | done (s : State)
  | run (i : Instr) (s : State)

/-- ILLEGAL_ENCODING (R302): the word at the focus portion's scalar PC or, if `yes`, at its lane cursor names no instruction. -/
def execIllegalEncoding (s : State) : Out :=
  if s.ev.yes then s.laneGo (fun _ => { op := 0 }) (fun _ => true) (fun _ s => s)
  else s.scalarGo (fun _ => { op := 0 }) (fun _ => true) noFault (fun _ s => s)

/-! ### Code (R190, R344) -/

/-- The translation of a code address cached by its core (R190). -/
def State.touch (s : State) (core p va : Nat) : State := if canonical va then (s.translate core p va .fetch false).2 else s

/-- Whether a code fetch of a portion waits (R24, R70, R90, R204), and the message it sends to the home that it has not reached. -/
def State.codeBusy (s : State) (c : Cur) (va : Nat) : Bool := decide (s.codeStall c va ≠ .no)
def State.codeAsk (s : State) (c : Cur) (va : Nat) : State := match s.codeStall c va with
  | .far w a n => s.askFar w a n
  | _ => s

/-- `n` scalar words' worth of code as one number, or the first fault with its address. -/
def State.fetchCode (s : State) (core p n va : Nat) : Except (Nat × Nat) Nat :=
  match s.codeWords core p n va with
  | .error e => .error e
  | .ok bs => .ok (leNat bs)

/-- Whether the focus train holds an active-set entry, so that it competes for issue (R142). -/
def State.competes (s : State) (c : Cur) : Bool := (s.core c.core).actives.contains c.slot && !s.trainAside c.t

/-- Whether a train still has an acquire to do before its first instruction (R96, R157, R428). -/
def Train.starting (t : Train) : Bool := t.startAcq.isSome || t.startAcqAll.isSome

/-! ### The scalar stream -/

/-- A scalar word at the PC of the focus portion (R302). -/
def State.scalarWord (s : State) (c : Cur) : Fetched :=
  let va := c.o.pc.toNat
  if s.codeBusy c va then .done (s.codeAsk c va)
  else if s.codeLost c.core (portionOwner c.core c.slot c.p) (c.pslot s) va then .done ((s.dropTrips (portionOwner c.core c.slot c.p)).scalarFault c fMLTIMEOUT va false)
  else
    let z := s.touch c.core (c.pslot s) va
    match s.fetchCode c.core (c.pslot s) 1 va with
    | .error e => .done (s.scalarFault c e.1 e.2 false)
    | .ok w => match decodeScalar w with
      | some i => .run i z
      | none => .run .illegalEncoding z

/-- A turn of a portion's scalar stream: a start acquire, a wait, or the next instruction. -/
def State.fetchScalar (s : State) : Fetched :=
  match s.cur with
  | none => .done s
  | some c =>
    if c.o.wait ≠ .none then .done (s.resume c.core c.slot c.p)
    else if !s.competes c then .done s
    else if c.t.starting then .done (s.startTrain c.core c.slot)
    else if !s.scalarMay c then .done s
    else s.scalarWord c

/-! ### The lane cursor -/

/-- A fault of a clause's header or of the fetch of a word of it: the CLS's own (R169, R344); a poisoned walk entry is reported, and the event of poison names the granule. -/
def State.clauseFault (s : State) (c : Cur) (cl : Clause) (code va : Nat) : State :=
  (if code = fPAGEFAULT then s.reportWalk ((s.core c.core).cached (c.pslot s) va).isSome (c.pslot s) va else s).takeFault c.core c.slot c.p
    { lanes := [{ lane := 0, code := code, va := va }], pc := cl.pc, pa := if code = fUCESCALAR then s.granuleAt c.core (c.pslot s) va else 0 }

/-- A clause whose header has been read: it starts once the flags it waits on are clear (R169); what it uses is known now at the latest (R170). -/
def Clause.headed (cl : Clause) (h : Header) (clear : Bool) (uses : Option Uses) : Clause :=
  { cl with len := h.len, waits := h.wait.toNat, setA := h.setA, setB := h.setB, next := if clear then some 1 else none, uses := uses }

/-- The first clause of the focus portion changed. -/
def State.modClause (s : State) (f : Clause → Clause) : State :=
  s.modPortion (fun o => { o with clauses := match o.clauses with
    | [] => []
    | cl :: cls => f cl :: cls })

/-- The word at an offset of a clause's lane code (R314), 12 bytes that may lie in two pages. -/
def State.laneCode (s : State) (c : Cur) (cl : Clause) (off : Nat) (f : Nat → State → Fetched) : Fetched :=
  let va := wordVa cl.lcb off
  let w := portionOwner c.core c.slot c.p
  if s.codeBusy c va || s.codeBusy c (va + 8) then .done ((s.codeAsk c va).codeAsk c (va + 8))
  else if s.codeLost c.core w (c.pslot s) va || s.codeLost c.core w (c.pslot s) (va + 8) then .done ((s.dropTrips w).clauseFault c cl fMLTIMEOUT va)
  else
    let s := (s.touch c.core (c.pslot s) va).touch c.core (c.pslot s) (va + 8)
    match s.fetchCode c.core (c.pslot s) 3 va with
    | .error e => .done (s.clauseFault c cl e.1 e.2)
    | .ok w => f w s

/-- The header of a clause at the head of the queue (R169). -/
def State.laneHeader (s : State) (c : Cur) (cl : Clause) : Fetched :=
  s.laneCode c cl cl.off (fun w s => match decodeHeader w with
    | none => .done (s.clauseFault c cl fILLOP 0)
    | some h => .done ((s.dropTrips (portionOwner c.core c.slot c.p)).modClause (fun cl => cl.headed h (c.t.flagsClear h.wait.toNat) (s.clauseUses c.core (c.pslot s) cl.lcb cl.off))))

/-- The next lane word of a clause (R302). -/
def State.laneWord (s : State) (c : Cur) (cl : Clause) (n : Nat) : Fetched :=
  s.laneCode c cl (cl.off + n) (fun w s => match decodeLane w with
    | some i => .run i s
    | none => .run .illegalEncoding { s with ev := { s.ev with yes := true } })

/-- A turn of a portion's lane cursor: a wait, a header, or the next instruction. -/
def State.fetchLane (s : State) : Fetched :=
  match s.cur with
  | none => .done s
  | some c =>
    if c.o.lwait ≠ .none then .done (s.resumeLane c.core c.slot c.p)
    else if !s.competes c || c.t.starting || !s.laneMay c then .done s
    else match c.o.clauses with
      | [] => .done s
      | cl :: _ => match cl.next with
        | none => s.laneHeader c cl
        | some n => s.laneWord c cl n

/-! ### The matrix sequencer -/

/-- A turn of a pair's sequencer: what an MDRAIN could not log yet goes first (R231), whatever has ended its program; then its program's image, or the next command (R269, R270, R441); past the last command, or at one that is refused, the program stops with CMD. -/
def State.fetchMatrix (s : State) : Fetched :=
  match s.running s.pair with
  | none => .done s
  | some m =>
    if (s.die (s.pair / 192)).stopped then .done s
    else if !m.rest.isEmpty then .done (s.drainRest s.pair m m.rest)
    else if m.ended then .done s
    else if !m.loaded then .done (s.loadImage s.pair m)
    else if s.mxHeld { leader := s.pair, pair := s.pairOf s.pair, m := m } then .done s
    else match (if m.pc < m.ncmd then decodeMx m.command else none) with
      | some i => .run i s
      | none => .done (s.modProg s.pair (fun m => m.stop 6 0))

/-! ### Evictions (R193) -/

/-- A view line evicted, which one that holds unpublished records never is (R193). -/
def State.evictLine (s : State) (core key : Nat) : State :=
  if s.rowPinned core (key / 2) then s else s.setCore core ((s.core core).dropRow false (key / 2))

/-- A cached translation dropped. -/
def State.forgetTlb (s : State) (core i : Nat) : State := s.setCore core { s.core core with tlb := (s.core core).tlb.eraseIdx i }

/-! ### A turn -/

/-- Whether an instruction is a step of the device itself, which an agenda may name: one without an encoding, but for the fault of a word that names none. -/
def deviceStep (i : Instr) : Bool := (encode i).isNone && decide (i ≠ .illegalEncoding)

/-- What a turn comes to. -/
def State.fetch (s : State) (t : Turn) : Fetched :=
  match t with
  | .scalar f => { s with focus := f, ev := {} }.fetchScalar
  | .lane f => { s with focus := f, ev := {} }.fetchLane
  | .matrix l => { s with pair := l, ev := {} }.fetchMatrix
  | .device i a => if deviceStep i then .run i { s with ev := a } else .done s
  | .evict core key => .done (s.evictLine core key)
  | .forget core i => .done (s.forgetTlb core i)
  | .upset u => .done (s.upset u)
  | .idle => .done s

/-! ### What follows every step -/

/-- The core-cycles of a cycle (R77): one for each core and task with a resident train there, at its slot and level. -/
def State.countCycles (s : State) : State :=
  ((s.trains.map (fun (e : Nat × Train) => (e.1 / 32, e.2.task))).eraseDups).foldl (fun (s : State) x =>
    match s.task x.2 with
    | some k => { s with used := Sparse.set 0 s.used (shareKey k.slot k.level) (Sparse.get 0 s.used (shareKey k.slot k.level) + 1) }
    | none => s) s

/-- A cycle in which a train of a slot waited for room in its log counted (R235). -/
def State.countStalls (s : State) : State :=
  (((s.trains.filter (fun e => e.2.logWait)).map (fun (e : Nat × Train) => s.slotOfTask e.2.task)).eraseDups).foldl (fun s p =>
    let off := slotOff p 0x3D8
    s.setReg off (if s.reg off = 0xFFFFFFFFFFFFFFFF then s.reg off else s.reg off + 1)) s

/-- A cycle ends: trains that can be saved are, waiters look again, tasks, graphs and stops settle, tasks with nothing left close, and time goes on. -/
def State.tick (s : State) : State :=
  let s := s.saveDrained.pokeReplays.pokeWatch.pokeConts.settle.settleGraphs.closeTasks.settleStops.countStalls.countCycles
  { s with time := s.time + cycle }.decay

end Sys2Proof.Machine
end

