-- ==== Sys2Proof/Machine/Dispatch.lean ====
section
/-! DEFINITION. The dispatch of every instruction and device step to its meaning. -/

namespace Sys2Proof.Machine

def exec (i : Instr) (s : State) : Host.Outcome State Fault Refusal :=
  match i with
  | .udf => Sys2Proof.Machine.execUdf s
  | .sadd d a b => Sys2Proof.Machine.execSadd d a b s
  | .ssub d a b => Sys2Proof.Machine.execSsub d a b s
  | .sand d a b => Sys2Proof.Machine.execSand d a b s
  | .sor d a b => Sys2Proof.Machine.execSor d a b s
  | .sxor d a b => Sys2Proof.Machine.execSxor d a b s
  | .sshl d a b => Sys2Proof.Machine.execSshl d a b s
  | .sshr d a b => Sys2Proof.Machine.execSshr d a b s
  | .ssra d a b => Sys2Proof.Machine.execSsra d a b s
  | .smul d a b => Sys2Proof.Machine.execSmul d a b s
  | .smulh d a b => Sys2Proof.Machine.execSmulh d a b s
  | .smulhu d a b => Sys2Proof.Machine.execSmulhu d a b s
  | .smin d a b => Sys2Proof.Machine.execSmin d a b s
  | .smax d a b => Sys2Proof.Machine.execSmax d a b s
  | .sminu d a b => Sys2Proof.Machine.execSminu d a b s
  | .smaxu d a b => Sys2Proof.Machine.execSmaxu d a b s
  | .sslt d a b => Sys2Proof.Machine.execSslt d a b s
  | .ssltu d a b => Sys2Proof.Machine.execSsltu d a b s
  | .sseq d a b => Sys2Proof.Machine.execSseq d a b s
  | .sdiv d a b => Sys2Proof.Machine.execSdiv d a b s
  | .sdivu d a b => Sys2Proof.Machine.execSdivu d a b s
  | .srem d a b => Sys2Proof.Machine.execSrem d a b s
  | .sremu d a b => Sys2Proof.Machine.execSremu d a b s
  | .spopc d a => Sys2Proof.Machine.execSpopc d a s
  | .sclz d a => Sys2Proof.Machine.execSclz d a s
  | .sctz d a => Sys2Proof.Machine.execSctz d a s
  | .sbrev d a => Sys2Proof.Machine.execSbrev d a s
  | .saddi d a im => Sys2Proof.Machine.execSaddi d a im s
  | .sandi d a im => Sys2Proof.Machine.execSandi d a im s
  | .sori d a im => Sys2Proof.Machine.execSori d a im s
  | .sxori d a im => Sys2Proof.Machine.execSxori d a im s
  | .sshli d a sc => Sys2Proof.Machine.execSshli d a sc s
  | .sshri d a sc => Sys2Proof.Machine.execSshri d a sc s
  | .ssrai d a sc => Sys2Proof.Machine.execSsrai d a sc s
  | .sslti d a im => Sys2Proof.Machine.execSslti d a im s
  | .smovi d im => Sys2Proof.Machine.execSmovi d im s
  | .shori d im => Sys2Proof.Machine.execShori d im s
  | .sld d b z im => Sys2Proof.Machine.execSld d b z im s
  | .sldx d b z a im => Sys2Proof.Machine.execSldx d b z a im s
  | .sst d b z im => Sys2Proof.Machine.execSst d b z im s
  | .sstx d b z a im => Sys2Proof.Machine.execSstx d b z a im s
  | .sldh d b z im => Sys2Proof.Machine.execSldh d b z im s
  | .satom d b a o sc c r => Sys2Proof.Machine.execSatom d b a o sc c r s
  | .brld d sc im => Sys2Proof.Machine.execBrld d sc im s
  | .brbase d a sc => Sys2Proof.Machine.execBrbase d a sc s
  | .broff d a sc => Sys2Proof.Machine.execBroff d a sc s
  | .brext d a sc => Sys2Proof.Machine.execBrext d a sc s
  | .brstr d a sc => Sys2Proof.Machine.execBrstr d a sc s
  | .brswz d a sc => Sys2Proof.Machine.execBrswz d a sc s
  | .brflg d a sc => Sys2Proof.Machine.execBrflg d a sc s
  | .brcpy d sc => Sys2Proof.Machine.execBrcpy d sc s
  | .bz a o => Sys2Proof.Machine.execBz a o s
  | .bnz a o => Sys2Proof.Machine.execBnz a o s
  | .bltz a o => Sys2Proof.Machine.execBltz a o s
  | .bgez a o => Sys2Proof.Machine.execBgez a o s
  | .blez a o => Sys2Proof.Machine.execBlez a o s
  | .bgtz a o => Sys2Proof.Machine.execBgtz a o s
  | .bkany k o => Sys2Proof.Machine.execBkany k o s
  | .bkall k o => Sys2Proof.Machine.execBkall k o s
  | .bknone k o => Sys2Proof.Machine.execBknone k o s
  | .bra o => Sys2Proof.Machine.execBra o s
  | .call o => Sys2Proof.Machine.execCall o s
  | .jr a => Sys2Proof.Machine.execJr a s
  | .callr a => Sys2Proof.Machine.execCallr a s
  | .ret a => Sys2Proof.Machine.execRet a s
  | .retS0 => Sys2Proof.Machine.execRetS0 s
  | .callv v => Sys2Proof.Machine.execCallv v s
  | .divg k c o => Sys2Proof.Machine.execDivg k c o s
  | .divgLoop o => Sys2Proof.Machine.execDivgLoop o s
  | .junc => Sys2Proof.Machine.execJunc s
  | .brkl k c => Sys2Proof.Machine.execBrkl k c s
  | .cls w => Sys2Proof.Machine.execCls w s
  | .clsr a => Sys2Proof.Machine.execClsr a s
  | .kand d a b => Sys2Proof.Machine.execKand d a b s
  | .kor d a b => Sys2Proof.Machine.execKor d a b s
  | .kxor d a b => Sys2Proof.Machine.execKxor d a b s
  | .kandn d a b => Sys2Proof.Machine.execKandn d a b s
  | .knot d a => Sys2Proof.Machine.execKnot d a s
  | .kmov d a => Sys2Proof.Machine.execKmov d a s
  | .ksetexm a => Sys2Proof.Machine.execKsetexm a s
  | .kgetexm d => Sys2Proof.Machine.execKgetexm d s
  | .klive d => Sys2Proof.Machine.execKlive d s
  | .kclr d => Sys2Proof.Machine.execKclr d s
  | .kones d => Sys2Proof.Machine.execKones d s
  | .ktos d a => Sys2Proof.Machine.execKtos d a s
  | .stok d a => Sys2Proof.Machine.execStok d a s
  | .kpopc d a => Sys2Proof.Machine.execKpopc d a s
  | .kffs d a => Sys2Proof.Machine.execKffs d a s
  | .setfmt f => Sys2Proof.Machine.execSetfmt f s
  | .getfmt d => Sys2Proof.Machine.execGetfmt d s
  | .putfmt a => Sys2Proof.Machine.execPutfmt a s
  | .mfs d sc => Sys2Proof.Machine.execMfs d sc s
  | .mts d sc => Sys2Proof.Machine.execMts d sc s
  | .waitf m => Sys2Proof.Machine.execWaitf m s
  | .sigc p => Sys2Proof.Machine.execSigc p s
  | .sigr => Sys2Proof.Machine.execSigr s
  | .nop => Sys2Proof.Machine.execNop s
  | .spawn d a => Sys2Proof.Machine.execSpawn d a s
  | .spawnf d a b => Sys2Proof.Machine.execSpawnf d a b s
  | .joinSelf => Sys2Proof.Machine.execJoinSelf s
  | .joinChild d a => Sys2Proof.Machine.execJoinChild d a s
  | .joinany d b => Sys2Proof.Machine.execJoinany d b s
  | .grant d a b => Sys2Proof.Machine.execGrant d a b s
  | .cut d a => Sys2Proof.Machine.execCut d a s
  | .tstat d a => Sys2Proof.Machine.execTstat d a s
  | .barr r sc => Sys2Proof.Machine.execBarr r sc s
  | .arrive r => Sys2Proof.Machine.execArrive r s
  | .waitb r => Sys2Proof.Machine.execWaitb r s
  | .arriveStage a p => Sys2Proof.Machine.execArriveStage a p s
  | .arriveStageClose a p => Sys2Proof.Machine.execArriveStageClose a p s
  | .waita d a b => Sys2Proof.Machine.execWaita d a b s
  | .waitm d a b => Sys2Proof.Machine.execWaitm d a b s
  | .rel d sc => Sys2Proof.Machine.execRel d sc s
  | .acq a sc n => Sys2Proof.Machine.execAcq a sc n s
  | .strel d b sc im => Sys2Proof.Machine.execStrel d b sc im s
  | .ldacq d b sc im => Sys2Proof.Machine.execLdacq d b sc im s
  | .fence d sc => Sys2Proof.Machine.execFence d sc s
  | .acqall sc => Sys2Proof.Machine.execAcqall sc s
  | .resize d a b => Sys2Proof.Machine.execResize d a b s
  | .cont d a b c => Sys2Proof.Machine.execCont d a b c s
  | .trap im => Sys2Proof.Machine.execTrap im s
  | .fbp w => Sys2Proof.Machine.execFbp w s
  | .rflt => Sys2Proof.Machine.execRflt s
  | .mappg d a b => Sys2Proof.Machine.execMappg d a b s
  | .ivpg a b => Sys2Proof.Machine.execIvpg a b s
  | .halt => Sys2Proof.Machine.execHalt s
  | .mxfork a => Sys2Proof.Machine.execMxfork a s
  | .rdv d => Sys2Proof.Machine.execRdv d s
  | .wqry a b f => Sys2Proof.Machine.execWqry a b f s
  | .coll a b => Sys2Proof.Machine.execColl a b s
  | .repack r => Sys2Proof.Machine.execRepack r s
  | .lnop o => Sys2Proof.Machine.execLnop o s
  | .iadd o => Sys2Proof.Machine.execIadd o s
  | .isub o => Sys2Proof.Machine.execIsub o s
  | .imul o => Sys2Proof.Machine.execImul o s
  | .imulh o => Sys2Proof.Machine.execImulh o s
  | .imad o => Sys2Proof.Machine.execImad o s
  | .iabs o => Sys2Proof.Machine.execIabs o s
  | .ineg o => Sys2Proof.Machine.execIneg o s
  | .imin o => Sys2Proof.Machine.execImin o s
  | .imax o => Sys2Proof.Machine.execImax o s
  | .lAnd o => Sys2Proof.Machine.execLAnd o s
  | .lOr o => Sys2Proof.Machine.execLOr o s
  | .lXor o => Sys2Proof.Machine.execLXor o s
  | .andn o => Sys2Proof.Machine.execAndn o s
  | .lNot o => Sys2Proof.Machine.execLNot o s
  | .shl o => Sys2Proof.Machine.execShl o s
  | .shr o => Sys2Proof.Machine.execShr o s
  | .sra o => Sys2Proof.Machine.execSra o s
  | .rotl o => Sys2Proof.Machine.execRotl o s
  | .bfe o => Sys2Proof.Machine.execBfe o s
  | .bfi o => Sys2Proof.Machine.execBfi o s
  | .popc o => Sys2Proof.Machine.execPopc o s
  | .clz o => Sys2Proof.Machine.execClz o s
  | .brev o => Sys2Proof.Machine.execBrev o s
  | .permb o => Sys2Proof.Machine.execPermb o s
  | .icmp o => Sys2Proof.Machine.execIcmp o s
  | .sel o => Sys2Proof.Machine.execSel o s
  | .lMov o => Sys2Proof.Machine.execLMov o s
  | .idiv o => Sys2Proof.Machine.execIdiv o s
  | .irem o => Sys2Proof.Machine.execIrem o s
  | .shfl o => Sys2Proof.Machine.execShfl o s
  | .shflup o => Sys2Proof.Machine.execShflup o s
  | .shfldn o => Sys2Proof.Machine.execShfldn o s
  | .shflx o => Sys2Proof.Machine.execShflx o s
  | .vote o => Sys2Proof.Machine.execVote o s
  | .redu o => Sys2Proof.Machine.execRedu o s
  | .scan o => Sys2Proof.Machine.execScan o s
  | .elect o => Sys2Proof.Machine.execElect o s
  | .fadd o => Sys2Proof.Machine.execFadd o s
  | .fsub o => Sys2Proof.Machine.execFsub o s
  | .fmul o => Sys2Proof.Machine.execFmul o s
  | .ffma o => Sys2Proof.Machine.execFfma o s
  | .fmin o => Sys2Proof.Machine.execFmin o s
  | .fmax o => Sys2Proof.Machine.execFmax o s
  | .fcmp o => Sys2Proof.Machine.execFcmp o s
  | .fclass o => Sys2Proof.Machine.execFclass o s
  | .frnd o => Sys2Proof.Machine.execFrnd o s
  | .frcp o => Sys2Proof.Machine.execFrcp o s
  | .frsq o => Sys2Proof.Machine.execFrsq o s
  | .fsqrt o => Sys2Proof.Machine.execFsqrt o s
  | .fexp2 o => Sys2Proof.Machine.execFexp2 o s
  | .flog2 o => Sys2Proof.Machine.execFlog2 o s
  | .fsinpi o => Sys2Proof.Machine.execFsinpi o s
  | .fcospi o => Sys2Proof.Machine.execFcospi o s
  | .fdiv o => Sys2Proof.Machine.execFdiv o s
  | .fscale o => Sys2Proof.Machine.execFscale o s
  | .cvt o => Sys2Proof.Machine.execCvt o s
  | .qsx o => Sys2Proof.Machine.execQsx o s
  | .pksx o => Sys2Proof.Machine.execPksx o s
  | .upsx o => Sys2Proof.Machine.execUpsx o s
  | .dqsx o => Sys2Proof.Machine.execDqsx o s
  | .outl o => Sys2Proof.Machine.execOutl o s
  | .ld o => Sys2Proof.Machine.execLd o s
  | .st o => Sys2Proof.Machine.execSt o s
  | .ldc o => Sys2Proof.Machine.execLdc o s
  | .stc o => Sys2Proof.Machine.execStc o s
  | .ldh o => Sys2Proof.Machine.execLdh o s
  | .pref o => Sys2Proof.Machine.execPref o s
  | .atom o => Sys2Proof.Machine.execAtom o s
  | .tcp o => Sys2Proof.Machine.execTcp o s
  | .mldb f => Sys2Proof.Machine.execMldb f s
  | .mstrm f => Sys2Proof.Machine.execMstrm f s
  | .mzero f => Sys2Proof.Machine.execMzero f s
  | .mdrain f => Sys2Proof.Machine.execMdrain f s
  | .mloop f => Sys2Proof.Machine.execMloop f s
  | .mrdv f => Sys2Proof.Machine.execMrdv f s
  | .mend f => Sys2Proof.Machine.execMend f s
  | .partReset => Sys2Proof.Machine.execPartReset s
  | .firmwareStageVerify => Sys2Proof.Machine.execFirmwareStageVerify s
  | .dieTrainingComplete => Sys2Proof.Machine.execDieTrainingComplete s
  | .dieretWrite => Sys2Proof.Machine.execDieretWrite s
  | .thermalEvent => Sys2Proof.Machine.execThermalEvent s
  | .thermalEventClear => Sys2Proof.Machine.execThermalEventClear s
  | .mainLineMessage => Sys2Proof.Machine.execMainLineMessage s
  | .mainLineTimeout => Sys2Proof.Machine.execMainLineTimeout s
  | .lgctlGo => Sys2Proof.Machine.execLgctlGo s
  | .drainComplete => Sys2Proof.Machine.execDrainComplete s
  | .quiesceTimeout => Sys2Proof.Machine.execQuiesceTimeout s
  | .fenceComplete => Sys2Proof.Machine.execFenceComplete s
  | .retrainComplete => Sys2Proof.Machine.execRetrainComplete s
  | .retrainTimeout => Sys2Proof.Machine.execRetrainTimeout s
  | .remap => Sys2Proof.Machine.execRemap s
  | .linkInboundRequest => Sys2Proof.Machine.execLinkInboundRequest s
  | .inboundHomeTimeout => Sys2Proof.Machine.execInboundHomeTimeout s
  | .outboundCompletion => Sys2Proof.Machine.execOutboundCompletion s
  | .outboundTimeout => Sys2Proof.Machine.execOutboundTimeout s
  | .bar4Access => Sys2Proof.Machine.execBar4Access s
  | .hwdWrite => Sys2Proof.Machine.execHwdWrite s
  | .claimgo => Sys2Proof.Machine.execClaimgo s
  | .arbitrationIntervalEnd => Sys2Proof.Machine.execArbitrationIntervalEnd s
  | .handoff => Sys2Proof.Machine.execHandoff s
  | .handack => Sys2Proof.Machine.execHandack s
  | .handoffTimeout => Sys2Proof.Machine.execHandoffTimeout s
  | .ownerPathLoss => Sys2Proof.Machine.execOwnerPathLoss s
  | .attgo => Sys2Proof.Machine.execAttgo s
  | .attestationSigned => Sys2Proof.Machine.execAttestationSigned s
  | .registerWrite => Sys2Proof.Machine.execRegisterWrite s
  | .pctlStop => Sys2Proof.Machine.execPctlStop s
  | .pctlRun => Sys2Proof.Machine.execPctlRun s
  | .pctlFree => Sys2Proof.Machine.execPctlFree s
  | .squotaWrite => Sys2Proof.Machine.execSquotaWrite s
  | .pinSet => Sys2Proof.Machine.execPinSet s
  | .pinClear => Sys2Proof.Machine.execPinClear s
  | .pinFillComplete => Sys2Proof.Machine.execPinFillComplete s
  | .fotGo => Sys2Proof.Machine.execFotGo s
  | .fotFrameChange => Sys2Proof.Machine.execFotFrameChange s
  | .slotTurn => Sys2Proof.Machine.execSlotTurn s
  | .deficitDecrement => Sys2Proof.Machine.execDeficitDecrement s
  | .setmvWrite => Sys2Proof.Machine.execSetmvWrite s
  | .sramModeSwitchComplete => Sys2Proof.Machine.execSramModeSwitchComplete s
  | .queueEnable => Sys2Proof.Machine.execQueueEnable s
  | .queueDisable => Sys2Proof.Machine.execQueueDisable s
  | .doorbellTail => Sys2Proof.Machine.execDoorbellTail s
  | .doorbellReplyValue => Sys2Proof.Machine.execDoorbellReplyValue s
  | .doorbellReplyCommit => Sys2Proof.Machine.execDoorbellReplyCommit s
  | .doorbellStail => Sys2Proof.Machine.execDoorbellStail s
  | .entryFetch => Sys2Proof.Machine.execEntryFetch s
  | .entryDispatch => Sys2Proof.Machine.execEntryDispatch s
  | .graphValidation => Sys2Proof.Machine.execGraphValidation s
  | .graphNodeDispatch => Sys2Proof.Machine.execGraphNodeDispatch s
  | .jobCardAccept => Sys2Proof.Machine.execJobCardAccept s
  | .jobStart => Sys2Proof.Machine.execJobStart s
  | .jobComplete => Sys2Proof.Machine.execJobComplete s
  | .completionRecordWritten => Sys2Proof.Machine.execCompletionRecordWritten s
  | .syscallRecordWrite => Sys2Proof.Machine.execSyscallRecordWrite s
  | .taskClose => Sys2Proof.Machine.execTaskClose s
  | .parkLimitExpiry => Sys2Proof.Machine.execParkLimitExpiry s
  | .placementAttempt => Sys2Proof.Machine.execPlacementAttempt s
  | .reserveRequest => Sys2Proof.Machine.execReserveRequest s
  | .placementCommit => Sys2Proof.Machine.execPlacementCommit s
  | .placementRelease => Sys2Proof.Machine.execPlacementRelease s
  | .placementBackoffExpiry => Sys2Proof.Machine.execPlacementBackoffExpiry s
  | .placementSidingAttempt => Sys2Proof.Machine.execPlacementSidingAttempt s
  | .stealRequest => Sys2Proof.Machine.execStealRequest s
  | .stealReply => Sys2Proof.Machine.execStealReply s
  | .stealRetryExpiry => Sys2Proof.Machine.execStealRetryExpiry s
  | .activeEntryFill => Sys2Proof.Machine.execActiveEntryFill s
  | .blockedSwap => Sys2Proof.Machine.execBlockedSwap s
  | .urgentPromotion => Sys2Proof.Machine.execUrgentPromotion s
  | .tier2Start => Sys2Proof.Machine.execTier2Start s
  | .tier3Start => Sys2Proof.Machine.execTier3Start s
  | .force => Sys2Proof.Machine.execForce s
  | .coreSave => Sys2Proof.Machine.execCoreSave s
  | .handlerTimeout => Sys2Proof.Machine.execHandlerTimeout s
  | .invcmd => Sys2Proof.Machine.execInvcmd s
  | .invalidateComplete => Sys2Proof.Machine.execInvalidateComplete s
  | .sectorFill => Sys2Proof.Machine.execSectorFill s
  | .pressurePublication => Sys2Proof.Machine.execPressurePublication s
  | .recordFold => Sys2Proof.Machine.execRecordFold s
  | .foldUnitCompact => Sys2Proof.Machine.execFoldUnitCompact s
  | .atomicAtHome => Sys2Proof.Machine.execAtomicAtHome s
  | .migrationPrecopy => Sys2Proof.Machine.execMigrationPrecopy s
  | .migrationPostcopy => Sys2Proof.Machine.execMigrationPostcopy s
  | .migrationPull => Sys2Proof.Machine.execMigrationPull s
  | .migrationPullFail => Sys2Proof.Machine.execMigrationPullFail s
  | .mxforkAccept => Sys2Proof.Machine.execMxforkAccept s
  | .programAutoCollect => Sys2Proof.Machine.execProgramAutoCollect s
  | .copyStep => Sys2Proof.Machine.execCopyStep s
  | .copyChunkComplete => Sys2Proof.Machine.execCopyChunkComplete s
  | .continuationFire => Sys2Proof.Machine.execContinuationFire s
  | .distributorQuery => Sys2Proof.Machine.execDistributorQuery s
  | .collectiveContribution => Sys2Proof.Machine.execCollectiveContribution s
  | .collectiveDeadline => Sys2Proof.Machine.execCollectiveDeadline s
  | .resultLands => Sys2Proof.Machine.execResultLands s
  | .homeLoad => Sys2Proof.Machine.execHomeLoad s
  | .reserveAnswer => Sys2Proof.Machine.execReserveAnswer s
  | .illegalEncoding => Sys2Proof.Machine.execIllegalEncoding s

end Sys2Proof.Machine
end

