-- ==== Sys2Proof/Machine/Turns.lean ====
section
/-! DEFINITION. Which train and which portion a turn of the agenda may issue from (R142, R146, R147): the issue cycles of a core and their slots, round robin among those that have an instruction ready, and the end of a step. -/

namespace Sys2Proof.Machine

/-! ### What could issue (R142) -/

/-- What a turn's fetch comes to when its instruction is run. -/
def Fetched.out : Fetched → Out
  | .done s => .next s
  | .run i s => exec i s

/-- A train without the note that it waits for room in the log. -/
def Train.quiet (t : Train) : Train := { t with logWait := false }

/-- Whether a train, or its task, is another one after an outcome: an instruction of it issued, or faulted. -/
def State.moved (s : State) (core slot : Nat) (o : Out) : Bool :=
  match o with
  | .next s' => decide ((s'.train core slot).map Train.quiet ≠ (s.train core slot).map Train.quiet) || decide (((s.train core slot).bind (fun t => s'.task t.task)) ≠ ((s.train core slot).bind (fun t => s.task t.task)))
  | .fault _ => true
  | .refused _ => true

/-- Whether the scalar stream of a portion has an instruction ready. -/
def State.scalarCould (s : State) (f : Focus) : Bool :=
  let s : State := { s with focus := f, ev := {} }
  match s.cur with
  | none => false
  | some c => s.scalarMay c && s.moved f.core f.slot (s.scalarWord c).out

/-- The state in which a lane cursor fetches its next word, with that word's number: the header of a clause that has not started is read first, which takes no issue (R169). -/
def State.pastHeader (s : State) (c : Cur) : Option (State × Cur × Clause × Nat) :=
  match c.o.clauses with
  | [] => none
  | cl :: _ => match cl.next with
    | some n => some (s, c, cl, n)
    | none => match s.laneHeader c cl with
      | .run _ _ => none
      | .done z => z.cur.bind (fun d => match d.o.clauses with
        | [] => none
        | dl :: _ => if dl.off = cl.off then dl.next.map (fun n => (z, d, dl, n)) else none)

/-- Whether the lane cursor of a portion has an instruction ready. -/
def State.laneCould (s : State) (f : Focus) : Bool :=
  let s : State := { s with focus := f, ev := {} }
  match s.cur with
  | none => false
  | some c => s.laneMay c && decide (c.o.lwait = .none) && match s.pastHeader c with
    | none => false
    | some (z, d, cl, n) => z.moved f.core f.slot (z.laneWord d cl n).out

/-- Whether a stream of a portion has an instruction ready. -/
def State.couldIssue (s : State) (f : Focus) (lane : Bool) : Bool := if lane then s.laneCould f else s.scalarCould f

/-! ### Issue cycles (R146, R147) -/

/-- The portion of a train slot, with its train. -/
def State.portionOf (s : State) (f : Focus) : Option (Train × Portion) := (s.train f.core f.slot).bind (fun t => (t.portion f.portion).map (fun o => (t, o)))

/-- Whether an entry has used a slot of its core's issue cycle. -/
def Core.usedBy (k : Core) (slot : Nat) : Bool := k.usedScalar == some slot || k.usedLanes.contains slot

/-- Whether a slot of the issue cycle under way is left for a stream (R146): the scalar slot, or a lane pipe for an entry that has none; the slots of a divided train go to one portion; a lane cursor begins in its own first cycle (R147). -/
def State.fitsNow (s : State) (f : Focus) (lane : Bool) : Bool :=
  let k := s.core f.core
  match s.portionOf f with
  | none => false
  | some (t, o) =>
    (!k.usedBy f.slot || decide (t.lastPortion = f.portion)) &&
      (if lane then decide (k.usedLanes.length < 2) && !k.usedLanes.contains f.slot && decide (o.laneFrom ≤ k.cycle) else k.usedScalar.isNone)

/-- Whether a stream may issue in a later cycle. -/
def State.fitsAt (s : State) (n : Nat) (f : Focus) (lane : Bool) : Bool := !lane || (s.portionOf f).any (fun x => decide (x.2.laneFrom ≤ n))

/-- The streams that compete for a core's slots (R142, R146): those of its active entries' portions that are not at a junction. -/
def State.streams (s : State) (core : Nat) : List (Focus × Bool) :=
  (s.core core).actives.flatMap (fun slot => match s.train core slot with
    | none => []
    | some t => t.going.flatMap (fun e => [(⟨core, slot, e.1⟩, false), (⟨core, slot, e.1⟩, true)]))

/-- The next issue cycle of a core: the first after the one under way in which an instruction that is ready may issue. -/
def State.nextCycle (s : State) (core : Nat) : Nat :=
  let n := (s.core core).cycle + 1
  let xs := (s.streams core).filter (fun x => s.couldIssue x.1 x.2)
  if xs.any (fun x => s.fitsAt n x.1 x.2) then n
  else (xs.foldl (fun (b : Option Nat) x => match b, s.portionOf x.1 with
    | none, some o => some o.2.laneFrom
    | some m, some o => some (min m o.2.laneFrom)
    | b, none => b) none).getD n

/-- The issue cycle in which a stream may issue: the one under way; or the next, once nothing that is ready could take a slot that is left. -/
def State.issueCycle (s : State) (f : Focus) (lane : Bool) : Option Nat :=
  if s.fitsNow f lane then some (s.core f.core).cycle
  else if (s.streams f.core).any (fun x => s.fitsNow x.1 x.2 && s.couldIssue x.1 x.2) then none
  else if s.fitsAt (s.nextCycle f.core) f lane then some (s.nextCycle f.core) else none

/-- Whether a stream competes in an issue cycle. -/
def State.rival (s : State) (n : Nat) (f : Focus) (lane : Bool) : Bool :=
  (if n = (s.core f.core).cycle then s.fitsNow f lane else s.fitsAt n f lane) && s.couldIssue f lane

/-! ### Round robin (R146) -/

/-- The numbers that come strictly between `last` and `x` in a round of `n`. -/
def between (n last x : Nat) : List Nat := (List.range ((x + n - last - 1) % n)).map (fun i => (last + 1 + i) % n)

/-- Whether a train slot comes next for an issue slot of its core in cycle `n`: no active entry between the one chosen last and it competes for it. -/
def State.entryTurn (s : State) (n core slot : Nat) (lane : Bool) : Bool :=
  let k := s.core core
  !(between 32 (if lane then k.lastLane else k.lastScalar) slot).any (fun x => k.actives.contains x &&
    (s.train core x).any (fun t => t.going.any (fun e => s.rival n ⟨core, x, e.1⟩ lane)))

/-- Whether a portion of a divided train comes next in cycle `n`: it has the cycle's slots already, or no portion between the last one and it is ready. -/
def State.portionTurn (s : State) (n core slot : Nat) (t : Train) (p : Nat) : Bool :=
  (decide (n = (s.core core).cycle) && (s.core core).usedBy slot) ||
    !(between 4 (t.lastPortion % 4) p).any (fun q => t.going.any (fun e => decide (e.1 = q)) && (s.rival n ⟨core, slot, q⟩ false || s.rival n ⟨core, slot, q⟩ true))

/-- Whether a turn may issue: a turn of a stream goes to the entry and the portion that come next (R146); a wait looked at again, a start and a clause's header are no issue. -/
def State.chosen (s : State) (f : Focus) (lane : Bool) : Bool :=
  let s : State := { s with focus := f, ev := {} }
  match s.cur with
  | none => true
  | some c =>
    if (if lane then decide (c.o.lwait ≠ .none) || c.clause.isNone else decide (c.o.wait ≠ .none)) || c.t.starting then true
    else match s.issueCycle f lane with
      | none => false
      | some n => s.entryTurn n f.core f.slot lane && s.portionTurn n f.core f.slot c.t f.portion

/-- Whether a lane instruction is typed FP64: it holds the lane cursor for four cycles (R147). -/
def Instr.double : Instr → Bool
  | .fadd o => o.typ.toNat = 11
  | .fsub o => o.typ.toNat = 11
  | .fmul o => o.typ.toNat = 11
  | .ffma o => o.typ.toNat = 11
  | .fmin o => o.typ.toNat = 11
  | .fmax o => o.typ.toNat = 11
  | .fcmp o => o.typ.toNat = 11
  | .fclass o => o.typ.toNat = 11
  | .frnd o => o.typ.toNat = 11
  | .fscale o => o.typ.toNat = 11
  | .frcp o => o.typ.toNat = 11
  | .frsq o => o.typ.toNat = 11
  | .fsqrt o => o.typ.toNat = 11
  | .fexp2 o => o.typ.toNat = 11
  | .flog2 o => o.typ.toNat = 11
  | .fsinpi o => o.typ.toNat = 11
  | .fcospi o => o.typ.toNat = 11
  | .fdiv o => o.typ.toNat = 11
  | .redu o => o.typ.toNat = 11
  | .scan o => o.typ.toNat = 11
  | .cvt o => o.typ.toNat = 11 || o.kd.toNat = 11
  | _ => false

/-- The slot of issue cycle `n` that a stream takes. -/
def Core.takeSlot (k : Core) (n slot : Nat) (lane : Bool) : Core :=
  let k := if n = k.cycle then k else { k with cycle := n, usedScalar := none, usedLanes := [] }
  if lane then { k with lastLane := slot, usedLanes := k.usedLanes ++ [slot] } else { k with lastScalar := slot, usedScalar := some slot }

/-- The first cycle in which a portion's lane cursor may issue after an instruction of cycle `n` (R147): the one after the CLS that has filled its queue, the fourth after an FP64-typed instruction. -/
def laneFromAfter (n : Nat) (lane : Bool) (i : Instr) (was now : Portion) : Nat :=
  if lane then (if Instr.double i then n + 4 else now.laneFrom)
  else if was.clauses.isEmpty && !now.clauses.isEmpty then max now.laneFrom (n + 1) else now.laneFrom

/-- The entry and the portion that issued, and the slot taken, remembered (R146), unless nothing issued. -/
def State.noteTurn (s : State) (f : Focus) (lane : Bool) (i : Instr) (o : Out) : Out :=
  match o with
  | .next s' =>
    if !s.moved f.core f.slot o then o
    else
      let n := (s.issueCycle f lane).getD (s.core f.core).cycle
      .next ((s'.setCore f.core ((s'.core f.core).takeSlot n f.slot lane)).modTrain f.core f.slot (fun t =>
        let t := { t with lastPortion := f.portion }
        match t.portion f.portion, s.portionOf f with
        | some now, some was => t.setPortion f.portion { now with laneFrom := laneFromAfter n lane i was.2 now }
        | _, _ => t))
  | .fault r => .fault r
  | .refused r => .refused r

/-! ### The end of a cycle -/

/-- The portions whose next clause, or whose WAITF, waits on an old flag and no stream of which has an instruction ready are stuck (R142, R352). -/
def State.markStuck (s : State) : State :=
  { s with trains := s.trains.map (fun (e : Nat × Train) =>
      let th := s.swapth (s.slotOfTask e.2.task)
      let f := fun (p : Nat) => (⟨e.1 / 32, e.1 % 32, p⟩ : Focus)
      (e.1, { e.2 with stuck := (e.2.portions.filter (fun o => (s.laneBlocked th e.2 o.2 || s.waitfOld th e.2 o.2 && !s.laneCould (f o.1)) && !s.scalarCould (f o.1))).map Prod.fst })) }

/-- A cycle ends, and the active sets follow (R142, R143). -/
def State.endCycle (s : State) : State := s.tick.markStuck.settleActive

/-- What a turn does before the cycle ends. -/
def State.turnOut (s : State) (t : Turn) : Out :=
  match t with
  | .scalar f => if !s.chosen f false then .next s else match s.fetch t with
    | .done s' => .next s'
    | .run i s' => s'.noteTurn f false i (exec i s')
  | .lane f => if !s.chosen f true then .next s else match s.fetch t with
    | .done s' => .next s'
    | .run i s' => s'.noteTurn f true i (exec i s')
  | _ => (s.fetch t).out

end Sys2Proof.Machine
end

