-- ==== Sys2Proof/Machine/Step.lean ====
section
/-! DEFINITION. One step of the machine: the next turn of the agenda, or an idle cycle, and what follows it (log entries 1 and 2). -/

namespace Sys2Proof.Machine

/-- The outcome of a meaning with the cycle ended. -/
def after (o : Out) : Out :=
  match o with
  | .next s => .next s.endCycle
  | .fault r => .fault r
  | .refused r => .refused r

/-- A turn taken. -/
def runTurn (s : State) (t : Turn) : Out := after (s.turnOut t)

/-- One step. -/
def step (s : State) : Host.Outcome State Fault Refusal :=
  match s.agenda with
  | [] => runTurn s .idle
  | t :: ts => runTurn { s with agenda := ts } t

/-- The task whose train a placed instruction runs in. -/
def placedTask : Task := { gen := 1, alw := 2 ^ 32, grant := 2 ^ 32, state := .running, root := true, live := 1, member := 1, trains := 1, cores := 1, budget := 14, ways := 0 }

/-- The clause of a placed lane word, which stands as its first instruction. -/
def placedClause : Clause := { pc := 0, lcb := 0, off := 0, next := some 1, len := 1, s := [], b := [], k := [], exm := 0xFFFFFFFF, fmt := 0 }

/-- A train on core 0, train slot 0, at VA 0, with the highest budget. -/
def placedTrain (lane : Bool) : Train :=
  { task := 0, index := 0, budget := 14, portions := [(0, { pc := 0, clauses := if lane then [placedClause] else [] })], flash := { pc := 0, lcb := 0 } }

/-- The state with a train placed on core 0 as the next to issue: die 0 usable (R30), its active-set entry, its task, and a cached translation of VA page 0 of slot 0 to physical page 0. -/
def State.withTrain (s : State) (lane : Bool) : State :=
  let s := s.setRegBits svcstatOff 24 1 1
  let k := s.core 0
  let s := s.setCore 0 { k with active := [{ slot := 0, since := 0 }], tlb := { slot := 0, level := 0, page := 0, pa := 0, w := true, x := true } :: k.tlb }
  { (s.setTask 0 placedTask).setTrain 0 0 (placedTrain lane) with agenda := (if lane then .lane {} else .scalar {}) :: s.agenda }

/-- The bytes of a word in memory from address `a`. -/
def State.withBytes (s : State) (a n w : Nat) : State := { s with mem := Memory.writeBytes s.mem a (leBytes n w) }

/-- The matrix program of a placed command. -/
def placedProgram (w : Nat) : MxProg :=
  { seq := 0, task := 0, trainSlot := 0, trainIndex := 0, va := 0, fmt := 0, nc := 128, bound := 2 ^ 20, ncmd := 1, cmds := leBytes 16 w, loaded := true }

/-- The state with the instruction of bits `w` (R302, R441) as what the next step fetches and runs: a scalar word at VA 0, a lane word as the only instruction of the clause at LCB 0, or the only command of a loaded program of the pair of cores 0 and 1, on a usable die 0 (R30) (log entry 22). -/
def State.withFetchWord (s : State) (nbits w : Nat) : State :=
  if nbits ≤ 32 then (s.withBytes 0 4 w).withTrain false
  else if nbits ≤ 96 then (s.withBytes 12 12 w).withTrain true
  else let s := s.setRegBits svcstatOff 24 1 1
    { (s.setTask 0 { placedTask with rsv := 2 ^ 20 }).setPair 0 { s.pairOf 0 with progs := [placedProgram w] } with agenda := .matrix 0 :: s.agenda }

end Sys2Proof.Machine
end

