-- ==== Sys2Proof/Safety.lean ====
section
/-! DEFINITION. The terms that claims about the machine use: when an instruction may issue, what an issue leaves behind, and the invariants of a state. -/

namespace Sys2Proof.Machine

/-! ### The issue of a scalar instruction -/

/-- The focus is portion `c` and a scalar instruction with the needs `q` issues there: nothing holds the stream, no register it names is owed, it breaks no rule of the handler, and its task can pay (R116, R161, R303, R326, R401). -/
def State.ready (s : State) (c : Cur) (q : SReq) : Prop :=
  s.cur = some c ∧ s.scalarMay c = true ∧ c.mustWait q = false ∧ q.stall = .no ∧ (c.t.handler.isSome && q.breach) = false ∧ s.canPay c.t.task (c.need q) = true

/-- Whether an issue is neither charged nor folded: in the handler (R161), or an instruction that issues again after a fault (R118, R465). -/
def Cur.freeIssue (c : Cur) (q : SReq) : Bool := c.t.handler.isSome || q.free || decide (c.o.again = .free)

/-- The focus portion after an issue: its opcode folded (R179, R180), its PC at the next word. -/
def Cur.moved (c : Cur) (q : SReq) : Portion :=
  { (if c.freeIssue q || !q.folds then c.o else c.o.foldScalar q.op) with again := .no, pc := c.o.pc + 4 }

/-- The tasks after an issue: its cost has gone from ALW to SPENT (R116). -/
def State.paid (s : State) (c : Cur) (q : SReq) : Table Task :=
  if c.freeIssue q then s.tasks else Table.modify s.tasks c.t.task (fun k => { k with alw := k.alw - q.cost, spent := k.spent + q.cost })

/-- The accesses outstanding after an issue: an instruction that orders the accesses of both streams marks those of its portion as earlier (R402). -/
def Cur.pended (c : Cur) (q : SReq) : Table Pend := if q.orders then (c.t.markBefore c.p).pend else c.t.pend

/-- The train after an issue whose portion changes by `g` beside the move: a boundary instruction is noted and counted (R152, R426), a wait for log room is over (R235). -/
def Cur.after (c : Cur) (q : SReq) (g : Portion → Portion) : Train :=
  { c.t with
    boundary := c.t.boundary || q.boundary
    bounds := if q.boundary then c.t.bounds + 1 else c.t.bounds
    logWait := false
    pend := c.pended q
    portions := Table.put c.t.portions c.p (g (c.moved q)) }

/-- The requests in flight once a portion has issued: the answers to the main-line reads that its instruction waited for are used up. -/
def State.farAfter (s : State) (c : Cur) : List Far := (s.dropTrips (portionOwner c.core c.slot c.p)).far

/-- The state an issued instruction leaves when it changes its own train by `f` and its own portion by `g`: the charge, the fold and the PC are as for every issue, and NOTHING ELSE of the state differs (no other train, no memory, no register of the device). -/
def State.leaves (s : State) (c : Cur) (q : SReq) (f : Train → Train) (g : Portion → Portion) : State :=
  { s with tasks := s.paid c q, trains := Table.put s.trains (trainKey c.core c.slot) (f (c.after q g)), far := s.farAfter c }

/-- No change. -/
def keep {α : Type} (x : α) : α := x

/-! ### The issue of a lane instruction -/

/-- The lane instruction under the cursor `x` with the needs `q` issues: nothing holds the cursor, no register it names is owed, every lane register lies in the budget, it breaks no rule of the handler, and its task can pay (R116, R161, R166, R170, R171, R303). -/
def State.readyLane (s : State) (x : LCtx) (q : LReq) : Prop :=
  s.cur = some x.c ∧ x.c.clause = some x.cl ∧ x.act = live x.cl.exm x.c.t.deadm ∧ s.laneMay x.c = true ∧ x.c.t.awaitsLane x.c.p q = false ∧
    (q.memory && x.c.t.replying) = false ∧ q.stall = .no ∧ (x.c.t.handler.isSome && q.breach) = false ∧ q.inBudget x.c.t.budget = true ∧
    s.canPay x.c.t.task (if x.c.t.handler.isSome then 0 else q.cost + q.extra) = true

/-- The portion after a lane issue: the two opcode bytes folded, but not for a recipe clause (R153, R179), the cursor past the instruction. -/
def LCtx.moved (x : LCtx) (q : LReq) : Portion :=
  (if x.c.t.handler.isSome || x.cl.recipe then x.c.o else { x.c.o with sig := (laneSigBytes q.op).foldl sigFold x.c.o.sig }).nextWord

/-- The tasks after a lane issue (R116). -/
def State.paidLane (s : State) (x : LCtx) (q : LReq) : Table Task :=
  if x.c.t.handler.isSome then s.tasks else Table.modify s.tasks x.c.t.task (fun k => { k with alw := k.alw - q.cost, spent := k.spent + q.cost })

/-- The train after a lane issue (R152, R426). -/
def LCtx.after (x : LCtx) (q : LReq) : Train :=
  { x.c.t with
    boundary := x.c.t.boundary || q.boundary
    bounds := if q.boundary then x.c.t.bounds + 1 else x.c.t.bounds
    logWait := false
    portions := Table.put x.c.t.portions x.c.p (x.moved q) }

/-- The state an issued lane instruction leaves when it changes its own train by `f`; nothing else of the state differs. -/
def State.leavesLane (s : State) (x : LCtx) (q : LReq) (f : Train → Train) : State :=
  { s with tasks := s.paidLane x q, trains := Table.put s.trains (trainKey x.c.core x.c.slot) (f (x.after q)), far := s.farAfter x.c }

/-! ### Matrix commands -/

/-- The command of the program `x` of the pair in focus, with the needs `q`, runs: no earlier work of its task is in conflict, the MDRAIN before it has logged all its granules (R231), its operands meet their limits, it waits for nothing, neither for a copy step nor for a walk that another die serves (R24, R26), and its cost lies within the program's bound (R121, R269, R274). -/
def State.mxReady (s : State) (x : MxCtx) (q : MxReq) : Prop :=
  s.mx = some x ∧ s.mxHeld x = false ∧ x.m.rest = [] ∧ q.good = true ∧ q.waits = false ∧ s.mxLost x q = false ∧ s.mxStops x q = none ∧ x.m.used + q.cost ≤ x.m.bound

/-- The ring descriptor `r` of a program. -/
def MxProg.ring (m : MxProg) (r : Nat) : List Byte := m.rings[r]?.getD []

/-- The command finds stage `i` of ring `r` full (R272), and none of the bytes it reads there fails its check. -/
def State.mxStage (s : State) (x : MxCtx) (q : MxReq) (r i : Nat) : Prop :=
  q.ring = some r ∧ stageAt (s.scratch x.leader x.m.task) x.m r (x.m.ring r) = .full i ∧
    (s.scratch x.leader x.m.task).isBad (rgBase (x.m.ring r) + i * rgBytes (x.m.ring r)) q.reads = false

/-- The bytes of that stage that the command reads. -/
def State.mxData (s : State) (x : MxCtx) (q : MxReq) (r i : Nat) : List Byte :=
  (List.range q.reads).map (fun k => (s.scratch x.leader x.m.task).read (rgBase (x.m.ring r) + i * rgBytes (x.m.ring r) + k))

/-- What a command of no ring leaves before its own effect: its cost gone from RSV to SPENT, the next command up; nothing else differs. -/
def State.mxDone (s : State) (x : MxCtx) (q : MxReq) : State :=
  (s.spendRsv x.m.task q.cost).modProg x.leader (fun m => { m with used := m.used + q.cost, pc := m.pc + 1 })

/-- What a command that consumes stage `i` of ring `r` leaves before its own effect (R273): beside that, the stage's ARRIVED is 0 and TAKEN one more, the closed mask is noted, and the ring's next stage is the following one. -/
def State.mxTook (s : State) (x : MxCtx) (q : MxReq) (r i : Nat) : State :=
  ((s.spendRsv x.m.task q.cost).setScratch x.leader x.m.task ((s.scratch x.leader x.m.task).take (x.m.ring r) i)).modProg x.leader (fun m =>
    { m with
      used := m.used + q.cost
      pc := m.pc + 1
      cm := Sparse.set 0 m.cm r (m.closedMask r ((s.scratch x.leader x.m.task).readLe (rgCtl (x.m.ring r) + 8 * m.nextStage r (x.m.ring r)) 4))
      next := Sparse.set 0 m.next r (Sparse.get 0 m.next r + 1) })

/-! ### The form of a state -/

/-- A train's maps are in canonical form. -/
def Train.formed (t : Train) : Bool :=
  Table.sorted t.s && Table.sorted t.b && Table.sorted t.k && Table.sorted t.v && Table.sorted t.portions && Table.sorted t.entries && Table.sorted t.pend &&
    Table.sorted t.flash.k && Table.sorted t.flash.b &&
    (match t.handler with
     | none => true
     | some h => Table.sorted h.v && h.v.all (fun e => decide (e.1 < 512)))

/-- A core's scratchpads and continuations hold maps in canonical form. -/
def Core.formed (k : Core) : Bool :=
  Table.sorted k.scratch && k.scratch.all (fun e => Table.sorted e.2.bytes) && k.aside.all (fun e => Table.sorted e.2.bytes) && k.conts.all (fun x => Table.sorted x.b)

/-- The maps of a state are in canonical form: memory (keys rising, no entry equal to what an unlisted byte reads as) and its stamps and poison, the register file, and the maps of every train, scratchpad and accumulator. -/
def State.formed (s : State) : Bool :=
  Memory.wf s.mem && Table.sorted s.stamps && Table.sorted s.poison && Table.sorted s.bar && Table.sorted s.trains && s.trains.all (fun e => e.2.formed) &&
    Table.sorted s.saved && s.saved.all (fun e => e.2.formed) && s.cores.all (fun e => e.2.formed) && s.pairs.all (fun e => Table.sorted e.2.acc)

end Sys2Proof.Machine
end

