-- ==== Sys2Proof/Certificates/Slice0/Obligations.lean ====
section
/-! DEFINITION. The statements for the provers, family by family; the definitions in Sys2Proof.Claims say what a family's operations are. -/

open Sys2Proof Sys2Proof.Machine

/-! ### Scalar arithmetic (18_scalar_stream.md) -/

namespace Sys2Proof.Claims

/-- A three-register operation of Table 18-1 with the value it gives S(d) from S(a) and S(b). -/
def aluOps : List ((BitVec 6 → BitVec 6 → BitVec 6 → Instr) × (W64 → W64 → W64)) :=
  [(.sadd, fun x y => x + y), (.ssub, fun x y => x - y), (.sand, fun x y => x &&& y), (.sor, fun x y => x ||| y), (.sxor, fun x y => x ^^^ y),
   (.sshl, fun x y => x <<< (y.toNat % 64)), (.sshr, fun x y => x >>> (y.toNat % 64)), (.ssra, fun x y => x.sshiftRight (y.toNat % 64)),
   (.smul, fun x y => BitVec.ofNat 64 (x.toNat * y.toNat)), (.smulh, fun x y => BitVec.ofInt 64 (x.toInt * y.toInt / 2 ^ 64)),
   (.smulhu, fun x y => BitVec.ofNat 64 (x.toNat * y.toNat / 2 ^ 64)),
   (.smin, fun x y => if x.toInt < y.toInt then x else y), (.smax, fun x y => if x.toInt < y.toInt then y else x),
   (.sminu, fun x y => if x.toNat < y.toNat then x else y), (.smaxu, fun x y => if x.toNat < y.toNat then y else x),
   (.sslt, fun x y => if x.toInt < y.toInt then 1 else 0), (.ssltu, fun x y => if x.toNat < y.toNat then 1 else 0), (.sseq, fun x y => if x = y then 1 else 0)]

/-- A two-register operation of Table 18-1. -/
def unaryOps : List ((BitVec 6 → BitVec 6 → Instr) × (W64 → W64)) :=
  [(.spopc, fun x => BitVec.ofNat 64 (popcount x)), (.sclz, fun x => BitVec.ofNat 64 (clz x)), (.sctz, fun x => BitVec.ofNat 64 (ctz x)), (.sbrev, fun x => brev x)]

/-- An operation with a 14-bit immediate: constructor, opcode, value (R329). -/
def immOps : List ((BitVec 6 → BitVec 6 → BitVec 14 → Instr) × Nat × (W64 → BitVec 14 → W64)) :=
  [(.saddi, 1, fun x i => x + i.signExtend 64), (.sandi, 2, fun x i => x &&& i.setWidth 64), (.sori, 3, fun x i => x ||| i.setWidth 64),
   (.sxori, 4, fun x i => x ^^^ i.setWidth 64), (.sslti, 8, fun x i => if x.toInt < i.toInt then 1 else 0)]

/-- A shift by an immediate count (R329). -/
def shiftImmOps : List ((BitVec 6 → BitVec 6 → BitVec 6 → Instr) × Nat × (W64 → Nat → W64)) :=
  [(.sshli, 5, fun x n => x <<< n), (.sshri, 6, fun x n => x >>> n), (.ssrai, 7, fun x n => x.sshiftRight n)]

/-- A division with its results as Table 18-2 gives them (R328). -/
def divOps : List ((BitVec 6 → BitVec 6 → BitVec 6 → Instr) × (W64 → W64 → W64)) :=
  [(.sdiv, fun x y => if y = 0 then 0xFFFFFFFFFFFFFFFF else BitVec.ofInt 64 (x.toInt.tdiv y.toInt)),
   (.sdivu, fun x y => if y = 0 then 0xFFFFFFFFFFFFFFFF else BitVec.ofNat 64 (x.toNat / y.toNat)),
   (.srem, fun x y => if y = 0 then x else BitVec.ofInt 64 (x.toInt.tmod y.toInt)),
   (.sremu, fun x y => if y = 0 then x else BitVec.ofNat 64 (x.toNat % y.toNat))]

/-- The needs of an instruction of opcode `op` and cost 1 that names the scalar registers `rs` and writes `ws` of them: a clause before it that reads one of these holds it back (R170). -/
def sreq (op : Nat) (rs ws : List Nat) : SReq := { op := op, sregs := rs, swrites := ws }
/-- The needs of one that names the mask registers `ks` and writes `kws` of them (R170, R326). -/
def kreq (op : Nat) (rs ws ks kws : List Nat) : SReq := { op := op, sregs := rs, swrites := ws, kregs := ks, kwrites := kws }

end Sys2Proof.Claims

open Sys2Proof.Claims

/-- R327: SADD to SSEQ write the value of Table 18-1 to S(d), S0 discarding it, and leave everything else but the issue's own charge, fold and PC. R327, R329, R330: the bit counts and the immediate forms. R328: a division writes the result of Table 18-2 and, for a zero divisor, sets XFLAGS.DZ; it never faults. -/
def Obligations.ScalarArithmetic : Prop :=
  (∀ op ∈ aluOps, ∀ (s : State) (c : Cur) (d a b : BitVec 6), s.ready c (sreq 0 [d.toNat, a.toNat, b.toNat] [d.toNat]) →
    exec (op.1 d a b) s =
      .next (s.leaves c (sreq 0 [d.toNat, a.toNat, b.toNat] [d.toNat]) (fun t => t.setS d.toNat (op.2 (c.t.getS a.toNat) (c.t.getS b.toNat))) keep)) ∧
  ((∀ op ∈ unaryOps, ∀ (s : State) (c : Cur) (d a : BitVec 6), s.ready c (sreq 0 [d.toNat, a.toNat] [d.toNat]) →
    exec (op.1 d a) s = .next (s.leaves c (sreq 0 [d.toNat, a.toNat] [d.toNat]) (fun t => t.setS d.toNat (op.2 (c.t.getS a.toNat))) keep)) ∧
  (∀ op ∈ immOps, ∀ (s : State) (c : Cur) (d a : BitVec 6) (i : BitVec 14), s.ready c (sreq op.2.1 [d.toNat, a.toNat] [d.toNat]) →
    exec (op.1 d a i) s = .next (s.leaves c (sreq op.2.1 [d.toNat, a.toNat] [d.toNat]) (fun t => t.setS d.toNat (op.2.2 (c.t.getS a.toNat) i)) keep)) ∧
  (∀ op ∈ shiftImmOps, ∀ (s : State) (c : Cur) (d a n : BitVec 6), s.ready c (sreq op.2.1 [d.toNat, a.toNat] [d.toNat]) →
    exec (op.1 d a n) s = .next (s.leaves c (sreq op.2.1 [d.toNat, a.toNat] [d.toNat]) (fun t => t.setS d.toNat (op.2.2 (c.t.getS a.toNat) n.toNat)) keep)) ∧
  (∀ (s : State) (c : Cur) (d : BitVec 6) (i : BitVec 20), s.ready c (sreq 9 [d.toNat] [d.toNat]) →
    exec (.smovi d i) s = .next (s.leaves c (sreq 9 [d.toNat] [d.toNat]) (fun t => t.setS d.toNat (i.signExtend 64)) keep)) ∧
  (∀ (s : State) (c : Cur) (d : BitVec 6) (i : BitVec 20), s.ready c (sreq 0xA [d.toNat, d.toNat] [d.toNat]) →
    exec (.shori d i) s = .next (s.leaves c (sreq 0xA [d.toNat, d.toNat] [d.toNat]) (fun t => t.setS d.toNat ((c.t.getS d.toNat <<< 20) ||| i.setWidth 64)) keep))) ∧
  (∀ op ∈ divOps, ∀ (s : State) (c : Cur) (d a b : BitVec 6), s.ready c (sreq 0 [d.toNat, a.toNat, b.toNat] [d.toNat]) →
    exec (op.1 d a b) s =
      .next (s.leaves c (sreq 0 [d.toNat, a.toNat, b.toNat] [d.toNat])
        (fun t => (if c.t.getS b.toNat = 0 then t.flagUp xDZ else t).setS d.toNat (op.2 (c.t.getS a.toNat) (c.t.getS b.toNat))) keep))

/-! ### Branches and jumps -/

namespace Sys2Proof.Claims

/-- The conditions of the branches on a scalar register (R331). -/
def branchOps : List ((BitVec 6 → BitVec 16 → Instr) × (W64 → Bool)) :=
  [(.bz, fun x => decide (x = 0)), (.bnz, fun x => decide (x ≠ 0)), (.bltz, fun x => decide (x.toInt < 0)), (.bgez, fun x => decide (0 ≤ x.toInt)),
   (.blez, fun x => decide (x.toInt ≤ 0)), (.bgtz, fun x => decide (0 < x.toInt))]

/-- The conditions of the branches on a mask register, from K and the live active lanes L (R332). -/
def maskBranchOps : List ((BitVec 4 → BitVec 20 → Instr) × (W32 → W32 → Bool)) :=
  [(.bkany, fun k l => decide (k &&& l ≠ 0)), (.bkall, fun k l => decide (k &&& l = l)), (.bknone, fun k l => decide (k &&& l = 0))]

/-- A target that a register may name (R307): a multiple of 4, canonical. -/
def goodTarget (x : W64) : Prop := x.toNat % 4 = 0 ∧ canonical x.toNat = true

end Sys2Proof.Claims

open Sys2Proof.Claims

/-- R307, R331-R333: a taken branch goes on at the branch's address plus 4 times its offset, an untaken one at the next word; CALL links the next word's address in S63. R307, R334: JR, CALLR and RET go to the address in S(a) when it is a multiple of 4 and canonical, and else fault ADDRRANGE with that address, precisely: nothing is charged and no register changes before the fault is taken. -/
def Obligations.BranchesAndJumps : Prop :=
  ((∀ op ∈ branchOps, ∀ (s : State) (c : Cur) (a : BitVec 6) (o : BitVec 16), s.ready c (sreq 0x18 [a.toNat] []) →
    exec (op.1 a o) s = .next (s.leaves c (sreq 0x18 [a.toNat] []) keep
      (fun r => { r with pc := if op.2 (c.t.getS a.toNat) then c.o.pc + 4 * o.signExtend 64 else c.o.pc + 4 }))) ∧
  (∀ op ∈ maskBranchOps, ∀ (s : State) (c : Cur) (k : BitVec 4) (o : BitVec 20), s.ready c (kreq 0x19 [] [] [k.toNat] []) →
    exec (op.1 k o) s = .next (s.leaves c (kreq 0x19 [] [] [k.toNat] []) keep
      (fun r => { r with pc := if op.2 (c.t.getK k.toNat) (c.o.exm &&& ~~~ c.t.deadm) then c.o.pc + 4 * o.signExtend 64 else c.o.pc + 4 }))) ∧
  (∀ o : BitVec 26, decodeTableWord 32 (0x1A * 2 ^ 26 + o.toNat) = some (.bra o) ∧ decodeTableWord 32 (0x1B * 2 ^ 26 + o.toNat) = some (.call o)) ∧
  (∀ (s : State) (c : Cur) (o : BitVec 26), s.ready c (sreq 0x1A [] []) →
    exec (.bra o) s = .next (s.leaves c (sreq 0x1A [] []) keep (fun r => { r with pc := c.o.pc + 4 * o.signExtend 64 }))) ∧
  (∀ (s : State) (c : Cur) (o : BitVec 26), s.ready c (sreq 0x1B [63] [63]) →
    exec (.call o) s = .next (s.leaves c (sreq 0x1B [63] [63]) (fun t => t.setS 63 (c.o.pc + 4)) (fun r => { r with pc := c.o.pc + 4 * o.signExtend 64 })))) ∧
  ((∀ op ∈ [Instr.jr, Instr.ret], ∀ (s : State) (c : Cur) (a : BitVec 6), s.ready c (sreq 0x1C [a.toNat] []) →
    (goodTarget (c.t.getS a.toNat) →
      exec (op a) s = .next (s.leaves c (sreq 0x1C [a.toNat] []) keep (fun r => { r with pc := c.t.getS a.toNat }))) ∧
    (¬ goodTarget (c.t.getS a.toNat) → exec (op a) s = .next (s.scalarFault c fADDRRANGE (c.t.getS a.toNat).toNat false))) ∧
  (∀ (s : State) (c : Cur) (a : BitVec 6), s.ready c (sreq 0x1C [a.toNat, 63] [63]) →
    (goodTarget (c.t.getS a.toNat) →
      exec (.callr a) s = .next (s.leaves c (sreq 0x1C [a.toNat, 63] [63]) (fun t => t.setS 63 (c.o.pc + 4)) (fun r => { r with pc := c.t.getS a.toNat }))) ∧
    (¬ goodTarget (c.t.getS a.toNat) → exec (.callr a) s = .next (s.scalarFault c fADDRRANGE (c.t.getS a.toNat).toNat false))))

/-! ### Mask registers, FMT, special registers, waits, signatures -/

namespace Sys2Proof.Claims

/-- Operations on mask registers: constructor, registers named besides d, value (R345). -/
def maskOps : List ((BitVec 4 → BitVec 4 → BitVec 4 → Instr) × (W32 → W32 → W32)) :=
  [(.kand, fun x y => x &&& y), (.kor, fun x y => x ||| y), (.kxor, fun x y => x ^^^ y), (.kandn, fun x y => x &&& ~~~ y)]
def maskUnary : List ((BitVec 4 → BitVec 4 → Instr) × (W32 → W32)) := [(.knot, fun x => ~~~ x), (.kmov, fun x => x)]
/-- Those that read EXM, the live lanes, or nothing: the value from EXM and DEADM. -/
def maskSources : List ((BitVec 4 → Instr) × (W32 → W32 → W32)) :=
  [(.kgetexm, fun e _ => e), (.klive, fun e d => e &&& ~~~ d), (.kclr, fun _ _ => 0), (.kones, fun _ _ => 0xFFFFFFFF)]
/-- Mask to scalar (R347). -/
def maskReads : List ((BitVec 6 → BitVec 4 → Instr) × (W32 → W64)) :=
  [(.ktos, fun k => k.setWidth 64), (.kpopc, fun k => BitVec.ofNat 64 (popcount k)), (.kffs, fun k => BitVec.ofNat 64 (ctz k))]

end Sys2Proof.Claims

open Sys2Proof.Claims

/-- R345-R347: the mask operations, the moves between mask and scalar registers, and KSETEXM, which never enables a lane outside PM or a dead lane. R257, R348, R349: a write of FMT sets the issuing portion's FMT, its reserved bits zero; a reserved format or rounding code faults ILLOP. -/
def Obligations.MaskAndFormatRegisters : Prop :=
  ((∀ op ∈ maskOps, ∀ (s : State) (c : Cur) (d a b : BitVec 4), s.ready c (kreq 0x22 [] [] [d.toNat, a.toNat, b.toNat] [d.toNat]) →
    exec (op.1 d a b) s = .next (s.leaves c (kreq 0x22 [] [] [d.toNat, a.toNat, b.toNat] [d.toNat]) (fun t => t.setK d.toNat (op.2 (c.t.getK a.toNat) (c.t.getK b.toNat))) keep)) ∧
  (∀ op ∈ maskUnary, ∀ (s : State) (c : Cur) (d a : BitVec 4), s.ready c (kreq 0x22 [] [] [d.toNat, a.toNat] [d.toNat]) →
    exec (op.1 d a) s = .next (s.leaves c (kreq 0x22 [] [] [d.toNat, a.toNat] [d.toNat]) (fun t => t.setK d.toNat (op.2 (c.t.getK a.toNat))) keep)) ∧
  (∀ op ∈ maskSources, ∀ (s : State) (c : Cur) (d : BitVec 4), s.ready c (kreq 0x22 [] [] [d.toNat] [d.toNat]) →
    exec (op.1 d) s = .next (s.leaves c (kreq 0x22 [] [] [d.toNat] [d.toNat]) (fun t => t.setK d.toNat (op.2 c.o.exm c.t.deadm)) keep)) ∧
  (∀ op ∈ maskReads, ∀ (s : State) (c : Cur) (d : BitVec 6) (a : BitVec 4), s.ready c (kreq 0x23 [d.toNat] [d.toNat] [a.toNat] []) →
    exec (op.1 d a) s = .next (s.leaves c (kreq 0x23 [d.toNat] [d.toNat] [a.toNat] []) (fun t => t.setS d.toNat (op.2 (c.t.getK a.toNat))) keep)) ∧
  (∀ (s : State) (c : Cur) (d : BitVec 4) (a : BitVec 6), s.ready c (kreq 0x23 [a.toNat] [] [d.toNat] [d.toNat]) →
    exec (.stok d a) s = .next (s.leaves c (kreq 0x23 [a.toNat] [] [d.toNat] [d.toNat]) (fun t => t.setK d.toNat ((c.t.getS a.toNat).setWidth 32)) keep)) ∧
  (∀ (s : State) (c : Cur) (a : BitVec 4), s.ready c { kreq 0x22 [] [] [a.toNat] [] with exm := true } →
    exec (.ksetexm a) s = .next (s.leaves c { kreq 0x22 [] [] [a.toNat] [] with exm := true } keep (fun o => { o with exm := c.t.getK a.toNat &&& c.o.pm &&& ~~~ c.t.deadm })))) ∧
  ((∀ (s : State) (c : Cur) (f : BitVec 18), s.ready c { sreq 0x24 [] [] with fmt := true } →
    (f.getLsbD 15 = false ∧ fmtOk (f.setWidth 64) = true →
      exec (.setfmt f) s = .next (s.leaves c { sreq 0x24 [] [] with fmt := true } keep (fun o => { o with fmt := f.setWidth 64 &&& 0x37FFF }))) ∧
    (¬ (f.getLsbD 15 = false ∧ fmtOk (f.setWidth 64) = true) → exec (.setfmt f) s = .next (s.scalarFault c fILLOP 0 false))) ∧
  (∀ (s : State) (c : Cur) (a : BitVec 6), s.ready c { sreq 0x25 [a.toNat] [] with fmt := true } →
    (fmtOk (c.t.getS a.toNat) = true →
      exec (.putfmt a) s = .next (s.leaves c { sreq 0x25 [a.toNat] [] with fmt := true } keep (fun o => { o with fmt := c.t.getS a.toNat &&& 0x37FFF }))) ∧
    (fmtOk (c.t.getS a.toNat) = false → exec (.putfmt a) s = .next (s.scalarFault c fILLOP 0 false))) ∧
  (∀ (s : State) (c : Cur) (d : BitVec 6), s.ready c (sreq 0x25 [d.toNat] [d.toNat]) →
    exec (.getfmt d) s = .next (s.leaves c (sreq 0x25 [d.toNat] [d.toNat]) (fun t => t.setS d.toNat c.o.fmt) keep)))

namespace Sys2Proof.Claims

/-- The needs of MFS (R350): SIG waits for the portion's clauses, XFLAGS for the train's lane instructions. -/
def mfsReq (c : Cur) (d : BitVec 6) (r : BitVec 8) : SReq :=
  { op := 0x26, sregs := [d.toNat], swrites := [d.toNat], clauses := decide (r = 0x09), stall := if r.toNat = 0x0A && c.t.lanesBusy then .waits else .no }
/-- The needs of MTS (R351): a write of EXM or FMT waits for a clause that uses it (R170), and a write of SIG is not folded. -/
def mtsReq (c : Cur) (d : BitVec 6) (r : BitVec 8) : SReq :=
  { op := 0x26, sregs := [d.toNat], exm := decide (r = 0x07), fmt := decide (r = 0x06), clauses := decide (r = 0x09), folds := decide (r ≠ 0x09)
    stall := if r.toNat = 0x0A && c.t.lanesBusy then .waits else .no }

/-- Special registers that an MTS leaves as they are (Table 17-6, access RO). -/
def readOnlySpecials : List Nat := [0x00, 0x01, 0x02, 0x03, 0x04, 0x05, 0x08, 0x0B, 0x0D, 0x0E, 0x0F, 0x10, 0x11]

end Sys2Proof.Claims

open Sys2Proof.Claims

/-- R350: MFS reads every special register of Table 17-6: ALW after the instruction's own charge, SIG before its own fold, and faults ILLOP for a number the table leaves out. R351: MTS writes FMT, EXM (within PM and the live lanes), SIG (unfolded), XFLAGS and LCB; a reserved FMT code, an LCB that is no multiple of 12 or not canonical, or an unassigned number faults ILLOP; a read-only register stays as it is. -/
def Obligations.SpecialRegisters : Prop :=
  (∀ (s : State) (c : Cur) (d : BitVec 6) (r : BitVec 8), s.ready c (mfsReq c d r) →
    (0x12 ≤ r.toNat → exec (.mfs d r) s = .next (s.scalarFault c fILLOP 0 false)) ∧
    (r.toNat < 0x12 → ∃ v, exec (.mfs d r) s = .next (s.leaves c (mfsReq c d r) (fun t => t.setS d.toNat v) keep) ∧
      (r = 0x00 → ∀ k, s.task c.t.task = some k → v = BitVec.ofNat 64 (k.gen * 65536 + c.t.task)) ∧
      (r = 0x01 → v = BitVec.ofNat 64 c.slot) ∧ (r = 0x02 → v = BitVec.ofNat 64 c.core) ∧
      (r = 0x03 → v = BitVec.ofNat 64 (c.core / 8)) ∧ (r = 0x04 → v = BitVec.ofNat 64 (c.core / 192)) ∧
      (r = 0x05 → ∀ k, Table.find (s.paid c (mfsReq c d r)) c.t.task = some k → v = BitVec.ofNat 64 k.alw) ∧
      (r = 0x06 → v = c.o.fmt) ∧ (r = 0x07 → v = c.o.exm.setWidth 64) ∧ (r = 0x08 → v = c.t.deadm.setWidth 64) ∧
      (r = 0x09 → v = c.o.sig.setWidth 64) ∧ (r = 0x0A → v = c.t.xflags.setWidth 64) ∧ (r = 0x0B → v = BitVec.ofNat 64 s.clock) ∧
      (r = 0x0C → v = c.t.lcb) ∧ (r = 0x0D → v = BitVec.ofNat 64 c.core) ∧ (r = 0x0E → v = BitVec.ofNat 64 (s.log c.core).tail) ∧
      (r = 0x0F → v = c.t.fltinfo) ∧ (r = 0x10 → v = c.t.fltmask.setWidth 64) ∧
      (r = 0x11 → v = BitVec.ofNat 64 ((s.scratch c.core c.t.task).ways * 32768)))) ∧
  (∀ (s : State) (c : Cur) (d : BitVec 6), (∀ (r : BitVec 8), s.ready c (mtsReq c d r) →
    (0x12 ≤ r.toNat → exec (.mts d r) s = .next (s.scalarFault c fILLOP 0 false)) ∧
    (r.toNat ∈ readOnlySpecials → exec (.mts d r) s = .next (s.leaves c (mtsReq c d r) keep keep)) ∧
    (r = 0x06 → (fmtOk (c.t.getS d.toNat) = true → exec (.mts d r) s = .next (s.leaves c (mtsReq c d r) keep (fun o => { o with fmt := c.t.getS d.toNat &&& 0x37FFF }))) ∧
      (fmtOk (c.t.getS d.toNat) = false → exec (.mts d r) s = .next (s.scalarFault c fILLOP 0 false))) ∧
    (r = 0x07 → exec (.mts d r) s = .next (s.leaves c (mtsReq c d r) keep (fun o => { o with exm := (c.t.getS d.toNat).setWidth 32 &&& c.o.pm &&& ~~~ c.t.deadm }))) ∧
    (r = 0x09 → exec (.mts d r) s = .next (s.leaves c (mtsReq c d r) keep (fun o => { o with sig := (c.t.getS d.toNat).setWidth 32 }))) ∧
    (r = 0x0A → exec (.mts d r) s = .next (s.leaves c (mtsReq c d r) (fun t => { t with xflags := (c.t.getS d.toNat).setWidth 32 &&& 0xF77F }) keep)) ∧
    (r = 0x0C → ((c.t.getS d.toNat).toNat % 12 = 0 ∧ canonical (c.t.getS d.toNat).toNat = true →
        exec (.mts d r) s = .next (s.leaves c (mtsReq c d r) (fun t => { t with lcb := c.t.getS d.toNat }) keep)) ∧
      (¬ ((c.t.getS d.toNat).toNat % 12 = 0 ∧ canonical (c.t.getS d.toNat).toNat = true) → exec (.mts d r) s = .next (s.scalarFault c fILLOP 0 false)))))

/-- R352, R353: WAITF goes on at once when the flags of its mask are clear and else leaves the stream waiting for them; NOP only advances the PC. R354, R355: SIGC, once the messages of its read have been answered, compares SIG with the pool word at LCB plus 4 times its index; a difference, or LINEAGE, traps SIGMIS; else, and for SIGR always, SIG becomes 0. R302, R304: UDF, a scalar word that names no instruction, and a lane word that names none, as the word of all ones, take the ILLOP exception at their PC, whether or not the task can pay: nothing is charged and nothing is folded. -/
def Obligations.WaitsSignaturesAndIllegalWords : Prop :=
  ((∀ (s : State) (c : Cur) (m : BitVec 12), s.ready c (sreq 0x27 [] []) →
    exec (.waitf m) s = .next (s.leaves c (sreq 0x27 [] []) keep
      (fun o => if (List.range 12).all (fun f => !m.getLsbD f || !c.t.flag f) then o else { o with wait := .flags m.toNat }))) ∧
  decodeTableWord 32 0xA4000000 = some .nop ∧
  (∀ (s : State) (c : Cur), s.ready c (sreq 0x29 [] []) → exec .nop s = .next (s.leaves c (sreq 0x29 [] []) keep keep))) ∧
  ((∀ (s : State) (c : Cur) (p : BitVec 16) (w : Nat), s.ready c (sigcReq s p c) →
    s.codeLost c.core (portionOwner c.core c.slot c.p) (c.pslot s) (c.t.lcb.toNat + 4 * p.toNat) = false → s.codeAt c.core (c.pslot s) (c.t.lcb.toNat + 4 * p.toNat) 4 = .ok w →
    ((c.o.sig.toNat = w ∧ c.t.lineage = false) → exec (.sigc p) s = .next (s.leaves c (sigcReq s p c) keep (fun o => { o with sig := 0 }))) ∧
    (¬ (c.o.sig.toNat = w ∧ c.t.lineage = false) → exec (.sigc p) s = .next (s.scalarFault c fSIGMIS 0 false))) ∧
  (∀ (s : State) (c : Cur), s.ready c sigReq → exec .sigr s = .next (s.leaves c sigReq keep (fun o => { o with sig := 0 })))) ∧
  (decodeTableWord 32 0xFFFFFFFF = some .udf ∧ decodeTableWord 96 (2 ^ 96 - 1) = none ∧
  (∀ (s : State) (c : Cur), s.cur = some c → s.scalarMay c = true →
    exec .udf s = .next (s.scalarFault c fILLOP 0 false) ∧
    (s.ev.yes = false → exec .illegalEncoding s = .next (s.scalarFault c fILLOP 0 false))) ∧
  (∀ (s : State) (x : LCtx), s.ev.yes = true → s.cur = some x.c → x.c.clause = some x.cl → x.act = live x.cl.exm x.c.t.deadm → s.laneMay x.c = true →
    exec .illegalEncoding s = .next (s.laneFault x fILLOP 0)))

/-! ### Clauses, division, loops, per-lane calls -/

namespace Sys2Proof.Claims

/-- The needs of CLS and CLSR: they wait while four clauses are queued (R169) and for results that the snapshot takes (log entry 14). -/
def clsReq (c : Cur) (op : Nat) (rs : List Nat) : SReq := { op := op, sregs := rs, stall := c.clsStall }
/-- The needs of a control instruction: it waits for the clauses of its portion (R326). -/
def ctlReq (op : Nat) (ks : List Nat) : SReq := { op := op, kregs := ks, clauses := true }
/-- The lanes a mask condition chooses among the live active lanes (R172, R173). -/
def condLanes (c : Cur) (k : BitVec 4) (i : BitVec 1) : W32 := (c.o.exm &&& ~~~ c.t.deadm) &&& (if i = 1 then ~~~ c.t.getK k.toNat else c.t.getK k.toNat)

end Sys2Proof.Claims

open Sys2Proof.Claims

/-- R169, R170, R342, R343: CLS and CLSR enqueue the clause behind those of the portion, with the scalar, buffer and mask registers, EXM, FMT and LCB as they stand, and with what its code uses of them; with four clauses queued both wait; CLSR faults ILLOP for an offset of more than 24 bits. -/
def Obligations.ClauseEnqueue : Prop :=
  (∀ (s : State) (c : Cur) (w : BitVec 24), s.ready c (clsReq c 0x20 []) →
    exec (.cls w) s = .next (s.leaves c (clsReq c 0x20 []) keep (fun o => { o with clauses := o.clauses ++
      [{ pc := c.o.pc, lcb := c.t.lcb, off := w.toNat, s := c.t.s, b := c.t.b, k := c.t.k, exm := c.o.exm, fmt := c.o.fmt, uses := s.clauseUses c.core (c.pslot s) c.t.lcb w.toNat }] }))) ∧
  (∀ (s : State) (c : Cur) (a : BitVec 6), s.ready c (clsReq c 0x21 [a.toNat]) →
    ((c.t.getS a.toNat).toNat < 2 ^ 24 → exec (.clsr a) s = .next (s.leaves c (clsReq c 0x21 [a.toNat]) keep (fun o => { o with clauses := o.clauses ++
      [{ pc := c.o.pc, lcb := c.t.lcb, off := (c.t.getS a.toNat).toNat, s := c.t.s, b := c.t.b, k := c.t.k, exm := c.o.exm, fmt := c.o.fmt,
         uses := s.clauseUses c.core (c.pslot s) c.t.lcb (c.t.getS a.toNat).toNat }] }))) ∧
    (2 ^ 24 ≤ (c.t.getS a.toNat).toNat → exec (.clsr a) s = .next (s.scalarFault c fILLOP 0 false))) ∧
  (∀ (s : State) (c : Cur), s.cur = some c → 4 ≤ c.o.clauses.length → (∀ w : BitVec 24, exec (.cls w) s = .next s) ∧ (∀ a : BitVec 6, exec (.clsr a) s = .next s))

/-- R172, R173, R335, R337: DIVG divides the train by `Train.divide`, DIVG.loop pushes a loop entry with the loop's exit, EXM and PM taking the live lanes, and both fault ILLOP at the seventeenth entry; BRKL breaks the chosen lanes out of the nearest loop by `Train.breakLanes`. R172, R346: a division that some live lanes take and some do not, with a portion free, makes two paths: the rest go on at the next word in their portion, the takers at the target in the free one, each with PM equal to its EXM; both hold the new entry, which records the lanes, FMT and SIG at the division. -/
def Obligations.DivisionAndLoops : Prop :=
  ((∀ (s : State) (c : Cur) (k : BitVec 4) (i : BitVec 1) (o : BitVec 20), s.ready c { ctlReq 0x1D [k.toNat] with exm := true } →
    (c.o.stack.length < 16 → exec (.divg k i o) s = .next (s.leaves c { ctlReq 0x1D [k.toNat] with exm := true }
      (fun t => t.divide c.p (condLanes c k i) (c.o.pc + 4 * o.signExtend 64)) keep)) ∧
    (16 ≤ c.o.stack.length → exec (.divg k i o) s = .next (s.scalarFault c fILLOP 0 false))) ∧
  (∀ (s : State) (c : Cur) (o : BitVec 20), s.ready c { ctlReq 0x1D [] with exm := true } →
    (16 ≤ c.o.stack.length → exec (.divgLoop o) s = .next (s.scalarFault c fILLOP 0 false)) ∧
    (c.o.stack.length < 16 → ∃ t tr o' e, exec (.divgLoop o) s = .next t ∧ t.train c.core c.slot = some tr ∧ tr.portion c.p = some o' ∧
      o'.pc = c.o.pc + 4 ∧ o'.exm = c.o.exm &&& ~~~ c.t.deadm ∧ o'.pm = o'.exm ∧ o'.stack = c.t.nextEntry :: c.o.stack ∧ Table.find tr.entries c.t.nextEntry = some e ∧
      e.kind = .loop ∧ e.m = c.o.exm &&& ~~~ c.t.deadm ∧ e.fmt = c.o.fmt ∧ e.sig = (c.moved { ctlReq 0x1D [] with exm := true }).sig ∧ e.exit = c.o.pc + 4 * o.signExtend 64 ∧
      e.broken = 0 ∧ e.arrived = 0 ∧ e.owner = c.p ∧ e.members = [c.p])) ∧
  (∀ (s : State) (c : Cur) (k : BitVec 4) (i : BitVec 1), s.ready c { op := 0x1F, kregs := [k.toNat], exm := true } →
    exec (.brkl k i) s = .next (s.leaves c { op := 0x1F, kregs := [k.toNat], exm := true } (fun t => t.breakLanes c.p (condLanes c k i)) keep))) ∧
  (∀ (t : Train) (p q : Nat) (o : Portion) (taken : W32) (target : W64),
    t.portion p = some o → t.freePortion = some q → taken &&& (o.exm &&& ~~~ t.deadm) = taken → taken ≠ 0 → (o.exm &&& ~~~ t.deadm) &&& ~~~ taken ≠ 0 →
    ∃ o1 o2 e, (t.divide p taken target).portion p = some o1 ∧ (t.divide p taken target).portion q = some o2 ∧
      Table.find (t.divide p taken target).entries t.nextEntry = some e ∧
      o1 = { o with exm := (o.exm &&& ~~~ t.deadm) &&& ~~~ taken, pm := (o.exm &&& ~~~ t.deadm) &&& ~~~ taken, stack := t.nextEntry :: o.stack } ∧
      o2.pc = target ∧ o2.exm = taken ∧ o2.pm = taken ∧ o2.fmt = o.fmt ∧ o2.sig = o.sig ∧ o2.stack = t.nextEntry :: o.stack ∧ o2.clauses = [] ∧
      e.kind = .divg ∧ e.m = (o.exm &&& ~~~ t.deadm) ∧ e.fmt = o.fmt ∧ e.sig = o.sig ∧ e.owner = p ∧ e.members = [p, q] ∧ e.deferred = [] ∧
      o1.exm ||| o2.exm = (o.exm &&& ~~~ t.deadm) ∧ o1.exm &&& o2.exm = 0)

namespace Sys2Proof.Claims

/-- The needs of CALLV (R339): the clauses before it, the lane registers that hold its targets, and the answers of the homes of their entry words (R24). -/
def callvReq (s : State) (c : Cur) (v : BitVec 8) : SReq :=
  { op := 0x1C, clauses := true, boundary := c.t.handler.isSome && decide (15 ≤ v.toNat), stall := callStall s v.toNat c }

/-- The targets of a CALLV as its live lanes name them (R339). -/
def callTargets (c : Cur) (v : BitVec 8) : List Nat := c.targets v.toNat

end Sys2Proof.Claims

open Sys2Proof.Claims

/-- R174, R176: when the last path of an entry arrives at its junction, the paths couple: the dividing portion goes on after the junction, or at a CALLV entry's junction itself, with the arrived and broken lanes, FMT as at the division, and SIG folded with 0x5A when every lane of the division is back and no path arrived elsewhere, else with 0xA5 and LINEAGE set. R174, R339, R340: JUNC arrives at its own address, RET S0 at the junction of the CALLV entry on top (ILLOP when there is none); CALLV whose targets all pass their checks divides the train by target, ILLOP for an odd register, a register out of budget or a full stack, and takes the fault of lowest code of its targets otherwise. -/
def Obligations.JunctionsAndCallv : Prop :=
  (∀ (t : Train) (p id : Nat) (o : Portion) (e : REntry) (pc : W64) (ids : List Nat),
    t.portion p = some o → o.stack = id :: ids → Table.find t.entries id = some e → e.deferred = [] → e.members = [p] → e.owner = p →
    Table.sorted t.entries = true →
    ∃ o', (t.arrive p pc).portion p = some o' ∧ Table.find (t.arrive p pc).entries id = none ∧
      o'.pc = (if e.kind = .callv then e.junc.getD pc else e.junc.getD pc + 4) ∧ o'.exm = ((e.arrived ||| o.exm) ||| e.broken) &&& ~~~ t.deadm ∧ o'.pm = o'.exm ∧ o'.fmt = e.fmt ∧ o'.stack = ids ∧
      (((e.arrived ||| o.exm ||| e.broken) &&& ~~~ t.deadm = e.m &&& ~~~ t.deadm &&& ~~~ e.x ∧ e.wrong = false ∧ e.junc.getD pc = pc) →
        o'.sig = sigFold e.sig 0x5A ∧ (t.arrive p pc).lineage = t.lineage) ∧
      (¬ ((e.arrived ||| o.exm ||| e.broken) &&& ~~~ t.deadm = e.m &&& ~~~ t.deadm &&& ~~~ e.x ∧ e.wrong = false ∧ e.junc.getD pc = pc) →
        o'.sig = sigFold e.sig 0xA5 ∧ (t.arrive p pc).lineage = true)) ∧
  ((∀ (s : State) (c : Cur), s.ready c (ctlReq 0x1E []) → exec .junc s = .next (s.leaves c (ctlReq 0x1E []) (fun t => t.arrive c.p c.o.pc) keep)) ∧
  (∀ (s : State) (c : Cur), s.ready c (ctlReq 0x1C []) →
    (∀ e j, c.top = some e → e.kind = .callv → e.junc = some j → exec .retS0 s = .next (s.leaves c (ctlReq 0x1C []) (fun t => t.arrive c.p j) keep)) ∧
    (c.top = none → exec .retS0 s = .next (s.scalarFault c fILLOP 0 false)) ∧
    (∀ e, c.top = some e → e.kind ≠ .callv → exec .retS0 s = .next (s.scalarFault c fILLOP 0 false))) ∧
  (∀ (s : State) (c : Cur) (v : BitVec 8), s.ready c (callvReq s c v) →
    (v.toNat % 2 = 1 ∨ 32 + 16 * c.t.budget ≤ v.toNat + 1 ∨ (16 ≤ c.o.stack.length ∧ c.o.exm &&& ~~~ c.t.deadm ≠ 0) → exec (.callv v) s = .next (s.scalarFault c fILLOP 0 false)) ∧
    (v.toNat % 2 = 0 → v.toNat + 1 < 32 + 16 * c.t.budget → (c.o.stack.length < 16 ∨ c.o.exm &&& ~~~ c.t.deadm = 0) →
      ((∀ x ∈ callTargets c v, s.targetFault c x = none) → exec (.callv v) s = .next (s.leaves c (callvReq s c v) (fun t => t.callPaths c v.toNat (callTargets c v)) keep)) ∧
      (∀ x f, x ∈ callTargets c v → s.targetFault c x = some f → ∃ g y, y ∈ callTargets c v ∧ s.targetFault c y = some g ∧ g.1 ≤ f.1 ∧
        exec (.callv v) s = .next (s.scalarFault c g.1 g.2 false)))))

/-! ### Faults and exceptions -/

/-- R161: entry of the supervisor handler: S1 holds FLTINFO of the lowest faulting lane, S2 the mask of the lanes, V0-V2 of each such lane its address in two halves and its code, EXM and PM the mask; LCB and the PC come from SVHLCB and SVHPC; the bank keeps what R162 restores, V0-V15 of every lane and what the portion's streams waited for among it; DEADM, V0-V2 of the other lanes, every other register, every other portion, every other train and memory stay. -/
def Obligations.HandlerEntry : Prop :=
  ∀ (s : State) (core slot p : Nat) (t : Train) (o : Portion) (fs : List LaneFault),
    s.train core slot = some t → t.portion p = some o → Table.sorted t.s = true → Table.sorted t.v = true → fs ≠ [] →
    (∀ f ∈ fs, f.lane < 32 ∧ f.code < 128 ∧ f.va < 2 ^ 57) → (fs.map LaneFault.lane).Nodup →
    Table.sorted t.portions = true → ∃ t' o' h, (s.enterHandler (trainKey core slot) p fs).train core slot = some t' ∧ t'.portion p = some o' ∧ t'.handler = some h ∧
      t'.getS 2 = (maskOf (fs.map LaneFault.lane)).setWidth 64 ∧ t'.fltmask = maskOf (fs.map LaneFault.lane) ∧
      (∀ f ∈ fs, (∀ g ∈ fs, f.lane ≤ g.lane) → t'.getS 1 = BitVec.ofNat 64 (f.code * 2 ^ 57 + f.va) ∧ t'.fltinfo = BitVec.ofNat 64 (f.code * 2 ^ 57 + f.va)) ∧
      (∀ f ∈ fs, t'.getV 0 f.lane = BitVec.ofNat 32 f.va ∧ t'.getV 1 f.lane = BitVec.ofNat 32 (f.va / 2 ^ 32) ∧ t'.getV 2 f.lane = BitVec.ofNat 32 f.code) ∧
      o'.exm = maskOf (fs.map LaneFault.lane) ∧ o'.pm = o'.exm ∧ o'.clauses = [] ∧ o'.wait = .none ∧
      o'.pc = (s.slotReg (s.slotOfTask t.task) 0x398) &&& 0x1FFFFFFFFFFFFFC ∧ t'.lcb = s.slotReg (s.slotOfTask t.task) 0x3A0 ∧
      h.portion = p ∧ h.pc = o.pc ∧ h.exm = o.exm ∧ h.fmt = o.fmt ∧ h.sig = o.sig ∧ h.lcb = t.lcb ∧ h.lineage = t.lineage ∧ h.xflags = t.xflags ∧ h.clauses = o.clauses ∧
      h.k0 = t.getK 0 ∧ h.k1 = t.getK 1 ∧ h.s = (List.range 8).map (fun i => t.getS (i + 1)) ∧
      (∀ r l, r < 16 → l < 32 → Sparse.get 0 h.v (32 * r + l) = t.getV r l) ∧ h.wait = o.wait ∧ h.lwait = o.lwait ∧ h.stack = o.stack ∧ h.entries = t.entries ∧
      t'.deadm = t.deadm ∧ t'.k = t.k ∧ t'.b = t.b ∧ t'.xflags = t.xflags ∧ t'.lineage = t.lineage ∧ (∀ n, 2 < n → t'.getS n = t.getS n) ∧
      (∀ r l, l < 32 → (2 < r ∨ l ∉ fs.map LaneFault.lane) → t'.getV r l = t.getV r l) ∧ (∀ q, q ≠ p → t'.portion q = t.portion q) ∧
      (∀ key, key ≠ trainKey core slot → Table.find (s.enterHandler (trainKey core slot) p fs).trains key = Table.find s.trains key) ∧
      (s.enterHandler (trainKey core slot) p fs).mem = s.mem ∧ (s.enterHandler (trainKey core slot) p fs).tasks = s.tasks

namespace Sys2Proof.Claims

/-- The needs of MAPPG, when it does not wait for its page-table entry or its frame, and of IVPG (R446, R447). -/
def mappgNeeds (d a b : BitVec 6) : SReq := { op := 0x33, clauses := true, sregs := [d.toNat, a.toNat, b.toNat], swrites := [d.toNat] }
def ivpgNeeds (a b : BitVec 6) : SReq := { op := 0x33, clauses := true, sregs := [a.toNat, b.toNat] }

/-- A train that has left the handler `h` of the focus `c` (R162, R346). -/
def restored (c : Cur) (h : Handler) (t : Train) : Prop :=
  ∃ o, t.portion c.p = some o ∧ t.handler = none ∧
    (∀ n, 1 ≤ n → n ≤ 8 → t.getS n = h.s[n - 1]?.getD 0) ∧ (∀ n, 8 < n → t.getS n = c.t.getS n) ∧ t.getK 0 = h.k0 ∧ t.getK 1 = h.k1 ∧ (∀ n, 1 < n → t.getK n = c.t.getK n) ∧
    (∀ r l, r < 16 → l < 32 → t.getV r l = Sparse.get 0 h.v (32 * r + l)) ∧ (∀ r l, 16 ≤ r → t.getV r l = c.t.getV r l) ∧
    t.lineage = h.lineage ∧ t.xflags = h.xflags ∧ t.lcb = h.lcb ∧ t.deadm = c.t.deadm ∧ t.b = c.t.b ∧
    o.pc = h.pc ∧ o.exm = h.exm ∧ o.pm = h.exm ∧ o.fmt = h.fmt ∧ o.sig = h.sig ∧ o.clauses = h.clauses ∧ o.wait = h.wait

end Sys2Proof.Claims

open Sys2Proof.Claims

/-- R161, R447: outside the handler RFLT, HALT, MAPPG and IVPG fault ILLOP. R162: in the handler, RFLT and HALT restore the bank: S1-S8, K0, K1, V0-V15, EXM, PM, FMT, SIG, LINEAGE, XFLAGS, LCB, the PC and the clauses are as they were at entry, and DEADM, the other registers, memory and the charges stay. RFLT, once a replayed store finds room in the log (R235), replays the lanes of the handler's EXM, those and no others, and lanes that were routed to the host wait for it (R160): with no lane of its own the train waits for the host, its fault record naming those lanes; with no lane of either kind it goes on where the fault occurred. HALT leaves the lanes of the handler's EXM with those routed to the host: the train waits for the host, its fault record naming the lowest of them, or goes on when there is none. -/
def Obligations.HandlerReturn : Prop :=
  (∀ (s : State) (c : Cur), c.t.handler = none →
    (s.ready c (rfltReq s c) → exec .rflt s = .next (s.scalarFault c fILLOP 0 false)) ∧
    (s.ready c (leaveReq c) → exec .halt s = .next (s.scalarFault c fILLOP 0 false)) ∧
    (∀ d a b : BitVec 6, s.ready c (mappgNeeds d a b) → exec (.mappg d a b) s = .next (s.scalarFault c fILLOP 0 false)) ∧
    (∀ a b : BitVec 6, s.ready c (ivpgNeeds a b) → exec (.ivpg a b) s = .next (s.scalarFault c fILLOP 0 false))) ∧
  (∀ (s : State) (c : Cur) (h : Handler) (f : FaultCtx), s.ready c (leaveReq c) → (rfltReq s c).stall = .no → c.t.handler = some h → h.portion = c.p → h.s.length = 8 → h.v.all (fun e => decide (e.1 < 512)) = true →
    Table.sorted c.t.s = true → Table.sorted c.t.k = true → c.t.fault = some f →
    (∀ mine hosted, mine = (f.routed .handler).filter (fun x => c.o.exm.getLsbD x.lane) → hosted = f.routed .host →
      (mine = [] → hosted = [] → ∃ t t', exec .rflt s = .next t ∧ t.train c.core c.slot = some t' ∧ restored c h t' ∧ t'.fault = none ∧ t.mem = s.mem ∧ t.tasks = s.tasks) ∧
      (mine = [] → hosted ≠ [] → ∃ t t' g, exec .rflt s = .next t ∧ t.train c.core c.slot = some t' ∧ restored c h t' ∧ t'.fault = some g ∧ g.lanes = hosted ∧ t'.fltmask = faultMask hosted ∧
        t'.call = some { imm := 0xFF00 + (lowestLane hosted).code, fault := true } ∧ t.mem = s.mem ∧ t.tasks = s.tasks) ∧
      (∀ x, f.access = some x → mine ≠ [] → exec .rflt s =
        .next (((s.leaves c (rfltReq s c) (fun t => { t.leaveHandler with fault := none }) keep).access c.core c.slot c.p (x.only (faultMask mine)) []).hostLanes
          (trainKey c.core c.slot) f hosted)) ∧
      (∃ t t', exec .halt s = .next t ∧ t.train c.core c.slot = some t' ∧ restored c h t' ∧ t.mem = s.mem ∧ t.tasks = s.tasks ∧
        (mine ++ hosted = [] → t'.fault = none ∧ t'.call = none) ∧
        (mine ++ hosted ≠ [] → t'.fltmask = faultMask (mine ++ hosted) ∧ t'.call = some { imm := 0xFF00 + (lowestLane (mine ++ hosted)).code, fault := true } ∧
          ∃ g, t'.fault = some g ∧ g.lanes = mine ++ hosted))))

/-- R88 (log entry 12: read by inference): SIGMIS rewinds the train to its flashback point while its task's retry count is below the limit, and counts one more retry; otherwise the task unwinds with status SIGFAIL. R83, R85 (that an error strikes is a turn of the agenda, log entry 61): lanes whose register operand fails its check as the train's next lane instruction reads it die before that instruction acts, an inactive lane only where a shuffle, PKSX or UPSX reads its register, and nothing else of the train changes; a scratchpad word that fails its check reads as bad, its bytes unchanged; a turn of an error is the error followed by the end of the cycle. R153, R346: a rewound train has the registers of its flashback store, those outside the live set 0, one portion at the recorded PC with EXM, FMT and SIG as recorded and PM all ones, no outstanding operation and no reconvergence entry; DEADM and the charges stay. -/
def Obligations.IntegrityAndRewind : Prop :=
  (∀ (s : State) (core slot p : Nat) (pc : W64) (t : Train) (k : Task), s.train core slot = some t → t.handler = none → s.task t.task = some k →
    (k.retryC < k.retryN →
      ∃ s' k' t', s.takeFault core slot p { lanes := [{ lane := 0, code := fSIGMIS, va := 0 }], pc := pc } = s' ∧ s'.task t.task = some k' ∧ k'.retryC = k.retryC + 1 ∧
        k'.alw = k.alw ∧ k'.spent = k.spent ∧ s'.train core slot = some t' ∧ t' = { t with fltinfo := fltInfo fSIGMIS 0, fltmask := 0 }.reloaded t.flash) ∧
    (k.retryN ≤ k.retryC → k.held = true → k.closing = false → k.state ≠ .done → k.state ≠ .unwinding →
      ∃ k', (s.takeFault core slot p { lanes := [{ lane := 0, code := fSIGMIS, va := 0 }], pc := pc }).task t.task = some k' ∧ k'.state = .unwinding ∧ k'.status = 3)) ∧
  ((∀ (s u : State) (f : Focus) (lanes hit : W32) (c : Cur) (cl : Clause) (i : Instr), u = { s with focus := f, ev := {} } → u.cur = some c → c.clause = some cl → u.laneMay c = true →
    c.o.lwait = .none → u.laneNext c cl = some i → hit = lanes &&& (if readsAcross i then 0xFFFFFFFF else cl.exm) &&& ~~~ c.t.deadm → hit ≠ 0 →
    (s.upset (.laneOperand f lanes)).train c.core c.slot = some { c.t with deadm := c.t.deadm ||| hit }) ∧
  (∀ (s : State) (core task off : Nat), off < (s.scratch core task).size →
    ((s.upset (.scratch core task off)).scratch core task).isBad off 1 = true ∧ ((s.upset (.scratch core task off)).scratch core task).bytes = (s.scratch core task).bytes) ∧
  (∀ (s : State) (u : Upset) (ts : List Turn), s.agenda = .upset u :: ts → step s = after (.next ({ s with agenda := ts }.upset u)))) ∧
  (∀ (t : Train) (f : Flash), (∀ e ∈ f.sregs, 1 ≤ e.1 ∧ e.1 < 64) → (f.sregs.map Prod.fst).Nodup →
    ∃ o, (t.reloaded f).portions = [(0, o)] ∧ o.pc = f.pc ∧ o.exm = f.exm ∧ o.fmt = f.fmt ∧ o.sig = f.sig ∧ o.pm = 0xFFFFFFFF ∧ o.stack = [] ∧ o.wait = .none ∧
      o.clauses.length = (if f.recipe.isSome then 1 else 0) ∧
      (∀ e ∈ f.sregs, (t.reloaded f).getS e.1 = e.2) ∧ (∀ n, n ∉ f.sregs.map Prod.fst → (t.reloaded f).getS n = 0) ∧
      (t.reloaded f).k = f.k ∧ (t.reloaded f).b = f.b ∧ (t.reloaded f).lcb = f.lcb ∧ (t.reloaded f).lineage = f.lineage ∧ (t.reloaded f).xflags = f.xflags ∧
      (t.reloaded f).deadm = t.deadm ∧ (t.reloaded f).pend = [] ∧ (t.reloaded f).entries = [] ∧ (t.reloaded f).boundary = false ∧ (t.reloaded f).bounds = 0 ∧ (t.reloaded f).task = t.task)

namespace Sys2Proof.Claims

/-- The state in which a train's FLTINFO and FLTMASK report a fault (R158). -/
def reported (s : State) (core slot : Nat) (t : Train) (code va : Nat) (mask : W32) : State :=
  { s with trains := Table.put s.trains (trainKey core slot) { t with fltinfo := fltInfo code va, fltmask := mask } }

end Sys2Proof.Claims

open Sys2Proof.Claims

/-- R303, R116: an instruction that may issue, is well formed and costs more than its task has left traps EXHAUST before anything of it happens: here NOP and SADD. R158, R159: a fault whose route is Unwind, in a train with no handler running, unwinds its task with status FAULT and the fault's code; the task is UNWINDING afterwards. R161: a fault while the handler runs raises DOUBLEFLT: the task unwinds with status FAULT and that code. R443, R164: TRAP parks the train with a system call of its immediate in progress and charges 16 au. -/
def Obligations.FaultRoutes : Prop :=
  (∀ (s : State) (c : Cur) (k : Task), s.cur = some c → s.scalarMay c = true → s.task c.t.task = some k → k.alw = 0 → c.t.handler = none → c.o.again = .no →
    exec .nop s = .next (s.scalarFault c fEXHAUST 0 false) ∧
    (∀ d a b : BitVec 6, c.t.pend = [] → c.o.clauses = [] → exec (.sadd d a b) s = .next (s.scalarFault c fEXHAUST 0 false)) ∧
    (k.park = true → k.signalVa = 0 → s.scalarFault c fEXHAUST 0 false = (reported s c.core c.slot c.t fEXHAUST 0 0).setTask c.t.task { k with state := .starved, expiry := s.clock + k.parkNs }) ∧
    (k.park = false → s.scalarFault c fEXHAUST 0 false = (reported s c.core c.slot c.t fEXHAUST 0 0).unwind c.t.task 2 0)) ∧
  (∀ (s : State) (core slot p code va : Nat) (t : Train) (k : Task) (pc : W64),
    s.train core slot = some t → t.handler = none → s.task t.task = some k → k.held = true → k.closing = false → k.state ≠ .done → k.state ≠ .unwinding →
    (code = fILLOP ∨ code = fADDRRANGE ∨ code = fROUTE ∨ code = fREGBUDGET ∨ code = fOOB) →
    ∃ k', (s.takeFault core slot p { lanes := [{ lane := 0, code := code, va := va }], pc := pc }).task t.task = some k' ∧
      k'.state = .unwinding ∧ k'.status = 4 ∧ k'.faultCode = code ∧ k'.live = 0) ∧
  (∀ (s : State) (core slot p : Nat) (f : Trouble) (t : Train), s.train core slot = some t → t.handler.isSome = true →
    (∀ x ∈ f.lanes, x.code ≠ fOWNERSHIP ∧ x.code ≠ fLINKERR ∧ x.code ≠ fLINKTIMEOUT) →
    s.takeFault core slot p f = (reported s core slot t (lowestLane f.lanes).code (lowestLane f.lanes).va (if f.scalar then 0 else faultMask f.lanes)).unwind t.task 4 fDOUBLEFLT) ∧
  (∀ (s : State) (c : Cur) (i : BitVec 16), s.ready c { op := 0x31, cost := 16, clauses := true, boundary := true } →
    ((Instr.trap i).wf = true → exec (.trap i) s = .next (s.leaves c { op := 0x31, cost := 16, clauses := true, boundary := true }
      (fun t => { t with call := some { imm := i.toNat, fault := false } }) keep)) ∧
    ((Instr.trap i).wf = false → exec (.trap i) s = .next (s.scalarFault c fILLOP 0 false)))

/-! ### Buffer records and scalar accesses -/

namespace Sys2Proof.Claims

/-- The record-building forms of R405 that take S(a): constructor, the values of S(a) that are valid, the record they give. -/
def recordOps : List ((BitVec 4 → BitVec 6 → BitVec 4 → Instr) × (W64 → Bool) × (BitVec 256 → W64 → BitVec 256)) :=
  [(.brbase, fun x => decide (x.toNat < 2 ^ 63), fun r x => setField r 0 64 x.toNat),
   (.broff, fun _ => true, fun r x => setField r 0 57 (rBase r + x.toNat)),
   (.brext, fun x => decide (x.toNat < 2 ^ 32), fun r x => setField r 96 32 x.toNat),
   (.brstr, fun x => decide (x = (x.setWidth 32).signExtend 64), fun r x => setField r 64 32 x.toNat),
   (.brswz, fun x => decide (x.toNat < 2 ^ 9), fun r x => setField r 128 9 x.toNat),
   (.brflg, fun x => decide (x.toNat < 2 ^ 16) && decide (x.toNat / 8 % 32 = 0), fun r x => setField (setField r 137 3 x.toNat) 192 8 (x.toNat / 256))]

/-- The needs of a record-building form. -/
def recReq (d b : BitVec 4) (a : Nat) : SReq := { op := 0x17, sregs := [a], bregs := [d.toNat, b.toNat], bwrites := [d.toNat] }

/-- A scalar access through record B(b) (R401, R406): its needs with g, the access, and the faults of forming its address. -/
def accReq (s : State) (c : Cur) (q : SReq) (x : Acc) : SReq := { q with cost := q.cost + scalarG x.elems, memory := true, stall := s.memStall c x }

/-- What a scalar load of 2^z bytes at index `i` performs. -/
def loadAcc (s : State) (c : Cur) (op : AccOp) (d : BitVec 6) (b : BitVec 4) (z : BitVec 2) (i : Int) : Acc :=
  { op := op, scalar := true, brec := c.t.getB b.toNat, dest := .scalar d.toNat, size := 2 ^ z.toNat, width := 1
    elems := (s.formScalar c (c.t.getB b.toNat) (rE (c.t.getB b.toNat)) (2 ^ z.toNat) i).1 }
/-- What a scalar store of 2^z bytes of S(d) at index `i` performs. -/
def storeAcc (s : State) (c : Cur) (d : BitVec 6) (b : BitVec 4) (z : BitVec 2) (i : Int) : Acc :=
  { op := .store, scalar := true, brec := c.t.getB b.toNat, dest := .nowhere, size := 2 ^ z.toNat, width := 1
    elems := (s.formScalar c (c.t.getB b.toNat) (rE (c.t.getB b.toNat)) (2 ^ z.toNat) i).1.map (fun e => { e with val := (c.t.getS d.toNat).toNat % 2 ^ (8 * 2 ^ z.toNat) }) }
/-- The needs of those with opcode `op`, reading the registers `rs` beside S(d), which a load writes: an access through an IO window is a boundary instruction (R152). -/
def plainReq (c : Cur) (op : Nat) (d : BitVec 6) (b : BitVec 4) (rs : List Nat) (load : Bool) : SReq :=
  { op := op, sregs := d.toNat :: rs, swrites := if load then [d.toNat] else [], bregs := [b.toNat], boundary := decide (rKind (c.t.getB b.toNat) = 3) }
/-- A record that a scalar access of 2^z bytes may use (R185, R406). -/
def usable (c : Cur) (b : BitVec 4) (z : BitVec 2) (kind : BitVec 256 → Bool) : Prop :=
  recOk (c.t.getB b.toNat) = true ∧ kind (c.t.getB b.toNat) = true ∧ 2 ^ z.toNat ≤ rE (c.t.getB b.toNat)

/-- The scalar loads and stores with their opcode, the registers read for the index, and the index. -/
inductive ScalarAccess where
  | sld (i : BitVec 14)
  | sldh (i : BitVec 14)
  | sldx (a : BitVec 6) (i : BitVec 8)
  | sst (i : BitVec 14)
  | sstx (a : BitVec 6) (i : BitVec 8)

/-- The instruction of a form. -/
def ScalarAccess.instr (d : BitVec 6) (b : BitVec 4) (z : BitVec 2) : ScalarAccess → Instr
  | .sld i => .sld d b z i
  | .sldh i => .sldh d b z i
  | .sldx a i => .sldx d b z a i
  | .sst i => .sst d b z i
  | .sstx a i => .sstx d b z a i
/-- Its opcode (Table 21-1). -/
def ScalarAccess.op : ScalarAccess → Nat
  | .sld _ => 0x10
  | .sldx _ _ => 0x11
  | .sst _ => 0x12
  | .sstx _ _ => 0x13
  | .sldh _ => 0x14
/-- The registers its index reads. -/
def ScalarAccess.reads : ScalarAccess → List Nat
  | .sldx a _ => [a.toNat]
  | .sstx a _ => [a.toNat]
  | _ => []
/-- Its element index (R406). -/
def ScalarAccess.index (c : Cur) : ScalarAccess → Int
  | .sld i => i.toInt
  | .sldh i => i.toInt
  | .sst i => i.toInt
  | .sldx a i => (c.t.getS a.toNat + i.signExtend 64).toInt
  | .sstx a i => (c.t.getS a.toNat + i.signExtend 64).toInt
/-- The access it performs. -/
def ScalarAccess.acc (s : State) (c : Cur) (d : BitVec 6) (b : BitVec 4) (z : BitVec 2) (f : ScalarAccess) : Acc := match f with
  | .sld _ => loadAcc s c .load d b z (f.index c)
  | .sldx _ _ => loadAcc s c .load d b z (f.index c)
  | .sldh _ => loadAcc s c .loadHome d b z (f.index c)
  | .sst _ => storeAcc s c d b z (f.index c)
  | .sstx _ _ => storeAcc s c d b z (f.index c)
/-- The kinds of record it takes (R185). -/
def ScalarAccess.kinds : ScalarAccess → BitVec 256 → Bool
  | .sldh _ => fun r => rKind r = 0 || rKind r = 2 || rKind r = 4
  | _ => fun _ => true
/-- Whether it loads. -/
def ScalarAccess.loads : ScalarAccess → Bool
  | .sst _ => false
  | .sstx _ _ => false
  | _ => true
/-- The needs of BRLD (R404). -/
def brldNeeds (d b : BitVec 4) : SReq := { op := 0x16, bregs := [d.toNat, b.toNat], bwrites := [d.toNat] }
/-- Its needs. -/
def ScalarAccess.req (s : State) (c : Cur) (d : BitVec 6) (b : BitVec 4) (z : BitVec 2) (f : ScalarAccess) : SReq :=
  accReq s c (plainReq c f.op d b f.reads f.loads) (f.acc s c d b z)

end Sys2Proof.Claims

open Sys2Proof.Claims

/-- R405: each record-building form writes to Bd the record in Bs with its own fields replaced from S(a), and faults ILLOP for a value of S(a) it does not take; BRCPY copies. R184, R405: a field written in a record reads back, and every bit outside it stays as it was. -/
def Obligations.RecordBuilding : Prop :=
  ((∀ op ∈ recordOps, ∀ (s : State) (c : Cur) (d : BitVec 4) (a : BitVec 6) (b : BitVec 4), s.ready c (recReq d b a.toNat) →
    (op.2.1 (c.t.getS a.toNat) = true → exec (op.1 d a b) s = .next (s.leaves c (recReq d b a.toNat) (fun t => t.setB d.toNat (op.2.2 (c.t.getB b.toNat) (c.t.getS a.toNat))) keep)) ∧
    (op.2.1 (c.t.getS a.toNat) = false → exec (op.1 d a b) s = .next (s.scalarFault c fILLOP 0 false))) ∧
  (∀ (s : State) (c : Cur) (d b : BitVec 4), s.ready c (recReq d b 0) →
    exec (.brcpy d b) s = .next (s.leaves c (recReq d b 0) (fun t => t.setB d.toNat (c.t.getB b.toNat)) keep))) ∧
  (∀ (r : BitVec 256) (lo n v : Nat), lo + n ≤ 256 →
    rfield (setField r lo n v) lo n = v % 2 ^ n ∧ (∀ i, i < lo ∨ lo + n ≤ i → (setField r lo n v).getLsbD i = r.getLsbD i))

/-- R401, R404, R406: SLD, SLDX, SLDH, SST, SSTX and BRLD, when their record allows the access, are charged 1 au and g, and perform it on the element that R186 and R187 form; a record that does not, for BRLD one of a kind above 2 too, faults ILLOP. -/
def Obligations.ScalarAccesses : Prop :=
  (∀ (f : ScalarAccess) (s : State) (c : Cur) (d : BitVec 6) (b : BitVec 4) (z : BitVec 2), s.ready c (f.req s c d b z) →
    (usable c b z f.kinds → exec (f.instr d b z) s = .next ((s.leaves c (f.req s c d b z) keep keep).access c.core c.slot c.p
      ((f.acc s c d b z).issue c (f.req s c d b z)) (s.formScalar c (c.t.getB b.toNat) (rE (c.t.getB b.toNat)) (2 ^ z.toNat) (f.index c)).2)) ∧
    (¬ usable c b z f.kinds → exec (f.instr d b z) s = .next (s.scalarFault c fILLOP 0 false))) ∧
  (∀ (s : State) (c : Cur) (d b : BitVec 4) (i : BitVec 14) (x : Acc),
    x = { op := .load, scalar := true, brec := c.t.getB b.toNat, dest := .buffer d.toNat, size := 32, width := 1, elems := (s.formScalar c (c.t.getB b.toNat) 32 32 i.toInt).1 } →
    s.ready c (accReq s c (brldNeeds d b) x) →
    (¬ (recOk (c.t.getB b.toNat) = true ∧ rKind (c.t.getB b.toNat) ≤ 2) → exec (.brld d b i) s = .next (s.scalarFault c fILLOP 0 false)) ∧
    (recOk (c.t.getB b.toNat) = true → rKind (c.t.getB b.toNat) ≤ 2 → exec (.brld d b i) s = .next ((s.leaves c (accReq s c (brldNeeds d b) x) keep keep).access c.core c.slot c.p
      (x.issue c (accReq s c (brldNeeds d b) x)) (s.formScalar c (c.t.getB b.toNat) 32 32 i.toInt).2)))

/-- R186, R187: an index within EXTENT forms BASE + Swz(index) times STRIDE modulo 2^64; outside it the policy drops it, faults OOB, or clamps it; a misaligned address, one outside the scratchpad or one not canonical faults ADDRRANGE. R195, R406 (a store's frame): SST through a scratchpad record whose element lies at offset `a` writes the 2^z low bytes of S(d) there, little-endian, at once; every other byte of the scratchpad, every byte of stack memory and every register but the PC, SIG and the charge stay. R171, R401, R406 (a load): SLD through a scratchpad record leaves an operation outstanding to S(d) that holds the bytes at its offset; when it lands, S(d) holds them zero-extended and the operation is gone; no byte of stack memory changes. -/
def Obligations.ScratchpadAccesses : Prop :=
  (∀ (r : BitVec 256) (e n size : Nat) (i : Int),
    (0 ≤ i → i < rExtent r → (∃ a, a = (((rBase r : Int) + swz (rSwz r) i.toNat * rStride r) % 2 ^ 64).toNat ∧
      (a % e ≠ 0 → formElem r e n size i = .error (fADDRRANGE, a % 2 ^ 57)) ∧
      (a % e = 0 → rKind r = 1 → a + n ≤ size → formElem r e n size i = .ok (some a)) ∧
      (a % e = 0 → rKind r = 1 → size < a + n → formElem r e n size i = .error (fADDRRANGE, a % 2 ^ 57)) ∧
      (a % e = 0 → rKind r ≠ 1 → canonical a = true → formElem r e n size i = .ok (some a)) ∧
      (a % e = 0 → rKind r ≠ 1 → canonical a = false → formElem r e n size i = .error (fADDRRANGE, a % 2 ^ 57)))) ∧
    ((i < 0 ∨ (rExtent r : Int) ≤ i) →
      (rOob r = 0 → formElem r e n size i = .ok none) ∧
      (rOob r = 1 → ∃ a, formElem r e n size i = .error (fOOB, a)) ∧
      (rOob r = 2 → rExtent r = 0 → formElem r e n size i = .ok none) ∧
      (rOob r = 2 → rExtent r ≠ 0 → formElem r e n size i = formElem r e n size (if i < 0 then 0 else (rExtent r : Int) - 1)))) ∧
  (∀ (s : State) (c : Cur) (d : BitVec 6) (b : BitVec 4) (z : BitVec 2) (i : BitVec 14) (a : Nat), s.ready c ((ScalarAccess.sst i).req s c d b z) →
    usable c b z (fun _ => true) → rKind (c.t.getB b.toNat) = 1 → rRdonly (c.t.getB b.toNat) = false →
    formElem (c.t.getB b.toNat) (rE (c.t.getB b.toNat)) (2 ^ z.toNat) (s.scratch c.core c.t.task).size i.toInt = .ok (some a) →
    Table.sorted (s.scratch c.core c.t.task).bytes = true →
    ∃ t, exec (.sst d b z i) s = .next t ∧
      (∀ j, j < 2 ^ z.toNat → (t.scratch c.core c.t.task).read (a + j) = BitVec.ofNat 8 ((c.t.getS d.toNat).toNat / 2 ^ (8 * j))) ∧
      (∀ x, x < a ∨ a + 2 ^ z.toNat ≤ x → (t.scratch c.core c.t.task).read x = (s.scratch c.core c.t.task).read x) ∧
      (∀ x, Memory.read t.mem x = Memory.read s.mem x) ∧ t.trains = (s.leaves c ((ScalarAccess.sst i).req s c d b z) keep keep).trains ∧
      t.tasks = s.paid c ((ScalarAccess.sst i).req s c d b z) ∧ t.bar = s.bar ∧ t.logs = s.logs) ∧
  (∀ (s : State) (c : Cur) (d : BitVec 6) (b : BitVec 4) (z : BitVec 2) (i : BitVec 14) (a : Nat), s.ready c ((ScalarAccess.sld i).req s c d b z) →
    usable c b z (fun _ => true) → rKind (c.t.getB b.toNat) = 1 → c.t.handler = none → c.t.fault = none → c.t.call = none → d ≠ 0 → Table.sorted c.t.s = true → Table.sorted c.t.pend = true →
    formElem (c.t.getB b.toNat) (rE (c.t.getB b.toNat)) (2 ^ z.toNat) (s.scratch c.core c.t.task).size i.toInt = .ok (some a) → (s.scratch c.core c.t.task).isBad a (2 ^ z.toNat) = false →
    ∃ t tr u ur, exec (.sld d b z i) s = .next t ∧ t.train c.core c.slot = some tr ∧ (∃ q, Table.find tr.pend c.t.nextPend = some q ∧ q.dest = .scalar d.toNat ∧ q.missing = []) ∧
      t.mem = s.mem ∧ t.cores = s.cores ∧ t.land c.core c.slot c.t.nextPend = u ∧ u.train c.core c.slot = some ur ∧ Table.find ur.pend c.t.nextPend = none ∧
      ur.getS d.toNat = BitVec.ofNat 64 ((s.scratch c.core c.t.task).readLe a (2 ^ z.toNat)) ∧ (∀ n, n ≠ d.toNat → ur.getS n = c.t.getS n) ∧ u.mem = s.mem)

namespace Sys2Proof.Claims

/-- What SATOM performs: element 0 of the record, the operand from S(a), the compare value from S(d). -/
def satomAcc (s : State) (c : Cur) (d : BitVec 6) (b : BitVec 4) (a : BitVec 6) (o : BitVec 4) (sc : BitVec 2) (q r : BitVec 1) : Acc :=
  let x := c.t.getB b.toNat
  { op := .atomic o.toNat, scalar := true, brec := x, dest := .scalar d.toNat, size := rE x, width := 1, scope := scopeOf sc.toNat x, acq := decide (q = 1), rel := decide (r = 1)
    elems := (s.formScalar c x (rE x) (rE x) 0).1.map (fun e => { e with val := (c.t.getS a.toNat).toNat % 2 ^ (8 * rE x), cmp := (c.t.getS d.toNat).toNat % 2 ^ (8 * rE x) }) }
def satomReq (s : State) (c : Cur) (d : BitVec 6) (b : BitVec 4) (a : BitVec 6) (o : BitVec 4) (sc : BitVec 2) (q r : BitVec 1) : SReq :=
  accReq s c { op := 0x15, cost := 2, sregs := [d.toNat, a.toNat], swrites := [d.toNat], bregs := [b.toNat], boundary := true, clauses := decide (q = 1) || decide (r = 1), orders := decide (q = 1) || decide (r = 1) } (satomAcc s c d b a o sc q r)
/-- What STREL and LDACQ perform (R418). -/
def tokenAcc (s : State) (c : Cur) (d : BitVec 6) (b : BitVec 4) (sc : BitVec 2) (i : BitVec 5) (store : Bool) : Acc :=
  let x := c.t.getB b.toNat
  { op := .atomic (if store then aopPut else aopLoad), scalar := true, brec := x, dest := .scalar d.toNat, size := 8, width := 1, elems := (s.formScalar c x 8 8 i.toInt).1
    scope := scopeOf sc.toNat x, rel := store, acq := !store }
/-- The needs of the forms of opcode 0x2E that name the registers `rs` and write `ws` (R402, R417): an append of an outlier list that is not stored yet holds a release. -/
def orderNeeds (c : Cur) (rs ws : List Nat) (releases : Bool) : SReq :=
  { op := 0x2E, sregs := rs, swrites := ws, clauses := true, orders := true, stall := if releases && c.t.appending then .waits else .no }
/-- The needs of REL, a boundary instruction (R152), and of FENCE. -/
def relNeeds (c : Cur) (d : BitVec 6) : SReq := { orderNeeds c [d.toNat] [d.toNat] true with boundary := true }
def fenceNeeds (c : Cur) (d : BitVec 6) : SReq := orderNeeds c [d.toNat] [d.toNat] true
/-- The registers of an ACQ of `n + 1` tokens, and its needs: ACQ.cor reads none (R417). -/
def acqRegs (a : BitVec 6) (n : BitVec 5) : List Nat := (List.range (n.toNat + 1)).map (a.toNat + ·)
def acqNeeds (c : Cur) (a : BitVec 6) (sc : BitVec 2) (n : BitVec 5) : SReq := orderNeeds c (if sc = 0 then [] else acqRegs a n) [] false
/-- What an ACQ waits for: at .cor the train's accesses, above it the tokens of its registers (Table 12-4). -/
def acqWait (c : Cur) (a : BitVec 6) (sc : BitVec 2) (n : BitVec 5) : Wait :=
  if sc = 0 then .fence none false 0 else .acquire ((acqRegs a n).map (fun r => (c.t.getS r).toNat % 2 ^ 63)) (decide (sc = 2))
/-- The state in which the log of the core of `c` has been published by an issue that left `u`, with a release of the portion queued (R212, R215). -/
def releasing (u : State) (c : Cur) : State :=
  (u.publish c.core).setLog c.core { (u.publish c.core).log c.core with rels := ((u.publish c.core).log c.core).rels ++ [trainKey c.core c.slot * 4 + c.p] }
/-- The token of a core's latest publication (R212). -/
def tokenOf (u : State) (core : Nat) : W64 := BitVec.ofNat 64 (core * 2 ^ 51 + (u.log core).pub)
def tokenReq (s : State) (c : Cur) (d : BitVec 6) (b : BitVec 4) (sc : BitVec 2) (i : BitVec 5) (store : Bool) : SReq :=
  accReq s c { orderNeeds c [d.toNat] [d.toNat] store with cost := 2, bregs := [b.toNat], boundary := true } (tokenAcc s c d b sc i store)

end Sys2Proof.Claims

open Sys2Proof.Claims

/-- R408, R418: SATOM, STREL and LDACQ, when well formed with a record of an element size and kind they take, are charged 2 au and g and perform their atomic; STREL releases before it and LDACQ acquires after it. R223, R415: an atomic at its home reads the element as it stands, writes the operation's result over exactly its bytes (cas only where the compare value matches), and answers the old value; here 32-bit add, cas and swap in stack memory. -/
def Obligations.ScalarAtomics : Prop :=
  ((∀ (s : State) (c : Cur) (d : BitVec 6) (b : BitVec 4) (a : BitVec 6) (o : BitVec 4) (sc : BitVec 2) (q r : BitVec 1), s.ready c (satomReq s c d b a o sc q r) →
    (Instr.satom d b a o sc q r).wf = true → recOk (c.t.getB b.toNat) = true → rKind (c.t.getB b.toNat) ≠ 3 → (rEsz (c.t.getB b.toNat) = 2 ∨ rEsz (c.t.getB b.toNat) = 3) →
    exec (.satom d b a o sc q r) s = .next ((s.leaves c (satomReq s c d b a o sc q r) keep keep).access c.core c.slot c.p
      ((satomAcc s c d b a o sc q r).issue c (satomReq s c d b a o sc q r)) (s.formScalar c (c.t.getB b.toNat) (rE (c.t.getB b.toNat)) (rE (c.t.getB b.toNat)) 0).2)) ∧
  (∀ (s : State) (c : Cur) (d : BitVec 6) (b : BitVec 4) (sc : BitVec 2) (i : BitVec 5) (store : Bool), s.ready c (tokenReq s c d b sc i store) →
    recOk (c.t.getB b.toNat) = true → rKind (c.t.getB b.toNat) ≠ 3 → rEsz (c.t.getB b.toNat) = 3 →
    exec (if store then .strel d b sc i else .ldacq d b sc i) s = .next ((s.leaves c (tokenReq s c d b sc i store) keep keep).access c.core c.slot c.p
      ((tokenAcc s c d b sc i store).issue c (tokenReq s c d b sc i store)) (s.formScalar c (c.t.getB b.toNat) 8 8 i.toInt).2))) ∧
  (∀ (s : State) (log pa v x : Nat), s.counted = [] → Memory.wf s.mem = true → v < 2 ^ 32 → x < 2 ^ 32 →
    (∀ op new, (op, new) ∈ [(0, (s.readLe pa 4 + v) % 2 ^ 32), (9, v), (10, if s.readLe pa 4 = x then v else s.readLe pa 4)] →
      (s.atomicAt log op 4 pa v x).2.1 = s.readLe pa 4 ∧ (s.atomicAt log op 4 pa v x).1.readLe pa 4 = new ∧
      (∀ a, a < pa ∨ pa + 4 ≤ a → Memory.read (s.atomicAt log op 4 pa v x).1.mem a = Memory.read s.mem a) ∧
      (s.atomicAt log op 4 pa v x).1.trains = s.trains ∧ (s.atomicAt log op 4 pa v x).1.tasks = s.tasks))

/-! ### Ordering, waits on memory, RESIZE -/

/-- R226, R402, R417: REL, FENCE, ACQ and ACQALL complete their issue, charged 1 au, for every scope they take, and fault ILLOP for one they do not (ACQALL.cor, and the code 3). REL and FENCE above .cor publish the log of the core, queue behind the releases before them and wait, REL with the token of its publication in hand; REL.cor, FENCE.cor and ACQ.cor publish nothing and wait for the train's accesses; ACQ waits to acquire the tokens of its registers; ACQALL takes a stamp and waits for the latest publication before it of every log, those that `State.acqAllTails` lists: of each log, at .cor and .pkg of the cores' alone, the newest publication with a stamp less than its own. R215, R219, R222, R227: at .cor and .pkg, the turn of a portion that waits so and finds the accesses performed, its release settled and the clock past its stamp (log entry 72), its tokens acquired or its logs folded ends the wait: REL.cor and FENCE.cor write 0 to S(d), REL its token, FENCE the drop reason it reports or 0. -/
def Obligations.OrderingInstructions : Prop :=
  ((∀ (s : State) (c : Cur) (d : BitVec 6) (sc : BitVec 2), s.ready c (relNeeds c d) →
    ((Instr.rel d sc).wf = false → exec (.rel d sc) s = .next (s.scalarFault c fILLOP 0 false)) ∧
    ((Instr.rel d sc).wf = true → sc = 0 → exec (.rel d sc) s = .next (s.leaves c (relNeeds c d) keep (fun o => { o with wait := .settle d.toNat }))) ∧
    ((Instr.rel d sc).wf = true → sc ≠ 0 → ∀ u, u = releasing (s.leaves c (relNeeds c d) keep keep) c →
      exec (.rel d sc) s = .next (u.waitFor (.release (u.log c.core).tail (decide (sc = 2)) d.toNat (tokenOf u c.core))))) ∧
  (∀ (s : State) (c : Cur) (d : BitVec 6) (sc : BitVec 2), s.ready c (fenceNeeds c d) →
    ((Instr.fence d sc).wf = false → exec (.fence d sc) s = .next (s.scalarFault c fILLOP 0 false)) ∧
    ((Instr.fence d sc).wf = true → sc = 0 → exec (.fence d sc) s = .next (s.leaves c (fenceNeeds c d) keep (fun o => { o with wait := .fence none false d.toNat }))) ∧
    ((Instr.fence d sc).wf = true → sc ≠ 0 → ∀ u, u = releasing (s.leaves c (fenceNeeds c d) keep keep) c →
      exec (.fence d sc) s = .next (u.waitFor (.fence (some (u.log c.core).tail) (decide (sc = 2)) d.toNat)))) ∧
  (∀ (s : State) (c : Cur) (a : BitVec 6) (sc : BitVec 2) (n : BitVec 5), s.ready c (acqNeeds c a sc n) →
    ((Instr.acq a sc n).wf = false → exec (.acq a sc n) s = .next (s.scalarFault c fILLOP 0 false)) ∧
    ((Instr.acq a sc n).wf = true → exec (.acq a sc n) s = .next (s.leaves c (acqNeeds c a sc n) keep (fun o => { o with wait := acqWait c a sc n })))) ∧
  (∀ (s : State) (c : Cur) (sc : BitVec 2), s.ready c (orderNeeds c [] [] false) →
    ((Instr.acqall sc).wf = false → exec (.acqall sc) s = .next (s.scalarFault c fILLOP 0 false)) ∧
    ((Instr.acqall sc).wf = true → ∀ a v u, v = s.leaves c (orderNeeds c [] [] false) keep keep → a = v.nextStamp c.core → u = v.setLog c.core { v.log c.core with last := a } →
      exec (.acqall sc) s = .next (u.waitFor (.acqAll (u.acqAllTails c.core a (decide (sc = 2))) (decide (sc = 2)))) ∧ (s.log c.core).last < a ∧ s.clock ≤ a) ∧
    (∀ (u : State) (core a : Nat) (sys : Bool) (l tail : Nat), (l, tail) ∈ u.acqAllTails core a sys →
      (l < 1728 ∨ sys = true) ∧ ∃ g x older newer, (l, g) ∈ u.logs ∧ g.pubs = newer ++ x :: older ∧ x.2 = tail ∧ stampLt (x.1, l) (a, core) = true ∧ ∀ y ∈ newer, stampLt (y.1, l) (a, core) = false) ∧
    (∀ (u : State) (core a : Nat) (sys : Bool) (l : Nat) (g : Log), (l, g) ∈ u.logs → (l < 1728 ∨ sys = true) → (∃ x ∈ g.pubs, stampLt (x.1, l) (a, core) = true) →
      ∃ tail, (l, tail) ∈ u.acqAllTails core a sys))) ∧
  (∀ (s : State) (core slot p : Nat) (t : Train) (o : Portion), s.train core slot = some t → t.portion p = some o → s.waitMay core p t = true →
    (∀ d, (o.wait = .fence none false d ∨ o.wait = .settle d) → t.performed = true → s.resume core slot p = (s.putReg core slot d 0).endWait core slot p true) ∧
    (∀ tail d tok, o.wait = .release tail false d tok → t.performed = true → s.released core slot p tail false = true →
      s.resume core slot p = (((s.endRelease core slot p false).2).putReg core slot d tok).endWait core slot p true) ∧
    (∀ tail d, o.wait = .fence (some tail) false d → t.performed = true → s.released core slot p tail false = true →
      s.resume core slot p = (((s.endRelease core slot p false).2).putReg core slot d (BitVec.ofNat 64 (s.endRelease core slot p false).1)).endWait core slot p true) ∧
    (∀ toks, o.wait = .acquire toks false → t.performed = true → (s.acquireList core false toks).1 = [] →
      s.resume core slot p = (s.acquireList core false toks).2.endWait core slot p true) ∧
    (∀ tails, o.wait = .acqAll tails false → s.allFolded tails false = true → s.resume core slot p = (s.acqAllDone core tails).endWait core slot p true)) ∧
  (∀ (s u w z : State) (now : Nat) (c : Cur) (d a : BitVec 6) (n : BitVec 5) (t : Train) (o : Portion), z = { u with time := now } → z.train c.core c.slot = some t → t.portion c.p = some o → z.waitMay c.core c.p t = true → t.performed = true →
    (s.ready c (relNeeds c d) → u = s.leaves c (relNeeds c d) keep (fun o => { o with wait := .settle d.toNat }) → o.wait = .settle d.toNat →
      exec (.rel d 0) s = .next u ∧ z.resume c.core c.slot c.p = (z.putReg c.core c.slot d.toNat 0).endWait c.core c.slot c.p true) ∧
    (∀ tail, s.ready c (relNeeds c d) → w = releasing (s.leaves c (relNeeds c d) keep keep) c → tail = (w.log c.core).tail → u = w.waitFor (.release tail false d.toNat (tokenOf w c.core)) →
      o.wait = .release tail false d.toNat (tokenOf w c.core) → z.released c.core c.slot c.p tail false = true →
      exec (.rel d 1) s = .next u ∧ z.resume c.core c.slot c.p = (((z.endRelease c.core c.slot c.p false).2).putReg c.core c.slot d.toNat (tokenOf w c.core)).endWait c.core c.slot c.p true) ∧
    (s.ready c (fenceNeeds c d) → u = s.leaves c (fenceNeeds c d) keep (fun o => { o with wait := .fence none false d.toNat }) → o.wait = .fence none false d.toNat →
      exec (.fence d 0) s = .next u ∧ z.resume c.core c.slot c.p = (z.putReg c.core c.slot d.toNat 0).endWait c.core c.slot c.p true) ∧
    (∀ tail, s.ready c (fenceNeeds c d) → w = releasing (s.leaves c (fenceNeeds c d) keep keep) c → tail = (w.log c.core).tail → u = w.waitFor (.fence (some tail) false d.toNat) → o.wait = .fence (some tail) false d.toNat →
      z.released c.core c.slot c.p tail false = true → exec (.fence d 1) s = .next u ∧
        z.resume c.core c.slot c.p = (((z.endRelease c.core c.slot c.p false).2).putReg c.core c.slot d.toNat (BitVec.ofNat 64 (z.endRelease c.core c.slot c.p false).1)).endWait c.core c.slot c.p true) ∧
    (∀ toks, s.ready c (acqNeeds c a 1 n) → (Instr.acq a 1 n).wf = true → acqWait c a 1 n = .acquire toks false → u = s.leaves c (acqNeeds c a 1 n) keep (fun o => { o with wait := .acquire toks false }) →
      o.wait = .acquire toks false → (z.acquireList c.core false toks).1 = [] → exec (.acq a 1 n) s = .next u ∧ z.resume c.core c.slot c.p = (z.acquireList c.core false toks).2.endWait c.core c.slot c.p true) ∧
    (∀ v x tails, s.ready c (orderNeeds c [] [] false) → v = s.leaves c (orderNeeds c [] [] false) keep keep → x = v.nextStamp c.core → w = v.setLog c.core { v.log c.core with last := x } → tails = w.acqAllTails c.core x false →
      u = w.waitFor (.acqAll tails false) → o.wait = .acqAll tails false → z.allFolded tails false = true →
      exec (.acqall 1) s = .next u ∧ z.resume c.core c.slot c.p = (z.acqAllDone c.core tails).endWait c.core c.slot c.p true))

/-- R212, R213: a publication stamps every unpublished record of the log with one stamp above every stamp the log has given, at least CLOCK, moves PUB to the tail, and leaves the records published before, memory and every other log alone (while no record waits for a new translation). R217 (for writes of equal stamps, records of one publication, the later position wins: R236, log entry 18, the model's reading): a byte written by a record takes the record's value and stamp when its own stamp is not greater, and stays as it is when it is; no other byte changes. Two writes of a byte with different stamps leave the value of the greater stamp, whichever folds first. -/
def Obligations.FoldsByStamp : Prop :=
  (∀ (s : State) (l : Nat), (∀ r ∈ (s.log l).recs, r.pa.isSome = true) →
    ∃ st, (s.log l).last < st ∧ s.clock ≤ st ∧ ((s.publish l).log l).last = st ∧ ((s.publish l).log l).pub = (s.log l).tail ∧ ((s.publish l).log l).tail = (s.log l).tail ∧
      ((s.publish l).log l).recs = (s.log l).recs.map (fun r => if r.stamp.isSome then r else { r with stamp := some st, msg := s.nextId, sent := s.time }) ∧
      (s.publish l).mem = s.mem ∧ (∀ m, m ≠ l → (s.publish l).log m = s.log m)) ∧
  (∀ (s : State) (a : Nat) (b : Byte) (st : Nat × Nat), Memory.wf s.mem = true → Table.sorted s.stamps = true →
    (stampLt st (s.stampOf a) = false → Memory.read (s.foldByte a b st).mem a = b ∧ (s.foldByte a b st).stampOf a = st) ∧
    (stampLt st (s.stampOf a) = true → s.foldByte a b st = s) ∧
    (∀ x, x ≠ a → Memory.read (s.foldByte a b st).mem x = Memory.read s.mem x ∧ (s.foldByte a b st).stampOf x = s.stampOf x)) ∧
  (∀ (s : State) (a : Nat) (b b' : Byte) (x y : Nat × Nat), Memory.wf s.mem = true → Sparse.wf (0, 0) s.stamps = true → stampLt x y = true →
    Memory.read ((s.foldByte a b x).foldByte a b' y).mem a = Memory.read ((s.foldByte a b' y).foldByte a b x).mem a ∧
    ((s.foldByte a b x).foldByte a b' y).stampOf a = ((s.foldByte a b' y).foldByte a b x).stampOf a)

namespace Sys2Proof.Claims

/-- The needs of WAITA and WAITM: they wait for the portion's own accesses to their element (R402), WAITA for the answers of the homes of its walk and element too (R24). -/
def waitaReq (s : State) (c : Cur) (d a b : BitVec 6) : SReq :=
  { op := 0x2D, sregs := [d.toNat, a.toNat, b.toNat], swrites := [d.toNat], bregs := [bits (c.t.getS a.toNat) 0 4], clauses := true, memory := true, orders := true, stall := s.watchStall c a }
def waitmReq (c : Cur) (d a b : BitVec 6) : SReq :=
  { op := 0x2D, sregs := [d.toNat, a.toNat, b.toNat], swrites := [d.toNat], clauses := true, memory := true, orders := true, stall := if c.busyAt 8 (c.t.getS a.toNat).toNat then .waits else .no }
/-- The record a WAITA names (R419). -/
def watchRec (c : Cur) (a : BitVec 6) : BitVec 256 := c.t.getB (bits (c.t.getS a.toNat) 0 4)

end Sys2Proof.Claims

open Sys2Proof.Claims

/-- R419-R421: WAITM whose word covers its mask at issue returns it at once and parks otherwise, and faults ADDRRANGE, precisely, for an offset that is no multiple of 8 or outside the scratchpad; WAITA on a scratchpad element does the same with its condition. R423: RESIZE that asks for more than 10 ways of a kind returns NOWAYS at once and changes nothing else; any other takes its place among the core's RESIZEs and waits. -/
def Obligations.WaitsOnMemory : Prop :=
  ((∀ (s : State) (c : Cur) (d a b : BitVec 6), s.ready c (waitmReq c d a b) →
    ((c.t.getS a.toNat).toNat % 8 = 0 ∧ (c.t.getS a.toNat).toNat + 8 ≤ (s.scratch c.core c.t.task).ways * 32768 →
      (s.scratch c.core c.t.task).isBad (c.t.getS a.toNat).toNat 8 = false →
      ∃ t tr o v, exec (.waitm d a b) s = .next t ∧ t.train c.core c.slot = some tr ∧ tr.portion c.p = some o ∧ v = (s.scratch c.core c.t.task).readLe (c.t.getS a.toNat).toNat 8 ∧
        (v % 2 ^ 64 &&& (c.t.getS b.toNat).toNat = (c.t.getS b.toNat).toNat → o.wait = .none ∧ tr = (c.after (waitmReq c d a b) keep).setS d.toNat (BitVec.ofNat 64 v)) ∧
        (v % 2 ^ 64 &&& (c.t.getS b.toNat).toNat ≠ (c.t.getS b.toNat).toNat → o.wait ≠ .none ∧ tr.s = c.t.s) ∧ t.mem = s.mem ∧ t.tasks = s.paid c (waitmReq c d a b)) ∧
    (¬ ((c.t.getS a.toNat).toNat % 8 = 0 ∧ (c.t.getS a.toNat).toNat + 8 ≤ (s.scratch c.core c.t.task).ways * 32768) →
      exec (.waitm d a b) s = .next (s.scalarFault c fADDRRANGE (c.t.getS a.toNat).toNat false))) ∧
  (∀ (s : State) (c : Cur) (d a b : BitVec 6) (x : Nat), s.ready c (waitaReq s c d a b) →
    bits (c.t.getS a.toNat) 7 25 = 0 → recOk (watchRec c a) = true → rKind (watchRec c a) = 1 → (rEsz (watchRec c a) = 2 ∨ rEsz (watchRec c a) = 3) →
    formElem (watchRec c a) (rE (watchRec c a)) (rE (watchRec c a)) (s.scratch c.core c.t.task).size (toSigned 32 (bits (c.t.getS a.toNat) 32 32)) = .ok (some x) →
    (s.scratch c.core c.t.task).isBad x (rE (watchRec c a)) = false → s.counted = [] →
    ∃ t tr o v, exec (.waita d a b) s = .next t ∧ t.train c.core c.slot = some tr ∧ tr.portion c.p = some o ∧ v = (s.scratch c.core c.t.task).readLe x (rE (watchRec c a)) ∧
      (watchHolds (bits (c.t.getS a.toNat) 4 3) (8 * rE (watchRec c a)) v (c.t.getS b.toNat).toNat = true → o.wait = .none ∧ tr = (c.after (waitaReq s c d a b) keep).setS d.toNat (BitVec.ofNat 64 v)) ∧
      (watchHolds (bits (c.t.getS a.toNat) 4 3) (8 * rE (watchRec c a)) v (c.t.getS b.toNat).toNat = false → o.wait ≠ .none ∧ tr.s = c.t.s))) ∧
  (∀ (s : State) (c : Cur) (d a b : BitVec 6) (q : SReq), q = { op := 0x2F, sregs := [d.toNat, a.toNat, b.toNat], swrites := [d.toNat], clauses := true, boundary := true, orders := true, stall := if c.t.appending then .waits else .no } →
    s.ready c q →
    ((10 < (c.t.getS a.toNat).toNat ∨ 10 < (c.t.getS b.toNat).toNat) → exec (.resize d a b) s = .next (s.leaves c q (fun t => t.setS d.toNat 1) keep)) ∧
    (¬ (10 < (c.t.getS a.toNat).toNat ∨ 10 < (c.t.getS b.toNat).toNat) →
      ∃ t, exec (.resize d a b) s = .next t ∧ t.trains = (s.leaves c q keep (fun o => { o with wait := .resize (c.t.getS a.toNat).toNat (c.t.getS b.toNat).toNat d.toNat none })).trains ∧
        (t.core c.core).resizing = (s.core c.core).resizing ++ [trainKey c.core c.slot * 4 + c.p] ∧ t.tasks = s.paid c q ∧ t.mem = s.mem))

/-! ### Flashback points, page mapping -/

/-- R151, R178, R444: FBP of an undivided train whose descriptor is well formed records PC, EXM, FMT, SIG, XFLAGS, LINEAGE, LCB, the live scalar and lane registers, the mask and buffer registers and the log's tail, and ends the boundary; in a divided train, and in the handler, it only issues; a descriptor that breaks Table 22-10 faults ILLOP. -/
def Obligations.FlashbackPoint : Prop :=
  ∀ (s : State) (c : Cur) (w : BitVec 24),
    (∀ bs, s.ready c { op := 0x32, clauses := true } → c.t.handler = none → fbpWait s w c = .no → fbpRead s w c = .ok bs →
      (fbpOk bs c.t.budget = true → c.t.liveBusy bs = false → c.t.portions.length = 1 → c.o.stack = [] →
        ∃ t tr o, exec (.fbp w) s = .next t ∧ t.train c.core c.slot = some tr ∧ tr.portion c.p = some o ∧ o = c.moved { op := 0x32, clauses := true } ∧
          tr.flash.pc = c.o.pc + 4 ∧ tr.flash.lcb = c.t.lcb ∧ tr.flash.exm = c.o.exm ∧ tr.flash.fmt = c.o.fmt ∧ tr.flash.sig = o.sig ∧ tr.flash.xflags = c.t.xflags ∧
          tr.flash.lineage = c.t.lineage ∧ tr.flash.k = c.t.k ∧ tr.flash.b = c.t.b ∧ tr.flash.mark = (s.log c.core).tail ∧
          tr.flash.sregs = (fbpScalars bs).map (fun n => (n, c.t.getS n)) ∧ tr.flash.vregs = (fbpLanes bs).map (fun r => (r, (List.range 32).map (c.t.getV r))) ∧
          tr.boundary = false ∧ tr.bounds = 0 ∧ tr.s = c.t.s ∧ tr.v = c.t.v ∧ t.mem = s.mem ∧ t.tasks = s.paid c { op := 0x32, clauses := true }) ∧
      (fbpOk bs c.t.budget = true → (c.t.portions.length ≠ 1 ∨ c.o.stack ≠ []) → exec (.fbp w) s = .next (s.leaves c { op := 0x32, clauses := true } keep keep)) ∧
      (fbpOk bs c.t.budget = false → exec (.fbp w) s = .next (s.scalarFault c fILLOP 0 false))) ∧
    (s.ready c { op := 0x32, clauses := true } → c.t.handler.isSome = true → exec (.fbp w) s = .next (s.leaves c { op := 0x32, clauses := true } keep keep))

/-- R446: in the handler, MAPPG of a canonical address whose level-0 entry is invalid takes the last frame of the slot's page pool, counts it off, zeroes it, writes the entry and returns 0; it returns 1 where the pool is empty, 2 where the walk finds no table, 3 where the entry is valid, 4 where the frame taken is not the slot's (the pool counts it off all the same), 5 for permissions above 3; a fault of its walk, or a pool entry homed on a die that is not usable (R30), raises DOUBLEFLT. R191, R447: IVPG waits for the invalidate of its page, and when nothing translated under the old mapping is under way its turn drops the page's cached translations and lines and the portion goes on; reserved bits or an address that is not canonical raise DOUBLEFLT. -/
def Obligations.PageMapping : Prop :=
  (∀ (s : State) (c : Cur) (d a b : BitVec 6), s.ready c (mappgNeeds d a b) → c.t.handler.isSome = true → c.pslot s ≤ 64 →
    s.mappgStall c (c.t.getS a.toNat) (c.t.getS b.toNat) = .no → s.mappgLost c (c.t.getS a.toNat) (c.t.getS b.toNat) = false →
    (4 ≤ (c.t.getS b.toNat).toNat → exec (.mappg d a b) s = .next (s.leaves c (mappgNeeds d a b) (fun t => t.setS d.toNat 5) keep)) ∧
    ((c.t.getS b.toNat).toNat < 4 → canonical (c.t.getS a.toNat).toNat = false → exec (.mappg d a b) s = .next (s.scalarFault c fDOUBLEFLT 0 false)) ∧
    ((c.t.getS b.toNat).toNat < 4 → canonical (c.t.getS a.toNat).toNat = true →
      (s.leafEntry (c.pslot s) (c.t.getS a.toNat).toNat = .fault → exec (.mappg d a b) s = .next (s.scalarFault c fDOUBLEFLT 0 false)) ∧
      (s.leafEntry (c.pslot s) (c.t.getS a.toNat).toNat = .noTable → exec (.mappg d a b) s = .next (s.leaves c (mappgNeeds d a b) (fun t => t.setS d.toNat 2) keep)) ∧
      (∀ e, s.leafEntry (c.pslot s) (c.t.getS a.toNat).toNat = .entry e →
        ((BitVec.ofNat 64 (s.readLe e 8)).getLsbD 0 = true → exec (.mappg d a b) s = .next (s.leaves c (mappgNeeds d a b) (fun t => t.setS d.toNat 3) keep)) ∧
        ((BitVec.ofNat 64 (s.readLe e 8)).getLsbD 0 = false → s.regBits (slotOff (c.pslot s) 0x3E8) 0 32 = 0 →
          exec (.mappg d a b) s = .next (s.leaves c (mappgNeeds d a b) (fun t => t.setS d.toNat 1) keep)) ∧
        (∀ n pa f, (BitVec.ofNat 64 (s.readLe e 8)).getLsbD 0 = false → s.regBits (slotOff (c.pslot s) 0x3E8) 0 32 = n + 1 →
          pa = bits (s.slotReg (c.pslot s) 0x3E0) 2 50 * 4 + 4 * n → f = s.readLe pa 4 % 2 ^ 24 →
          (isStack pa = true → s.usable (dieOf pa) = false → exec (.mappg d a b) s = .next (s.scalarFault c fDOUBLEFLT 0 false)) ∧
          (isStack pa = true → s.usable (dieOf pa) = true → s.poisoned pa = false → s.usable (dieOf (f * 65536)) = true → s.fotOk (s.ownid (c.pslot s)) (f * 65536) = true → Memory.wf s.mem = true →
            s.homeShut e = false →
            ∃ t, exec (.mappg d a b) s = .next t ∧ t.trains = (s.leaves c (mappgNeeds d a b) (fun t => t.setS d.toNat 0) keep).trains ∧
              t.regBits (slotOff (c.pslot s) 0x3E8) 0 32 = n ∧
              t.readLe e 8 = f * 65536 + (if (c.t.getS b.toNat).getLsbD 1 then 8 else 0) + (if (c.t.getS b.toNat).getLsbD 0 then 4 else 0) + 3 ∧
              (∀ x, x / 65536 = f → (x < e ∨ e + 8 ≤ x) → Memory.read t.mem x = 0) ∧
              (∀ x, x / 65536 ≠ f → (x < e ∨ e + 8 ≤ x) → Memory.read t.mem x = Memory.read s.mem x)) ∧
          (isStack pa = true → s.usable (dieOf pa) = true → s.poisoned pa = false → s.fotOk (s.ownid (c.pslot s)) (f * 65536) = false →
            ∃ t, exec (.mappg d a b) s = .next t ∧ t.trains = (s.leaves c (mappgNeeds d a b) (fun t => t.setS d.toNat 4) keep).trains ∧
              t.regBits (slotOff (c.pslot s) 0x3E8) 0 32 = n ∧ t.mem = s.mem))))) ∧
  (∀ (s : State) (c : Cur) (a b : BitVec 6), s.ready c (ivpgNeeds a b) → c.t.handler.isSome = true →
    ((c.t.getS b.toNat).toNat < 4 → canonical (c.t.getS a.toNat).toNat = true →
      exec (.ivpg a b) s = .next (s.leaves c (ivpgNeeds a b) keep (fun o => { o with wait := .invalidate (c.t.getS a.toNat).toNat (c.t.getS b.toNat).toNat }))) ∧
    ((4 ≤ (c.t.getS b.toNat).toNat ∨ canonical (c.t.getS a.toNat).toNat = false) → exec (.ivpg a b) s = .next (s.scalarFault c fDOUBLEFLT 0 false))) ∧
  (∀ (s : State) (core slot p va sz : Nat) (t : Train) (o : Portion), s.train core slot = some t → t.portion p = some o → o.wait = .invalidate va sz → s.waitMay core p t = true →
    s.mappingIdle (s.slotOfTask t.task) va sz = true → s.resume core slot p = (s.dropMapping (s.slotOfTask t.task) va sz).endWait core slot p true)

/-! ### Tasks -/

namespace Sys2Proof.Claims

/-- SPAWN, or SPAWNF with its token register. -/
def spawnInstr (d a : BitVec 6) : Option (BitVec 6) → Instr
  | none => .spawn d a
  | some b => .spawnf d a b
/-- The needs of a spawn whose record grants `g`: 8 au, and the grant beside them (R427). -/
def spawnNeeds (d a : BitVec 6) (tok : Option (BitVec 6)) (g : Nat) : SReq :=
  { op := 0x2A, cost := 8, extra := g, sregs := [d.toNat, a.toNat] ++ (tok.map (fun b => [b.toNat])).getD [], swrites := [d.toNat], clauses := true, boundary := true }
/-- The needs of the task instructions. -/
def taskReq (rs ws : List Nat) (cost extra : Nat) : SReq := { op := 0x2B, cost := cost, extra := extra, sregs := rs, swrites := ws, clauses := true, boundary := true }

end Sys2Proof.Claims

open Sys2Proof.Claims

/-- R112, R427, R428, R130: SPAWN and SPAWNF read their launch record, charge 8 au, and create the child with the grant taken from the parent's ALW, its parent and token recorded, in READY, queued on the core, and S(d) naming it; no au is made or lost; without a free task slot S(d) gets NOSLOT and only the 8 au are charged. -/
def Obligations.SpawnCreatesChild : Prop :=
  ∀ (s : State) (c : Cur) (d a : BitVec 6) (tok : Option (BitVec 6)) (bs : List Byte) (k : Task),
    (c.t.getS a.toNat).toNat % 128 = 0 → canonical (c.t.getS a.toNat).toNat = true →
    s.deviceRead (portionOwner c.core c.slot c.p) (c.pslot s) (c.t.getS a.toNat).toNat 128 = .ok bs → launchOk bs = true → launchFits bs = true →
    s.ready c (spawnNeeds d a tok (launchGrant bs)) → c.o.again = .no → s.task c.t.task = some k → k.held = true → d ≠ 0 → Table.sorted c.t.s = true →
    (∀ b, tok = some b → (s.acquire c.core ((c.t.getS b.toNat).toNat % 2 ^ 63) false).isSome = true) →
    (s.taskRoom k.slot = true → ∃ t tr id ch k', exec (spawnInstr d a tok) s = .next t ∧ t.train c.core c.slot = some tr ∧ t.task id = some ch ∧ t.task c.t.task = some k' ∧ id ≠ c.t.task ∧
      ch.held = true ∧ ch.state = .ready ∧ ch.alw = launchGrant bs ∧ ch.spent = 0 ∧ ch.rsv = 0 ∧ ch.parent = k.gen * 65536 + c.t.task ∧ ch.slot = k.slot ∧
      ch.token = tok.map (fun b => c.t.getS b.toNat) ∧ ch.trains = le bs 2 1 ∧ ch.cores = le bs 3 1 ∧ ch.entry = BitVec.ofNat 64 (le bs 0x18 8) ∧ ch.arg = BitVec.ofNat 64 (le bs 0x40 8) ∧
      tr.getS d.toNat = BitVec.ofNat 64 (ch.gen * 65536 + id) ∧ id ∈ (t.core c.core).readyQ ∧
      k'.children = k.children + 1 ∧ k'.spent = k.spent + 8 ∧ k'.rsv = k.rsv ∧ k'.alw + ch.alw + k'.spent = k.alw + k.spent) ∧
    (s.taskRoom k.slot = false → ∃ t tr k', exec (spawnInstr d a tok) s = .next t ∧ t.train c.core c.slot = some tr ∧ t.task c.t.task = some k' ∧ tr.getS d.toNat = 4 ∧
      k'.alw + 8 = k.alw ∧ k'.spent = k.spent + 8 ∧ k'.children = k.children)

/-- R112, R429-R431: JOIN of a TASKID whose generation is not its entry's returns STALE and acts on nothing; of a child on the done list it takes it off and returns OK with the child's status; of a TASKID that is no child, or freed, it returns that status; of a child short of DONE it parks. JOINANY returns the oldest entry with its TASKID, GONE when no child is left, and parks otherwise. JOIN in its self form begins the release and waits to end, ILLOP in a divided train. R126, R127, R430: GRANT moves au from the caller's ALW to a child that runs, resuming a STARVED one, and CUT unwinds a child with status CUT; of a TASKID that is stale, no child, or gone both change nothing but their charge and return that status. TSTAT of 0 returns the caller's own ALW, after the charge, and state; of a TASKID that is no direct child NOTCHILD with the state code and no ALW. -/
def Obligations.JoinGrantCut : Prop :=
  ((∀ (s : State) (c : Cur) (d a : BitVec 6) (k : Task), s.ready c (taskReq [d.toNat, a.toNat] [d.toNat] 2 0) → (Instr.joinChild d a).wf = true → d ≠ 0 → Table.sorted c.t.s = true → s.task c.t.task = some k →
    (s.named c.t.task (c.t.getS a.toNat).toNat = .stale →
      exec (.joinChild d a) s = .next (s.leaves c (taskReq [d.toNat, a.toNat] [d.toNat] 2 0) (fun t => t.setS d.toNat (BitVec.ofNat 64 (3 * 65536))) keep)) ∧
    (∀ e, s.named c.t.task (c.t.getS a.toNat).toNat ≠ .stale → k.doneList.find? (fun x => decide (x.1 = (c.t.getS a.toNat).toNat)) = some e →
      ∃ t tr o k', exec (.joinChild d a) s = .next t ∧ t.train c.core c.slot = some tr ∧ tr.portion c.p = some o ∧ o.wait = .none ∧ tr.getS d.toNat = BitVec.ofNat 64 e.2 ∧
        t.task c.t.task = some k' ∧ k'.doneList = k.doneList.filter (fun x => decide (x.1 ≠ (c.t.getS a.toNat).toNat))) ∧
    (k.doneList.find? (fun x => decide (x.1 = (c.t.getS a.toNat).toNat)) = none →
      (∀ n st, (n, st) ∈ [(Named.notChild, 2), (Named.freed, 1)] → s.named c.t.task (c.t.getS a.toNat).toNat = n →
        exec (.joinChild d a) s = .next (s.leaves c (taskReq [d.toNat, a.toNat] [d.toNat] 2 0) (fun t => t.setS d.toNat (BitVec.ofNat 64 (st * 65536))) keep)) ∧
      (∀ x, s.named c.t.task (c.t.getS a.toNat).toNat = .child x →
        exec (.joinChild d a) s = .next (s.leaves c (taskReq [d.toNat, a.toNat] [d.toNat] 2 0) keep (fun o => { o with wait := .join (c.t.getS a.toNat).toNat d.toNat }))))) ∧
  (∀ (s : State) (c : Cur) (d b : BitVec 6) (k : Task), s.ready c (taskReq [d.toNat, b.toNat] [d.toNat, b.toNat] 2 0) → d ≠ b → d ≠ 0 → b ≠ 0 → Table.sorted c.t.s = true → s.task c.t.task = some k →
    (∀ e es, k.doneList = e :: es → ∃ t tr k', exec (.joinany d b) s = .next t ∧ t.train c.core c.slot = some tr ∧ tr.getS d.toNat = BitVec.ofNat 64 e.2 ∧ tr.getS b.toNat = BitVec.ofNat 64 e.1 ∧
      t.task c.t.task = some k' ∧ k'.doneList = es) ∧
    (k.doneList = [] → k.children = 0 → ∃ t tr, exec (.joinany d b) s = .next t ∧ t.train c.core c.slot = some tr ∧ tr.getS d.toNat = BitVec.ofNat 64 65536 ∧ tr.getS b.toNat = 0) ∧
    (k.doneList = [] → k.children ≠ 0 → exec (.joinany d b) s = .next (s.leaves c (taskReq [d.toNat, b.toNat] [d.toNat, b.toNat] 2 0) keep (fun o => { o with wait := .joinAny d.toNat b.toNat })))) ∧
  (∀ (s : State) (c : Cur), s.ready c (taskReq [] [] 2 0) → c.t.appending = false →
    (c.t.portions.length = 1 ∧ c.o.stack = [] → ∀ u, u = (s.leaves c (taskReq [] [] 2 0) keep keep).beginRelease c.core c.slot c.p →
      exec .joinSelf s = .next (u.2.2.waitFor (.ending u.1))) ∧
    (¬ (c.t.portions.length = 1 ∧ c.o.stack = []) → exec .joinSelf s = .next (s.scalarFault c fILLOP 0 false)))) ∧
  ((∀ (s : State) (c : Cur) (d a b : BitVec 6) (st : Nat), st = s.actStatus c.t.task (c.t.getS a.toNat).toNat →
    s.ready c (taskReq [d.toNat, a.toNat, b.toNat] [d.toNat] 2 (if st = 0 then (c.t.getS b.toNat).toNat else 0)) →
    (st ≠ 0 → exec (.grant d a b) s = .next (s.leaves c (taskReq [d.toNat, a.toNat, b.toNat] [d.toNat] 2 0) (fun t => t.setS d.toNat (BitVec.ofNat 64 st)) keep)) ∧
    (∀ k ch, st = 0 → s.task c.t.task = some k → s.task ((c.t.getS a.toNat).toNat % 65536) = some ch → (c.t.getS a.toNat).toNat % 65536 ≠ c.t.task → c.o.again = .no →
      ∃ t k' ch', exec (.grant d a b) s = .next t ∧ t.task c.t.task = some k' ∧ t.task ((c.t.getS a.toNat).toNat % 65536) = some ch' ∧
        k'.alw + 2 + (c.t.getS b.toNat).toNat = k.alw ∧ k'.spent = k.spent + 2 ∧ ch'.alw = ch.alw + (c.t.getS b.toNat).toNat ∧
        (ch.state = .starved → ch'.state = .running) ∧ (ch.state ≠ .starved → ch'.state = ch.state) ∧
        t.trains = (s.leaves c (taskReq [d.toNat, a.toNat, b.toNat] [d.toNat] 2 0) (fun t => t.setS d.toNat 0) keep).trains)) ∧
  (∀ (s : State) (c : Cur) (d a : BitVec 6) (st : Nat), st = s.actStatus c.t.task (c.t.getS a.toNat).toNat → s.ready c (taskReq [d.toNat, a.toNat] [d.toNat] 2 0) →
    (st ≠ 0 → exec (.cut d a) s = .next (s.leaves c (taskReq [d.toNat, a.toNat] [d.toNat] 2 0) (fun t => t.setS d.toNat (BitVec.ofNat 64 st)) keep)) ∧
    (st = 0 → exec (.cut d a) s = .next (((s.leaves c (taskReq [d.toNat, a.toNat] [d.toNat] 2 0) keep keep).unwind ((c.t.getS a.toNat).toNat % 65536) 1 0).putS d 0))) ∧
  (∀ (s : State) (c : Cur) (d a : BitVec 6) (k : Task) (q : SReq), q = { op := 0x2B, sregs := [d.toNat, a.toNat], swrites := [d.toNat], clauses := true } → s.ready c q → c.o.again = .no → c.t.handler = none →
    s.task c.t.task = some k →
    (∀ x, c.t.getS a.toNat ≠ 0 → s.named c.t.task (c.t.getS a.toNat).toNat = .notChild → s.task ((c.t.getS a.toNat).toNat % 65536) = some x → (c.t.getS a.toNat).toNat % 65536 ≠ c.t.task →
      exec (.tstat d a) s = .next (s.leaves c q (fun t => t.setS d.toNat (BitVec.ofNat 64 (0x200 + x.state.code))) keep)) ∧
    (c.t.getS a.toNat = 0 → exec (.tstat d a) s = .next (s.leaves c q (fun t => t.setS d.toNat (BitVec.ofNat 64 (min (k.alw - 1) (2 ^ 48 - 1) * 65536 + k.state.code))) keep))))

/-! ### Routes, stages, REPACK -/

namespace Sys2Proof.Claims

/-- The train in focus is a member of route `r` of its task (R137). -/
def onRoute (s : State) (c : Cur) (r : BitVec 8) : Prop :=
  ∃ k, s.task c.t.task = some k ∧ c.t.member = true ∧ r.toNat < k.routes.length ∧ ((k.routes[r.toNat]?).getD 0).getLsbD c.t.index = true
/-- The needs of the barrier and stage forms. -/
def routeReq (rs : List Nat) (boundary : Bool) : SReq := { op := 0x2C, sregs := rs, clauses := true, boundary := boundary }

end Sys2Proof.Claims

open Sys2Proof.Claims

/-- R137, R432, R434: BARR, ARRIVE and REPACK of a member of the route leave the portion arriving; WAITB goes on when the phase of the latest arrival has completed and parks otherwise; a train that is no member faults ROUTE, precisely. R433: the stage forms set bit p, or 16 + p for .close, of the little-endian word at the offset in S(a), and leave every other byte of the scratchpad; an offset that is no multiple of 8 or outside it faults ADDRRANGE. -/
def Obligations.RouteInstructions : Prop :=
  (∀ (s : State) (c : Cur) (r : BitVec 8),
    (∀ sc : BitVec 1, c.t.appending = false → s.ready c (routeReq [] true) →
      (onRoute s c r → exec (.barr r sc) s = .next (s.leaves c (routeReq [] true) keep (fun o => { o with wait := .arriving r.toNat true (decide (sc = 1)) none }))) ∧
      (¬ onRoute s c r → exec (.barr r sc) s = .next (s.scalarFault c fROUTE 0 false))) ∧
    (s.ready c (routeReq [] true) →
      (onRoute s c r → exec (.arrive r) s = .next (s.leaves c (routeReq [] true) keep (fun o => { o with wait := .arriving r.toNat false false none }))) ∧
      (¬ onRoute s c r → exec (.arrive r) s = .next (s.scalarFault c fROUTE 0 false))) ∧
    (s.ready c (routeReq [] false) →
      (∀ k, s.task c.t.task = some k → onRoute s c r → exec (.waitb r) s = .next (s.leaves c (routeReq [] false) keep
        (fun o => if Sparse.get 0 c.t.arrivals r.toNat ≤ Sparse.get 0 k.phases r.toNat then o else { o with wait := .waitb r.toNat (Sparse.get 0 c.t.arrivals r.toNat) }))) ∧
      (¬ onRoute s c r → exec (.waitb r) s = .next (s.scalarFault c fROUTE 0 false))) ∧
    (s.ready c { op := 0x38, clauses := true, boundary := true } →
      (c.t.portions.length = 1 → c.o.stack = [] → onRoute s c r → exec (.repack r) s = .next (s.leaves c { op := 0x38, clauses := true, boundary := true } keep (fun o => { o with wait := .repack r.toNat }))) ∧
      (c.t.portions.length = 1 → c.o.stack = [] → ¬ onRoute s c r → exec (.repack r) s = .next (s.scalarFault c fROUTE 0 false)) ∧
      (¬ (c.t.portions.length = 1 ∧ c.o.stack = []) → exec (.repack r) s = .next (s.scalarFault c fILLOP 0 false)))) ∧
  (∀ (s : State) (c : Cur) (a : BitVec 6) (p : BitVec 4) (close : Bool) (off : Nat), s.ready c (routeReq [a.toNat] true) → off = (c.t.getS a.toNat).toNat →
    (off % 8 = 0 ∧ off + 4 ≤ (s.scratch c.core c.t.task).ways * 32768 → Table.sorted (s.scratch c.core c.t.task).bytes = true →
      ∃ t, exec (if close then .arriveStageClose a p else .arriveStage a p) s = .next t ∧
        (t.scratch c.core c.t.task).readLe off 4 = (s.scratch c.core c.t.task).readLe off 4 ||| 2 ^ (if close then 16 + p.toNat else p.toNat) ∧
        (∀ x, x < off ∨ off + 4 ≤ x → (t.scratch c.core c.t.task).read x = (s.scratch c.core c.t.task).read x) ∧
        t.trains = (s.leaves c (routeReq [a.toNat] true) keep keep).trains ∧ t.tasks = s.paid c (routeReq [a.toNat] true) ∧ t.mem = s.mem) ∧
    (¬ (off % 8 = 0 ∧ off + 4 ≤ (s.scratch c.core c.t.task).ways * 32768) →
      exec (if close then .arriveStageClose a p else .arriveStage a p) s = .next (s.scalarFault c fADDRRANGE off false)))

/-! ### Engines -/

/-- R283, R285, R436, R439: CONT registers its continuation and returns 0, or returns 1 with 64 registered already; WQRY, once its walk is answered, sets its flag and leaves to the distributor a query that names its task by slot and generation. R284, R285: the words of a query: tile i of an x by y by z grid in row-major order is column i mod x, row (i / x) mod y, plane i / (x y), and in column-major order the coordinates change places; past the last tile the first word is all ones. -/
def Obligations.ContinuationsAndQueries : Prop :=
  ((∀ (s : State) (c : Cur) (d a b e : BitVec 6) (q : SReq), q = { op := 0x30, cost := 2, sregs := [d.toNat, a.toNat, b.toNat, e.toNat], swrites := [d.toNat], clauses := true, boundary := true } → s.ready c q →
    (c.t.getS a.toNat).toNat % 8 = 0 → (c.t.getS a.toNat).toNat + 8 ≤ (s.scratch c.core c.t.task).ways * 32768 → goodTarget (c.t.getS e.toNat) →
    (64 ≤ (s.core c.core).conts.length → exec (.cont d a b e) s = .next (s.leaves c q (fun t => t.setS d.toNat 1) keep)) ∧
    ((s.core c.core).conts.length < 64 → ∃ t x, exec (.cont d a b e) s = .next t ∧ (t.core c.core).conts = (s.core c.core).conts ++ [x] ∧
      x.task = c.t.task ∧ x.off = (c.t.getS a.toNat).toNat ∧ x.mask = c.t.getS b.toNat ∧ x.entry = c.t.getS e.toNat ∧ x.arg = c.t.getS d.toNat ∧ x.index = c.t.index ∧ x.ready = false ∧
      t.trains = (s.leaves c q (fun t => t.setS d.toNat 0) keep).trains ∧ t.mem = s.mem ∧
      (∀ k, s.task c.t.task = some k → ∃ k', t.task c.t.task = some k' ∧ k'.outstanding = k.outstanding + 1))) ∧
  (∀ (s : State) (c : Cur) (a b : BitVec 6) (f : BitVec 4) (pa : Nat) (q : SReq), q = wqryReq s a b c → s.ready c q →
    (Instr.wqry a b f).wf = true → (c.t.getS a.toNat).toNat % 32 = 0 → canonical (c.t.getS a.toNat).toNat = true →
    (c.t.getS b.toNat).toNat % 8 = 0 → (c.t.getS b.toNat).toNat + 8 ≤ (s.scratch c.core c.t.task).ways * 32768 →
    s.slotBit (c.pslot s) 0xA0 (c.core / 192) = true → s.coreStops c.core (portionOwner c.core c.slot c.p) (c.pslot s) (c.t.getS a.toNat).toNat = none → (s.leaves c q keep keep).gridAt c (c.t.getS a.toNat).toNat = .ok pa →
    ∃ t x, exec (.wqry a b f) s = .next t ∧ Table.find t.queries s.nextId = some x ∧ x.core = c.core ∧ x.task = c.t.task ∧ x.gen = ((s.task c.t.task).map Task.gen).getD 0 ∧ x.part = c.pslot s ∧ x.flag = f.toNat ∧ x.va = (c.t.getS a.toNat).toNat ∧ x.pa = pa ∧
      x.off = (c.t.getS b.toNat).toNat ∧ t.trains = (s.leaves c q (fun t => { t with wqry := t.wqry ++ [(f.toNat, s.nextId)] }) keep).trains ∧ t.mem = s.mem)) ∧
  (∀ (bs : List Byte) (i : Nat), gridOk bs = true →
    (i < le bs 4 2 * le bs 6 2 * le bs 8 1 → (gridWords bs i).1 % 2 ^ 12 < le bs 4 2 ∧ (gridWords bs i).1 / 2 ^ 12 % 2 ^ 12 < le bs 6 2 ∧ (gridWords bs i).1 / 2 ^ 24 < le bs 8 1 ∧
      (le bs 9 1 = 0 → ((gridWords bs i).1 / 2 ^ 24 * le bs 6 2 + (gridWords bs i).1 / 2 ^ 12 % 2 ^ 12) * le bs 4 2 + (gridWords bs i).1 % 2 ^ 12 = i) ∧
      (le bs 9 1 = 1 → ((gridWords bs i).1 / 2 ^ 24 * le bs 4 2 + (gridWords bs i).1 % 2 ^ 12) * le bs 6 2 + (gridWords bs i).1 / 2 ^ 12 % 2 ^ 12 = i)) ∧
    (le bs 4 2 * le bs 6 2 * le bs 8 1 ≤ i → (gridWords bs i).1 = 0xFFFFFFFF) ∧ (gridWords bs i).2 = i)

/-- R269, R278, R437, R438, R440, R435: MXFORK reserves its program's bound and queues the program on the free pair; RDV returns all ones at once when nothing is to be collected and waits otherwise; COLL and TCP reserve the cost of their bytes and submit their job. -/
def Obligations.EngineSubmissions : Prop :=
  (∀ (s : State) (c : Cur) (a : BitVec 6) (bs : List Byte) (q : SReq), c.core % 2 = 0 → fmtA c.o.fmt ≠ 0 → fmtB c.o.fmt ≠ 0 → s.level ≠ 1 → s.running c.core = none → s.resizes c.core c.t.task = false →
    s.headerRead c (c.t.getS a.toNat).toNat = some (.ok bs) → q = { op := 0x34, extra := le bs 8 8, sregs := [a.toNat], clauses := true, boundary := true } → s.ready c q → c.o.again = .no →
    ∃ t m, exec (.mxfork a) s = .next t ∧ (t.pairOf c.core).progs = (s.pairOf c.core).progs ++ [m] ∧ m.task = c.t.task ∧ m.va = (c.t.getS a.toNat).toNat ∧ m.fmt = c.o.fmt ∧
      m.bound = le bs 8 8 ∧ m.used = 0 ∧ m.ended = false ∧ t.trains = (s.leaves c q keep keep).trains ∧ t.mem = s.mem ∧
      (∀ k, s.task c.t.task = some k → ∃ k', t.task c.t.task = some k' ∧ k'.rsv = k.rsv + le bs 8 8 ∧ k'.spent = k.spent + 1 ∧ k'.alw + 1 + le bs 8 8 = k.alw ∧ k'.outstanding = k.outstanding + 1)) ∧
  (∀ (s : State) (c : Cur) (d : BitVec 6) (q : SReq), q = { op := 0x35, sregs := [d.toNat], swrites := [d.toNat], clauses := true, boundary := true } → s.ready c q →
    ((c.core % 2 = 1 ∨ s.toCollect c.core c.t.task = none) → exec (.rdv d) s = .next (s.leaves c q (fun t => t.setS d.toNat 0xFFFFFFFF) keep)) ∧
    (c.core % 2 = 0 → s.toCollect c.core c.t.task ≠ none → exec (.rdv d) s = .next (s.leaves c q keep (fun o => { o with wait := .rdv d.toNat })))) ∧
  (∀ (s : State) (c : Cur) (a b : BitVec 6) (bs : List Byte) (q : SReq), s.collRead c a = some (.ok bs) → collOk bs = true → s.slotBit (c.pslot s) 0x80 (c.core / 8) = true →
    q = { op := 0x37, cost := 0, extra := 2 + (coBytes bs + 31) / 32, sregs := [a.toNat, b.toNat], clauses := true, boundary := true } → s.ready c q →
    (c.t.getS b.toNat).toNat % 8 = 0 → (c.t.getS b.toNat).toNat + 8 ≤ (s.scratch c.core c.t.task).ways * 32768 →
    exec (.coll a b) s = .next ((s.leaves c q keep keep).collQueue c b bs)) ∧
  (∀ (s : State) (x : LCtx) (o : LR), (Instr.tcp o).wf = true → x.act = 0 → s.readyLane x (tcpReq s o x) → exec (.tcp o) s = .next (s.leavesLane x (tcpReq s o x) keep)) ∧
  (∀ (s : State) (x : LCtx) (o : LR) (bs : List Byte), (Instr.tcp o).wf = true → x.act ≠ 0 → tcpRead s x o = .ok bs → layoutOk bs = true → tcpPre s o x = [] → s.readyLane x (tcpReq s o x) →
    exec (.tcp o) s = .next ((s.leavesLane x (tcpReq s o x) keep).tcpQueue x o bs))

/-! ### Lane integer and cross-lane instructions -/

namespace Sys2Proof.Claims

/-- A result for each live active lane written under a type, with the flags of all lanes (R251, R377). -/
def typed (x : LCtx) (d typ : Nat) (f : Nat → FRes) (t : Train) : Train :=
  (t.writeLanes d ((lanesOf x.act).map (fun l => (l, resultWords typ (f l).1)))).flagUp (BitVec.ofNat 32 ((lanesOf x.act).foldl (fun g l => g ||| (f l).2) 0))
/-- The bits of the live active lanes written in a mask register, the others kept as the clause has them (R170, R366). -/
def maskIn (x : LCtx) (k : BitVec 4) (f : Nat → Bool) (t : Train) : Train :=
  t.laneK x.c.p k.toNat ((x.getK k.toNat &&& ~~~ x.act) ||| maskOf ((lanesOf x.act).filter f))

/-- Instructions whose result is exact before R252 finishes it: constructor, opcode, row, cost, value of the operands as integers of the type (Table 19-1). -/
def exactOps : List ((LR → Instr) × Nat × LRSpec × (LR → Int → Int → Int → Int)) :=
  [(.iadd, 0x001, Row.int2sat, fun _ x y _ => x + y), (.isub, 0x002, Row.int2sat, fun _ x y _ => x - y), (.imul, 0x003, Row.int2sat, fun _ x y _ => x * y),
   (.imulh, 0x004, Row.int2, fun o x y _ => Int.fdiv (x * y) (2 ^ typWidth o.typ.toNat : Nat)), (.imad, 0x005, Row.imad, fun _ x y z => x * y + z),
   (.iabs, 0x006, Row.iabs, fun _ x _ _ => if x < 0 then -x else x), (.ineg, 0x007, Row.ineg, fun _ x _ _ => -x),
   (.imin, 0x008, Row.int2, fun _ x y _ => if x ≤ y then x else y), (.imax, 0x009, Row.int2, fun _ x y _ => if x ≤ y then y else x)]

/-- Instructions on the n-bit patterns of their operands; b is read as 32 bits where the row says so (R361, R363, R364). -/
def bitOps : List ((LR → Instr) × Nat × LRSpec × (LR → Nat → Nat → Nat → Nat → Nat)) :=
  [(.lAnd, 0x00A, Row.int2, fun _ _ x y _ => x &&& y), (.lOr, 0x00B, Row.int2, fun _ _ x y _ => x ||| y), (.lXor, 0x00C, Row.int2, fun _ _ x y _ => x ^^^ y),
   (.andn, 0x00D, Row.int2, fun _ n x y _ => x &&& (2 ^ n - 1 - y)), (.lNot, 0x00E, Row.int1, fun _ n x _ _ => 2 ^ n - 1 - x),
   (.shl, 0x00F, Row.shift, fun _ n x c _ => if c < n then x * 2 ^ c % 2 ^ n else 0), (.shr, 0x010, Row.shift, fun _ n x c _ => if c < n then x / 2 ^ c else 0),
   (.sra, 0x011, Row.shift, fun _ n x c _ => (toSigned n x / ((2 ^ min c n : Nat) : Int) % ((2 ^ n : Nat) : Int)).toNat),
   (.rotl, 0x012, Row.shift, fun _ n x c _ => (x * 2 ^ (c % n) + x / 2 ^ (n - c % n)) % 2 ^ n),
   (.bfe, 0x013, Row.bfe, fun o n x b _ => match fieldOf n b with
     | none => 0
     | some (p, f) => if typSigned o.typ.toNat && decide (2 ^ (f - 1) ≤ x / 2 ^ p % 2 ^ f) then x / 2 ^ p % 2 ^ f + (2 ^ n - 2 ^ f) else x / 2 ^ p % 2 ^ f),
   (.bfi, 0x014, Row.bfi, fun _ n x b z => match fieldOf n b with
     | none => z
     | some (p, f) => z - z / 2 ^ p % 2 ^ f * 2 ^ p + x % 2 ^ f * 2 ^ p),
   (.popc, 0x015, Row.bits1, fun _ n x _ _ => ((List.range n).filter (fun i => x / 2 ^ i % 2 = 1)).length), (.clz, 0x016, Row.bits1, fun _ n x _ _ => n - blen x),
   (.brev, 0x017, Row.bits1, fun _ n x _ _ => (List.range n).foldl (fun v i => v + x / 2 ^ i % 2 * 2 ^ (n - 1 - i)) 0), (.lMov, 0x01B, Row.int1, fun _ _ x _ _ => x)]

/-- The needs of an LR word under its row. -/
def lrNeeds (sp : LRSpec) (op cost : Nat) (o : LR) (x : LCtx) : LReq := lrReq sp op cost o.typ.toNat o x

/-- The source lane of a shuffle from the lane, its segment's size and base, and the operand b (R370). -/
def shuffles : List ((LR → Instr) × Nat × (Nat → Nat → Nat → Nat → Nat)) :=
  [(.shfl, 0x080, fun _ w base k => base + k % w), (.shflup, 0x081, fun l _ base k => if k ≤ l - base then l - k else l),
   (.shfldn, 0x082, fun l w base k => if k ≤ base + w - 1 - l then l + k else l), (.shflx, 0x083, fun l w base k => base + (l ^^^ k) % w)]

end Sys2Proof.Claims

open Sys2Proof.Claims

/-- R252, R361, R363, R364, R356: every integer instruction of Table 19-1 of one result writes in each live active lane the operation on the lane's operands, finished by R252, raises SAT where it clamped, and touches nothing else; LNOP only issues; an ill-formed word of any of them faults ILLOP. -/
def Obligations.LaneIntegerResults : Prop :=
  (∀ op ∈ exactOps, ∀ (s : State) (x : LCtx) (o : LR), s.readyLane x (lrNeeds op.2.2.1 op.2.1 1 o x) →
    ((op.1 o).wf = true → exec (op.1 o) s = .next (s.leavesLane x (lrNeeds op.2.2.1 op.2.1 1 o x)
      (typed x o.d.toNat o.typ.toNat (fun l => intFinal o.typ.toNat o.sat (op.2.2.2 o (x.int o.a o.imm o.typ.toNat l) (x.int o.b o.imm o.typ.toNat l) (x.int o.c o.imm o.typ.toNat l)))))) ∧
    ((op.1 o).wf = false → exec (op.1 o) s = .next (s.laneFault x fILLOP 0))) ∧
  (∀ op ∈ bitOps, ∀ (s : State) (x : LCtx) (o : LR), s.readyLane x (lrNeeds op.2.2.1 op.2.1 1 o x) →
    ((op.1 o).wf = false → exec (op.1 o) s = .next (s.laneFault x fILLOP 0)) ∧
    ((op.1 o).wf = true → exec (op.1 o) s = .next (s.leavesLane x (lrNeeds op.2.2.1 op.2.1 1 o x)
      (typed x o.d.toNat o.typ.toNat (fun l => (op.2.2.2 o (typWidth o.typ.toNat) (x.src o.a.toNat o.imm o.typ.toNat l)
        (if op.2.2.1.b = .w32 then x.u32 o.b o.imm l else x.src o.b.toNat o.imm o.typ.toNat l) (x.src o.c.toNat o.imm o.typ.toNat l), 0)))))) ∧
  (∀ (s : State) (x : LCtx) (o : LR), s.readyLane x { op := 0x000 } →
    ((Instr.lnop o).wf = true → exec (.lnop o) s = .next (s.leavesLane x { op := 0x000 } keep)) ∧
    ((Instr.lnop o).wf = false → exec (.lnop o) s = .next (s.laneFault x fILLOP 0)))

/-- R365-R368: PERMB picks bytes, ICMP writes its condition in the live active lanes' bits of Kd and keeps the others, SEL picks by the clause's mask bit, and IDIV and IREM leave a long-latency result of four au with DZ for a zero divisor. R369-R375: the shuffles read their source lane, 0 with DEADRD from a dead one; VOTE and ELECT write Kd whole; REDU gives every live active lane the fold over all of them and SCAN the fold over those up to it. -/
def Obligations.LaneSelectAndCrossLane : Prop :=
  ((∀ (s : State) (x : LCtx) (o : LR), s.readyLane x (lrNeeds Row.permb 0x018 1 o x) → (Instr.permb o).wf = true →
    exec (.permb o) s = .next (s.leavesLane x (lrNeeds Row.permb 0x018 1 o x) (typed x o.d.toNat 5 (fun l =>
      ((List.range 4).foldl (fun v i => v + permByte (x.u32 o.a o.imm l) (x.u32 o.b o.imm l) (x.u32 o.c o.imm l) i * 2 ^ (8 * i)) 0, 0))))) ∧
  (∀ (s : State) (x : LCtx) (o : LR), s.readyLane x (lrNeeds Row.icmp 0x019 1 o x) → (Instr.icmp o).wf = true →
    exec (.icmp o) s = .next (s.leavesLane x (lrNeeds Row.icmp 0x019 1 o x) (maskIn x o.kd (fun l =>
      (fun (a b : Int) => match o.d.toNat with
        | 0 => decide (a = b)
        | 1 => decide (a ≠ b)
        | 2 => decide (a < b)
        | 3 => decide (a ≤ b)
        | 4 => decide (b < a)
        | _ => decide (b ≤ a)) (x.int o.a o.imm o.typ.toNat l) (x.int o.b o.imm o.typ.toNat l))))) ∧
  (∀ (s : State) (x : LCtx) (o : LR), s.readyLane x (lrNeeds Row.sel 0x01A 1 o x) → (Instr.sel o).wf = true →
    exec (.sel o) s = .next (s.leavesLane x (lrNeeds Row.sel 0x01A 1 o x) (typed x o.d.toNat o.typ.toNat (fun l =>
      (if (x.getK o.kd.toNat).getLsbD l then x.src o.a.toNat o.imm o.typ.toNat l else x.src o.b.toNat o.imm o.typ.toNat l, 0))))) ∧
  (∀ (s : State) (x : LCtx) (o : LR), s.readyLane x (lrNeeds Row.idiv 0x01C 4 o x) → (Instr.idiv o).wf = true →
    exec (.idiv o) s = .next ((s.leavesLane x (lrNeeds Row.idiv 0x01C 4 o x) keep).putLate x o.d.toNat o.typ.toNat o.fs (fun l =>
      if x.int o.b o.imm o.typ.toNat l = 0 then (2 ^ typWidth o.typ.toNat - 1, 2)
      else intFinal o.typ.toNat o.sat (Int.tdiv (x.int o.a o.imm o.typ.toNat l) (x.int o.b o.imm o.typ.toNat l))))) ∧
  (∀ (s : State) (x : LCtx) (o : LR), s.readyLane x (lrNeeds Row.irem 0x01D 4 o x) → (Instr.irem o).wf = true →
    exec (.irem o) s = .next ((s.leavesLane x (lrNeeds Row.irem 0x01D 4 o x) keep).putLate x o.d.toNat o.typ.toNat o.fs (fun l =>
      if x.int o.b o.imm o.typ.toNat l = 0 then ((intFinal o.typ.toNat false (x.int o.a o.imm o.typ.toNat l)).1, 2)
      else intFinal o.typ.toNat false (Int.tmod (x.int o.a o.imm o.typ.toNat l) (x.int o.b o.imm o.typ.toNat l)))))) ∧
  ((∀ op ∈ shuffles, ∀ (s : State) (x : LCtx) (o : LR), s.readyLane x (lrNeeds Row.shfl op.2.1 1 o x) → (op.1 o).wf = true →
    exec (op.1 o) s = .next (s.leavesLane x (lrNeeds Row.shfl op.2.1 1 o x) (typed x o.d.toNat o.typ.toNat (fun l =>
      (fun (w : Nat) => (fun (k : Nat) => if x.c.t.deadm.getLsbD k then (0, 0x100) else (x.src o.a.toNat o.imm o.typ.toNat k, 0)) (op.2.2 l w (l / w * w) (x.u32 o.b o.imm l)))
        (32 / 2 ^ min (x.u32 o.c o.imm l % 8) 5))))) ∧
  (∀ (s : State) (x : LCtx) (o : LR), s.readyLane x (lrNeeds Row.vote 0x084 1 o x) → (Instr.vote o).wf = true →
    exec (.vote o) s = .next (s.leavesLane x (lrNeeds Row.vote 0x084 1 o x) (fun t => t.laneK x.c.p o.kd.toNat (maskOf ((lanesOf x.act).filter (fun l => decide (x.u32 o.a o.imm l ≠ 0))))))) ∧
  (∀ (s : State) (x : LCtx) (o : LR), s.readyLane x (lrNeeds Row.elect 0x087 1 o x) → (Instr.elect o).wf = true →
    exec (.elect o) s = .next (s.leavesLane x (lrNeeds Row.elect 0x087 1 o x) (fun t => t.laneK x.c.p o.kd.toNat (match lanesOf x.act with
      | [] => 0
      | l :: _ => 1#32 <<< l)))) ∧
  (∀ (s : State) (x : LCtx) (o : LR), s.readyLane x (lrNeeds foldRow 0x085 (if o.typ.toNat = 11 then 2 else 1) o x) → (Instr.redu o).wf = true →
    exec (.redu o) s = .next (s.leavesLane x (lrNeeds foldRow 0x085 (if o.typ.toNat = 11 then 2 else 1) o x) (typed x o.d.toNat o.typ.toNat (fun _ => x.fold o (lanesOf x.act))))) ∧
  (∀ (s : State) (x : LCtx) (o : LR), s.readyLane x (lrNeeds foldRow 0x086 (if o.typ.toNat = 11 then 2 else 1) o x) → (Instr.scan o).wf = true →
    exec (.scan o) s = .next (s.leavesLane x (lrNeeds foldRow 0x086 (if o.typ.toNat = 11 then 2 else 1) o x) (typed x o.d.toNat o.typ.toNat (fun l =>
      x.fold o ((lanesOf x.act).filter (fun k => if o.kd.getLsbD 3 then decide (k < l) else decide (k ≤ l))))))))

namespace Sys2Proof.Claims

/-- The integer instructions of Table 19-1 with their opcode, row and cost. -/
def integerOps : List ((LR → Instr) × Nat × LRSpec × Nat) :=
  exactOps.map (fun op => (op.1, op.2.1, op.2.2.1, 1)) ++ bitOps.map (fun op => (op.1, op.2.1, op.2.2.1, 1)) ++
    [(.permb, 0x018, Row.permb, 1), (.icmp, 0x019, Row.icmp, 1), (.sel, 0x01A, Row.sel, 1), (.idiv, 0x01C, Row.idiv, 4), (.irem, 0x01D, Row.irem, 4)]

end Sys2Proof.Claims

open Sys2Proof.Claims

/-- R252: an integer instruction with rnd or ftz not 0 faults ILLOP precisely; a finished integer result lies in the type's n bits; with sat = 0 it is the exact value modulo 2^n and raises nothing; with sat = 1 it is the exact value when that is in the type's range, and else the nearer end of the range with SAT. -/
def Obligations.IntegerFinish : Prop :=
  (∀ op ∈ integerOps, ∀ (s : State) (x : LCtx) (o : LR), (o.rnd ≠ 0 ∨ o.ftz = true) → s.readyLane x (lrNeeds op.2.2.1 op.2.1 op.2.2.2 o x) → exec (op.1 o) s = .next (s.laneFault x fILLOP 0)) ∧
  ∀ (t : Nat) (r : Int), t < 8 →
    (intFinal t true r).1 < 2 ^ typWidth t ∧ (intFinal t false r).1 < 2 ^ typWidth t ∧
    ((intFinal t false r).1 : Int) % (2 ^ typWidth t : Nat) = r % (2 ^ typWidth t : Nat) ∧ (intFinal t false r).2 = 0 ∧
    (intLo t ≤ r → r ≤ intHi t → intOf t (intFinal t true r).1 = r ∧ (intFinal t true r).2 = 0 ∧ intOf t (intFinal t false r).1 = r) ∧
    (r < intLo t → intOf t (intFinal t true r).1 = intLo t ∧ (intFinal t true r).2 = 0x20) ∧
    (intHi t < r → intOf t (intFinal t true r).1 = intHi t ∧ (intFinal t true r).2 = 0x20)

/-- R170, R251, R356 (the frame of a lane result): a result written in the live active lanes is read there, in the one word or the two of its type, and nowhere else: every other lane of the destination, every other lane register, the one behind a result of one word among them, and every register of another kind but XFLAGS stays. -/
def Obligations.LaneWriteFrame : Prop :=
  ∀ (x : LCtx) (d typ : Nat) (f : Nat → FRes) (t : Train), Table.sorted t.v = true →
    (∀ l, l < 32 → x.act.getLsbD l = true → ∀ i w, (resultWords typ (f l).1)[i]? = some w → (typed x d typ f t).getV (d + i) l = w) ∧
    (∀ r l, l < 32 → (x.act.getLsbD l = false ∨ r < d ∨ d + (resultWords typ (f l).1).length ≤ r) → (typed x d typ f t).getV r l = t.getV r l) ∧
    (typed x d typ f t).s = t.s ∧ (typed x d typ f t).k = t.k ∧ (typed x d typ f t).b = t.b ∧ (typed x d typ f t).deadm = t.deadm ∧ (typed x d typ f t).portions = t.portions ∧
    (typed x d typ f t).xflags &&& t.xflags = t.xflags

/-! ### Lane floating point -/

namespace Sys2Proof.Claims

/-- Floating instructions with a result at once: constructor, opcode, row, operation on the formed operands (Table 20-1, R383, R386). -/
def floatOps : List ((LR → Instr) × Nat × LRSpec × (LR → FFmt → Nat → Nat → Nat → Nat → FRes)) :=
  [(.fadd, 0x100, Row.float2, fun o f m a b _ => f.add m o.ftz (f.decode a) (f.decode b)),
   (.fsub, 0x101, Row.float2, fun o f m a b _ => f.add m o.ftz (f.decode a) (f.decode b).negate),
   (.fmul, 0x102, Row.float2, fun o f m a b _ => f.mul m o.ftz (f.decode a) (f.decode b)),
   (.ffma, 0x103, Row.ffma, fun o f m a b c => f.fma m o.ftz (f.decode a) (f.decode b) (f.decode c)),
   (.fmin, 0x104, Row.fminmax, fun _ f _ a b _ => f.minmax false a b), (.fmax, 0x105, Row.fminmax, fun _ f _ a b _ => f.minmax true a b),
   (.frnd, 0x108, Row.frnd, fun _ f m a _ _ => f.integral m (f.decode a))]
/-- Floating instructions of long latency (R388, R389). -/
def longOps : List ((LR → Instr) × Nat × LRSpec × (LR → FFmt → Nat → Nat → Nat → Nat → FRes)) :=
  [(.frcp, 0x109, Row.flong, fun o f m a _ _ => f.rcp m o.ftz (f.decode a)), (.frsq, 0x10A, Row.flong, fun o f m a _ _ => f.rsqrt m o.ftz (f.decode a)),
   (.fsqrt, 0x10B, Row.flong, fun o f m a _ _ => f.sqrt m o.ftz (f.decode a)), (.fexp2, 0x10C, Row.flong, fun o f m a _ _ => f.exp2 m o.ftz a (f.decode a)),
   (.flog2, 0x10D, Row.flong, fun o f m a _ _ => f.log2 m o.ftz a (f.decode a)), (.fsinpi, 0x10E, Row.flong, fun o f m a _ _ => f.sinpi m o.ftz a (f.decode a)),
   (.fcospi, 0x10F, Row.flong, fun o f m a _ _ => f.cospi m o.ftz a (f.decode a)), (.fdiv, 0x110, Row.fdiv, fun o f m a b _ => f.div m o.ftz (f.decode a) (f.decode b))]
/-- The cost of a floating instruction: twice as much for FP64 (R117). -/
def fcost (o : LR) (n : Nat) : Nat := if o.typ.toNat = 11 then 2 * n else n

end Sys2Proof.Claims

open Sys2Proof.Claims

/-- R377-R389: the floating instructions write in each live active lane their operation on the operands R378 forms, clamped where sat says so, with the flags of all lanes ORed; those of long latency leave the same result outstanding at four times the cost; FCMP writes mask bits, FCLASS a class, FSCALE scales by the integer b. -/
def Obligations.LaneFloatResults : Prop :=
  (∀ op ∈ floatOps, ∀ (s : State) (x : LCtx) (o : LR), s.readyLane x (lrNeeds op.2.2.1 op.2.1 (fcost o 1) o x) → (op.1 o).wf = true →
    exec (op.1 o) s = .next (s.leavesLane x (lrNeeds op.2.2.1 op.2.1 (fcost o 1) o x) (typed x o.d.toNat o.typ.toNat (x.float o (op.2.2.2 o))))) ∧
  (∀ op ∈ longOps, ∀ (s : State) (x : LCtx) (o : LR), s.readyLane x (lrNeeds op.2.2.1 op.2.1 (fcost o 4) o x) → (op.1 o).wf = true →
    exec (op.1 o) s = .next ((s.leavesLane x (lrNeeds op.2.2.1 op.2.1 (fcost o 4) o x) keep).putLate x o.d.toNat o.typ.toNat o.fs (x.float o (op.2.2.2 o)))) ∧
  (∀ (s : State) (x : LCtx) (o : LR), s.readyLane x (lrNeeds Row.fcmp 0x106 (fcost o 1) o x) → (Instr.fcmp o).wf = true →
    exec (.fcmp o) s = .next (s.leavesLane x (lrNeeds Row.fcmp 0x106 (fcost o 1) o x) (fun t =>
      (maskIn x o.kd (fun l => ((fmtOfTyp o.typ.toNat).compare o.d.toNat (x.fop o o.a 0 0 l) (x.fop o o.b 1 0 l)).1) t).flagUp
        (BitVec.ofNat 32 ((lanesOf x.act).foldl (fun g l => g ||| ((fmtOfTyp o.typ.toNat).compare o.d.toNat (x.fop o o.a 0 0 l) (x.fop o o.b 1 0 l)).2) 0))))) ∧
  (∀ (s : State) (x : LCtx) (o : LR), s.readyLane x (lrNeeds Row.fclass 0x107 (fcost o 1) o x) → (Instr.fclass o).wf = true →
    exec (.fclass o) s = .next (s.leavesLane x (lrNeeds Row.fclass 0x107 (fcost o 1) o x)
      (typed x o.d.toNat 5 (fun l => ((fmtOfTyp o.typ.toNat).classify (x.src o.a.toNat o.imm o.typ.toNat l), 0))))) ∧
  (∀ (s : State) (x : LCtx) (o : LR), s.readyLane x (lrNeeds Row.fscale 0x111 (fcost o 1) o x) → (Instr.fscale o).wf = true →
    exec (.fscale o) s = .next (s.leavesLane x (lrNeeds Row.fscale 0x111 (fcost o 1) o x)
      (typed x o.d.toNat o.typ.toNat (fun l => x.float o (fun f m a _ _ => f.scale m o.ftz (x.src32 o.b.toNat o.imm l).toInt (f.decode a)) l))))

/-- R254: a value that a format represents rounds to itself in every mode, raising nothing: for every pattern of FP16, BF16, FP32 and FP64 that is no NaN. R254, R381: sums of NaNs and infinities: any NaN operand gives the canonical NaN, with NV only for a signalling one; infinities of opposite sign give it with NV; an infinity and anything finite, or the same infinity, give the infinity; an infinity times a zero gives the canonical NaN with NV, and times anything else the infinity of the product's sign; and addition and multiplication commute. -/
def Obligations.FloatRounding : Prop :=
  (∀ f ∈ [f16, bf16, f32, f64], ∀ (mode x : Nat), mode < 4 → x < 2 ^ f.width → (f.decode x).isNan = false → f.ofVal mode false (f.decode x) = (x, 0)) ∧
  (∀ f ∈ [f16, bf16, f32, f64], ∀ (mode : Nat) (ftz : Bool) (a b : FVal),
    f.add mode ftz a b = f.add mode ftz b a ∧ f.mul mode ftz a b = f.mul mode ftz b a ∧
    (a.isNan = true → f.add mode ftz a b = (f.nan, if a.isSig || b.isSig then 1 else 0) ∧ f.mul mode ftz a b = (f.nan, if a.isSig || b.isSig then 1 else 0)) ∧
    (∀ n, a = .inf n → b = .inf (!n) → f.add mode ftz a b = (f.nan, 1)) ∧ (∀ n, a = .inf n → b.isNan = false → b ≠ .inf (!n) → f.add mode ftz a b = (f.infinity n, 0)) ∧
    (∀ n m, a = .inf n → b = .zero m → f.mul mode ftz a b = (f.nan, 1)) ∧
    (∀ n x m e, a = .inf n → (b = .inf x ∨ b = .fin x m e) → f.mul mode ftz a b = (f.infinity (n != x), 0)))

/-- R390, R392-R396: CVT converts as `LCtx.cvt`; QSX quantises the block and reports lost lanes in Kd, PKSX packs it, UPSX unpacks it, DQSX decodes a lane code; with no live lane QSX writes 0 to Kd, and PKSX and UPSX write nothing. -/
def Obligations.ConversionsAndSharedExponents : Prop :=
  (∀ (s : State) (x : LCtx) (o : LR) (q : LReq), q = lrReq (cvtRow o) 0x200 (if o.typ.toNat = 11 ∨ o.kd.toNat = 11 then 2 else 1) o.kd.toNat o x → s.readyLane x q → (Instr.cvt o).wf = true →
    exec (.cvt o) s = .next (s.leavesLane x q (typed x o.d.toNat o.typ.toNat (x.cvt o)))) ∧
  (∀ (s : State) (x : LCtx) (o : LR), s.readyLane x (lrNeeds Row.qsx 0x201 1 o x) → (Instr.qsx o).wf = true →
    (x.act = 0 → exec (.qsx o) s = .next (s.leavesLane x (lrNeeds Row.qsx 0x201 1 o x) (fun t => t.laneK x.c.p o.kd.toNat 0))) ∧
    (x.act ≠ 0 → ∀ q, q = quantise (x.sxk o) (fmtExpm x.cl.fmt) (fmtOvp x.cl.fmt) ((x.src32 o.b.toNat o.imm (lowLane x.act)).toNat % 256)
        ((List.range 32).map (fun j => if x.act.getLsbD j then (fmtOfTyp o.typ.toNat).decode ((x.src32 o.a.toNat o.imm j).toNat % 2 ^ (fmtOfTyp o.typ.toNat).width) else .zero false)) →
      exec (.qsx o) s = .next (s.leavesLane x (lrNeeds Row.qsx 0x201 1 o x) (fun t =>
        ((t.writeLanes o.d.toNat ((lanesOf x.act).map (fun l => (l, [BitVec.ofNat 32 (laneCode (x.sxk o) q.block l)])))).flagUp (BitVec.ofNat 32 q.flags)).laneK x.c.p o.kd.toNat
          (maskOf ((lanesOf x.act).filter (fun l => q.lost[l]?.getD false))))))) ∧
  (∀ (s : State) (x : LCtx) (o : LR), s.readyLane x (lrNeeds Row.sx1 0x202 1 o x) → (Instr.pksx o).wf = true →
    (x.act = 0 → exec (.pksx o) s = .next (s.leavesLane x (lrNeeds Row.sx1 0x202 1 o x) keep)) ∧
    (x.act ≠ 0 → exec (.pksx o) s = .next (s.leavesLane x (lrNeeds Row.sx1 0x202 1 o x) (fun t =>
      (t.writeLanes o.d.toNat ((lanesOf x.act).map (fun l => (l, [BitVec.ofNat 32 (if l < sxBytes (x.sxk o) / 4 then (blockOfCodes (x.sxk o) (x.allLanes o)).pack (x.sxk o) / 2 ^ (32 * l) else 0)])))).flagUp
        (BitVec.ofNat 32 (x.deadRead 32)))))) ∧
  (∀ (s : State) (x : LCtx) (o : LR), s.readyLane x (lrNeeds Row.sx1 0x203 1 o x) → (Instr.upsx o).wf = true →
    (x.act = 0 → exec (.upsx o) s = .next (s.leavesLane x (lrNeeds Row.sx1 0x203 1 o x) keep)) ∧
    (x.act ≠ 0 → ∀ b, b = SxBlock.unpack (x.sxk o) ((List.range (sxBytes (x.sxk o) / 4)).foldl (fun v i => v + x.allLanes o i * 2 ^ (32 * i)) 0) →
      exec (.upsx o) s = .next (s.leavesLane x (lrNeeds Row.sx1 0x203 1 o x) (fun t =>
        (t.writeLanes o.d.toNat ((lanesOf x.act).map (fun l => (l, [BitVec.ofNat 32 (laneCode (x.sxk o) b l)])))).flagUp (BitVec.ofNat 32 (x.deadRead (sxBytes (x.sxk o) / 4))))))) ∧
  (∀ (s : State) (x : LCtx) (o : LR), s.readyLane x (lrNeeds Row.sx1 0x204 1 o x) → (Instr.dqsx o).wf = true →
    exec (.dqsx o) s = .next (s.leavesLane x (lrNeeds Row.sx1 0x204 1 o x) (typed x o.d.toNat 5 (fun l => (decodeCode (x.sxk o) (x.src32 o.a.toNat o.imm l).toNat, 0)))))

/-! ### Lane memory -/

namespace Sys2Proof.Claims

/-- The lane loads and stores with their opcode and what each performs (Table 21-2). -/
inductive LaneAccess where
  | ld
  | ldh
  | ldc
  | st
  | stc
  | pref
  | atom
/-- The instruction of a form. -/
def LaneAccess.instr (o : LM) : LaneAccess → Instr
  | .ld => .ld o
  | .ldh => .ldh o
  | .ldc => .ldc o
  | .st => .st o
  | .stc => .stc o
  | .pref => .pref o
  | .atom => .atom o
/-- Its opcode. -/
def LaneAccess.op : LaneAccess → Nat
  | .ld => 0x300
  | .st => 0x301
  | .ldc => 0x302
  | .stc => 0x303
  | .ldh => 0x304
  | .pref => 0x305
  | .atom => 0x380
/-- Its cost beside g (R117). -/
def LaneAccess.cost : LaneAccess → Nat
  | .atom => 2
  | _ => 1
/-- The record it names, as its clause's CLS left it (R170). -/
def laneRec (x : LCtx) (o : LM) : BitVec 256 := Sparse.get 0 x.cl.b o.b.toNat
/-- Whether its record allows it (R185, R320, R411, R414). -/
def LaneAccess.allows (x : LCtx) (o : LM) (f : LaneAccess) : Bool :=
  recOk (laneRec x o) && decide (2 ^ o.w.toNat * rE (laneRec x o) ≤ 64) && (match f with
    | .ld => true
    | .st => true
    | .ldh => rKind (laneRec x o) = 0 || rKind (laneRec x o) = 2 || rKind (laneRec x o) = 4
    | .pref => rKind (laneRec x o) = 0 || rKind (laneRec x o) = 2 || rKind (laneRec x o) = 4
    | .ldc => rKind (laneRec x o) = 4
    | .stc => decide (rKind (laneRec x o) = 4) && decide (x.stcCount o ≠ 0)
    | .atom => !x.badAtom o)
/-- The access it performs: the elements of its live active lanes with the bytes they bring. -/
def LaneAccess.acc (s : State) (x : LCtx) (o : LM) : LaneAccess → Acc
  | .ld => (s.lmAcc x o .load (.lanes o.d.toNat) 1 id).1
  | .ldh => (s.lmAcc x o .loadHome (.lanes o.d.toNat) 1 id).1
  | .ldc => (s.lmAcc x o .consume (.lanes o.d.toNat) 1 id).1
  | .st => (s.lmAcc x o .store .nowhere 1 (x.storeVal o)).1
  | .stc => (s.lmAcc x o (.storeCounted (x.stcCount o)) .nowhere 1 (x.storeVal o)).1
  | .pref => (s.lmAcc x o .prefetch .nowhere 1 id).1
  | .atom => { (s.lmAcc x o (.atomic (lmAop o)) (.lanes o.d.toNat) 2
      (fun e => { e with val := x.opVal o (lmData o) e.lane, cmp := if lmAop o = 10 then x.opVal o (lmCmp o) e.lane else 0 })).1 with
        scope := if o.scope = 0 then rScope (laneRec x o) else o.scope.toNat - 1, rel := o.hint.getLsbD 1, acq := o.hint.getLsbD 0, keep := true, hint := 0 }
/-- Its needs: the registers it names, and its cost with g (R117). -/
def LaneAccess.req (s : State) (x : LCtx) (o : LM) (f : LaneAccess) : LReq :=
  { op := f.op, cost := f.cost + s.touchLm x o
    reads := selRegs o.i.toNat false ++ (match f with
      | .st => x.dRegs o
      | .stc => x.dRegs o
      | .atom => x.opRegs o (lmData o) ++ (if lmAop o = 10 then x.opRegs o (lmCmp o) else [])
      | _ => [])
    writes := match f with
      | .ld => x.dRegs o
      | .ldh => x.dRegs o
      | .ldc => x.dRegs o
      | .atom => x.dRegs o
      | _ => []
    sregs := selScalars o.i.toNat
    boundary := match f with
      | .ld => decide (rKind (laneRec x o) = 3)
      | .st => decide (rKind (laneRec x o) = 3)
      | .ldc => true
      | .atom => true
      | _ => false
    memory := true, stall := s.memStall x.c (f.acc s x o) }

end Sys2Proof.Claims

open Sys2Proof.Claims

/-- R409-R414: LD, LDH, LDC, ST, STC, PREF and ATOM, well formed and with a record that allows them, are charged their cost and g and perform their access on the elements of their live active lanes, with the faults found in forming them; a record that does not faults ILLOP. R397-R399: OUTL of no appending lane only issues; else it performs the add on its list's header for the appending lanes; an ill-formed word or a record it does not take faults ILLOP. -/
def Obligations.LaneAccesses : Prop :=
  (∀ (f : LaneAccess) (s : State) (x : LCtx) (o : LM), s.readyLane x (f.req s x o) →
    ((f.instr o).wf = true → f.allows x o = true →
      exec (f.instr o) s = .next ((s.leavesLane x (f.req s x o) keep).access x.c.core x.c.slot x.c.p (f.acc s x o) (s.formLm x o).2)) ∧
    ((f.instr o).wf = false ∨ f.allows x o = false → exec (f.instr o) s = .next (s.laneFault x fILLOP 0))) ∧
  (∀ (s : State) (x : LCtx) (o : LM) (q : LReq),
    q = { op := 0x205, reads := selRegs o.i.toNat false ++ [o.d.toNat], kregs := [o.kd.toNat], sregs := selScalars o.i.toNat, memory := true, stall := s.memStall x.c (State.outlAcc x o).1 } →
    s.readyLane x q →
    ((Instr.outl o).wf = true → x.badOutl o = false →
      ((∀ l < 32, x.act.getLsbD l = true → (x.getK o.kd.toNat).getLsbD l = false) → exec (.outl o) s = .next (s.leavesLane x q keep)) ∧
      ((∃ l < 32, x.act.getLsbD l = true ∧ (x.getK o.kd.toNat).getLsbD l = true) →
        exec (.outl o) s = .next ((s.leavesLane x q keep).access x.c.core x.c.slot x.c.p (State.outlAcc x o).1 (State.outlAcc x o).2))) ∧
    ((Instr.outl o).wf = false ∨ x.badOutl o = true → exec (.outl o) s = .next (s.laneFault x fILLOP 0)))

/-! ### Registers, ownership, the package controller -/

namespace Sys2Proof.Claims

/-- A master's write of the register at `off` is accepted (R50, R55, R76), no claim being left to be judged (R56). -/
def accepts (s : State) (off : Nat) : Prop := s.owner.claims = [] ∧ s.writeVerdict s.ev.who off = .ok
/-- The key hash that the CLAIMKEY copy of master `c` holds (R56). -/
def keyOf (s : State) (c : Nat) : BitVec 256 := s.reg (claimkeyOff (c - 1) 3) ++ s.reg (claimkeyOff (c - 1) 2) ++ s.reg (claimkeyOff (c - 1) 1) ++ s.reg (claimkeyOff (c - 1) 0)

end Sys2Proof.Claims

open Sys2Proof.Claims

/-- R9: a field set in a register reads back, and every other field and every other register stays; a plain write stores the RW bits, clears the W1C bits written 1 and keeps the rest. -/
def Obligations.RegisterFields : Prop :=
  ∀ (s : State) (off : Nat), Table.sorted s.bar = true →
    (∀ lo n v, lo + n ≤ 64 → (s.setRegBits off lo n v).regBits off lo n = v % 2 ^ n ∧
      (∀ i, i < lo ∨ lo + n ≤ i → ((s.setRegBits off lo n v).reg off).getLsbD i = (s.reg off).getLsbD i) ∧ (∀ o, o ≠ off → (s.setRegBits off lo n v).reg o = s.reg o)) ∧
    (∀ v, (∀ i, i < 64 → ((s.plainWrite off v).reg off).getLsbD i =
        if (writeMask off).getLsbD i then v.getLsbD i else if (w1cMask off).getLsbD i && v.getLsbD i then false else (s.reg off).getLsbD i) ∧
      (∀ o, o ≠ off → (s.plainWrite off v).reg o = s.reg o))

/-- R56-R58: a complete claim of a vacant part waits for its interval, any other sets CLERR; at the end of the interval the master of lowest code owns the part and the others' CLERR is set; HANDOFF names a successor, whose HANDACK within 100 ms transfers the ownership; an older handoff is cancelled; the loss of the owner's path leaves the part vacant. -/
def Obligations.Ownership : Prop :=
  (∀ (s : State) (c : Nat), accepts s claimgoOff → masterCode s.ev.who = c → c ≠ 0 → s.ev.val = 1 →
    (Sparse.get 0 s.owner.written c = 15 → s.regBits ownstatOff 0 2 = 0 →
      ∃ t, exec .claimgo s = .next t ∧ t.owner.claims = [(c, keyOf s c)] ∧ t.owner.interval = s.clock / 100 ∧ t.owner.keyHash = s.owner.keyHash ∧ t.bar = s.bar) ∧
    (Sparse.get 0 s.owner.written c ≠ 15 ∨ s.regBits ownstatOff 0 2 ≠ 0 →
      ∃ t, exec .claimgo s = .next t ∧ t.bar = (s.setRegBits ownstatOff (7 + c) 1 1).bar ∧ t.owner.claims = [] ∧ t.owner.keyHash = s.owner.keyHash)) ∧
  (∀ (s : State) (c : Nat) (key : BitVec 256), Table.sorted s.bar = true → (c, key) ∈ s.owner.claims → 1 ≤ c → c ≤ 3 → s.owner.interval ≠ s.clock / 100 → s.regBits ownstatOff 0 2 = 0 →
    (∀ x ∈ s.owner.claims, x = (c, key) ∨ (c < x.1 ∧ x.1 ≤ 3)) →
    ∃ t, exec .arbitrationIntervalEnd s = .next t ∧ t.regBits ownstatOff 0 2 = c ∧ t.owner.keyHash = key ∧ t.owner.claims = [] ∧
      (∀ x ∈ s.owner.claims, c < x.1 → t.regBits ownstatOff (7 + x.1) 1 = 1)) ∧
  (∀ (s : State), s.owner.interval = s.clock / 100 → exec .arbitrationIntervalEnd s = .next s) ∧
  (∀ (s : State), accepts s handoffOff → exec .handoff s =
    .next { s.setRegBits ownstatOff 4 2 s.ev.val.toNat with owner := { s.owner with handoffAt := s.time } }) ∧
  (∀ (s : State) (c : Nat), accepts s handackOff → masterCode s.ev.who = c → s.ev.val = 1 →
    (c ≠ 0 → s.regBits ownstatOff 4 2 = c → s.time - s.owner.handoffAt ≤ 8 * 100000000 → exec .handack s =
      .next { (s.setRegBits ownstatOff 0 2 c).setRegBits ownstatOff 4 2 0 with owner := { s.owner with keyHash := keyOf s c } }) ∧
    (c ≠ 0 → s.regBits ownstatOff 4 2 ≠ c → s.time - s.owner.handoffAt ≤ 8 * 100000000 → exec .handack s = .next (s.refuseWrite s.ev.who handackOff))) ∧
  (∀ (s : State), s.regBits ownstatOff 4 2 ≠ 0 → exec .handoffTimeout s =
    .next (if 8 * 100000000 < s.time - s.owner.handoffAt then s.setRegBits ownstatOff 4 2 0 else s)) ∧
  (∀ (s : State), exec .ownerPathLoss s = .next (s.setRegBits ownstatOff 0 2 0))

/-- The registers that a store treats by more than their bits: a partition slot's, a queue's, the access table, the number of VFs, the apertures, the claim keys, the attestation blocks, and the sums of the counters. -/
def Sys2Proof.Claims.specialStore (off : Nat) : Prop :=
  (0x400000 ≤ off ∧ off < 0x410400) ∨ (0x800000 ≤ off ∧ off < 0x840000) ∨ (0x460000 ≤ off ∧ off < 0x484000) ∨ (0x110 ≤ off ∧ off ≤ 0x400) ∨ (0x10020 ≤ off ∧ off < 0x10080) ∨
    (0x18000 ≤ off ∧ off < 0x1A000) ∨ (counterOff 65 0 ≤ off ∧ off ≤ counterOff 65 6)

/-- R39, R48, R49, R50, R55, R59, R60, R76: a register write at an offset that is no multiple of 8, that lies in no block, that is another master's copy, that only the host writes, or that a VF's view does not hold, changes nothing, nor does one of a VF above NumVFs, nor in recovery one of a VF or one outside the global, trust and mailbox blocks. Of the rest, one that the access table refuses raises class 0x20; one that only the owner may make, from another master, and one of a VF in the link blocks, is refused: NOWNCNT counts it, saturating, OWNLAST holds its master and offset, and no other register but those of the event ring, and no train, task, core or frame changes; one that a step of its own acts on leaves the register to it; every other one stores: a register that is not special as its write mask and its W1C bits say, the others as their rules say: of these, NumVFs above 64 and an aperture size outside 1 GiB to 1 TiB for the PF, or 1 to 64 GiB for a VF, are not stored. -/
def Obligations.PackageController : Prop :=
  (∀ (s : State) (w : Master) (off : Nat) (hidden refused : Bool), s.owner.claims = [] → s.ev.who = w → ownOff w s.ev.x = off →
    hidden = (decide (masterCode w = 0) && !s.vfMay (masterId w) off && !(linkBlock off && s.vfOn (masterId w))) →
    refused = (if masterCode w = 0 then linkBlock off else ownerOnly off && !s.isOwner w) →
    (off % 8 ≠ 0 ∨ inBlock off = false ∨ otherBank w off = true ∨ (hostOnly off = true ∧ w ≠ .host) ∨ hidden = true ∨ (s.owner.recovery = true ∧ 0x30000 ≤ off) → exec .registerWrite s = .next s) ∧
    (off % 8 = 0 → inBlock off = true → otherBank w off = false → (hostOnly off = false ∨ w = .host) → hidden = false → (s.owner.recovery = false ∨ off < 0x30000) →
      (s.accessOk 8 (masterId w) 2 off = false → exec .registerWrite s = .next (s.event none 0x20 8 (masterId w) 0 0 0)) ∧
      (s.accessOk 8 (masterId w) 2 off = true → refused = true → exec .registerWrite s = .next (s.refuseWrite w off)) ∧
      (s.accessOk 8 (masterId w) 2 off = true → refused = false →
        (ownStep off = false → isRequest off s.ev.val = false → exec .registerWrite s = .next (s.storeReg w off s.ev.val)) ∧
        (ownStep off = true ∨ isRequest off s.ev.val = true → exec .registerWrite s = .next s)))) ∧
  (∀ (s : State) (n off : Nat), s.vfMay n off = true → s.owner.recovery = false ∧ 1 ≤ n ∧ n ≤ s.regBits numVfsOff 0 7) ∧
  (∀ (s : State) (w : Master) (off : Nat), Table.sorted s.bar = true →
    (s.refuseWrite w off).regBits ownstatOff 16 16 = min 0xFFFF (s.regBits ownstatOff 16 16 + 1) ∧ (s.refuseWrite w off).regBits ownstatOff 32 32 = masterCode w * 2 ^ 30 + off % 2 ^ 26 ∧
    (s.refuseWrite w off).regBits ownstatOff 0 16 = s.regBits ownstatOff 0 16 ∧
    (∀ o, o ≠ ownstatOff → o ≠ ringOff 0 16 → o ≠ ringOff 0 24 → (s.refuseWrite w off).reg o = s.reg o) ∧
    (s.refuseWrite w off).tasks = s.tasks ∧ (s.refuseWrite w off).trains = s.trains ∧ (s.refuseWrite w off).owner = s.owner ∧ (s.refuseWrite w off).fot = s.fot ∧
    (s.refuseWrite w off).cores = s.cores) ∧
  (∀ (s : State) (w : Master) (off : Nat) (v : W64), (¬ specialStore off → s.storeReg w off v = s.plainWrite off v) ∧
    (off = numVfsOff → s.storeReg w off v = if 64 < v.toNat % 128 then s else s.plainWrite off v) ∧
    (off = apsizeOff → (v.toNat % 64 < 30 ∨ 40 < v.toNat % 64) → s.storeReg w off v = s) ∧ (off = vfapsizeOff → (v.toNat % 64 < 30 ∨ 36 < v.toNat % 64) → s.storeReg w off v = s))

/-- R59: a good image of a stage is accepted and its header kept, that of stage 1 ending recovery; a bad one sets FWFAIL of its stage, for stage 3 leaves no die usable, and for stage 1 begins recovery with no die usable. R60: ATTGO of 1 sets ATTBUSY and queues its requester, once; another value does nothing; the first that waits gets its signed report, with ATTDONE set and ATTBUSY clear, and the key hash stays. -/
def Obligations.FirmwareAndAttestation : Prop :=
  (∀ (s : State) (r : Nat), masterId s.ev.who = r → accepts s (attgoOff r) →
    (s.ev.val ≠ 1 → exec .attgo s = .next s) ∧
    (s.ev.val = 1 → r ∉ s.owner.attQueue → s.regBits (attdoneOff r) 0 1 = 0 →
      exec .attgo s = .next { s.setRegBits (attdoneOff r) 1 1 1 with owner := { s.owner with attQueue := s.owner.attQueue ++ [r] } }) ∧
    (s.ev.val = 1 → (r ∈ s.owner.attQueue ∨ s.regBits (attdoneOff r) 0 1 = 1) → exec .attgo s = .next (s.setRegBits (attdoneOff r) 1 1 1))) ∧
  (∀ (s : State) (r : Nat) (q : List Nat), s.owner.attQueue = r :: q → s.ev.x = r → ∀ body, body = s.reportBody r → exec .attestationSigned s =
    .next (State.setRegBits { s with owner := { s.owner with attQueue := q, reports := Table.put s.owner.reports r (body ++ Config.slhSign Config.pset body) } }
      (attdoneOff r) 0 2 1)) ∧
  (∀ (s : State), (s.ev.x = 1 ∨ s.ev.x = 2 ∨ s.ev.x = 3) →
    (imageGood s.ev.x s.ev.bytes = true → exec .firmwareStageVerify s =
      .next { s with owner := { s.owner with stages := Table.put s.owner.stages s.ev.x (s.ev.bytes.take 0x80), recovery := s.owner.recovery && decide (s.ev.x ≠ 1) } }) ∧
    (imageGood s.ev.x s.ev.bytes = false →
      (s.ev.x = 1 → exec .firmwareStageVerify s = .next { s.setRegBits svcstatOff 24 8 0 with owner := { s.owner with recovery := true } }) ∧
      (s.ev.x = 2 → exec .firmwareStageVerify s = .next (s.setRegBits fwfailOff 2 1 1)) ∧
      (s.ev.x = 3 → exec .firmwareStageVerify s = .next ((s.setRegBits fwfailOff 3 1 1).setRegBits svcstatOff 24 8 0))))

/-- R29-R31, R62, R89, R90: a die becomes usable when it and its stack have trained, and a failed training sets DIEFAIL; DIERET retires only dies that are not usable; a thermal event stops the die, is told to the owner and unwinds the die's tasks with status RESET; the owner clears it at 95 °C or less; a lower rail setpoint starts the switch to DEC-TED, whose end sets MODE 2, and at whose end the device's writes that waited there are done; a reset leaves the reset state. -/
def Obligations.DiesAndReset : Prop :=
  (∀ (s : State) (d : Nat), s.ev.x = d → d < 8 → s.owner.recovery = false →
    (s.ev.ok = false → exec .dieTrainingComplete s = .next ((s.setDie d { s.die d with failed := true }).setRegBits svcstatOff (16 + d) 1 1)) ∧
    (s.ev.ok = true → s.ev.yes = true → (s.die d).dieOk = true → (s.die d).failed = false → s.regBits fwfailOff 3 1 = 0 → s.regBits svcstatOff (8 + d) 1 = 0 →
      exec .dieTrainingComplete s = .next ((s.setDie d { s.die d with stackOk := true }).setRegBits svcstatOff (24 + d) 1 1).relevel) ∧
    (s.ev.ok = true → s.ev.yes = true → (s.die d).dieOk = false → exec .dieTrainingComplete s = .next (s.setDie d { s.die d with stackOk := true })) ∧
    (s.ev.ok = true → s.ev.yes = false → (s.die d).stackOk = false → exec .dieTrainingComplete s = .next (s.setDie d { s.die d with dieOk := true }))) ∧
  (∀ (s : State), Table.sorted s.bar = true → s.level ≠ 2 →
    (s.regBits svcstatOff 24 8 ||| s.regBits svcstatOff 8 8 = 0xFF → s.relevel.level = 2) ∧
    (s.regBits svcstatOff 24 8 = 0 → s.regBits svcstatOff 8 8 ≠ 0xFF → s.relevel.level = 0) ∧
    (s.regBits svcstatOff 24 8 ≠ 0 → s.regBits svcstatOff 24 8 ||| s.regBits svcstatOff 8 8 ≠ 0xFF → s.relevel.level = 1)) ∧
  (∀ (s : State), Table.sorted s.bar = true → accepts s svcstatOff → s.level ≠ 2 → ∃ t, exec .dieretWrite s = .next t ∧
    (∀ d, d < 8 → (t.regBits svcstatOff (8 + d) 1 = 1 ↔ s.ev.val.getLsbD (8 + d) = true ∧ s.usable d = false)) ∧ t.regBits svcstatOff 24 8 = s.regBits svcstatOff 24 8) ∧
  (∀ (s : State) (d : Nat), s.ev.x = d → d < 8 → exec .thermalEvent s =
    .next ((s.tasksOnDie d).foldl (fun s k => s.unwind k 12 0)
      { s.setDie d { s.die d with stopped := true } with sent := s.sent ++ [.thermal d (s.regBits ownstatOff 0 2)] })) ∧
  (∀ (s : State) (d : Nat), s.ev.x = d → d < 8 → exec .thermalEventClear s =
    .next (if s.isOwner s.ev.who = true ∧ s.ev.y ≤ 95 then s.setDie d { s.die d with stopped := false } else s)) ∧
  (∀ (s : State) (d : Nat), Table.sorted s.bar = true → s.ev.x = d → d < 8 → accepts s (sramrailOff d) → s.regBits (sramrailOff d) 34 1 = 0 → ∃ t, exec .setmvWrite s = .next t ∧
    t.regBits (sramrailOff d) 0 16 = bits s.ev.val 0 16 ∧ t.regBits (sramrailOff d) 34 1 = 1 ∧ t.regBits (sramrailOff d) 16 16 = s.regBits (sramrailOff d) 16 16 ∧
    (s.regBits (sramrailOff d) 32 2 = 0 → bits s.ev.val 0 16 < s.regBits (sramrailOff d) 16 16 → t.regBits (sramrailOff d) 32 2 = 1) ∧
    (s.regBits (sramrailOff d) 32 2 = 0 → s.regBits (sramrailOff d) 16 16 ≤ bits s.ev.val 0 16 → t.regBits (sramrailOff d) 32 2 = 0)) ∧
  (∀ (s : State) (d : Nat), s.ev.x = d → d < 8 → s.regBits (sramrailOff d) 34 1 = 1 →
    (s.regBits (sramrailOff d) 32 2 = 2 → Table.sorted s.bar = true → exec .sramModeSwitchComplete s = .next (s.setRegBits (sramrailOff d) 34 1 0)) ∧
    (s.regBits (sramrailOff d) 32 2 = 1 → s.regBits (sramrailOff d) 0 16 < s.regBits (sramrailOff d) 16 16 → Table.sorted s.bar = true →
      ∃ t, exec .sramModeSwitchComplete s = .next t ∧ t.regBits (sramrailOff d) 34 1 = 0 ∧ t.regBits (sramrailOff d) 32 2 = 2) ∧
    (s.regBits (sramrailOff d) 32 2 = 1 → s.regBits (sramrailOff d) 16 16 ≤ s.regBits (sramrailOff d) 0 16 → Table.sorted s.bar = true →
      exec .sramModeSwitchComplete s = .next (((s.setRegBits (sramrailOff d) 34 1 0).returnWays d).setRegBits (sramrailOff d) 32 2 0).flushPosts)) ∧
  (∀ (s : State), exec .partReset s = .next { State.reset with agenda := s.agenda, fresh := s.fresh })

/-! ### Link groups and the host link -/

/-- R39-R43, R45, R62: a GO write to an idle group starts its switch, in QUIESCING from ACTIVE and in RETRAIN or REMAP from OFF; BUSY and SAME refuse it. QUIESCING ends when every request sent through the port and every request that came through it is answered, or at 500 µs with the non-posted ones timed out. FENCED, once no record at its port waits to be sent, leads on to RETRAIN or REMAP. RETRAIN ends with the new personality, or at 1,300 µs with TRAINFAIL and the group to become OFF. REMAP waits for the accesses under the descriptors it changes, installs those that meet R37, leaves every other one as it was, reports WINDOW when some do not meet it, and ends in ACTIVE or OFF. -/
def Obligations.LinkGroups : Prop :=
  (∀ (s : State) (g : Nat), Table.sorted s.bar = true → s.ev.x = g → g < 16 → accepts s (lgctlOff g) → s.ev.val.getLsbD 0 = true →
    (s.groupState g ≠ 0 → s.groupState g ≠ 1 → exec .lgctlGo s = .next (s.setRegBits (lgstatOff g) 24 8 1)) ∧
    ((s.groupState g = 0 ∨ s.groupState g = 1) → s.ev.val.getLsbD 1 = false → bits s.ev.val 8 2 = s.groupPers g → exec .lgctlGo s = .next (s.setRegBits (lgstatOff g) 24 8 2)) ∧
    ((s.groupState g = 0 ∨ s.groupState g = 1) → (s.ev.val.getLsbD 1 = true ∨ bits s.ev.val 8 2 ≠ s.groupPers g) → ∃ t, exec .lgctlGo s = .next t ∧
      t.groupState g = (if s.groupState g = 1 then 2 else if bits s.ev.val 8 2 ≠ 0 then 4 else 5) ∧ (t.group g).target = bits s.ev.val 8 2 ∧
      (t.group g).remapOnly = s.ev.val.getLsbD 1 ∧ (t.group g).quiesced = decide (s.groupState g = 1) ∧ (t.group g).began = s.time ∧ (t.group g).since = s.time ∧ t.outbound = s.outbound ∧ t.lwdAct = s.lwdAct ∧ t.mem = s.mem)) ∧
  (∀ (s : State) (g : Nat), s.ev.x = g → s.groupState g = 2 →
    (s.unanswered g = [] → (∀ e ∈ s.inbound, e.2.group ≠ some g) → exec .drainComplete s = .next (s.enterGroup g 3)) ∧
    ((s.unanswered g ≠ [] ∨ ∃ e ∈ s.inbound, e.2.group = some g) → exec .drainComplete s = .next s) ∧
    (∀ xs, xs = (s.unanswered g).filter (fun e => !e.2.posted) →
      (xs ≠ [] → 8 * 500000 ≤ s.time - (s.group g).since → ∀ u, u = xs.foldl (fun s e => s.outFail e.1 e.2 fLINKTIMEOUT) s →
        exec .quiesceTimeout s = .next ((if xs.any (fun e => !e.2.ether) then u.groupErr g 4 else u).enterGroup g 3)) ∧
      ((xs = [] ∨ s.time - (s.group g).since < 8 * 500000) → exec .quiesceTimeout s = .next s))) ∧
  (∀ (s : State) (g : Nat), s.ev.x = g → s.groupState g = 3 → (∀ i, i < 4 → ∀ r ∈ (s.log (1736 + 4 * g + i)).recs, r.far = true) → exec .fenceComplete s =
    .next (s.enterGroup g (if (s.group g).remapOnly = true ∨ (s.group g).target = 0 then 5 else 4))) ∧
  (∀ (s : State) (g : Nat), s.ev.x = g → s.groupState g = 4 →
    (s.regBits svcstatOff (8 + g / 2) 1 = 0 → exec .retrainComplete s = .next ((s.setRegBits (lgstatOff g) 8 2 (s.group g).target).enterGroup g 5)) ∧
    (Table.sorted s.bar = true → 8 * 1300000 ≤ s.time - (s.group g).since → (s.group g).err = 0 → ∃ t, exec .retrainTimeout s = .next t ∧
      t.groupState g = 5 ∧ t.groupPers g = 0 ∧ t.regBits (lgstatOff g) 24 8 = 3 ∧ (t.group g).target = 0)) ∧
  (∀ (s : State) (g : Nat) (ns good : List Nat), Table.sorted s.bar = true → s.ev.x = g → g < 16 → s.groupState g = 5 → ns = (List.range 256).filter (fun n => s.lwdNames n g) →
    good = s.goodWindows 257 (ns.filter (s.windowFits g)) →
    (good.any s.windowBusy = true → exec .remap s = .next s) ∧
    (good.any s.windowBusy = false → (s.group g).hold = [] → ∃ t, exec .remap s = .next t ∧
      t.groupState g = (if (s.group g).target = 0 then 0 else 1) ∧ t.regBits (lgstatOff g) 0 1 = 1 ∧
      (∀ n h, h < 2 → n ∈ good → t.lwdHalf n h = s.pendHalf n h) ∧ (∀ n h, h < 2 → n ∉ good → t.lwdHalf n h = s.lwdHalf n h) ∧
      (good.length ≠ ns.length → (s.group g).err = 0 → t.regBits (lgstatOff g) 24 8 = 5) ∧
      ((s.group g).err ≠ 0 → t.regBits (lgstatOff g) 24 8 = (s.group g).err % 256) ∧
      (good.length = ns.length → (s.group g).err = 0 → t.regBits (lgstatOff g) 24 8 = s.regBits (lgstatOff g) 24 8)))

namespace Sys2Proof.Claims

/-- What serving an inbound request gives (R33, R46, R51, R85): a size that the personality lacks, a frame that fails a check and an atomic that the port lacks are answered with an error, a refused BAR4 write only logged; a write enters the inbound log of its homes; a read answers the bytes, or a poisoned completion; an atomic is performed at its home. -/
def inboundServed (u : State) (id : Nat) (host : Bool) (m p : Nat) (a : Access) (o : Out) : Prop :=
  (sizeOffered host a = false → o = .next (u.answer id false [])) ∧
  (sizeOffered host a = true → ∀ f, u.inboundFails m p a = some f →
    (host = true → a.kind = .write → o = .next (u.logRefusal m (max a.addr (f * 65536)))) ∧
    ((host = false ∨ a.kind ≠ .write) → o = .next ((u.logRefusal m (max a.addr (f * 65536))).answer id false []))) ∧
  (sizeOffered host a = true → u.inboundFails m p a = none →
    (a.kind = .write → o = .next (if host then u.inboundWrite m p a else (u.inboundWrite m p a).answer id true [])) ∧
    (a.kind = .read → u.poisonIn a.addr a.len = none →
      ∀ v, v = (List.range ((a.addr + max 1 a.len + 255) / 256 - a.addr / 256)).foldl (fun s i => s.lineBack (a.addr / 256 + i)) u → o = .next (v.answer id true (v.readBytes a.addr a.len))) ∧
    (a.kind = .read → ∀ g v, u.poisonIn a.addr a.len = some g → v = u.inboundPoison m g → o = .next { v with sent := v.sent ++ [.poisoned id] }) ∧
    (∀ op n, a.kind = .atomic op → n = a.data.length →
      ((atomicOffered host op n = false ∨ a.addr % n ≠ 0) → o = .next (u.answer id false [])) ∧
      (atomicOffered host op n = true → a.addr % n = 0 → u.poisoned a.addr = true → o = .next ((u.inboundPoison m a.addr).answer id false [])) ∧
      (atomicOffered host op n = true → a.addr % n = 0 → u.poisoned a.addr = false →
        ∀ r, r = u.atomicAt (inboundLog (dieOf a.addr)) op n a.addr (leNat a.data) (leNat a.compare) → o = .next (r.1.answer id true (leBytes n r.2.1)).pokeWatch)))

end Sys2Proof.Claims

open Sys2Proof.Claims

/-- R33, R46-R49, R51, R85: a request that comes through a group with the personality UALink, or a BAR4 access of an enabled function inside its aperture, is served at its home, or kept until the home answers, and then served or, after 1 ms, answered with an error; one through a group with another personality is answered with an error; one outside the aperture changes nothing. A BAR4 write with Relaxed Ordering, kept, holds nothing behind it (R460). R47, R53, R54, R223, R415, R418: an answer without error, once what its port's order puts before it is done (log entry 73), gives the bytes to the element, from its place in the 32 that a short UALink read takes (R33), the fill, or the held writes that asked, and to an atomic the old value, the token of a release, and the flags of its sum; with an error, or 1 ms after the request was sent, they take LINKERR or LINKTIMEOUT. R52: a host window write that leaves an invalid enabled descriptor clears EN and sets the status bit. The owner id a link-port request is checked under is the model's choice (log entry 32). -/
def Obligations.LinkTraffic : Prop :=
  (∀ (s : State) (g : Nat), s.ev.x = g → g < 16 → s.ev.z = 0 → (s.groupState g = 1 ∨ s.groupState g = 2) → ∀ m p a u, m = 96 + 2 * g + s.ev.y % 2 → p = s.ev.val.toNat % 65 → a = s.ev.access →
    u = { s with nextId := s.nextId + 1 } →
    (s.groupPers g ≠ 2 → exec .linkInboundRequest s = .next (u.answer s.nextId false [])) ∧
    (s.groupPers g = 2 → s.ev.ok = true → inboundHere (some g) false a = true → s.inboundWaits false m a = false → inboundServed u s.nextId false m p a (exec .linkInboundRequest s)) ∧
    (s.groupPers g = 2 → (s.ev.ok = false ∨ inboundHere (some g) false a = false ∨ s.inboundWaits false m a = true) →
      exec .linkInboundRequest s = .next { u with inbound := Table.put s.inbound s.nextId { group := some g, master := m, slot := p, acc := a, at_ := s.time } })) ∧
  (∀ (s : State) (n : Nat), s.ev.x = n → s.ev.z = 0 →
    (((n ≠ 0 ∧ s.vfOn n = false) ∨ 2 ^ s.apSize n < s.ev.access.addr + accessSize s.ev.access) → exec .bar4Access s = .next s) ∧
    ((n = 0 ∨ s.vfOn n = true) → s.ev.access.addr + accessSize s.ev.access ≤ 2 ^ s.apSize n → ∀ a u, a = { s.ev.access with addr := s.apBase n + s.ev.access.addr } →
      u = { s with nextId := s.nextId + 1 } →
      (s.ev.ok = true → s.inboundWaits true n a = false → s.behindWrite true n s.nextId = false → inboundServed u s.nextId true n n a (exec .bar4Access s)) ∧
      ((s.ev.ok = false ∨ s.inboundWaits true n a = true ∨ s.behindWrite true n s.nextId = true) →
        exec .bar4Access s = .next { u with inbound := Table.put s.inbound s.nextId { group := none, master := n, slot := n, acc := a, at_ := s.time, free := s.ev.yes && decide (a.kind = .write) } })) ∧
    (∀ (id m : Nat), s.behindWrite true m id = true ↔ ∃ e ∈ s.inbound, e.1 < id ∧ e.2.group = none ∧ e.2.master = m ∧ e.2.free = false ∧ e.2.acc.kind = .write)) ∧
  (∀ (s : State) (id : Nat) (w : Inbound), s.ev.z = id + 1 → Table.find s.inbound id = some w → ∀ host, host = w.group.isNone →
    s.inboundWaits host w.master w.acc = false → s.behindWrite host w.master id = false → inboundHere w.group w.deliv w.acc = true →
    inboundServed { s with inbound := Table.drop s.inbound id } id host w.master w.slot w.acc (exec .linkInboundRequest s) ∧ exec .bar4Access s = exec .linkInboundRequest s) ∧
  (∀ (s u : State) (w : Inbound), Table.find s.inbound s.ev.x = some w → u = ({ s with inbound := Table.drop s.inbound s.ev.x }).logRefusal w.master w.acc.addr →
    (s.time - w.at_ < 8 * 1000000 → exec .inboundHomeTimeout s = .next s) ∧
    (8 * 1000000 ≤ s.time - w.at_ → exec .inboundHomeTimeout s = .next (if w.group.isNone = true ∧ w.acc.kind = .write then u else u.answer s.ev.x false []))) ∧
  (∀ (s u : State) (o : Outbound), Table.find s.outbound s.ev.x = some o → u = { s with outbound := Table.drop s.outbound s.ev.x } →
    (o.out = false → exec .outboundCompletion s = .next s ∧ exec .outboundTimeout s = .next s) ∧
    (o.out = true →
      (s.lineBefore o = true → exec .outboundCompletion s = .next s) ∧
      (s.ev.ok = false → s.lineBefore o = false → exec .outboundCompletion s = .next (s.outFail s.ev.x o fLINKERR)) ∧
      (8 * 1000000 ≤ s.time - o.sent → exec .outboundTimeout s = .next (s.outFail s.ev.x o fLINKTIMEOUT)) ∧
      (s.time - o.sent < 8 * 1000000 → exec .outboundTimeout s = .next s) ∧
      (s.ev.ok = true → s.lineBefore o = false → exec .outboundCompletion s = .next (s.outDone s.ev.x o s.ev.bytes)))) ∧
  (∀ (s u : State) (id : Nat) (o : Outbound), u = { s with outbound := Table.drop s.outbound id } →
    (∀ log pos p tr tk stc, o.reply = .releaseRead log pos p tr tk stc → ∀ xs, xs = s.readsUpTo id log o.win →
      (∀ bs, s.outDone id o bs = xs.foldl (fun s e => s.readEnds log none e) u) ∧ (∀ code, s.outFail id o code = xs.foldl (fun s e => s.readEnds log (some code) e) u)) ∧
    (∀ core slot pend lane j, o.reply = .element core slot pend lane j →
      (∀ bs, s.outDone id o bs = u.modPend core slot pend (fun q => q.answerFrom lane j o.len bs)) ∧
      (∀ code, s.outFail id o code = u.modPend core slot pend (fun q => q.answerAt lane j 0 (some code)))) ∧
    (∀ core slot pend lane j key, o.reply = .atomic core slot pend lane j key →
      (o.atom = none → ∀ bs, s.outDone id o bs = (u.atomicLine core key).modPend core slot pend (fun q => q.answerAt lane j (leNat (bs.take o.len)) none)) ∧
      (∀ a size v c b r m, o.atom = some (a, size, v, c, b) → ∀ bs, m = leNat (bs.take o.len) → r = atomicNew a (8 * size) m v c →
        s.outDone id o bs = (u.atomicFlags o.reply r.2).atomicDone core slot pend lane j key (atomicAnswer a m r.1)) ∧
      (∀ code, s.outFail id o code = u.modPend core slot pend (fun q => q.answerAt lane j 0 (some code)))) ∧
    (∀ (q : Pend) lane j bs, (∀ e ∈ q.missing, e.lane = lane → e.j = j → e.va.getD 0 % 32 + q.size ≤ 32) → bs.length = 32 →
      (q.answerFrom lane j q.size bs = q.answerAt lane j (leNat (bs.take q.size)) none) ∧
      (q.size ≠ 32 → ∀ e, q.missing.find? (fun e => decide (e.lane = lane) && decide (e.j = j)) = some e →
        q.answerFrom lane j 32 bs = q.answer e (leNat ((bs.drop (e.va.getD 0 % 32)).take q.size)) none none)) ∧
    (∀ core key stash, o.reply = .sector core key stash →
      (∀ bs, s.outDone id o bs = (u.fillArrives core key stash (u.overlaid core key { data := padTo 128 bs, pa := o.pa, pois := 0 })).2) ∧
      (∀ code, s.outFail id o code = u.fillFails core key stash code))) ∧
  (∀ (s : State) (n h : Nat), s.ev.x = n → n < 64 → s.ev.y % 2 = h → accepts s (hwdOff n h) → ∀ u, u = s.setReg (hwdOff n h) (s.ev.val &&& (if h = 0 then 0xFFFFFFFFFFFFFFFD else 0xFFFFFFFFFFFFF)) →
    (u.hwd n 0 1 = 1 → u.hwdOk n = false → exec .hwdWrite s = .next ((u.setRegBits (hwdOff n 0) 0 1 0).setRegBits hwdStatusOff 0 1 1)) ∧
    ((u.hwd n 0 1 = 0 ∨ u.hwdOk n = true) → exec .hwdWrite s = .next u))

/-! ### Partitions and migration -/

/-- R65, R149: STOP of a RUNNING slot makes it STOPPING, with its trains, tasks and memory as they were; RUN of an open slot whose checks all pass, once the homes of its save image answer, makes it RUNNING with what was saved restored; FREE of a STOPPED slot that owns no frame makes it FREE with its bitmaps cleared; a request in another state sets ERR 7, a failing check its own code. R67-R70: a legal quota write takes effect and an illegal one only sets the status bit; setting EN of a free PIN register pins the frame and waits for its fill, which locks the frame's lines, or sets FAIL; a set PIN register takes no other frame; clearing EN unpins. R71-R74: an FOT GO with a good range starts the change, another one sets its ERR; the change moves one frame after another to the new owner, scrubbed when asked, all other frames keeping their bytes and owners. R189, R191: INVCMD sets BUSY until no agent uses the mapping; a GO while BUSY is ignored. -/
def Obligations.PartitionControl : Prop :=
  (∀ (s : State) (p : Nat), s.ev.x = p → p ≤ 64 → accepts s (slotOff p 0) → Table.sorted s.bar = true →
    (bits s.ev.val 8 2 = 1 → s.pctlState p = 2 → ∃ t, exec .pctlStop s = .next t ∧ t.pctlState p = 3 ∧ t.regBits (slotOff p 0) 12 4 = 0 ∧ (t.pslot p).stopAt = s.time ∧ (t.pslot p).tier = 1 ∧
      t.trains = s.trains ∧ t.tasks = s.tasks ∧ t.mem = s.mem) ∧
    (bits s.ev.val 8 2 = 1 → s.pctlState p = 3 → exec .pctlStop s = .next (s.pctlErr p 7)) ∧
    (bits s.ev.val 8 2 = 1 → s.slotOpen p = true → exec .pctlStop s = .next ((s.pctlFields p s.ev.val).pctlErr p 7)) ∧
    (bits s.ev.val 8 2 = 2 → s.slotOpen p = true →
      ((s.pctlFields p s.ev.val).runErrs p = [] → (s.pctlFields p s.ev.val).restoreWaits p = true → exec .pctlRun s = .next (s.pctlFields p s.ev.val)) ∧
      ((s.pctlFields p s.ev.val).runErrs p = [] → (s.pctlFields p s.ev.val).restoreWaits p = false → exec .pctlRun s =
        .next (((((s.pctlFields p s.ev.val).pctlErr p 0).setRegBits (slotOff p 0) 0 2 2)).restoreSlot p)) ∧
      (∀ e es, (s.pctlFields p s.ev.val).runErrs p = e :: es → exec .pctlRun s = .next ((s.pctlFields p s.ev.val).pctlErr p e))) ∧
    (bits s.ev.val 8 2 = 2 → s.slotOpen p = false → exec .pctlRun s = .next (s.pctlErr p 7)) ∧
    (bits s.ev.val 8 2 = 3 → s.pctlState p = 1 → ∀ u, u = s.pctlFields p s.ev.val →
      (u.ownsFrames (u.ownid p) = true → exec .pctlFree s = .next (u.pctlErr p 8)) ∧
      (u.ownsFrames (u.ownid p) = false → exec .pctlFree s = .next (((u.pctlErr p 0).setRegBits (slotOff p 0) 0 2 0).clearBitmaps p))) ∧
    (bits s.ev.val 8 2 = 3 → s.pctlState p = 0 → exec .pctlFree s = .next ((s.pctlFields p s.ev.val).pctlErr p 7)) ∧
    (bits s.ev.val 8 2 = 3 → 2 ≤ s.pctlState p → exec .pctlFree s = .next (s.pctlErr p 7))) ∧
  ((∀ (s : State) (n : Nat), s.ev.x = n → n < 2048 → accepts s (squotaOff n) →
    (s.quotaBad n s.ev.val = true → exec .squotaWrite s = .next (s.setRegBits partStatusOff 1 1 1)) ∧
    (s.quotaBad n s.ev.val = false → exec .squotaWrite s = .next
      (((s.requota n (s.quota n) s.ev.val).setReg (squotaOff n) s.ev.val).setDie (n / 256) { s.die (n / 256) with lent := (s.die (n / 256)).lent.filter (fun e => decide (e.1 / 4 ≠ n)) }))) ∧
  (∀ (s : State) (n : Nat) (old new : W64), s.counted = [] → (s.requota n old new).mem = s.mem ∧ (s.requota n old new).bar = s.bar ∧ (s.requota n old new).fot = s.fot) ∧
  (∀ (s : State) (p n : Nat), s.ev.x = p → s.ev.y = n → p ≤ 64 → n ≤ 15 → accepts s (slotOff p (0x300 + 8 * n)) → Table.sorted s.bar = true →
    (s.ev.val.getLsbD 63 = true → (s.pin p n).getLsbD 63 = true →
      exec .pinSet s = .next (if bits s.ev.val 0 24 = bits (s.pin p n) 0 24 then s else s.setRegBits (slotOff p (0x300 + 8 * n)) 62 1 1)) ∧
    (s.ev.val.getLsbD 63 = true → (s.pin p n).getLsbD 63 = false → ∃ t, exec .pinSet s = .next t ∧ bits (t.pin p n) 0 24 = bits s.ev.val 0 24 ∧
      (((s.setRegBits (slotOff p (0x300 + 8 * n)) 63 1 0).setRegBits (slotOff p (0x300 + 8 * n)) 0 24 (bits s.ev.val 0 24)).mayPin p (bits s.ev.val 0 24) = true →
        (t.pin p n).getLsbD 63 = true ∧ (t.pin p n).getLsbD 62 = false ∧ n ∈ (t.pslot p).filling) ∧
      (((s.setRegBits (slotOff p (0x300 + 8 * n)) 63 1 0).setRegBits (slotOff p (0x300 + 8 * n)) 0 24 (bits s.ev.val 0 24)).mayPin p (bits s.ev.val 0 24) = false →
        (t.pin p n).getLsbD 63 = false ∧ (t.pin p n).getLsbD 62 = true)) ∧
    (s.ev.val.getLsbD 63 = false → ∃ t, exec .pinClear s = .next t ∧ (t.pin p n).getLsbD 63 = false ∧ bits (t.pin p n) 0 24 = bits s.ev.val 0 24 ∧
      ((s.pin p n).getLsbD 63 = true → n ∉ (t.pslot p).filling) ∧ (s.posts = [] → t.mem = s.mem))) ∧
  (∀ (s : State) (p n : Nat), s.ev.x = p → s.ev.y = n →
    exec .pinFillComplete s = .next (if (s.pslot p).filling.contains n then ((s.pinFilled p n).pinLines p (bits (s.pin p n) 0 24)).flushPosts else s)) ∧
  (∀ (s : State), accepts s (fotOff 8) → Table.sorted s.bar = true → (s.ev.val.getLsbD 63 = false → exec .fotGo s = .next (s.plainWrite (fotOff 8) s.ev.val)) ∧
    (s.ev.val.getLsbD 63 = true → s.regBits (fotOff 0x10) 63 1 = 1 → exec .fotGo s = .next (s.setRegBits (fotOff 0x10) 48 8 4)) ∧
    (s.ev.val.getLsbD 63 = true → s.regBits (fotOff 0x10) 63 1 = 0 → ∀ e, e = s.fotErr (bits (s.reg (fotOff 0)) 0 24) (bits (s.reg (fotOff 0)) 24 24 + 1) (bits s.ev.val 0 8) →
      ∃ t, exec .fotGo s = .next t ∧ t.fot = s.fot ∧ t.mem = s.mem ∧ t.regBits (fotOff 0x10) 48 8 = e ∧ (e ≠ 0 → t.regBits (fotOff 0x10) 63 1 = 0) ∧
      (e = 0 → t.regBits (fotOff 0x10) 63 1 = 1 ∧ t.regBits (fotOff 0x10) 0 24 = 0 ∧ t.fotCmd = (s.reg (fotOff 0), s.ev.val)))) ∧
  (∀ (s : State) (f : Nat), s.regBits (fotOff 0x10) 63 1 = 1 → Table.sorted s.fot = true → f = bits s.fotCmd.1 0 24 + s.regBits (fotOff 0x10) 0 24 → ∃ t, exec .fotFrameChange s = .next t ∧
    t.frameOwner f = bits s.fotCmd.2 0 8 ∧ (∀ g, g ≠ f → t.frameOwner g = s.frameOwner g)) ∧
  (∀ (s : State) (f new : Nat) (scrub : Bool), s.counted = [] → s.logs = [] → s.posts = [] → Memory.wf s.mem = true →
    (∀ e ∈ s.trains, ∀ o ∈ e.2.portions, ∀ kind va pa n cond c d, o.2.wait ≠ .watch kind va pa n cond c d) →
    (∀ a, a / 65536 ≠ f → Memory.read (s.changeFrame f new scrub).mem a = Memory.read s.mem a) ∧
    (∀ a, a / 65536 = f → Memory.read (s.changeFrame f new scrub).mem a = if scrub then 0 else Memory.read s.mem a)) ∧
  (∀ (s : State) (p : Nat), s.ev.x = p → p ≤ 64 → accepts s (slotOff p 0x3C0) → Table.sorted s.bar = true →
    (s.regBits (slotOff p 0x3C0) 62 1 = 1 → exec .invcmd s = .next s) ∧
    (s.regBits (slotOff p 0x3C0) 62 1 = 0 → s.ev.val.getLsbD 63 = true → ∃ t, exec .invcmd s = .next t ∧ t.regBits (slotOff p 0x3C0) 62 1 = 1 ∧
      (t.pslot p).inval = some (bits s.ev.val 16 41 * 65536, bits s.ev.val 57 2, masterId s.ev.who) ∧ t.cores = s.cores)) ∧
  (∀ (s : State) (p va sz m : Nat), s.ev.x = p → (s.pslot p).inval = some (va, sz, m) →
    (s.mappingIdle p va sz = true → s.writesFolded m = true → exec .invalidateComplete s =
      .next (((s.dropMapping p va sz).setPslot p { s.pslot p with inval := none }).setRegBits (slotOff p 0x3C0) 62 1 0)) ∧
    ((s.mappingIdle p va sz = false ∨ s.writesFolded m = false) → exec .invalidateComplete s = .next s)))

/-- R202-R206: a migration command while BUSY, with a bad leaf or a bad destination sets ERR 1, 2 or 3 and moves nothing (for an access of its own that a table refuses, the error code is the model's choice: log entry 19). An accepted one waits until its engine's messages have reached the homes it needs (R24, R26), then folds the records that the source's home has received, copies the page, rewrites the leaf, replays what waits at the new frame and invalidates the old mapping; a post-copy copies nothing yet and leaves every line to be pulled. A pull copies its line and no other byte, and takes it off, and the last clears BUSY; when the source is gone, a failed pull sets ERR 4, clears BUSY, sets LOST in the leaf, writes no other byte of memory before its event, and leaves no line to be pulled. -/
def Obligations.Migration : Prop :=
  (∀ (s : State) (d : Nat), s.ev.x = d → d < 8 → accepts s (migOff d 8) →
    (s.ev.val.getLsbD 0 = true → (s.ev.val.getLsbD 1 = false → exec .migrationPrecopy s = .next (s.migGo d s.ev.val false)) ∧
      (s.ev.val.getLsbD 1 = true → exec .migrationPostcopy s = .next (s.migGo d s.ev.val true))) ∧
    (s.ev.val.getLsbD 0 = false → (s.ev.val.getLsbD 1 = false → exec .migrationPrecopy s = .next (s.plainWrite (migOff d 8) s.ev.val)) ∧
      (s.ev.val.getLsbD 1 = true → exec .migrationPostcopy s = .next (s.plainWrite (migOff d 8) s.ev.val)))) ∧
  (∀ (s : State) (d : Nat) (v : W64) (post : Bool),
    (s.regBits (migOff d 0x10) 63 1 = 1 → s.migGo d v post = migErr s d 1) ∧
    (∀ a, s.regBits (migOff d 0x10) 63 1 = 0 → s.migStops d = some a → s.migGo d v post = s.sendTo (migOwner d) a) ∧
    (s.regBits (migOff d 0x10) 63 1 = 0 → s.migStops d = none → s.migGo d v post = ((s.migrate d v post).dropTrips (migOwner d)).pokeWatch)) ∧
  (∀ (s u : State) (d : Nat) (v : W64) (post : Bool), u = s.setReg (migOff d 8) (v &&& 0xFFFFFF0002) →
    (s.regBits (migOff d 0x10) 63 1 = 1 → s.migrate d v post = migErr s d 1) ∧
    (s.regBits (migOff d 0x10) 63 1 = 0 → (u.migLeaf d = none → s.migrate d v post = migErr u d 2) ∧
      (∀ a e src dst, u.migLeaf d = some (a, e) → src = bits e 16 36 → dst = bits v 16 24 →
        ((dieOf (dst * 65536) ≠ d ∨ u.frameOwner dst ≠ u.pageOwner a src ∨ u.usable d = false) → s.migrate d v post = migErr u d 3) ∧
        (dieOf (dst * 65536) = d → u.frameOwner dst = u.pageOwner a src → u.usable d = true →
          (∀ code pa, u.migDenied d a src dst = some (code, pa) → s.migrate d v post = migErr (u.logDenied 129 d pa) d code) ∧
          (∀ code, u.migDenied d a src dst = none → u.migLost d = some code → s.migrate d v post = migErr u d code) ∧
          (u.migDenied d a src dst = none → u.migLost d = none → ∀ w x, w = (if isStack (src * 65536) then (migErr u d 0).foldReceived src else migErr u d 0) →
            x = (((if post = false ∧ isStack (src * 65536) = true then w.copyFrame src dst else w).setLeaf a e dst).replay src dst).dropFrame src →
            s.migrate d v post = if post = false ∧ isStack (src * 65536) = true then x
              else (x.setRegBits (migOff d 0x10) 63 1 1).setDie d { x.die d with pulling := (List.range 256).map (256 * dst + ·), source := src, leaf := a }))))) ∧
  (∀ (s u w x : State) (d a src dst : Nat) (e : W64), s.ev.x = d → d < 8 → accepts s (migOff d 8) → s.ev.val.getLsbD 0 = true → s.regBits (migOff d 0x10) 63 1 = 0 → s.migStops d = none →
    u = s.setReg (migOff d 8) (s.ev.val &&& 0xFFFFFF0002) → u.migLeaf d = some (a, e) → src = bits e 16 36 → dst = bits s.ev.val 16 24 → dieOf (dst * 65536) = d → u.frameOwner dst = u.pageOwner a src → u.usable d = true →
    u.migDenied d a src dst = none → u.migLost d = none → isStack (src * 65536) = true → w = (migErr u d 0).foldReceived src →
    (s.ev.val.getLsbD 1 = false → x = (((w.copyFrame src dst).setLeaf a e dst).replay src dst).dropFrame src → exec .migrationPrecopy s = .next (x.dropTrips (migOwner d)).pokeWatch) ∧
    (s.ev.val.getLsbD 1 = true → x = ((w.setLeaf a e dst).replay src dst).dropFrame src → exec .migrationPostcopy s =
      .next (((x.setRegBits (migOff d 0x10) 63 1 1).setDie d { x.die d with pulling := (List.range 256).map (256 * dst + ·), source := src, leaf := a }).dropTrips (migOwner d)).pokeWatch)) ∧
  (∀ (s : State) (src dst : Nat), Memory.wf s.mem = true → src ≠ dst → (∀ a, a < 65536 → Memory.read (s.copyFrame src dst).mem (dst * 65536 + a) = Memory.read s.mem (src * 65536 + a)) ∧
    (∀ a, a / 65536 ≠ dst → Memory.read (s.copyFrame src dst).mem a = Memory.read s.mem a)) ∧
  (∀ (s : State) (d n pa : Nat), s.ev.x = d → s.ev.y = n → (s.die d).pulling.contains n = true → pa = (s.die d).source * 65536 + n % 256 * 256 →
    (s.sramSwitching d = true → exec .migrationPull s = .next s) ∧
    (s.sramSwitching d = false → isStack pa = true →
      (s.usable (dieOf pa) = false → exec .migrationPull s = .next s) ∧
      (s.usable (dieOf pa) = true → s.gaveUp (migOwner d) pa = true → exec .migrationPull s = .next ((s.dropTrips (migOwner d)).pullFails d)) ∧
      (s.usable (dieOf pa) = true → s.gaveUp (migOwner d) pa = false → (s.homeShut pa = true ∨ s.away (migOwner d) pa = true) → exec .migrationPull s = .next (s.sendTo (migOwner d) pa)) ∧
      (s.usable (dieOf pa) = true → s.gaveUp (migOwner d) pa = false → s.homeShut pa = false → s.away (migOwner d) pa = false → s.posts = [] → Memory.wf s.mem = true →
        ∃ t, exec .migrationPull s = .next t ∧ (t.die d).pulling = (s.die d).pulling.filter (fun m => decide (m ≠ n)) ∧
          (∀ i < 256, Memory.read t.mem (256 * n + i) = Memory.read s.mem (pa + i)) ∧ (∀ a, a / 256 ≠ n → Memory.read t.mem a = Memory.read s.mem a) ∧
          ((t.die d).pulling = [] → t.bar = (s.setRegBits (migOff d 0x10) 63 1 0).bar) ∧ ((t.die d).pulling ≠ [] → t.bar = s.bar))) ∧
    (∀ m, s.sramSwitching d = false → isStack pa = false → s.farBusy pa = false → s.holdFull pa = false → (∀ o ∈ s.outbound, o.2.reply ≠ .pull d n) → s.place pa = .link m → exec .migrationPull s =
      .next (if s.linkCut m pa then s.pullFails d else s.request (migrationEngine d) pa 256 false none [] (.pull d n) false))) ∧
  (∀ (s : State) (d n : Nat) (ns : List Nat), s.ev.x = d → (s.die d).pulling = n :: ns →
    (s.sourceGone d = false → exec .migrationPullFail s = .next s) ∧
    (s.sourceGone d = true → ∃ t, exec .migrationPullFail s = .next t ∧ (t.die d).pulling = [])) ∧
  (∀ (s u w : State) (d n dst a : Nat) (ns : List Nat), s.ev.x = d → d < 8 → (s.die d).pulling = n :: ns → s.sourceGone d = true → dst = n / 256 → a = (s.die d).leaf → Table.sorted s.bar = true → Memory.wf s.mem = true →
    s.posts = [] → s.homeShut a = false → (∀ e ∈ s.homeOps, ∀ y ∈ e.2.elems, y.2 / 65536 ≠ dst) → (∀ e ∈ s.cores, ∀ y ∈ e.2.fills, y.pa / 65536 ≠ dst) → (∀ e ∈ s.queries, e.2.pa / 65536 ≠ dst) →
    (∀ e ∈ s.logs, ∀ r ∈ e.2.recs, r.pa.getD 0 / 65536 ≠ dst) →
    u = (s.setRegBits (migOff d 0x10) 0 8 4).setRegBits (migOff d 0x10) 63 1 0 → w = (u.deviceWrite a [Memory.read s.mem a ||| 0x10]).setDie d { s.die d with pulling := [] } →
    exec .migrationPullFail s = .next ((({ w with counted := w.counted.filter (fun e => decide (e.1 / 256 ≠ dst)) } : State).dropFrame dst).event
      ((({ w with counted := w.counted.filter (fun e => decide (e.1 / 256 ≠ dst)) } : State).dropFrame dst).slotOfFrame (dst * 65536)) 1 6 129 d (dst * 65536) 0) ∧
    u.regBits (migOff d 0x10) 0 8 = 4 ∧ u.regBits (migOff d 0x10) 63 1 = 0 ∧ w.bar = u.bar ∧ Memory.read w.mem a = Memory.read s.mem a ||| 0x10 ∧ (∀ x, x ≠ a → Memory.read w.mem x = Memory.read s.mem x)) ∧
  (∀ (s : State) (d : Nat), s.leafLost d =
    ((s.setRegBits (migOff d 0x10) 0 8 4).setRegBits (migOff d 0x10) 63 1 0).deviceWrite (s.die d).leaf [Memory.read s.mem (s.die d).leaf ||| 0x10])

/-! ### The main line and the homes -/

/-- R25: the main line delivers next the message of an agent to a home that was sent first in its class; R26: one that does not pass its check is retried and changes nothing. R26, R80: the oldest message, not delivered 10 µs after it was sent, is given up and told to the owner: a record is dropped with reason 5, the lanes of an access, the loads of a fill and a query take MLTIMEOUT, so does a request to a window, an inbound request is answered with an error that is logged (R46), what an agent walks, fetches or reads itself ends with MLTIMEOUT, and a contribution fails its job; a reply lost as late leaves its requester with the same outcome. -/
def Obligations.MainLine : Prop :=
  (∀ (s : State) (x y z : Nat) (m : Nat × Nat × LineMsg), s.lineNext x y z = some m → m ∈ s.lineMsgs x y z ∧ ∀ k ∈ s.lineMsgs x y z, m.1 < k.1 ∨ (m.1 = k.1 ∧ m.2.1 ≤ k.2.1)) ∧
  (∀ (s : State), (s.ev.ok = false → exec .mainLineMessage s = .next s) ∧ (s.lineNext s.ev.x s.ev.y s.ev.z = none → exec .mainLineMessage s = .next s) ∧
    (∀ m, s.ev.ok = true → s.lineNext s.ev.x s.ev.y s.ev.z = some m → exec .mainLineMessage s = .next (s.lineArrives s.ev.x s.ev.y m.2.2))) ∧
  (∀ (s : State) (x y pos id : Nat), s.lineArrives x y (.record pos) = s.modRec x pos (fun r => { r with deliv := true }) ∧
    s.lineArrives x y (.access id) = { s with nextId := s.nextId + 1, homeOps := Table.modify s.homeOps id (fun h => { h with deliv := true, came := s.nextId }) } ∧
    s.lineArrives x y (.query id) = { s with queries := Table.modify s.queries id (fun q => { q with deliv := true }) } ∧
    (∀ o, Table.find s.outbound id = some o → s.lineArrives x y (.window id) = s.windowArrives id o ∧
      (o.ether = true → s.windowArrives id o = { s with outbound := Table.put s.outbound id { o with deliv := true, sent := s.time } }) ∧
      (∀ n, o.ether = false → s.place o.pa = .link n → s.inTransition n = false →
        (s.linkCut n o.pa = true → s.windowArrives id o = s.outFail id o fLINKDOWN) ∧
        (s.linkCut n o.pa = false → s.windowArrives id o = { s with outbound := Table.put s.outbound id { o with deliv := true, sent := s.time, mark := (s.log (linkLog (s.portGroup n o.pa) o.pa)).tail } })) ∧
      (∀ n, o.ether = false → s.place o.pa = .link n → s.inTransition n = true → (o.posted = false ∨ s.groupState (o.group.getD 0) ≠ 2) → s.linkCut n o.pa = false → s.holdFull o.pa = false →
        s.windowArrives id o = s.hold (s.transitionGroup n) id { o with deliv := true })) ∧
    s.lineArrives x y (.contribution id) = { s with contribs := Table.modify s.contribs id (fun c => { c with deliv := true }) } ∧
    (∀ owner pa, s.lineArrives x y (.trip owner pa) = { s with far := s.far.map (fun f => if f.owner = owner ∧ f.len = 0 ∧ isStack f.pa ∧ homeOf f.pa = y then { f with data := some [] } else f) }) ∧
    s.lineArrives x y (.inbound id) = { s with inbound := Table.modify s.inbound id (fun b => { b with deliv := true }) }) ∧
  (∀ (s : State) (m : Nat × Nat × LineMsg), s.ev.z ≠ 1 → s.lineNext s.ev.x s.ev.y s.ev.z = some m → exec .mainLineTimeout s =
    .next (if 80000 ≤ s.time - m.1 then (s.lineLost s.ev.x m.2.2).event none 1 5 0xFFFF s.ev.y 0 0 else s)) ∧
  (∀ (s : State), s.ev.z ≠ 1 → s.lineNext s.ev.x s.ev.y s.ev.z = none → exec .mainLineTimeout s = .next s) ∧
  (∀ (s : State) (m : Nat × LineMsg), s.ev.z = 1 → (s.lineServed s.ev.x s.ev.y)[s.ev.val.toNat]? = some m → exec .mainLineTimeout s =
    .next (if 80000 ≤ s.time - m.1 then (s.replyLost s.ev.x m.2).event none 1 5 0xFFFF s.ev.y 0 0 else s)) ∧
  (∀ (s : State) (x : Nat),
    (∀ (r : Rec) pos, (s.log x).recs.find? (fun r => decide (r.pos = pos)) = some r → s.lineLost x (.record pos) = s.dropRec x r 5 ∧ s.replyLost x (.record pos) = (s.foldRec x r).recFails x r 5) ∧
    (∀ (h : HomeOp) id, Table.find s.homeOps id = some h → s.lineLost x (.access id) = ({ s with homeOps := Table.drop s.homeOps id }).modPend h.core h.slot h.pend
      (fun q => h.elems.foldl (fun (q : Pend) (y : Elem × Nat) => q.answer y.1 0 (some fMLTIMEOUT) none) q)) ∧
    (∀ key stash, s.lineLost x (.sector key stash) = s.fillFails x key stash fMLTIMEOUT) ∧
    (∀ (q : Query) id, Table.find s.queries id = some q → s.lineLost x (.query id) = s.failQuery id q fMLTIMEOUT) ∧
    (∀ (o : Outbound) id, Table.find s.outbound id = some o → s.lineLost x (.window id) = s.outFail id o fMLTIMEOUT) ∧
    (∀ (w : Inbound) id, Table.find s.inbound id = some w → s.lineLost x (.inbound id) =
      (({ s with inbound := Table.drop s.inbound id, sent := s.sent ++ [.answer id false []] } : State).logRefusal w.master w.acc.addr)) ∧
    (∀ owner pa, s.lineLost x (.trip owner pa) =
      { s with far := s.far.map (fun f => if f.owner = owner ∧ f.len = 0 ∧ isStack f.pa ∧ homeOf f.pa = homeOf pa then { f with data := none, code := fMLTIMEOUT } else f) }) ∧
    (∀ (c : Contrib) (j : Job) id, Table.find s.contribs id = some c → Table.find s.jobs c.job = some j → j.status = 0 → s.lineLost x (.contribution id) =
      (({ s with contribs := Table.drop s.contribs id } : State).jobFault c.job j fMLTIMEOUT)) ∧
    (∀ (owner a : Nat) (m : Far), m ∈ s.far → m.owner = owner → m.len = 0 → m.code ≠ 0 → homeOf m.pa = homeOf a → isStack a = true → s.gaveUp owner a = true))

/-- R72, R76, R198, R216, R217, R238 (for writes of equal stamps the later position wins: R236, log entry 18, the model's reading): a published record of a log of the package whose address lies in stack memory, that has arrived and has no earlier record to its home before it, folds: each byte of its mask takes the record's value and stamp when its own stamp is not greater, every other byte stays, and the record leaves its log; one that the frame's owner or the access table refuses is dropped with reason 1, the latter logged too; any other one stays. R79, R82: a poisoned record poisons its granule; a clean one with a whole mask whose stamp exceeds every byte's clears its poison. R236: a fold unit joins two records of one publication into the later bytes. R234: a log at its pressure point is published and counted. -/
def Obligations.RecordFolds : Prop :=
  (∀ (s : State) (r : Rec) (pa : Nat), (s.log s.ev.x).recs.find? (fun q => decide (q.pos = s.ev.y)) = some r → s.ev.x < 1736 → s.foldable s.ev.x r = true → r.pa = some pa → s.place pa = .stack →
    (s.fotOk (s.ownid r.slot) pa = false → exec .recordFold s = .next (s.dropRec s.ev.x r 1)) ∧
    (s.fotOk (s.ownid r.slot) pa = true → s.foldAllowed s.ev.x r pa = false →
      exec .recordFold s = .next ((s.logDenied ((foldMaster s.ev.x r).getD 0) (homeOf pa) pa).dropRec s.ev.x r 1)) ∧
    (s.fotOk (s.ownid r.slot) pa = true → s.foldAllowed s.ev.x r pa = true → exec .recordFold s =
      .next (((if r.cntd then (s.takeRec s.ev.x r.pos).declareLine pa r else (s.takeRec s.ev.x r.pos).clearCount pa).foldGranule (pa / 32 * 32) r.data r.mask r.pois
        (r.stamp.getD 0, s.ev.x)).pokeWatch)) ∧
    ((s.takeRec s.ev.x r.pos).log s.ev.x).recs = (s.log s.ev.x).recs.filter (fun q => decide (q.pos ≠ r.pos))) ∧
  (∀ (s u : State) (a : Nat) (data : List Byte) (mask : W32) (pois : Bool) (st : Nat × Nat), Memory.wf s.mem = true → Table.sorted s.stamps = true → Table.sorted s.poison = true → data.length = 32 → a % 32 = 0 →
    u = s.foldGranule a data mask pois st →
    (∀ i, i < 32 → mask.getLsbD i = true → stampLt st (s.stampOf (a + i)) = false → Memory.read u.mem (a + i) = data[i]?.getD 0 ∧ u.stampOf (a + i) = st) ∧
    (∀ i, i < 32 → (mask.getLsbD i = false ∨ stampLt st (s.stampOf (a + i)) = true) → Memory.read u.mem (a + i) = Memory.read s.mem (a + i) ∧ u.stampOf (a + i) = s.stampOf (a + i)) ∧
    (∀ x, x / 32 ≠ a / 32 → Memory.read u.mem x = Memory.read s.mem x ∧ u.stampOf x = s.stampOf x ∧ u.poisoned x = s.poisoned x) ∧
    (pois = true → u.poisoned a = true) ∧ (pois = false → mask = 0xFFFFFFFF → (∀ i, i < 32 → stampLt (s.stampOf (a + i)) st = true) → u.poisoned a = false) ∧
    (pois = false → (mask ≠ 0xFFFFFFFF ∨ ∃ i, i < 32 ∧ stampLt (s.stampOf (a + i)) st = false) → u.poisoned a = s.poisoned a)) ∧
  (∀ (s : State), ((s.log s.ev.x).recs.find? (fun q => decide (q.pos = s.ev.y)) = none ∨ ∃ r, (s.log s.ev.x).recs.find? (fun q => decide (q.pos = s.ev.y)) = some r ∧ s.foldable s.ev.x r = false) →
    exec .recordFold s = .next s) ∧
  (∀ (s : State) (r q : Rec), (s.log s.ev.x).recs.find? (fun r => decide (r.pos = s.ev.y)) = some r → (s.log s.ev.x).recs.find? (fun r => decide (r.pos = s.ev.z)) = some q →
    ((s.log s.ev.x).mayJoin r q = true → exec .foldUnitCompact s = .next ((s.modRec s.ev.x r.pos (fun r => r.join q)).takeRec s.ev.x q.pos)) ∧
    ((s.log s.ev.x).mayJoin r q = false → exec .foldUnitCompact s = .next s)) ∧
  (∀ (r q : Rec) (i : Nat), i < 32 → r.data.length = 32 → q.data.length = 32 →
    (r.join q).mask = r.mask ||| q.mask ∧ (r.join q).data[i]? = if q.mask.getLsbD i then q.data[i]? else r.data[i]?) ∧
  (∀ (s : State) (p : Nat), s.slotOfCore s.ev.x = some p → s.pressed s.ev.x p = true → ∃ t, exec .pressurePublication s = .next t ∧ t.logs = (s.publish s.ev.x).logs ∧ t.trains = (s.publish s.ev.x).trains ∧
    (t.reg (slotOff p 0x3D0)).toNat = min (2 ^ 64 - 1) (((s.publish s.ev.x).reg (slotOff p 0x3D0)).toNat + 1) ∧ (∀ o, o ≠ slotOff p 0x3D0 → t.reg o = (s.publish s.ev.x).reg o))

/-- R72, R192: a fill that has reached its home brings the folded bytes of its sector, with the core's unfolded records over them, or, where the home refuses it, faults its waiters; one that has not, or whose home waits, changes nothing; a sector in a window is asked for again, or fails where its link cannot carry it. R223, R225: an atomic and a home load are served at their home in arrival order, an atomic once no record of its granule is left, those not yet published being published. R285, R466: the distributor answers a query with the next tile and counts it, or refuses as its home does, and what comes for a task that is gone or unwinds is written nowhere. R171: a landed operation writes its destination and is gone. -/
def Obligations.HomeService : Prop :=
  (∀ (s : State) (p key : Nat) (f : Fill), s.slotOfCore s.ev.x = some p → key = elemKey s.ev.yes s.ev.z p s.ev.val.toNat →
    (s.core s.ev.x).fills.find? (fun f => decide (f.key = key) && (f.stash == s.ev.yes)) = some f →
    (isStack f.pa = false → exec .sectorFill s = .next (if s.cutOff f.pa = true ∧ s.sectorSent s.ev.x key f.stash = false then s.fillFails s.ev.x key f.stash fLINKDOWN else s.sendSector s.ev.x key f.pa f.stash)) ∧
    (isStack f.pa = true → (s.homeWaits f.pa = true ∨ arrived f.deliv (s.ev.x / 192) (homeOf f.pa) = false) → exec .sectorFill s = .next s) ∧
    (isStack f.pa = true → s.homeWaits f.pa = false → arrived f.deliv (s.ev.x / 192) (homeOf f.pa) = true →
      (∀ code, s.homeRefuses p f.pa = some code → exec .sectorFill s = .next (s.fillFails s.ev.x key f.stash code)) ∧
      (s.homeRefuses p f.pa = none → ∀ u, u = s.lineBack (f.pa / 256) → exec .sectorFill s = .next (u.fillArrives s.ev.x key f.stash (u.filled s.ev.x key f.pa)).2))) ∧
  (∀ (s : State) (core key pa : Nat), (s.log core).recs = [] → (s.filled core key pa).data = s.readBytes pa 128 ∧ (s.filled core key pa).pa = pa) ∧
  (∀ (s : State) (h : HomeOp), Table.find s.homeOps s.ev.x = some h →
    (h.cls = 2 → s.servable s.ev.x h = true → s.atomicHeld h = false → exec .atomicAtHome s = .next (s.atomicServe s.ev.x).pokeWatch) ∧
    (h.cls = 2 → s.servable s.ev.x h = true → s.atomicHeld h = true → exec .atomicAtHome s = .next (s.atomicPublishes h)) ∧
    (s.servable s.ev.x h = false → exec .atomicAtHome s = .next s ∧ exec .homeLoad s = .next s) ∧
    (h.cls = 0 → s.servable s.ev.x h = true → exec .homeLoad s = .next (s.homeServe s.ev.x))) ∧
  (∀ (s : State), exec .resultLands s = .next (s.land s.ev.x s.ev.y s.ev.z)) ∧
  (∀ (s : State) (q : Query), Table.find s.queries s.ev.x = some q →
    (s.homeWaits q.pa = false → arrived q.deliv (q.core / 192) (homeOf q.pa) = true → exec .distributorQuery s = .next (s.serveQuery s.ev.x q).pokeWatch) ∧
    ((s.homeWaits q.pa = true ∨ arrived q.deliv (q.core / 192) (homeOf q.pa) = false) → exec .distributorQuery s = .next s)) ∧
  (∀ (s : State) (id : Nat) (q : Query) (code : Nat), (s.log q.core).recs = [] → s.homeRefuses q.part q.pa = some code → s.serveQuery id q = s.failQuery id q code) ∧
  (∀ (s : State) (id code : Nat) (q : Query) (w : Nat × Nat), s.queryTaken q = false → s.answerQuery id q w = s.dropQuery id ∧ s.failQuery id q code = (s.dropQuery id).countFaults q.part q.core [{ lane := 0, code := code, va := q.va }]) ∧
  (∀ (s : State) (id p : Nat) (q : Query), (s.log q.core).recs = [] → p = q.part → s.homeRefuses p q.pa = none → s.counted = [] → s.poisoned q.pa = false →
    gridOk (s.readBytes q.pa 32) = true → Memory.wf s.mem = true →
    s.serveQuery id q = ((s.atomicWrite q.core q.pa (leBytes 4 (min 0xFFFFFFFF (s.readLe q.pa 4 + 1)))).invalidate q.core (fun key => decide (keySlot key = p) && decide (keyVa key / 256 = q.va / 256))).answerQuery
      id q (gridWords (s.readBytes q.pa 32) (s.readLe q.pa 4)) ∧
    (s.serveQuery id q).readLe q.pa 4 = min 0xFFFFFFFF (s.readLe q.pa 4 + 1) ∧ (∀ a, a < q.pa ∨ q.pa + 4 ≤ a → Memory.read (s.serveQuery id q).mem a = Memory.read s.mem a)) ∧
  (∀ (s : State) (t : Train) (q : Pend) (x : Acc) (core slot n d : Nat), s.train core slot = some t → Table.find t.pend n = some q → t.mayLand n q = true → q.faults = [] → q.killed = 0 →
    q.acc = some x → x.scalar = true → x.op ≠ .append → q.dest = .scalar d → d ≠ 0 → Table.sorted t.s = true → Table.sorted t.pend = true →
    ∃ t', (s.land core slot n).train core slot = some t' ∧ Table.find t'.pend n = none ∧ t'.getS d = BitVec.ofNat 64 (q.value 0) ∧ (∀ m, m ≠ d → t'.getS m = t.getS m) ∧ t'.v = t.v ∧ t'.k = t.k ∧ t'.b = t.b ∧
      (s.land core slot n).mem = s.mem ∧ (s.land core slot n).tasks = s.tasks)

/-! ### Queues, graphs, jobs -/

/-- R93-R95: EN of a valid descriptor enables its queue, an invalid one sets ERR 4; clearing EN disables it and keeps what it fetched; an accepted TAIL makes entries fetchable, any other sets ERR 1; STAIL frees what the device has written, and any other value sets ERR 1; a doorbell waits behind the BAR4 writes of its master that came before it and are not accepted yet; once the BAR4 writes before it have folded and the fetch has reached the entry's home (R24), a fetch copies the entry at HEAD whole and advances HEAD, or fails with ERR 3 and holds the queue. R110, R164: a staged reply goes, at its commit, to the train parked on that call, or, while that train is saved, into its record, and a commit that names none sets ERR 1; the reply of a trap lands in S1. -/
def Obligations.Doorbells : Prop :=
  (∀ (s : State) (q : Nat), s.ev.x = q → q < 4096 → accepts s (queueOff q 8) → Table.sorted s.bar = true → s.regBits (queueOff q 8) 63 1 = 0 → s.ev.val.getLsbD 63 = true →
    ∀ u, u = s.setReg (queueOff q 8) ((s.reg (queueOff q 8) &&& ~~~ 0x7FF001F7F1F#64) ||| (s.ev.val &&& 0x7FF001F7F1F#64)) →
    ((bits s.ev.val 0 5 ≤ 23 ∧ 4 ≤ bits s.ev.val 16 5 ∧ bits s.ev.val 16 5 ≤ 16 ∧ bits s.ev.val 8 7 ≤ 64 ∧ s.pctlState (bits s.ev.val 8 7) ≠ 0) →
      exec .queueEnable s = .next ((u.queueErr q 0).setRegBits (queueOff q 8) 63 1 1)) ∧
    (¬ (bits s.ev.val 0 5 ≤ 23 ∧ 4 ≤ bits s.ev.val 16 5 ∧ bits s.ev.val 16 5 ≤ 16 ∧ bits s.ev.val 8 7 ≤ 64 ∧ s.pctlState (bits s.ev.val 8 7) ≠ 0) → exec .queueEnable s = .next (u.queueErr q 4))) ∧
  (∀ (s : State) (q : Nat), s.ev.x = q → q < 4096 → accepts s (queueOff q 8) → s.regBits (queueOff q 8) 63 1 = 1 → s.ev.val.getLsbD 63 = false →
    s.ev.val &&& 0x7FF001F7F1F = s.reg (queueOff q 8) &&& 0x7FF001F7F1F → exec .queueDisable s = .next (s.setRegBits (queueOff q 8) 63 1 0)) ∧
  (∀ (s : State), (s.pageQueue s.ev.x s.ev.y = none ∨ s.behindWrite true s.ev.x s.nextId = true) →
    exec .doorbellTail s = .next s ∧ exec .doorbellStail s = .next s ∧ exec .doorbellReplyValue s = .next s ∧ exec .doorbellReplyCommit s = .next s) ∧
  (∀ (s : State) (q v : Nat), s.pageQueue s.ev.x s.ev.y = some q → s.behindWrite true s.ev.x s.nextId = false → v = s.ev.val.toNat →
    ((v < 2 ^ 32 ∧ (v + 2 ^ 32 - s.qHead q) % 2 ^ 32 ≤ s.qSize q ∧ (v + 2 ^ 32 - s.qTail q) % 2 ^ 32 ≤ s.qSize q) → exec .doorbellTail s =
      .next ((s.setRegBits (queueOff q 0x10) 32 32 v).setQueue q { s.queue q with accepts := (s.queue q).accepts ++ [(v, s.clock, s.ev.x, s.inboundTails)], stuck := false })) ∧
    (¬ (v < 2 ^ 32 ∧ (v + 2 ^ 32 - s.qHead q) % 2 ^ 32 ≤ s.qSize q ∧ (v + 2 ^ 32 - s.qTail q) % 2 ^ 32 ≤ s.qSize q) → exec .doorbellTail s = .next (s.queueErr q 1))) ∧
  (∀ (s : State) (q : Nat), s.pageQueue s.ev.x s.ev.y = some q → s.behindWrite true s.ev.x s.nextId = false →
    exec .doorbellReplyValue s = .next (s.setQueue q { s.queue q with staged := s.ev.val }) ∧
    (∀ e, s.trains.find? (fun (e : Nat × Train) => s.parkedOn q (s.ev.val.toNat % 2 ^ 32) e.2) = some e → exec .doorbellReplyCommit s = .next (s.applyReply e.1 (s.queue q).staged)) ∧
    (s.trains.find? (fun (e : Nat × Train) => s.parkedOn q (s.ev.val.toNat % 2 ^ 32) e.2) = none →
      ∀ o, o = s.saved.find? (fun (e : Nat × Train) => s.parkedOn q (s.ev.val.toNat % 2 ^ 32) e.2 && !e.2.staged) →
      (∀ e, o = some e → exec .doorbellReplyCommit s = .next (s.stageReply e.1 e.2 (s.queue q).staged)) ∧ (o = none → exec .doorbellReplyCommit s = .next (s.queueErr q 1))) ∧
    (∀ v old head, v = s.ev.val.toNat % 2 ^ 32 → old = s.regBits (queueOff q 0x28) 32 32 → head = s.regBits (queueOff q 0x28) 0 32 → exec .doorbellStail s =
      .next (if (v + 2 ^ 32 - old) % 2 ^ 32 ≤ (head + 2 ^ 32 - old) % 2 ^ 32 then s.setRegBits (queueOff q 0x28) 32 32 v else s.queueErr q 1))) ∧
  (∀ (s : State) (key : Nat) (t : Train) (c : Call) (v : W64), Table.find s.trains key = some t → t.call = some c → c.fault = false →
    s.applyReply key v = { s with trains := Table.put s.trains key { t.setS 1 v with call := none } }) ∧
  (∀ (s : State) (q w a : Nat) (x : Nat × Nat × Nat × List (Nat × Nat)), s.ev.x = q → w = queueOwner q → s.regBits (queueOff q 8) 63 1 = 1 → s.qHead q ≠ s.qTail q → (s.queue q).head = none → (s.queue q).stuck = false →
    s.regBits fwfailOff 2 1 = 0 → s.owner.recovery = false → (s.queue q).accepts.find? (fun x => after32 x.1 (s.qHead q)) = some x →
    a = s.regBits (queueOff q 0) 7 45 * 128 + s.qHead q % s.qSize q * 128 →
    (s.doorbellFolded x = false → exec .entryFetch s = .next s) ∧
    (s.doorbellFolded x = true → (s.fotRange (s.qSlot q) a 128 = false ∨ s.gaveUp w a = true) → exec .entryFetch s = .next (((s.dropTrips w).queueErr q 3).setQueue q { s.queue q with stuck := true })) ∧
    (s.doorbellFolded x = true → s.fotRange (s.qSlot q) a 128 = true → s.gaveUp w a = false →
      ((s.homeWaits a = true ∨ s.away w a = true) → exec .entryFetch s = .next (s.sendTo w a)) ∧
      (s.homeWaits a = false → s.away w a = false → s.anyPoison a 128 = true → exec .entryFetch s = .next (((s.dropTrips w).queueErr q 3).setQueue q { s.queue q with stuck := true })) ∧
      (s.homeWaits a = false → s.away w a = false → s.anyPoison a 128 = false → ∃ t, exec .entryFetch s = .next t ∧ (t.queue q).head = some { bytes := s.readBytes a 128, accepted := x.2.1 } ∧
        t.bar = (s.setRegBits (queueOff q 0x10) 0 32 ((s.qHead q + 1) % 2 ^ 32)).bar ∧ t.mem = s.mem)))

/-- R77, R96-R98, R102, R104, R105: at its turn the head of a queue is dispatched: a launch record that meets R98 becomes a READY task that holds its grant and awaits its placement; an ill-formed entry ends with status FORMAT, one too large for the part with RESOURCE, an entry of unknown kind sets ERR 6; a valid graph becomes an instance that holds the grant, an invalid one ends with GRAPHFORMAT; an accepted job card becomes a job; a ready node whose grant the pool covers is run. An entry that can be fetched keeps its place before it is fetched. The share of a slot grows by its weight at its turn and falls by the core-cycles used. -/
def Obligations.Dispatch : Prop :=
  (∀ (s : State) (q : Nat) (e : QEntry), s.ev.x = q → (s.queue q).head = some e → s.headReady q = true → s.myTurn (s.qSlot q) (s.qLevel q) q = true →
    (le e.bytes 0 1 = 1 → launchOk e.bytes = false → exec .entryDispatch s = .next (s.reject q e.bytes 5 0)) ∧
    (le e.bytes 0 1 = 1 → launchOk e.bytes = true → launchFits e.bytes = false → exec .entryDispatch s = .next (s.reject q e.bytes 8 0)) ∧
    (le e.bytes 0 1 = 1 → launchOk e.bytes = true → launchFits e.bytes = true → ∃ t id k, exec .entryDispatch s = .next t ∧ (t.queue q).dispatching = some id ∧ t.task id = some k ∧ k.held = true ∧ k.state = .ready ∧
      k.alw = launchGrant e.bytes ∧ k.slot = s.qSlot q ∧ k.root = true ∧ k.queue = q ∧ k.level = s.qLevel q ∧ (t.queue q).head = some e) ∧
    (le e.bytes 0 1 = 0 ∨ 4 ≤ le e.bytes 0 1 → exec .entryDispatch s = .next (s.rejectUnknown q e.bytes)) ∧
    (le e.bytes 0 1 = 2 → graphEntryOk e.bytes = false → exec .entryDispatch s = .next (s.reject q e.bytes 5 0)) ∧
    (∀ h body, graphEntryOk e.bytes = true → s.deviceRead (queueOwner q) (s.qSlot q) (le e.bytes 8 8) 64 = .ok h → 1 ≤ le h 0 4 → le h 0 4 ≤ 4096 → zeros h 4 60 = true →
      s.deviceRead (queueOwner q) (s.qSlot q) (le e.bytes 8 8 + 64) (64 * le h 0 4) = .ok body → ∀ imgs, imgs = tableOf body 0 64 (le h 0 4) →
      ((imgs.all (nodeOk (le h 0 4)) && graphOk (imgs.map nodeOf)) = false → exec .graphValidation s = .next (s.reject q e.bytes 6 0)) ∧
      ((imgs.all (nodeOk (le h 0 4)) && graphOk (imgs.map nodeOf)) = true → exec .graphValidation s = .next (s.startGraph q e.bytes (imgs.map nodeOf)))) ∧
    (∀ d, cardOk e.bytes = true → s.cardRead (queueOwner q) (s.qSlot q) e.bytes = .ok d →
      (cardDescOk e.bytes d = false → exec .jobCardAccept s = .next (s.reject q e.bytes 5 0)) ∧
      (cardDescOk e.bytes d = true → exec .jobCardAccept s = .next ((s.popHead q).acceptCard e.bytes d (s.qSlot q) q none)))) ∧
  (∀ (s : State) (g n : Nat) (k : Task) (ns : List GNode) (x : GNode) (bs : List Byte), s.ev.x = g → s.ev.y = n → s.task g = some k → Table.find s.graphs g = some ns → readyNode ns = some n → s.graphReady g = true →
    s.myTurn k.slot k.level (4096 + g) = true → ns[n]? = some x → s.deviceRead (taskOwner g) k.slot x.va 128 = .ok bs →
    (x.typ = 1 → exec .graphNodeDispatch s = .next (s.runTaskNode g n k bs)) ∧
    (∀ d, x.typ = 2 → cardOk bs = true → s.cardRead (taskOwner g) k.slot bs = .ok d → exec .graphNodeDispatch s = .next (s.runJobNode g n k bs d))) ∧
  (∀ (s : State) (l p : Nat), s.ev.x = l → s.ev.y = p → l < 24 → s.turnOver l = true → s.nextSlot l = some p → ∀ u, u = { s with turns := Sparse.set 65 s.turns l p } →
    (u.awaiting p l ≠ [] → exec .slotTurn s = .next (u.setShare p l (u.share p l + (bits (u.slotReg p 0) 46 10 * 16384 : Nat)))) ∧
    (u.awaiting p l = [] → exec .slotTurn s = .next (u.setShare p l (min (u.share p l) 0)))) ∧
  (∀ (s : State) (p l key : Nat), s.myTurn p l key = true → (∀ m < l, ∀ q < 65, s.awaiting q m = []) ∧ s.turnOf l = p ∧ 0 < s.share p l ∧ oldest (s.awaiting p l) = some key) ∧
  (∀ (s : State), (s.interval = s.clock / 1000 → exec .deficitDecrement s = .next s) ∧
    (s.interval ≠ s.clock / 1000 → ∃ t, exec .deficitDecrement s = .next t ∧ t.used = [] ∧ t.interval = s.clock / 1000 ∧ t.tasks = s.tasks ∧
      (∀ p l n, s.used = [(shareKey p l, n)] → l < 32 → Table.sorted s.deficit = true → t.share p l = max (-(2 ^ 40)) (min (2 ^ 40) (s.share p l - n)))))

namespace Sys2Proof.Claims

/-- What the reads of a chunk of a copy come to (R281): its elements with their values, and the walks of its writes. -/
def chunkReads (s : State) (id : Nat) (j : Job) (c : Nat) : State × List (Nat × ERead) × List (Nat × ERead) :=
  let u := (s.cachePages j.eng (jobOwner id) j.slot .read (j.sources (j.chunk c))).cachePages j.eng (jobOwner id) j.slot .write (j.targets (j.chunk c))
  (u, (j.chunk c).map (fun k => (k, u.jobRead id j k)), u.walksFor id j (j.targets (j.chunk c)))
/-- The elements of a chunk that are written: where, with which value, poisoned or not. -/
def chunkWrites (j : Job) (rs : List (Nat × ERead)) : List (Nat × Nat × Bool) := rs.filterMap (fun r => match r.2, j.target r.1 with
  | .ok v g, some a => some (a, v, g.isSome)
  | _, _ => none)

end Sys2Proof.Claims

open Sys2Proof.Claims

/-- R105, R106, R281, R282: a job starts once it may; a copy's chunk is moved, then complete when what it wrote has folded; a job with every chunk complete ends, and one that failed ends too. R43, R286, R287: a collective sends its contribution as it starts, goes on by `collStep` until its result is written and has folded, takes a contribution from the main line or from another package, writes it and then its bit as records of its engine's log, and ends at its deadline with status DEADLINE. A chunk that is moved is written in the scratchpad in place, or as records of the engine's log, with the poison of what it read; complete, it drops the issuer's lines of its destination and sets its bit; an ended job spends its reservation and writes its word; an ended step sets ARRIVED, and CLOSED where it is its producer's last, and a cancelled one leaves no job. R278, R279: a copy program's step begins, and ends with its stage; R128, R438: a program that has ended after its task's trains is collected, its unspent bound returned, or spent where the task unwinds; R437: a waiting MXFORK issues once its pair is free, and its program is then queued; R283: a continuation whose mask is complete starts a train that is no member of its task. -/
def Obligations.JobsAndPrograms : Prop :=
  (∀ (s : State) (id : Nat) (j : Job), s.ev.x = id → Table.find s.jobs id = some j →
    (s.jobMay id j = true → j.coll = false → exec .jobStart s = .next { s with jobs := Table.put s.jobs id { j with started := true, startAt := s.clock } }) ∧
    (s.jobMay id j = true → j.coll = true → ∀ i, i = { j with started := true, startAt := s.clock } →
      exec .jobStart s = .next (State.collSend { s with jobs := Table.put s.jobs id i } id i)) ∧ (s.jobMay id j = false → exec .jobStart s = .next s) ∧
    (j.coll = false → j.status = 0 → j.started = true → s.ev.y < j.chunkCount → j.done.contains s.ev.y = false → s.dieWorks (j.yard / 24) = true → s.sourceFolded j = true →
      (j.moved.any (fun m => decide (m.1 = s.ev.y)) = true → exec .copyChunkComplete s = .next (if s.chunkFolded j s.ev.y then s.chunkDone id j s.ev.y else s.jobReads j)) ∧
      (j.moved.any (fun m => decide (m.1 = s.ev.y)) = false → s.stepCut j = false → exec .copyChunkComplete s = .next (s.moveChunk id j s.ev.y))) ∧
    (j.status ≠ 0 → exec .jobComplete s = .next (s.endJob id j)) ∧ (j.status = 0 → j.coll = true → exec .jobComplete s = .next (s.collStep id j)) ∧
    (j.status = 0 → j.coll = false → s.stepCut j = true → j.chunksDone = true → exec .jobComplete s = .next (s.cutStep id j)) ∧
    (j.status = 0 → j.coll = false → j.started = true → s.stepCut j = false → (List.range j.chunkCount).all j.done.contains = true →
      (j.step = none → exec .jobComplete s = .next (s.endJob id j)) ∧ (j.step.isSome = true → exec .jobComplete s = .next (s.endStep id j))) ∧
    (∀ r, r = s.ev.y → r < coN j.desc → r ≠ coRank j.desc →
      (s.collRuns j = false → exec .collectiveContribution s = .next s) ∧
      (s.collRuns j = true → j.moved.any (fun m => decide (m.1 = r)) = true → exec .collectiveContribution s = .next ((s.jobReads j).collPlace id j r [] false)) ∧
      (s.collRuns j = true → j.moved.any (fun m => decide (m.1 = r)) = false →
        (s.ev.z = 0 → exec .collectiveContribution s = .next (if j.near.any (fun ns => !ns.contains r) then s.collPlace id j r s.ev.bytes s.ev.yes else s)) ∧
        (∀ n c, s.ev.z = n + 1 → Table.find s.contribs n = some c → exec .collectiveContribution s = .next (if c.fits j r then s.takeContrib id j n c else s)))) ∧
    (j.coll = true → j.started = true → j.status = 0 → j.startAt + le j.desc 0x30 8 ≤ s.clock → j.moved.any (fun m => decide (m.1 = coN j.desc)) = false →
      exec .collectiveDeadline s = .next ((s.dropFeet j).endJob id { j with status := 11 }))) ∧
  (∀ (s : State) (l : Nat) (m : MxProg), s.ev.x = l → s.running l = some m → m.loaded = true → m.copyJob = none → m.copyDone < m.copyN → (m.ended && decide (m.status ≠ 0)) = false →
    s.mxHeld { leader := l, pair := s.pairOf l, m := m } = false → exec .copyStep s = .next (s.beginStep l m)) ∧
  (∀ (s : State) (l : Nat) (m : MxProg) (k : Task), s.ev.x = l → (s.pairOf l).progs = [m] → m.active = false → s.task m.task = some k → k.live = 0 → m.used ≤ m.bound → m.bound - m.used ≤ k.rsv →
    ∃ t k', exec .programAutoCollect s = .next t ∧ (t.pairOf l).progs = [] ∧ t.task m.task = some k' ∧ k'.rsv + (m.bound - m.used) = k.rsv ∧ k'.outstanding = k.outstanding - 1 ∧
      (k.state ≠ .unwinding → k'.alw = k.alw + (m.bound - m.used) ∧ k'.spent = k.spent) ∧ (k.state = .unwinding → k'.alw = k.alw ∧ k'.spent = k.spent + (m.bound - m.used))) ∧
  (∀ (s : State) (o : Portion) (a : BitVec 6), (s.train s.ev.x s.ev.y).bind (fun t => t.portion s.ev.z) = some o → o.wait = .mxfork a →
    (s.running s.ev.x = none → exec .mxforkAccept s = exec (.mxfork a) ({ s with focus := { core := s.ev.x, slot := s.ev.y, portion := s.ev.z } }.modPortion (fun o => { o with wait := .none }))) ∧
    ((s.running s.ev.x).isSome = true → exec .mxforkAccept s = .next s)) ∧
  (∀ (s u : State) (o : Portion) (a : BitVec 6) (c : Cur) (bs : List Byte) (q : SReq), (s.train s.ev.x s.ev.y).bind (fun t => t.portion s.ev.z) = some o → o.wait = .mxfork a → s.running s.ev.x = none →
    u = { s with focus := { core := s.ev.x, slot := s.ev.y, portion := s.ev.z } }.modPortion (fun o => { o with wait := .none }) → c.core = s.ev.x → c.core % 2 = 0 → fmtA c.o.fmt ≠ 0 → fmtB c.o.fmt ≠ 0 →
    u.level ≠ 1 → u.resizes c.core c.t.task = false → u.headerRead c (c.t.getS a.toNat).toNat = some (.ok bs) → q = { op := 0x34, extra := le bs 8 8, sregs := [a.toNat], clauses := true, boundary := true } →
    u.ready c q → c.o.again = .no → ∃ t m, exec .mxforkAccept s = .next t ∧ (t.pairOf c.core).progs = (s.pairOf c.core).progs ++ [m] ∧ m.task = c.t.task ∧ m.va = (c.t.getS a.toNat).toNat ∧ m.fmt = c.o.fmt ∧
      m.bound = le bs 8 8 ∧ m.ended = false ∧ t.mem = s.mem) ∧
  (∀ (s : State) (c i : Nat) (x : Cont) (k : Task), s.ev.x = c → s.ev.y = i → (s.core c).conts[i]? = some x → s.task x.task = some k → x.ready = true → k.held = true → k.issues = true → s.pctlState k.slot = 2 → s.roomFor c k = true →
    ∃ t k', exec .continuationFire s = .next t ∧ (t.core c).conts = (s.core c).conts.eraseIdx i ∧ t.task x.task = some k' ∧ k'.outstanding = k.outstanding - 1 ∧ k'.live = k.live + 1 ∧ t.mem = s.mem ∧
      (s.freeTrainSlot c = none ∨ ∃ n tr, s.train c n = none ∧ t.train c n = some tr ∧ tr.task = x.task ∧ tr.member = false ∧ tr.getS 1 = x.arg ∧ tr.portions = [(0, { pc := x.entry })] ∧ tr.lcb = k.lcb ∧ tr.b = x.b)) ∧
  (∀ (s u : State) (id : Nat) (j : Job) (c : Nat) (rs ws : List (Nat × ERead)), chunkReads s id j c = (u, rs, ws) →
    (∀ code, firstFault (rs ++ ws) = some code → firstDenied (rs ++ ws) = none → s.moveChunk id j c = u.jobFault id j code) ∧
    (∀ code pa, firstFault (rs ++ ws) = some code → firstDenied (rs ++ ws) = some pa → s.moveChunk id j c = (u.logDenied 128 j.yard pa).jobFault id j code) ∧
    (firstFault (rs ++ ws) = none → farReads (rs ++ ws) ≠ [] → s.moveChunk id j c = (farReads (rs ++ ws)).foldl (fun s f => s.askFar (jobOwner id) f.1 f.2) u) ∧
    (firstFault (rs ++ ws) = none → farReads (rs ++ ws) = [] → j.toPad = true → ∀ core, j.core = some core → ∃ k, Table.find (s.moveChunk id j c).jobs id = some k ∧ k.moved = j.moved ++ [(c, 0)] ∧ k.done = j.done ∧
      (s.moveChunk id j c).scratch core j.task = (u.scratch core j.task).fill (loE j.desc) (chunkWrites j rs) ∧ (s.moveChunk id j c).mem = u.mem ∧ (s.moveChunk id j c).logs = u.logs) ∧
    (firstFault (rs ++ ws) = none → farReads (rs ++ ws) = [] → j.toPad = false → ∀ ok v : _, v = u.dropTrips (jobOwner id) →
      (chunkWrites j rs).map (fun w => v.writeTarget j.eng j.slot (if j.counted.isSome then 4 else 0) w.1) = ok.map (fun (x : Elem × Nat) => Except.ok x.2) →
      ok.map Prod.fst = (chunkWrites j rs).map (fun w => ({ lane := 0, j := 0, va := some w.1, val := w.2.1 } : Elem)) →
      ∃ k w, w = v.engineRecs (copyLog j.yard) j.slot j.task j.counted (id + 1) (((chunkWrites j rs).filter (fun w => w.2.2)).map (fun w => w.1 / 32)) (piecesOf (loE j.desc) ok) ∧
        Table.find (s.moveChunk id j c).jobs id = some k ∧ k.moved = j.moved ++ [(c, (w.log (copyLog j.yard)).tail)] ∧ k.done = j.done ∧ (s.moveChunk id j c).logs = w.logs ∧ (s.moveChunk id j c).mem = w.mem)) ∧
  (∀ (s u : State) (id : Nat) (j : Job) (c : Nat), u = { s with jobs := Table.put s.jobs id { j with done := j.done ++ [c] } } →
    (j.core = none → s.chunkDone id j c = u) ∧
    (∀ core, j.core = some core → (j.step.isSome = true → s.chunkDone id j c = u.dropFeet j) ∧
      (j.step = none → ∀ x, x = (u.dropFeet j).scratch core j.task → s.chunkDone id j c = (u.dropFeet j).setScratch core j.task (x.write (j.pad + c / 8) [x.read (j.pad + c / 8) ||| BitVec.ofNat 8 (2 ^ (c % 8))])))) ∧
  (∀ (s : State) (j : Job) (core : Nat), j.core = some core → (s.core core).fills = [] → s.logs = [] →
    ((s.dropFeet j).core core).view = (s.core core).view.filter (fun e => !(decide (keySlot e.1 = j.slot) &&
      j.feet.any (fun f => f.2.2.2 && decide (f.2.2.1 = 0) && decide (f.1 < keyVa e.1 / 256 * 256 + 256) && decide (keyVa e.1 / 256 * 256 < f.2.1)))) ∧ (s.dropFeet j).mem = s.mem) ∧
  (∀ (s : State) (id c : Nat) (j : Job) (k : Task), Table.sorted s.jobs = true → j.queue = none → j.node = none → j.step = none → j.core = some c → s.task j.task = some k → s.padImage c j.task = none →
    Table.find (s.endJob id j).jobs id = none ∧ (s.endJob id j).mem = s.mem ∧
    (∃ k', (s.endJob id j).task j.task = some k' ∧ k'.rsv = k.rsv - j.cost ∧ k'.spent = k.spent + j.cost ∧ k'.outstanding = k.outstanding - 1) ∧
    ((j.coll = false ∨ j.status = 4) → (s.endJob id j).scratch c j.task = s.scratch c j.task) ∧
    (j.coll = true → j.status ≠ 4 → (s.endJob id j).scratch c j.task = (s.scratch c j.task).write j.pad (leBytes 8 (collWord j.status)))) ∧
  (∀ (s : State) (id : Nat) (j : Job), j.queue.isSome = true ∨ j.node.isSome = true → s.endJob id j = s.endCard id j) ∧
  (∀ (s : State) (id l : Nat) (j : Job) (r pid i : Nat) (close : Bool), Table.sorted s.jobs = true → j.step = some (l, r, pid, close, i) →
    (Table.find (s.cutStep id j).jobs id = none ∧ (s.cutStep id j).mem = s.mem ∧ (s.cutStep id j).logs = s.logs ∧
      ((s.cutStep id j).pairOf l).progs = (s.pairOf l).progs.map (fun m => if m.active then { m with copyJob := none } else m)) ∧
    (∀ ring pad, ring = ((s.running l).bind (fun m => m.rings[r]?)).getD [] → pad = (s.scratch l j.task).setBit (rgCtl ring + 8 * i) pid →
      Table.find (s.endStep id j).jobs id = none ∧ (s.endStep id j).mem = s.mem ∧ (s.endStep id j).logs = s.logs ∧
      (s.endStep id j).scratch l j.task = (if close then pad.setBit (rgCtl ring + 8 * ((i + 1) % max 1 (rgStages ring))) (16 + pid) else pad) ∧
      ((s.endStep id j).pairOf l).progs = (s.pairOf l).progs.map (fun m => if m.active then
        { m with xflags := if j.oobz then m.xflags ||| xOOBZ else m.xflags, copyDone := m.copyDone + 1, copyJob := none, filled := Sparse.set 0 m.filled (16 * r + pid) (Sparse.get 0 m.filled (16 * r + pid) + 1) } else m))) ∧
  (∀ (s : State) (id : Nat) (j : Job), (s.collRuns j = false → s.collStep id j = s) ∧
    (s.collRuns j = true → (j.sentOwn = false → s.collStep id j = s.collSend id j) ∧
      (j.sentOwn = true → j.moved.any (fun m => decide (m.1 = coN j.desc)) = true → s.collStep id j = if s.chunkFolded j (coN j.desc) then (s.dropFeet j).endJob id j else s.jobReads j) ∧
      (j.sentOwn = true → j.moved.any (fun m => decide (m.1 = coN j.desc)) = false → s.collStep id j =
        if (coNeeds j.desc).all (fun r => j.done.contains r && s.chunkFolded j r) then s.collResult id j else s.jobReads j))) ∧
  (∀ (s : State) (id r : Nat) (j : Job) (bs : List Byte) (pois : Bool) (a : Nat),
    (j.moved.any (fun m => decide (m.1 = r)) = false → bs.length ≠ coBytes j.desc → s.collPlace id j r bs pois = s) ∧
    (j.moved.any (fun m => decide (m.1 = r)) = true → (s.chunkFolded j r = false ∨ j.done.contains r = true) → s.collPlace id j r bs pois = s) ∧
    (∀ u, j.moved.any (fun m => decide (m.1 = r)) = false → bs.length = coBytes j.desc → a = coLand j.desc + 128 + r * coBytes j.desc → u = s.cachePages j.eng (jobOwner id) j.slot .write (pagesOf a bs.length) →
      u.readsWait id j (u.walksFor id j (pagesOf a bs.length)) = none → s.collPlace id j r bs pois = (u.dropTrips (jobOwner id)).collWrite id j a r bs (List.replicate bs.length pois)) ∧
    (∀ u v g, j.moved.any (fun m => decide (m.1 = r)) = true → s.chunkFolded j r = true → j.done.contains r = false → a = coLand j.desc + r / 8 → u = s.cachePages j.eng (jobOwner id) j.slot .read [a] →
      u.readGlobal id j a 1 = .ok v g → s.collPlace id j r bs pois = (u.dropTrips (jobOwner id)).collWrite id { j with done := j.done ++ [r] } a r
        [BitVec.ofNat 8 ((j.done ++ [r]).foldl (fun v q => if q / 8 = r / 8 then v ||| 2 ^ (q % 8) else v) v)] [])) ∧
  (∀ (s u w : State) (id va mark : Nat) (j : Job) (bs : List Byte) (bad : List Bool) (ok : List (Elem × Nat)), u = s.cachePages j.eng (jobOwner id) j.slot .write (pagesOf va bs.length) →
    bs.zipIdx.map (fun b => u.writeTarget j.eng j.slot 0 (va + b.2)) = ok.map (fun (x : Elem × Nat) => Except.ok x.2) →
    ok.map Prod.fst = bs.zipIdx.map (fun b => ({ lane := 0, j := 0, va := some (va + b.2), val := b.1.toNat } : Elem)) →
    w = u.engineRecs (copyLog j.yard) j.slot j.task none (id + 1) (((bad.zipIdx.filter Prod.fst).map (fun b => (va + b.2) / 32)).eraseDups) (piecesOf 1 ok) →
    (s.collWrite id j va mark bs bad).logs = w.logs ∧ (s.collWrite id j va mark bs bad).mem = w.mem ∧
    Table.find (s.collWrite id j va mark bs bad).jobs id = some { j with moved := j.moved.filter (fun m => decide (m.1 ≠ mark)) ++ [(mark, (w.log (copyLog j.yard)).tail)] }) ∧
  (∀ (s : State) (id y r : Nat) (j : Job) (bs : List Byte) (pois : Bool), ∃ c, Table.find (s.sendNear id j y r bs pois).contribs s.nextId = some c ∧ c.yard = y ∧ c.rank = coRank j.desc ∧ c.member = r ∧ c.data = bs ∧ c.pois = pois ∧
    (s.sendNear id j y r bs pois).mem = s.mem) ∧
  (∀ (j : Job) (c : Contrib), c.fits j c.rank = true ↔ c.deliv = true ∧ c.yard = j.yard ∧ c.member = coRank j.desc ∧ c.data.length = coBytes j.desc) ∧
  (∀ (bs : List Byte) (cs : List (List Byte)), (le bs 0 1 = 2 → coValue bs cs = cs.flatten) ∧ (le bs 0 1 = 4 → coValue bs cs = (cs.head?).getD []) ∧ (le bs 0 1 = 1 → coValue bs cs = coReduce (le bs 1 1) (le bs 2 1) cs))

/-! ### The end of a task -/

/-- R106, R107, R122, R129, R130: a task with nothing left to run closes, its logs published; one with trains, children or work left does not; once its records have folded its completion record is written, its entry is freed, the JOINs that waited for it resolve, and its remainder and what it spent go to its parent: no au is made or lost. R124, R125: a PARK limit that expires unwinds with EXHAUST; R161: a handler past 1,000,000 cycles with DOUBLEFLT. R109, R163: a call's record is written when its ring has room, SHEAD advances, and the train of a host-routed fault goes to its train record too; a record that fails its FOT check unwinds with OWNERSHIP. R117, R121: charging, reserving, spending a reservation and returning one keep ALW + RSV + SPENT. -/
def Obligations.TaskEnds : Prop :=
  (∀ (s : State) (t : Nat) (k : Task), s.ev.x = t → s.task t = some k → k.held = true → k.closing = false → (k.state = .running ∨ k.state = .waiting) →
    (k.live = 0 → k.children = 0 → k.outstanding = 0 → k.placing = none → Table.find s.graphs t = none → k.kind = 1 → exec .taskClose s =
      .next ((s.setTask t { k with state := .waiting, closing := true, failedNode := 0 }).publishOf t)) ∧
    ((k.live ≠ 0 ∨ k.children ≠ 0 ∨ k.outstanding ≠ 0) → exec .taskClose s = .next s)) ∧
  (∀ (s : State) (t : Nat) (k : Task), s.ev.x = t → s.task t = some k → k.held = true → k.closing = true → s.recordsFolded t = false → exec .completionRecordWritten s = .next (s.publishOf t)) ∧
  (∀ (s : State) (t q : Nat) (k p : Task), s.ev.x = t → s.task t = some k → k.held = true → k.closing = true → s.recordsFolded t = true → k.root = false → k.node = none → s.counted = [] → (s.writeCompletion (k.compl t) (k.record t s.clock)).1 = true →
    (∀ e ∈ s.trains, ∀ o ∈ e.2.portions, (∀ i d, o.2.wait ≠ .join i d) ∧ ∀ d b, o.2.wait ≠ .joinAny d b) →
    s.holder k.parent = some q → q ≠ t → s.task q = some p → ∃ u k' p', exec .completionRecordWritten s = .next u ∧ u.task t = some k' ∧ u.task q = some p' ∧
      k'.held = false ∧ k'.state = .done ∧ k'.gen = k.gen ∧ k'.alw = 0 ∧ k'.rsv = 0 ∧ k'.spent = 0 ∧
      p'.alw = p.alw + k.alw ∧ p'.spent = p.spent + k.spent ∧ p'.rsv = p.rsv ∧ p'.children = p.children - 1 ∧ (k.id t, k.status) ∈ p'.doneList ∧ (p.state = .starved → p'.state = .running)) ∧
  (∀ (s z : State) (t : Nat) (k : Task), s.ev.x = t → s.task t = some k → k.held = true → k.closing = true → s.recordsFolded t = true → z = (s.leaveHead t k).finishTask t →
    exec .completionRecordWritten s = .next { z.pokeJoins with graphs := Table.drop z.pokeJoins.graphs t }) ∧
  (∀ (s u : State) (c n p id d : Nat) (t : Train) (o : Portion) (w : W64), n < 32 → s.trains = [(trainKey c n, t)] → t.portions = [(p, o)] → o.wait = .join id d →
    (s.joinLook t.task id = none → s.pokeJoins = s) ∧ (s.joinLook t.task id = some (w, u) → s.pokeJoins = (u.putReg c n d w).endWait c n p true)) ∧
  (∀ (s : State) (t : Nat) (k : Task), s.ev.x = t → s.task t = some k → k.held = true → k.state = .starved →
    (k.expiry ≤ s.clock → exec .parkLimitExpiry s = .next (s.unwind t 2 0)) ∧ (s.clock < k.expiry → exec .parkLimitExpiry s = .next s)) ∧
  (∀ (s : State) (t : Train) (h : Handler), s.train s.ev.x s.ev.y = some t → t.handler = some h → exec .handlerTimeout s =
    .next (if 1000000 < cyclesSince s.time h.since then s.unwind t.task 4 fDOUBLEFLT else s)) ∧
  (∀ (s : State) (t : Train) (c : Call) (k : Task) (q a : Nat), s.train s.ev.x s.ev.y = some t → t.call = some c → c.seq = none → s.task t.task = some k → q = k.queue →
    (s.regBits (queueOff q 0x20) 0 16 < (s.regBits (queueOff q 0x28) 0 32 + 2 ^ 32 - s.regBits (queueOff q 0x28) 32 32) % 2 ^ 32 → exec .syscallRecordWrite s = .next s) ∧
    ((s.regBits (queueOff q 0x28) 0 32 + 2 ^ 32 - s.regBits (queueOff q 0x28) 32 32) % 2 ^ 32 ≤ s.regBits (queueOff q 0x20) 0 16 →
      a = s.regBits (queueOff q 0x18) 6 46 * 64 + 64 * (s.regBits (queueOff q 0x28) 0 32 % (s.regBits (queueOff q 0x20) 0 16 + 1)) →
      (s.fotRange (s.regBits (queueOff q 8) 8 7) a 64 = false → exec .syscallRecordWrite s = .next (s.unwind t.task 4 fOWNERSHIP)) ∧
      (s.fotRange (s.regBits (queueOff q 8) 8 7) a 64 = true → ∀ u, u = (s.deviceWrite a (t.callBytes c (s.regBits (queueOff q 0x28) 0 32) (k.id t.task) s.ev.x s.ev.y)).pokeWatch →
        exec .syscallRecordWrite s = .next (((u.setRegBits (queueOff q 0x28) 0 32 (s.regBits (queueOff q 0x28) 0 32 + 1)).faultRecord s.ev.x s.ev.y t (k.id t.task)).setTrain s.ev.x s.ev.y
          { t with call := some { c with seq := some (s.regBits (queueOff q 0x28) 0 32) } })))) ∧
  (∀ (s : State) (t n : Nat) (k : Task), s.task t = some k → n ≤ k.alw →
    (∃ k', (s.charge t n).task t = some k' ∧ k'.alw + k'.rsv + k'.spent = k.alw + k.rsv + k.spent ∧ k'.spent = k.spent + n) ∧
    (∃ k', (s.reserve t n).task t = some k' ∧ k'.alw + k'.rsv + k'.spent = k.alw + k.rsv + k.spent ∧ k'.rsv = k.rsv + n)) ∧
  (∀ (s : State) (t n : Nat) (k : Task), s.task t = some k → n ≤ k.rsv →
    (∃ k', (s.spendRsv t n).task t = some k' ∧ k'.alw + k'.rsv + k'.spent = k.alw + k.rsv + k.spent ∧ k'.spent = k.spent + n) ∧
    (∃ k', (s.refund t n).task t = some k' ∧ k'.alw + k'.rsv + k'.spent = k.alw + k.rsv + k.spent ∧ k'.alw = k.alw + n))

/-! ### Placement, stealing, the active set -/

/-- R132-R136, R184 (when an answer or a turn of advertised amounts comes is the agenda's: log entries 1 and 53): an attempt asks every core of the window that its agent chooses, or fails; a task behind its slot's siding queue enters it. A core that can grant holds the amounts, and refuses else; with every answer heard and none refused, the commit makes the task RUNNING with its trains live, or, with a bad route table or buffer record, unwinds it with FORMAT, with a fault of their read with FAULT; with a refusal, the release drops what is held, and the attempt has failed. A failed attempt waits 32·2^n cycles and a jitter below that, and the one numbered RETRIES sends the task to the siding queue, whose head is tried when the slot has freed something. -/
def Obligations.Placement : Prop :=
  (∀ (s : State) (t : Nat) (k : Task), s.ev.x = t → s.task t = some k → s.mayPlace t k = true → k.siding = none → k.retryAt = 0 → (k.attempts = 0 && s.behindSiding k) = false → exec .placementAttempt s = .next (s.attempt t k)) ∧
  (∀ (s : State) (t : Nat) (k : Task), s.ev.x = t → s.task t = some k → s.mayPlace t k = true → k.siding = none → k.retryAt = 0 → (k.attempts = 0 && s.behindSiding k) = true →
    exec .placementAttempt s = .next (s.enterSiding t { k with agentCore := (s.agentOf t k).getD none })) ∧
  (∀ (s u : State) (t : Nat) (k i : Task), i = { k with agentCore := (s.agentOf t k).getD none } → u = (s.adverts i).setTask t i →
    (∀ w, u.chooseWindow i = some w → s.attempt t k = u.setTask t { i with placing := some { yard := w.1, w := w.2, asked := windowCores w k.cores, granted := [], refused := [] } }) ∧
    (u.chooseWindow i = none → s.attempt t k = u.failAttempt t)) ∧
  (∀ (s : State) (t c : Nat) (k : Task) (pl : Placing), s.ev.x = t → s.ev.y = c → s.task t = some k → k.placing = some pl → c ∈ pl.asked → ∃ u k', exec .reserveRequest s = .next u ∧ u.task t = some k' ∧
    (s.fits k c = true → k'.placing = some { pl with asked := pl.asked.filter (fun x => decide (x ≠ c)), granted := pl.granted ++ [c] } ∧
      (u.core c).resv = (s.core c).resv ++ [{ task := t, trains := k.share, regs := k.share * budgetRegs k.budget, ways := k.ways }]) ∧
    (s.fits k c = false → k'.placing = some { pl with asked := pl.asked.filter (fun x => decide (x ≠ c)), refused := pl.refused ++ [c] } ∧ u.cores = s.cores)) ∧
  (∀ (s : State) (t c : Nat) (k : Task) (pl : Placing), s.ev.x = t → s.ev.y = c → s.task t = some k → k.placing = some pl → c ∉ pl.heard → (c ∈ pl.granted ∨ c ∈ pl.refused) → pl.granted ≠ [] →
    exec .reserveAnswer s = .next (s.setTask t { k with placing := some { pl with heard := pl.heard ++ [c] } })) ∧
  (∀ (s : State) (t : Nat) (k : Task) (pl : Placing), s.ev.x = t → s.task t = some k → k.placing = some pl → k.state = .ready → pl.answered k.cores = true → pl.refused = [] → s.slotRuns k.slot = true → s.passes k = false →
    (∀ rt bs, (if k.routesN = 0 then DRead.ok [] else s.deviceRead (taskOwner t) k.slot k.routesVa.toNat (8 * k.routesN)) = .ok rt →
      (if k.blockVa = 0 then DRead.ok [] else s.deviceRead (taskOwner t) k.slot k.blockVa.toNat 512) = .ok bs → exec .placementCommit s =
        .next (if routesOk rt k.routesN k.trains = true ∧ blockOk bs = true then s.placeAll t k pl (routeMasks rt k.routesN) (blockRegs bs) else s.placeFails t k pl 5 0)) ∧
    (∀ code va, k.routesN ≠ 0 → s.deviceRead (taskOwner t) k.slot k.routesVa.toNat (8 * k.routesN) = .fault code va → exec .placementCommit s = .next ((s.reportRead k.slot (.fault code va)).placeFails t k pl 4 code))) ∧
  (∀ (s : State) (t c : Nat) (k : Task) (pl : Placing), s.ev.x = t → s.ev.y = c → s.task t = some k → k.placing = some pl → k.state = .ready → pl.answered k.cores = true → pl.refused ≠ [] →
    (pl.granted = [c] → exec .placementRelease s = .next ((s.dropResv t c).failAttempt t)) ∧
    (c ∈ pl.granted → (∃ d ∈ pl.granted, d ≠ c) → exec .placementRelease s =
      .next ((s.dropResv t c).setTask t { k with placing := some { pl with granted := pl.granted.filter (fun x => decide (x ≠ c)) } }))) ∧
  (∀ (s : State) (t : Nat) (k : Task), s.task t = some k → k.siding = none →
    (s.retries k.slot ≤ k.attempts + 1 → ∃ k', (s.failAttempt t).task t = some k' ∧ k'.siding = some s.clock ∧ k'.placing = none ∧ t ∈ ((s.failAttempt t).pslot k.slot).siding) ∧
    (k.attempts + 1 < s.retries k.slot → ∃ k', (s.failAttempt t).task t = some k' ∧ k'.placing = none ∧ k'.attempts = k.attempts + 1 ∧ s.time + 8 * (32 * 2 ^ (k.attempts + 1)) ≤ k'.retryAt ∧
      k'.retryAt < s.time + 16 * (32 * 2 ^ (k.attempts + 1)))) ∧
  (∀ (s : State) (t : Nat) (k : Task), s.ev.x = t → s.task t = some k → s.mayPlace t k = true → k.siding = none → k.retryAt ≠ 0 → k.attempts < s.retries k.slot →
    (k.retryAt ≤ s.time → exec .placementBackoffExpiry s = .next (s.attempt t { k with retryAt := 0 })) ∧ (s.time < k.retryAt → exec .placementBackoffExpiry s = .next s)) ∧
  (∀ (s : State) (p t : Nat) (ts : List Nat) (k : Task), s.ev.x = p → (s.pslot p).siding = t :: ts → s.task t = some k → s.mayPlace t k = true →
    ((s.pslot p).freed = true → exec .placementSidingAttempt s = .next ((s.setPslot p { s.pslot p with freed := false }).attempt t k)) ∧ ((s.pslot p).freed = false → exec .placementSidingAttempt s = .next s))

/-- R30, R138-R141: a victim on a die that works gives its tail task and never its head; an idle core sends its request; a stolen task is appended to the thief's queue, and after an empty answer a thief that stays idle waits 64 cycles. R142-R144: a free active entry goes to the siding train ready longest, a blocked train is swapped for it, and one ready for 2,048 cycles takes the entry held longest; after every step an active-set entry names a resident train of its core that is neither parked nor stopped. -/
def Obligations.StealingAndActiveSets : Prop :=
  (∀ (s : State) (c v : Nat), s.ev.x = c → (s.core c).stealAnswer = none → (s.core c).stealTo = some v → v ≠ c → ∃ t, exec .stealRequest s = .next t ∧ t.tasks = s.tasks ∧ t.trains = s.trains ∧
    ((s.core v).readyQ.length ≤ 1 → (t.core c).stealAnswer = some none ∧ (t.core v).readyQ = (s.core v).readyQ) ∧
    (s.usable (v / 192) = false → (t.core c).stealAnswer = some none ∧ (t.core v).readyQ = (s.core v).readyQ) ∧
    (∀ h m x, s.usable (v / 192) = true → (s.core v).readyQ = h :: (m ++ [x]) → x ≠ h → x ∉ m → (t.core c).stealAnswer = some (some x) ∧ (t.core v).readyQ = h :: m)) ∧
  (∀ (s : State) (c : Nat), s.ev.x = c → (s.core c).stealAnswer = some none → ∃ t, exec .stealReply s = .next t ∧ (t.core c).stealTo = none ∧ (t.core c).stealAnswer = none ∧ (t.core c).stealAt = s.time + 64 * cycle ∧
    (t.core c).readyQ = (s.core c).readyQ) ∧
  (∀ (s : State) (c x : Nat) (k : Task), s.ev.x = c → (s.core c).stealAnswer = some (some x) → s.task x = some k → k.held = true → k.state = .ready → ∃ t, exec .stealReply s = .next t ∧ (t.core c).readyQ = (s.core c).readyQ ++ [x] ∧
    (t.core c).stealTo = none ∧ (t.core c).stealAnswer = none) ∧
  (∀ (s u : State) (c v : Nat), s.ev.x = c → (s.core c).stealAnswer = none → (s.core c).stealTo = none → (s.core c).stealAt = 0 → s.coreIdle c = true → u = s.sendSteal c → (u.core c).stealTo = some v →
    exec .stealRequest s = .next (u.answerSteal c v)) ∧
  (∀ (s : State) (c : Nat), s.ev.x = c → (s.core c).stealAt ≠ 0 → (s.core c).stealTo = none →
    (s.time < (s.core c).stealAt → exec .stealRetryExpiry s = .next s) ∧
    ((s.core c).stealAt ≤ s.time → s.coreIdle c = false → exec .stealRetryExpiry s = .next (s.setCore c { s.core c with stealAt := 0 })) ∧
    ((s.core c).stealAt ≤ s.time → s.coreIdle c = true → exec .stealRetryExpiry s = .next ((s.setCore c { s.core c with stealAt := 0 }).sendSteal c))) ∧
  (∀ (s : State) (c : Nat) (r : Nat × Nat), s.ev.x = c → s.readiest c = some r →
    ((s.core c).active.length < 8 → exec .activeEntryFill s = .next (s.activate c r.1 false)) ∧
    (∀ y t, s.ev.y = y → s.train c y = some t → (s.core c).actives.contains y = true → s.trainBlocked t = true → exec .blockedSwap s = .next ((s.deactivate c y).activate c r.1 false)) ∧
    (∀ old, s.longestHeld c = some old → 8 ≤ (s.core c).active.length → r.2 ≠ 0 → 2048 ≤ cyclesSince s.time r.2 → (s.core c).lastUrgent = 0 → ∃ t, exec .urgentPromotion s = .next t ∧
      (∃ e ∈ (t.core c).active, e.slot = r.1 ∧ e.urgent = true) ∧ (t.core c).lastUrgent = s.time ∧ (old ≠ r.1 → ∀ e ∈ (t.core c).active, e.slot ≠ old)) ∧
    (cyclesSince s.time r.2 < 2048 → exec .urgentPromotion s = .next s)) ∧
  (∀ (s : State) (c : Nat), s.readiest c = none → s.ev.x = c → exec .activeEntryFill s = .next s ∧ exec .blockedSwap s = .next s ∧ exec .urgentPromotion s = .next s) ∧
  (∀ s s', step s = .next s' → ∀ e ∈ s'.cores, ∀ a ∈ e.2.active, ∃ t, s'.train e.1 a.slot = some t ∧ s'.trainAside t = false)

/-- R149, R150, R153-R155: tier 2 begins DRAINUS after the stop and makes every train of the slot one that is to be saved; tier 3 begins 20 µs later, at once without a save area, and FORCE at once, and unwinds with status RESET what is not saved. A train parked on a call is saved as it stands, its record written and the train off its core; a record that fails its FOT check saves nothing. A core whose trains are saved publishes its log first, waits for its records and for what still writes its scratchpads, and then saves them and discards its view. -/
def Obligations.Preemption : Prop :=
  (∀ (s : State) (p : Nat), s.ev.x = p → s.pctlState p = 3 →
    ((s.pslot p).tier = 1 → s.csBase p ≠ 0 → s.drainNs p ≤ s.stopAge p → ∀ u, u = s.setTier p 2 → exec .tier2Start s =
      .next ({ u with trains := u.trains.map (fun (e : Nat × Train) => (e.1, if u.slotOfTask e.2.task = p then { e.2 with draining := true } else e.2)) } : State).saveDrained) ∧
    (s.stopAge p < s.drainNs p → exec .tier2Start s = .next s ∧ exec .tier3Start s = .next s) ∧
    ((s.pslot p).tier < 3 → s.csBase p = 0 → s.drainNs p ≤ s.stopAge p → exec .tier3Start s = .next (s.forceReset p)) ∧
    ((s.pslot p).tier < 3 → s.csBase p ≠ 0 → s.drainNs p + 20000 ≤ s.stopAge p → exec .tier3Start s = .next (s.forceReset p)) ∧
    (p ≤ 64 → accepts s (slotOff p 0x390) → ∀ u, u = s.slotWrite p 0x390 s.ev.val →
      (s.ev.val.getLsbD 0 = true → u.pctlState p = 3 → exec .force s = .next (u.forceReset p)) ∧ (s.ev.val.getLsbD 0 = false → exec .force s = .next u))) ∧
  (∀ (s : State) (c p : Nat), s.ev.x = c → s.slotOfCore c = some p → s.pctlState p = 3 → 2 ≤ (s.pslot p).tier → s.csBase p ≠ 0 → (s.core c).saved = false → c ∈ s.usedCores p →
    (s.trainsIn p).any (fun e => decide (e.1 / 32 = c)) = false →
    ((s.log c).recs.any (fun r => r.stamp.isNone) = true → exec .coreSave s = .next (s.publish c)) ∧
    ((s.log c).recs.any (fun r => r.stamp.isNone) = false → ((s.log c).settledPkg (s.log c).tail = false ∨ s.padBusy p c = true) → exec .coreSave s = .next s) ∧
    ((s.log c).recs = [] → s.padBusy p c = false → padBytes (s.padsIn p c) = [] → ∃ t, exec .coreSave s = .next t ∧ (t.core c).saved = true ∧ (t.core c).view = [] ∧ (t.core c).stash = [] ∧ (∀ x ∈ (t.core c).scratch, s.slotOfTask x.1 ≠ p) ∧ t.tasks = s.tasks)) ∧
  (∀ (s u : State) (key p : Nat) (t : Train), Table.find s.trains key = some t → p = s.slotOfTask t.task →
    (s.fotRange p (s.recordAt p (key / 32) (key % 32)) 4096 = false → s.saveTrain key = { s with trains := Table.put s.trains key { t with draining := false, rewound := true } }) ∧
    (s.fotRange p (s.recordAt p (key / 32) (key % 32)) 4096 = true → t.call.any (fun c => c.fault || c.seq.isSome) = true →
      u = (s.detach key).deviceWrite (s.recordAt p (key / 32) (key % 32)) (t.recordBytes (((s.task t.task).map (fun k => k.id t.task)).getD 0) (key % 32)) →
      s.saveTrain key = { u with saved := Table.put u.saved key { t with draining := false } }))

/-! ### Matrix commands -/

namespace Sys2Proof.Claims

/-- The matrix commands that consume no stage of a ring or consume one at once, with their needs (Tables 22-7, 22-8). -/
def mxOps : List ((MxFields → Instr) × (MxFields → MxCtx → MxReq)) :=
  [(.mldb, mldbReq), (.mstrm, mstrmReq), (.mzero, mzeroReq), (.mdrain, mdrainReq), (.mloop, mloopReq), (.mrdv, mrdvReq), (.mend, mendReq)]

/-- The accumulator of a row and a pair column. -/
def accAt (p : Pair) (row col : Nat) : W32 := Sparse.get 0 p.acc (512 * row + col)

/-- The chunk of an operand format in row `j` of a stage's bytes. -/
def chunkAt (fmt : Nat) (data : List Byte) (j : Nat) : List FVal := chunkValues fmt (slice data (chunkBytes fmt * j) (chunkBytes fmt))

end Sys2Proof.Claims

open Sys2Proof.Claims

/-- R265, R267, R273, R274, R276: MLDB loads the columns n0 to n0 + c - 1 of the B banks from the next stage of its ring; MSTRM adds to each accumulator of its rows and active columns the chunk's sum, rounded; MZERO clears those of its rows; MDRAIN stores the rows it forms at their addresses, record by record (R231). Each spends its au, consumes its stage, and leaves the other accumulators and banks as they were. R121, R272, R274, R275, R278: MLOOP jumps back or falls through by `MxProg.loop`; MRDV goes on, and waits, changing nothing, for the copy steps below its operand; MEND ends the program with status OK; and every command first logs what the MDRAIN before it has left, stops its program with CMD for operands outside their limits, with OVERRUN past its bound, with PRODERR on a stage that breaks R272, with POISON on a bad one, with FAULT when the main line has lost the walks of its stores (R26), goes to the end of stream on a closed one, and waits on one not yet full, and on a walk under way. -/
def Obligations.MatrixCommands : Prop :=
  ((∀ (s : State) (x : MxCtx) (f : MxFields) (q : MxReq) (i : Nat), q = mldbReq f x → s.mxReady x q → s.mxStage x q f.a.toNat i →
    ∃ t, exec (.mldb f) s = .next t ∧ t.cores = (s.mxTook x q f.a.toNat i).cores ∧ t.tasks = (s.mxTook x q f.a.toNat i).tasks ∧ t.mem = s.mem ∧ t.trains = s.trains ∧
      (t.pairOf x.leader).acc = (s.pairOf x.leader).acc ∧
      (∀ k < f.y.toNat, Table.find (t.pairOf x.leader).bank (f.x.toNat + k) =
        some (bankColumn (fmtB x.m.fmt) (slice (s.mxData x q f.a.toNat i) (chunkBytes (fmtB x.m.fmt) * k) (chunkBytes (fmtB x.m.fmt)))).1) ∧
      (∀ n, (n < f.x.toNat ∨ f.x.toNat + f.y.toNat ≤ n) → Table.find (t.pairOf x.leader).bank n = Table.find (s.pairOf x.leader).bank n)) ∧
  (∀ (s : State) (x : MxCtx) (f : MxFields) (q : MxReq) (i : Nat), q = mstrmReq f x → s.mxReady x q → s.mxStage x q f.a.toNat i → x.m.nc ≤ 512 → Table.sorted (s.pairOf x.leader).acc = true →
    ∃ t, exec (.mstrm f) s = .next t ∧ t.cores = (s.mxTook x q f.a.toNat i).cores ∧ t.tasks = (s.mxTook x q f.a.toNat i).tasks ∧ t.mem = s.mem ∧ t.trains = s.trains ∧
      (t.pairOf x.leader).bank = (s.pairOf x.leader).bank ∧
      (∀ j n, j < f.y.toNat → n < x.m.nc → accAt (t.pairOf x.leader) (f.x.toNat + j) n = BitVec.ofNat 32 (accumulate (accAt (s.pairOf x.leader) (f.x.toNat + j) n)
        (chunkSum (chunkAt (fmtA x.m.fmt) (s.mxData x q f.a.toNat i) j) ((s.pairOf x.leader).column (bankK x.m.fmt) n))).1) ∧
      (∀ j n, n < 512 → (j < f.x.toNat ∨ f.x.toNat + f.y.toNat ≤ j ∨ x.m.nc ≤ n) → accAt (t.pairOf x.leader) j n = accAt (s.pairOf x.leader) j n)) ∧
  (∀ (s : State) (x : MxCtx) (f : MxFields) (q : MxReq), q = mzeroReq f x → s.mxReady x q →
    ∃ t, exec (.mzero f) s = .next t ∧ t.cores = s.cores ∧ t.tasks = (s.mxDone x q).tasks ∧ t.mem = s.mem ∧ t.trains = s.trains ∧ (t.pairOf x.leader).bank = (s.pairOf x.leader).bank ∧
      (t.pairOf x.leader).progs = ((s.mxDone x q).pairOf x.leader).progs ∧
      (∀ j n, n < 512 → accAt (t.pairOf x.leader) j n = if f.x.toNat ≤ j ∧ j < f.x.toNat + f.y.toNat ∧ n < x.m.nc then 0 else accAt (s.pairOf x.leader) j n)) ∧
  (∀ (s : State) (x : MxCtx) (f : MxFields) (q : MxReq) (d : List Byte), q = mdrainReq f x → d = x.m.drains[f.a.toNat]?.getD [] → s.mxReady x q →
    (x.m.residual f = none → ∀ rows, rows = drainRows x (s.pairOf x.leader) d f.x.toNat f.y.toNat [] →
      exec (.mdrain f) s = .next (((s.mxDone x q).mxFlags x.leader (rows.foldl (fun g r => g ||| r.2.2) 0)).drainTo x d (drainBytes d rows))) ∧
    (∀ r i, x.m.residual f = some r → s.mxStage x q r i → ∀ rows, rows = drainRows x (s.pairOf x.leader) d f.x.toNat f.y.toNat (s.mxData x q r i) →
      exec (.mdrain f) s = .next (((s.mxTook x q r i).mxFlags x.leader (rows.foldl (fun g r => g ||| r.2.2) 0)).drainTo x d (drainBytes d rows))))) ∧
  ((∀ (s : State) (x : MxCtx) (f : MxFields) (q : MxReq), q = mloopReq f x → s.mxReady x q → exec (.mloop f) s = .next ((s.mxDone x q).modProg x.leader (fun m => m.loop x.m.pc f.x.toNat f.y.toNat))) ∧
  (∀ (s : State) (x : MxCtx) (f : MxFields) (q : MxReq), q = mrdvReq f x → (s.mxReady x q → exec (.mrdv f) s = .next (s.mxDone x q)) ∧
    (s.mx = some x → s.mxHeld x = false → x.m.rest = [] → q.good = true → q.waits = true → exec (.mrdv f) s = .next s)) ∧
  (∀ (s : State) (x : MxCtx) (f : MxFields) (q : MxReq), q = mendReq f x → s.mxReady x q → exec (.mend f) s = .next ((s.mxDone x q).modProg x.leader (fun m => { m.stop 0 0 with at_ := x.m.pc }))) ∧
  (∀ op ∈ mxOps, ∀ (s : State) (x : MxCtx) (f : MxFields) (q : MxReq), q = op.2 f x → s.mx = some x → s.mxHeld x = false →
    (x.m.rest ≠ [] → exec (op.1 f) s = .next (s.drainRest x.leader x.m x.m.rest)) ∧ (x.m.rest = [] →
    (q.good = false → exec (op.1 f) s = .next (s.modProg x.leader (fun m => m.stop 6 0))) ∧
    (q.good = true → q.ring = none → q.waits = false →
      (s.mxLost x q = true → exec (op.1 f) s = .next ((s.dropTrips (programOwner x.leader)).mxFault x fMLTIMEOUT)) ∧
      (∀ a, s.mxLost x q = false → s.mxStops x q = some a → exec (op.1 f) s = .next (s.askFar (programOwner x.leader) a 0)) ∧
      (s.mxLost x q = false → s.mxStops x q = none → x.m.bound < x.m.used + q.cost → exec (op.1 f) s = .next (s.mxOverrun x))) ∧
    (∀ r u, q.good = true → q.ring = some r →
      u = s.modProg x.leader (fun m => { m with cm := Sparse.set 0 m.cm r (m.closedMask r ((s.scratch x.leader x.m.task).readLe (rgCtl (x.m.ring r) + 8 * m.nextStage r (x.m.ring r)) 4)) }) →
      (stageAt (s.scratch x.leader x.m.task) x.m r (x.m.ring r) = .waits → exec (op.1 f) s = .next u) ∧
      (stageAt (s.scratch x.leader x.m.task) x.m r (x.m.ring r) = .error → exec (op.1 f) s = .next (u.modProg x.leader (fun m => m.stop 3 0))) ∧
      (stageAt (s.scratch x.leader x.m.task) x.m r (x.m.ring r) = .closed → exec (op.1 f) s = .next (u.modProg x.leader MxProg.endOfStream)) ∧
      (stageAt (s.scratch x.leader x.m.task) x.m r (x.m.ring r) = .bad → exec (op.1 f) s = .next (u.mxPoison x))))) ∧
  (∀ (m : MxProg) (at_ t n : Nat), m.open_.length < 4 → Sparse.wf 0 m.loops = true →
    (n = 0 → (m.loop at_ t n).pc = t ∧ (m.loop at_ t n).loops = m.loops) ∧
    (n ≠ 0 → Sparse.get 0 m.loops at_ + 1 < n → (m.loop at_ t n).pc = t ∧ Sparse.get 0 (m.loop at_ t n).loops at_ = Sparse.get 0 m.loops at_ + 1) ∧
    (n ≠ 0 → n ≤ Sparse.get 0 m.loops at_ + 1 → (m.loop at_ t n).pc = m.pc ∧ Sparse.get 0 (m.loop at_ t n).loops at_ = 0)))

/-! ### Encodings -/

/-- R302, R441 (DECODE AND ENCODE AGREE): for every well-formed instruction with an encoding, the decoder reads from its word exactly that instruction, with every operand. -/
def Obligations.RoundTrip : Prop :=
  ∀ (i : Instr) (n w : Nat), i.wf = true → encode i = some (n, w) → decodeTableWord n w = some i

/-- Tables 17-5a and 17-12: the words that the spec works out decode to the instructions they stand for, MEND and LNOP from their layouts too, and words that R304 and R308 leave out do not decode, but for UDF. -/
def Obligations.DecodeWords : Prop :=
  decodeTableWord 32 0x00304200 = some (.sadd 3 1 2) ∧ decodeTableWord 32 0x24500007 = some (.smovi 5 7) ∧ decodeTableWord 32 0x6041FFFD = some (.bnz 4 0xFFFD) ∧
  decodeTableWord 32 0x80000002 = some (.cls 2) ∧ decodeTableWord 32 0x9870000B = some (.mfs 7 0x0B) ∧ decodeTableWord 32 0xB8600920 = some (.strel 6 2 1 0) ∧
  decodeTableWord 32 0xAC000000 = some .joinSelf ∧ decodeTableWord 32 0xFFFFFFFF = some .udf ∧ decodeTableWord 32 0x2C000000 = none ∧ decodeTableWord 32 0x0000001A = none ∧
  decodeTableWord 96 0xC00082800000000000000000 = some (.ld { d := 2, i := 0x140 }) ∧
  decodeTableWord 96 0x0140C05FF828200000000003 = some (.imad { d := 3, a := 0x002, b := 0x1FF, c := 0x105, typ := 4, imm := 3 }) ∧
  decodeTableWord 96 0xC040C6800000000000000000 = some (.st { d := 3, b := 1, i := 0x140 }) ∧ decodeTableWord 96 0 = some (.lnop {}) ∧
  decodeTableWord 96 0xFFFFFFFFFFFFFFFFFFFFFFFF = none ∧ decodeTableWord 128 0x07000000000000000000000000000000 = some (.mend {}) ∧
  decodeTableWord 128 0x01000002000000100000002000000000 = some (.mldb { a := 2, x := 16, y := 32 }) ∧ decodeTableWord 128 0 = none

/-! ### A step -/

namespace Sys2Proof.Claims

/-- A turn of the scalar stream at focus `f`, with the rest of the agenda after it: nothing holds the stream, and the entry and the portion come next (R146). -/
def scalarTurn (s : State) (f : Focus) (ts : List Turn) (u : State) (c : Cur) : Prop :=
  s.agenda = .scalar f :: ts ∧ u = { s with agenda := ts, focus := f, ev := {} } ∧ u.cur = some c ∧ c.o.wait = .none ∧ u.competes c = true ∧ c.t.starting = false ∧ u.scalarMay c = true ∧ u.chosen f false = true
/-- A turn of the lane cursor at focus `f`. -/
def laneTurn (s : State) (f : Focus) (ts : List Turn) (u : State) (c : Cur) (cl : Clause) (cls : List Clause) (n : Nat) : Prop :=
  s.agenda = .lane f :: ts ∧ u = { s with agenda := ts, focus := f, ev := {} } ∧ u.cur = some c ∧ c.o.lwait = .none ∧ u.competes c = true ∧ c.t.starting = false ∧ u.laneMay c = true ∧ u.chosen f true = true ∧
    c.o.clauses = cl :: cls ∧ cl.next = some n

end Sys2Proof.Claims

open Sys2Proof.Claims

/-- R302, R190 (A STEP RUNS THE DECODED INSTRUCTION; whose turn it is, and the cycle that ends a step, are the model's: log entries 1 and 2): in a turn of the scalar stream whose entry and portion come next (R146), the four bytes at the physical address that the PC translates to, decoded, are the instruction run, in the state that caches the translation; the turn is noted, and the cycle then ends; bytes that decode to none run the illegal-encoding fault; the lane cursor runs the word at its place of the clause, the sequencer the command at its index, and a device turn its own step. -/
def Obligations.StepRunsDecoded : Prop :=
  (∀ (s : State) (f : Focus) (ts : List Turn) (u v : State) (c : Cur) (pa w : Nat), scalarTurn s f ts u c → canonical c.o.pc.toNat = true →
    u.translate c.core (c.pslot u) c.o.pc.toNat .fetch false = (.ok pa, v) → u.codeBusy c c.o.pc.toNat = false → u.codeLost c.core (portionOwner c.core c.slot c.p) (c.pslot u) c.o.pc.toNat = false → v.refusal (c.pslot u) 0 pa true = none → isStack pa = true → u.poisoned pa = false →
    w = leNat ((List.range 4).map (fun i => Memory.read u.mem (pa + i))) →
    (∀ i, decodeTableWord 32 w = some i → step s = after (v.noteTurn f false i (exec i v))) ∧ (decodeTableWord 32 w = none → step s = after (v.noteTurn f false .illegalEncoding (exec .illegalEncoding v)))) ∧
  (∀ (s : State) (f : Focus) (ts : List Turn) (u v : State) (c : Cur) (cl : Clause) (cls : List Clause) (n va : Nat) (bs : List Byte), laneTurn s f ts u c cl cls n →
    va = wordVa cl.lcb (cl.off + n) → u.codeBusy c va = false → u.codeBusy c (va + 8) = false →
    u.codeLost c.core (portionOwner c.core c.slot c.p) (c.pslot u) va = false → u.codeLost c.core (portionOwner c.core c.slot c.p) (c.pslot u) (va + 8) = false →
    v = (u.touch c.core (c.pslot u) va).touch c.core (c.pslot u) (va + 8) → v.codeWords c.core (c.pslot v) 3 va = .ok bs →
    ∀ i, decodeTableWord 96 (leNat bs) = some i → step s = after (v.noteTurn f true i (exec i v))) ∧
  (∀ (s : State) (l : Nat) (ts : List Turn) (u : State) (m : MxProg) (i : Instr), s.agenda = .matrix l :: ts → u = { s with agenda := ts, pair := l, ev := {} } → u.running l = some m →
    m.ended = false → (u.die (l / 192)).stopped = false → m.loaded = true → u.mxHeld { leader := l, pair := u.pairOf l, m := m } = false → m.rest = [] → m.pc < m.ncmd →
    decodeTableWord 128 (le m.cmds (16 * m.pc) 16) = some i → step s = after (exec i u)) ∧
  (∀ (s : State) (i : Instr) (a : EvArgs) (ts : List Turn), s.agenda = .device i a :: ts → encode i = none → i ≠ .illegalEncoding → step s = after (exec i { s with agenda := ts, ev := a })) ∧
  (∀ s : State, s.agenda = [] → step s = after (.next s))

/-- R1, R9 (no state stops the machine): from every state a step answers a next state; no fault and no refusal of the model is ever met. -/
def Obligations.StepProgress : Prop :=
  ∀ s : State, ∃ t, step s = .next t

/-- R7, R217 (the canonical form is the model's own): a step keeps memory in its canonical form, and every map of the state with it. -/
def Obligations.StepKeepsForm : Prop :=
  ∀ s t : State, s.formed = true → step s = .next t → t.formed = true

/-- R31, R55, R208, R217 (RESET): at reset nothing runs and nothing is listed: no task, train, record or job; every group is OFF, slot 0 RUNNING and the others FREE; no die is usable; CLOCK and every log's tail are 0, and every byte has the least stamp. Every byte of memory reads 0 (the model's choice: log entry 3). -/
def Obligations.ResetHolds : Prop :=
  State.reset.formed = true ∧ State.reset.tasks = [] ∧ State.reset.trains = [] ∧ State.reset.saved = [] ∧ State.reset.jobs = [] ∧ State.reset.homeOps = [] ∧ State.reset.clock = 0 ∧
  (∀ g < 16, State.reset.groupState g = 0) ∧ State.reset.pctlState 0 = 2 ∧ (∀ p, 1 ≤ p → p ≤ 64 → State.reset.pctlState p = 0) ∧ (∀ d < 8, State.reset.usable d = false) ∧
  (∀ l, (State.reset.log l).tail = 0 ∧ (State.reset.log l).recs = []) ∧ (∀ a, State.reset.stampOf a = (0, 0) ∧ State.reset.poisoned a = false) ∧ (∀ a, Memory.read State.reset.mem a = 0)
end

