-- ==== Sys2Proof/Laws/Table.lean ====
section
/-! SUPPORT. The laws of the finite maps: reading after writing, and the canonical form. -/

set_option Elab.async false

namespace Sys2Proof.Machine

variable {α : Type}

@[simp] theorem Table.find_nil (key : Nat) : Table.find ([] : Table α) key = none := rfl

/-- Reading the key that was written. -/
@[simp] theorem Table.find_put_same (m : Table α) (key : Nat) (v : α) : Table.find (Table.put m key v) key = some v := by
  induction m with
  | nil => simp [Table.put, Table.find]
  | cons e m ih =>
    obtain ⟨k, w⟩ := e
    simp only [Table.put]
    split
    · simp [Table.find]
    · split
      · simp [Table.find]
      · simp [Table.find, *]

/-- Reading another key. -/
theorem Table.find_put_other (m : Table α) (key key' : Nat) (v : α) (h : key' ≠ key) : Table.find (Table.put m key v) key' = Table.find m key' := by
  induction m with
  | nil => simp [Table.put, Table.find, Ne.symm h]
  | cons e m ih =>
    obtain ⟨k, w⟩ := e
    simp only [Table.put]
    split
    · simp [Table.find, Ne.symm h]
    · split
      · simp [Table.find, Ne.symm h, *]
      · simp [Table.find, ih]

/-- The later of two writes of a key stands. -/
@[simp] theorem Table.put_put (m : Table α) (key : Nat) (v w : α) : Table.put (Table.put m key v) key w = Table.put m key w := by
  induction m with
  | nil => simp [Table.put]
  | cons e m ih =>
    obtain ⟨k, x⟩ := e
    simp only [Table.put]
    split
    · simp [Table.put]
    · split
      · simp [Table.put]
      · simp [Table.put, *]

/-- A change of an entry that exists is a write. -/
theorem Table.modify_eq (m : Table α) (key : Nat) (v : α) (f : α → α) (h : Table.find m key = some v) : Table.modify m key f = Table.put m key (f v) := by
  simp [Table.modify, h]

/-- A change of the entry just written. -/
@[simp] theorem Table.modify_put (m : Table α) (key : Nat) (v : α) (f : α → α) : Table.modify (Table.put m key v) key f = Table.put m key (f v) := by
  simp [Table.modify]

/-- A change of another key's entry is not seen. -/
theorem Table.find_modify_other (m : Table α) (key key' : Nat) (f : α → α) (h : key' ≠ key) : Table.find (Table.modify m key f) key' = Table.find m key' := by
  unfold Table.modify
  split
  · exact Table.find_put_other _ _ _ _ h
  · rfl

/-- A change is seen at its own key. -/
@[simp] theorem Table.find_modify_same (m : Table α) (key : Nat) (f : α → α) : Table.find (Table.modify m key f) key = (Table.find m key).map f := by
  unfold Table.modify
  cases h : Table.find m key <;> simp [h]

/-- A lower bound may be lowered. -/
theorem Table.risesFrom_mono {lo lo' : Nat} {m : Table α} (h : Table.risesFrom lo m = true) (hl : lo' ≤ lo) : Table.risesFrom lo' m = true := by
  cases m with
  | nil => rfl
  | cons e m => simp only [Table.risesFrom, Bool.and_eq_true, decide_eq_true_eq] at *; exact ⟨by omega, h.2⟩

/-- A write keeps the keys rising. -/
theorem Table.risesFrom_put {lo key : Nat} (m : Table α) (v : α) (h : Table.risesFrom lo m = true) (hk : lo ≤ key) : Table.risesFrom lo (Table.put m key v) = true := by
  induction m generalizing lo with
  | nil => simp [Table.put, Table.risesFrom, hk]
  | cons e m ih =>
    obtain ⟨k, w⟩ := e
    simp only [Table.risesFrom, Bool.and_eq_true, decide_eq_true_eq] at h
    simp only [Table.put]
    split
    · simp only [Table.risesFrom, Bool.and_eq_true, decide_eq_true_eq]
      exact ⟨hk, by omega, h.2⟩
    · split
      · subst_vars; simpa [Table.risesFrom, hk] using h.2
      · simp only [Table.risesFrom, Bool.and_eq_true, decide_eq_true_eq]
        exact ⟨h.1, ih h.2 (by omega)⟩

/-- Dropping an entry keeps the keys rising. -/
theorem Table.risesFrom_drop {lo : Nat} (m : Table α) (key : Nat) (h : Table.risesFrom lo m = true) : Table.risesFrom lo (Table.drop m key) = true := by
  induction m generalizing lo with
  | nil => rfl
  | cons e m ih =>
    obtain ⟨k, w⟩ := e
    simp only [Table.risesFrom, Bool.and_eq_true, decide_eq_true_eq] at h
    simp only [Table.drop]
    split
    · exact Table.risesFrom_mono h.2 (by omega)
    · simp only [Table.risesFrom, Bool.and_eq_true, decide_eq_true_eq]
      exact ⟨h.1, ih h.2⟩

/-- A filter keeps the keys rising. -/
theorem Table.risesFrom_filter {lo : Nat} (m : Table α) (p : Nat × α → Bool) (h : Table.risesFrom lo m = true) : Table.risesFrom lo (m.filter p) = true := by
  induction m generalizing lo with
  | nil => rfl
  | cons e m ih =>
    obtain ⟨k, w⟩ := e
    simp only [Table.risesFrom, Bool.and_eq_true, decide_eq_true_eq] at h
    simp only [List.filter]
    split
    · simp only [Table.risesFrom, Bool.and_eq_true, decide_eq_true_eq]; exact ⟨h.1, ih h.2⟩
    · exact ih (Table.risesFrom_mono h.2 (by omega))

/-- No key below the lower bound is listed. -/
theorem Table.find_below {lo key : Nat} (m : Table α) (h : Table.risesFrom lo m = true) (hk : key < lo) : Table.find m key = none := by
  induction m generalizing lo with
  | nil => rfl
  | cons e m ih =>
    obtain ⟨k, w⟩ := e
    simp only [Table.risesFrom, Bool.and_eq_true, decide_eq_true_eq] at h
    simp only [Table.find]
    split
    · omega
    · exact ih h.2 (by omega)

/-- A dropped key reads as absent. -/
theorem Table.find_drop_same {lo : Nat} (m : Table α) (key : Nat) (h : Table.risesFrom lo m = true) : Table.find (Table.drop m key) key = none := by
  induction m generalizing lo with
  | nil => rfl
  | cons e m ih =>
    obtain ⟨k, w⟩ := e
    simp only [Table.risesFrom, Bool.and_eq_true, decide_eq_true_eq] at h
    simp only [Table.drop]
    split
    · exact Table.find_below m h.2 (by omega)
    · simp [Table.find, ih h.2, *]

/-- Dropping a key leaves the others. -/
theorem Table.find_drop_other (m : Table α) (key key' : Nat) (hne : key' ≠ key) : Table.find (Table.drop m key) key' = Table.find m key' := by
  induction m with
  | nil => rfl
  | cons e m ih =>
    obtain ⟨k, w⟩ := e
    simp only [Table.drop]
    split
    · simp [Table.find, Ne.symm hne, *]
    · simp [Table.find, ih]

/-! ### Total maps -/

@[simp] theorem Sparse.get_nil (d : α) (key : Nat) : Sparse.get d ([] : Sparse α) key = d := rfl

theorem Table.all_put (m : Table α) (key : Nat) (v : α) (p : Nat × α → Bool) (h : m.all p = true) (hv : p (key, v) = true) : (Table.put m key v).all p = true := by
  induction m with
  | nil => simp [Table.put, hv]
  | cons e m ih =>
    obtain ⟨k, w⟩ := e
    simp only [List.all_cons, Bool.and_eq_true] at h
    simp only [Table.put]
    split
    · simp [hv, h.1, h.2]
    · split
      · simp [hv, h.2]
      · simp [h.1, ih h.2]

theorem Table.all_drop (m : Table α) (key : Nat) (p : Nat × α → Bool) (h : m.all p = true) : (Table.drop m key).all p = true := by
  induction m with
  | nil => rfl
  | cons e m ih =>
    obtain ⟨k, w⟩ := e
    simp only [List.all_cons, Bool.and_eq_true] at h
    simp only [Table.drop]
    split
    · exact h.2
    · simp [h.1, ih h.2]

variable [DecidableEq α]

/-- Reading another key than the one written. -/
theorem Sparse.get_set_other (d : α) (m : Sparse α) (key key' : Nat) (v : α) (h : key' ≠ key) : Sparse.get d (Sparse.set d m key v) key' = Sparse.get d m key' := by
  unfold Sparse.set Sparse.get
  split
  · rw [Table.find_drop_other m key key' h]
  · rw [Table.find_put_other m key key' v h]

/-- Reading the key that was written, in a map of canonical form. -/
theorem Sparse.get_set_same (d : α) (m : Sparse α) (key : Nat) (v : α) (h : Table.sorted m = true) : Sparse.get d (Sparse.set d m key v) key = v := by
  unfold Sparse.set Sparse.get
  split
  · rw [Table.find_drop_same m key h]; simp [*]
  · rw [Table.find_put_same]; rfl

/-- A write keeps the canonical form. -/
theorem Sparse.wf_set (d : α) (m : Sparse α) (key : Nat) (v : α) (h : Sparse.wf d m = true) : Sparse.wf d (Sparse.set d m key v) = true := by
  simp only [Sparse.wf, Table.sorted, Bool.and_eq_true] at *
  unfold Sparse.set
  split
  · exact ⟨Table.risesFrom_drop m key h.1, Table.all_drop m key _ h.2⟩
  · exact ⟨Table.risesFrom_put m v h.1 (Nat.zero_le _), Table.all_put m key v _ h.2 (by simp [*])⟩

/-- A filter keeps the canonical form. -/
theorem Sparse.wf_filter (d : α) (m : Sparse α) (p : Nat × α → Bool) (h : Sparse.wf d m = true) : Sparse.wf d (m.filter p) = true := by
  simp only [Sparse.wf, Table.sorted, Bool.and_eq_true, List.all_eq_true] at *
  exact ⟨Table.risesFrom_filter m p h.1, fun x hx => h.2 x (List.mem_of_mem_filter hx)⟩

/-- A map of canonical form has rising keys. -/
theorem Sparse.sorted_of_wf {d : α} {m : Sparse α} (h : Sparse.wf d m = true) : Table.sorted m = true := by
  simp only [Sparse.wf, Bool.and_eq_true] at h; exact h.1

end Sys2Proof.Machine
end

