-- ==== Sys2Proof/Laws/State.lean ====
section
/-! SUPPORT. What each named update of the state leaves as it was, field by field, and what it reads back. -/

set_option Elab.async false

namespace Sys2Proof.Machine

/-! setCore -/

@[simp] theorem State.setCore_time (s : State) (c : Nat) (k : Core) : (s.setCore c k).time = s.time := rfl
@[simp] theorem State.setCore_fresh (s : State) (c : Nat) (k : Core) : (s.setCore c k).fresh = s.fresh := rfl
@[simp] theorem State.setCore_nextId (s : State) (c : Nat) (k : Core) : (s.setCore c k).nextId = s.nextId := rfl
@[simp] theorem State.setCore_agenda (s : State) (c : Nat) (k : Core) : (s.setCore c k).agenda = s.agenda := rfl
@[simp] theorem State.setCore_focus (s : State) (c : Nat) (k : Core) : (s.setCore c k).focus = s.focus := rfl
@[simp] theorem State.setCore_pair (s : State) (c : Nat) (k : Core) : (s.setCore c k).pair = s.pair := rfl
@[simp] theorem State.setCore_ev (s : State) (c : Nat) (k : Core) : (s.setCore c k).ev = s.ev := rfl
@[simp] theorem State.setCore_mem (s : State) (c : Nat) (k : Core) : (s.setCore c k).mem = s.mem := rfl
@[simp] theorem State.setCore_stamps (s : State) (c : Nat) (k : Core) : (s.setCore c k).stamps = s.stamps := rfl
@[simp] theorem State.setCore_poison (s : State) (c : Nat) (k : Core) : (s.setCore c k).poison = s.poison := rfl
@[simp] theorem State.setCore_etlbs (s : State) (c : Nat) (k : Core) : (s.setCore c k).etlbs = s.etlbs := rfl
@[simp] theorem State.setCore_sets (s : State) (c : Nat) (k : Core) : (s.setCore c k).sets = s.sets := rfl
@[simp] theorem State.setCore_counted (s : State) (c : Nat) (k : Core) : (s.setCore c k).counted = s.counted := rfl
@[simp] theorem State.setCore_fot (s : State) (c : Nat) (k : Core) : (s.setCore c k).fot = s.fot := rfl
@[simp] theorem State.setCore_bar (s : State) (c : Nat) (k : Core) : (s.setCore c k).bar = s.bar := rfl
@[simp] theorem State.setCore_lwdAct (s : State) (c : Nat) (k : Core) : (s.setCore c k).lwdAct = s.lwdAct := rfl
@[simp] theorem State.setCore_logs (s : State) (c : Nat) (k : Core) : (s.setCore c k).logs = s.logs := rfl
@[simp] theorem State.setCore_dies (s : State) (c : Nat) (k : Core) : (s.setCore c k).dies = s.dies := rfl
@[simp] theorem State.setCore_groups (s : State) (c : Nat) (k : Core) : (s.setCore c k).groups = s.groups := rfl
@[simp] theorem State.setCore_slots (s : State) (c : Nat) (k : Core) : (s.setCore c k).slots = s.slots := rfl
@[simp] theorem State.setCore_fotCmd (s : State) (c : Nat) (k : Core) : (s.setCore c k).fotCmd = s.fotCmd := rfl
@[simp] theorem State.setCore_deficit (s : State) (c : Nat) (k : Core) : (s.setCore c k).deficit = s.deficit := rfl
@[simp] theorem State.setCore_used (s : State) (c : Nat) (k : Core) : (s.setCore c k).used = s.used := rfl
@[simp] theorem State.setCore_interval (s : State) (c : Nat) (k : Core) : (s.setCore c k).interval = s.interval := rfl
@[simp] theorem State.setCore_turns (s : State) (c : Nat) (k : Core) : (s.setCore c k).turns = s.turns := rfl
@[simp] theorem State.setCore_tasks (s : State) (c : Nat) (k : Core) : (s.setCore c k).tasks = s.tasks := rfl
@[simp] theorem State.setCore_trains (s : State) (c : Nat) (k : Core) : (s.setCore c k).trains = s.trains := rfl
@[simp] theorem State.setCore_saved (s : State) (c : Nat) (k : Core) : (s.setCore c k).saved = s.saved := rfl
@[simp] theorem State.setCore_queues (s : State) (c : Nat) (k : Core) : (s.setCore c k).queues = s.queues := rfl
@[simp] theorem State.setCore_graphs (s : State) (c : Nat) (k : Core) : (s.setCore c k).graphs = s.graphs := rfl
@[simp] theorem State.setCore_jobs (s : State) (c : Nat) (k : Core) : (s.setCore c k).jobs = s.jobs := rfl
@[simp] theorem State.setCore_queries (s : State) (c : Nat) (k : Core) : (s.setCore c k).queries = s.queries := rfl
@[simp] theorem State.setCore_pairs (s : State) (c : Nat) (k : Core) : (s.setCore c k).pairs = s.pairs := rfl
@[simp] theorem State.setCore_homeOps (s : State) (c : Nat) (k : Core) : (s.setCore c k).homeOps = s.homeOps := rfl
@[simp] theorem State.setCore_outbound (s : State) (c : Nat) (k : Core) : (s.setCore c k).outbound = s.outbound := rfl
@[simp] theorem State.setCore_inbound (s : State) (c : Nat) (k : Core) : (s.setCore c k).inbound = s.inbound := rfl
@[simp] theorem State.setCore_far (s : State) (c : Nat) (k : Core) : (s.setCore c k).far = s.far := rfl
@[simp] theorem State.setCore_posts (s : State) (c : Nat) (k : Core) : (s.setCore c k).posts = s.posts := rfl
@[simp] theorem State.setCore_contribs (s : State) (c : Nat) (k : Core) : (s.setCore c k).contribs = s.contribs := rfl
@[simp] theorem State.setCore_sent (s : State) (c : Nat) (k : Core) : (s.setCore c k).sent = s.sent := rfl
@[simp] theorem State.setCore_owner (s : State) (c : Nat) (k : Core) : (s.setCore c k).owner = s.owner := rfl

/-! setDie -/

@[simp] theorem State.setDie_time (s : State) (d : Nat) (k : Die) : (s.setDie d k).time = s.time := rfl
@[simp] theorem State.setDie_fresh (s : State) (d : Nat) (k : Die) : (s.setDie d k).fresh = s.fresh := rfl
@[simp] theorem State.setDie_nextId (s : State) (d : Nat) (k : Die) : (s.setDie d k).nextId = s.nextId := rfl
@[simp] theorem State.setDie_agenda (s : State) (d : Nat) (k : Die) : (s.setDie d k).agenda = s.agenda := rfl
@[simp] theorem State.setDie_focus (s : State) (d : Nat) (k : Die) : (s.setDie d k).focus = s.focus := rfl
@[simp] theorem State.setDie_pair (s : State) (d : Nat) (k : Die) : (s.setDie d k).pair = s.pair := rfl
@[simp] theorem State.setDie_ev (s : State) (d : Nat) (k : Die) : (s.setDie d k).ev = s.ev := rfl
@[simp] theorem State.setDie_mem (s : State) (d : Nat) (k : Die) : (s.setDie d k).mem = s.mem := rfl
@[simp] theorem State.setDie_stamps (s : State) (d : Nat) (k : Die) : (s.setDie d k).stamps = s.stamps := rfl
@[simp] theorem State.setDie_poison (s : State) (d : Nat) (k : Die) : (s.setDie d k).poison = s.poison := rfl
@[simp] theorem State.setDie_etlbs (s : State) (d : Nat) (k : Die) : (s.setDie d k).etlbs = s.etlbs := rfl
@[simp] theorem State.setDie_sets (s : State) (d : Nat) (k : Die) : (s.setDie d k).sets = s.sets := rfl
@[simp] theorem State.setDie_counted (s : State) (d : Nat) (k : Die) : (s.setDie d k).counted = s.counted := rfl
@[simp] theorem State.setDie_fot (s : State) (d : Nat) (k : Die) : (s.setDie d k).fot = s.fot := rfl
@[simp] theorem State.setDie_bar (s : State) (d : Nat) (k : Die) : (s.setDie d k).bar = s.bar := rfl
@[simp] theorem State.setDie_lwdAct (s : State) (d : Nat) (k : Die) : (s.setDie d k).lwdAct = s.lwdAct := rfl
@[simp] theorem State.setDie_logs (s : State) (d : Nat) (k : Die) : (s.setDie d k).logs = s.logs := rfl
@[simp] theorem State.setDie_cores (s : State) (d : Nat) (k : Die) : (s.setDie d k).cores = s.cores := rfl
@[simp] theorem State.setDie_groups (s : State) (d : Nat) (k : Die) : (s.setDie d k).groups = s.groups := rfl
@[simp] theorem State.setDie_slots (s : State) (d : Nat) (k : Die) : (s.setDie d k).slots = s.slots := rfl
@[simp] theorem State.setDie_fotCmd (s : State) (d : Nat) (k : Die) : (s.setDie d k).fotCmd = s.fotCmd := rfl
@[simp] theorem State.setDie_deficit (s : State) (d : Nat) (k : Die) : (s.setDie d k).deficit = s.deficit := rfl
@[simp] theorem State.setDie_used (s : State) (d : Nat) (k : Die) : (s.setDie d k).used = s.used := rfl
@[simp] theorem State.setDie_interval (s : State) (d : Nat) (k : Die) : (s.setDie d k).interval = s.interval := rfl
@[simp] theorem State.setDie_turns (s : State) (d : Nat) (k : Die) : (s.setDie d k).turns = s.turns := rfl
@[simp] theorem State.setDie_tasks (s : State) (d : Nat) (k : Die) : (s.setDie d k).tasks = s.tasks := rfl
@[simp] theorem State.setDie_trains (s : State) (d : Nat) (k : Die) : (s.setDie d k).trains = s.trains := rfl
@[simp] theorem State.setDie_saved (s : State) (d : Nat) (k : Die) : (s.setDie d k).saved = s.saved := rfl
@[simp] theorem State.setDie_queues (s : State) (d : Nat) (k : Die) : (s.setDie d k).queues = s.queues := rfl
@[simp] theorem State.setDie_graphs (s : State) (d : Nat) (k : Die) : (s.setDie d k).graphs = s.graphs := rfl
@[simp] theorem State.setDie_jobs (s : State) (d : Nat) (k : Die) : (s.setDie d k).jobs = s.jobs := rfl
@[simp] theorem State.setDie_queries (s : State) (d : Nat) (k : Die) : (s.setDie d k).queries = s.queries := rfl
@[simp] theorem State.setDie_pairs (s : State) (d : Nat) (k : Die) : (s.setDie d k).pairs = s.pairs := rfl
@[simp] theorem State.setDie_homeOps (s : State) (d : Nat) (k : Die) : (s.setDie d k).homeOps = s.homeOps := rfl
@[simp] theorem State.setDie_outbound (s : State) (d : Nat) (k : Die) : (s.setDie d k).outbound = s.outbound := rfl
@[simp] theorem State.setDie_inbound (s : State) (d : Nat) (k : Die) : (s.setDie d k).inbound = s.inbound := rfl
@[simp] theorem State.setDie_far (s : State) (d : Nat) (k : Die) : (s.setDie d k).far = s.far := rfl
@[simp] theorem State.setDie_posts (s : State) (d : Nat) (k : Die) : (s.setDie d k).posts = s.posts := rfl
@[simp] theorem State.setDie_contribs (s : State) (d : Nat) (k : Die) : (s.setDie d k).contribs = s.contribs := rfl
@[simp] theorem State.setDie_sent (s : State) (d : Nat) (k : Die) : (s.setDie d k).sent = s.sent := rfl
@[simp] theorem State.setDie_owner (s : State) (d : Nat) (k : Die) : (s.setDie d k).owner = s.owner := rfl

/-! setGroup -/

@[simp] theorem State.setGroup_time (s : State) (g : Nat) (k : Group) : (s.setGroup g k).time = s.time := rfl
@[simp] theorem State.setGroup_fresh (s : State) (g : Nat) (k : Group) : (s.setGroup g k).fresh = s.fresh := rfl
@[simp] theorem State.setGroup_nextId (s : State) (g : Nat) (k : Group) : (s.setGroup g k).nextId = s.nextId := rfl
@[simp] theorem State.setGroup_agenda (s : State) (g : Nat) (k : Group) : (s.setGroup g k).agenda = s.agenda := rfl
@[simp] theorem State.setGroup_focus (s : State) (g : Nat) (k : Group) : (s.setGroup g k).focus = s.focus := rfl
@[simp] theorem State.setGroup_pair (s : State) (g : Nat) (k : Group) : (s.setGroup g k).pair = s.pair := rfl
@[simp] theorem State.setGroup_ev (s : State) (g : Nat) (k : Group) : (s.setGroup g k).ev = s.ev := rfl
@[simp] theorem State.setGroup_mem (s : State) (g : Nat) (k : Group) : (s.setGroup g k).mem = s.mem := rfl
@[simp] theorem State.setGroup_stamps (s : State) (g : Nat) (k : Group) : (s.setGroup g k).stamps = s.stamps := rfl
@[simp] theorem State.setGroup_poison (s : State) (g : Nat) (k : Group) : (s.setGroup g k).poison = s.poison := rfl
@[simp] theorem State.setGroup_etlbs (s : State) (g : Nat) (k : Group) : (s.setGroup g k).etlbs = s.etlbs := rfl
@[simp] theorem State.setGroup_sets (s : State) (g : Nat) (k : Group) : (s.setGroup g k).sets = s.sets := rfl
@[simp] theorem State.setGroup_counted (s : State) (g : Nat) (k : Group) : (s.setGroup g k).counted = s.counted := rfl
@[simp] theorem State.setGroup_fot (s : State) (g : Nat) (k : Group) : (s.setGroup g k).fot = s.fot := rfl
@[simp] theorem State.setGroup_bar (s : State) (g : Nat) (k : Group) : (s.setGroup g k).bar = s.bar := rfl
@[simp] theorem State.setGroup_lwdAct (s : State) (g : Nat) (k : Group) : (s.setGroup g k).lwdAct = s.lwdAct := rfl
@[simp] theorem State.setGroup_logs (s : State) (g : Nat) (k : Group) : (s.setGroup g k).logs = s.logs := rfl
@[simp] theorem State.setGroup_cores (s : State) (g : Nat) (k : Group) : (s.setGroup g k).cores = s.cores := rfl
@[simp] theorem State.setGroup_dies (s : State) (g : Nat) (k : Group) : (s.setGroup g k).dies = s.dies := rfl
@[simp] theorem State.setGroup_slots (s : State) (g : Nat) (k : Group) : (s.setGroup g k).slots = s.slots := rfl
@[simp] theorem State.setGroup_fotCmd (s : State) (g : Nat) (k : Group) : (s.setGroup g k).fotCmd = s.fotCmd := rfl
@[simp] theorem State.setGroup_deficit (s : State) (g : Nat) (k : Group) : (s.setGroup g k).deficit = s.deficit := rfl
@[simp] theorem State.setGroup_used (s : State) (g : Nat) (k : Group) : (s.setGroup g k).used = s.used := rfl
@[simp] theorem State.setGroup_interval (s : State) (g : Nat) (k : Group) : (s.setGroup g k).interval = s.interval := rfl
@[simp] theorem State.setGroup_turns (s : State) (g : Nat) (k : Group) : (s.setGroup g k).turns = s.turns := rfl
@[simp] theorem State.setGroup_tasks (s : State) (g : Nat) (k : Group) : (s.setGroup g k).tasks = s.tasks := rfl
@[simp] theorem State.setGroup_trains (s : State) (g : Nat) (k : Group) : (s.setGroup g k).trains = s.trains := rfl
@[simp] theorem State.setGroup_saved (s : State) (g : Nat) (k : Group) : (s.setGroup g k).saved = s.saved := rfl
@[simp] theorem State.setGroup_queues (s : State) (g : Nat) (k : Group) : (s.setGroup g k).queues = s.queues := rfl
@[simp] theorem State.setGroup_graphs (s : State) (g : Nat) (k : Group) : (s.setGroup g k).graphs = s.graphs := rfl
@[simp] theorem State.setGroup_jobs (s : State) (g : Nat) (k : Group) : (s.setGroup g k).jobs = s.jobs := rfl
@[simp] theorem State.setGroup_queries (s : State) (g : Nat) (k : Group) : (s.setGroup g k).queries = s.queries := rfl
@[simp] theorem State.setGroup_pairs (s : State) (g : Nat) (k : Group) : (s.setGroup g k).pairs = s.pairs := rfl
@[simp] theorem State.setGroup_homeOps (s : State) (g : Nat) (k : Group) : (s.setGroup g k).homeOps = s.homeOps := rfl
@[simp] theorem State.setGroup_outbound (s : State) (g : Nat) (k : Group) : (s.setGroup g k).outbound = s.outbound := rfl
@[simp] theorem State.setGroup_inbound (s : State) (g : Nat) (k : Group) : (s.setGroup g k).inbound = s.inbound := rfl
@[simp] theorem State.setGroup_far (s : State) (g : Nat) (k : Group) : (s.setGroup g k).far = s.far := rfl
@[simp] theorem State.setGroup_posts (s : State) (g : Nat) (k : Group) : (s.setGroup g k).posts = s.posts := rfl
@[simp] theorem State.setGroup_contribs (s : State) (g : Nat) (k : Group) : (s.setGroup g k).contribs = s.contribs := rfl
@[simp] theorem State.setGroup_sent (s : State) (g : Nat) (k : Group) : (s.setGroup g k).sent = s.sent := rfl
@[simp] theorem State.setGroup_owner (s : State) (g : Nat) (k : Group) : (s.setGroup g k).owner = s.owner := rfl

/-! setPslot -/

@[simp] theorem State.setPslot_time (s : State) (p : Nat) (k : PSlot) : (s.setPslot p k).time = s.time := rfl
@[simp] theorem State.setPslot_fresh (s : State) (p : Nat) (k : PSlot) : (s.setPslot p k).fresh = s.fresh := rfl
@[simp] theorem State.setPslot_nextId (s : State) (p : Nat) (k : PSlot) : (s.setPslot p k).nextId = s.nextId := rfl
@[simp] theorem State.setPslot_agenda (s : State) (p : Nat) (k : PSlot) : (s.setPslot p k).agenda = s.agenda := rfl
@[simp] theorem State.setPslot_focus (s : State) (p : Nat) (k : PSlot) : (s.setPslot p k).focus = s.focus := rfl
@[simp] theorem State.setPslot_pair (s : State) (p : Nat) (k : PSlot) : (s.setPslot p k).pair = s.pair := rfl
@[simp] theorem State.setPslot_ev (s : State) (p : Nat) (k : PSlot) : (s.setPslot p k).ev = s.ev := rfl
@[simp] theorem State.setPslot_mem (s : State) (p : Nat) (k : PSlot) : (s.setPslot p k).mem = s.mem := rfl
@[simp] theorem State.setPslot_stamps (s : State) (p : Nat) (k : PSlot) : (s.setPslot p k).stamps = s.stamps := rfl
@[simp] theorem State.setPslot_poison (s : State) (p : Nat) (k : PSlot) : (s.setPslot p k).poison = s.poison := rfl
@[simp] theorem State.setPslot_etlbs (s : State) (p : Nat) (k : PSlot) : (s.setPslot p k).etlbs = s.etlbs := rfl
@[simp] theorem State.setPslot_sets (s : State) (p : Nat) (k : PSlot) : (s.setPslot p k).sets = s.sets := rfl
@[simp] theorem State.setPslot_counted (s : State) (p : Nat) (k : PSlot) : (s.setPslot p k).counted = s.counted := rfl
@[simp] theorem State.setPslot_fot (s : State) (p : Nat) (k : PSlot) : (s.setPslot p k).fot = s.fot := rfl
@[simp] theorem State.setPslot_bar (s : State) (p : Nat) (k : PSlot) : (s.setPslot p k).bar = s.bar := rfl
@[simp] theorem State.setPslot_lwdAct (s : State) (p : Nat) (k : PSlot) : (s.setPslot p k).lwdAct = s.lwdAct := rfl
@[simp] theorem State.setPslot_logs (s : State) (p : Nat) (k : PSlot) : (s.setPslot p k).logs = s.logs := rfl
@[simp] theorem State.setPslot_cores (s : State) (p : Nat) (k : PSlot) : (s.setPslot p k).cores = s.cores := rfl
@[simp] theorem State.setPslot_dies (s : State) (p : Nat) (k : PSlot) : (s.setPslot p k).dies = s.dies := rfl
@[simp] theorem State.setPslot_groups (s : State) (p : Nat) (k : PSlot) : (s.setPslot p k).groups = s.groups := rfl
@[simp] theorem State.setPslot_fotCmd (s : State) (p : Nat) (k : PSlot) : (s.setPslot p k).fotCmd = s.fotCmd := rfl
@[simp] theorem State.setPslot_deficit (s : State) (p : Nat) (k : PSlot) : (s.setPslot p k).deficit = s.deficit := rfl
@[simp] theorem State.setPslot_used (s : State) (p : Nat) (k : PSlot) : (s.setPslot p k).used = s.used := rfl
@[simp] theorem State.setPslot_interval (s : State) (p : Nat) (k : PSlot) : (s.setPslot p k).interval = s.interval := rfl
@[simp] theorem State.setPslot_turns (s : State) (p : Nat) (k : PSlot) : (s.setPslot p k).turns = s.turns := rfl
@[simp] theorem State.setPslot_tasks (s : State) (p : Nat) (k : PSlot) : (s.setPslot p k).tasks = s.tasks := rfl
@[simp] theorem State.setPslot_trains (s : State) (p : Nat) (k : PSlot) : (s.setPslot p k).trains = s.trains := rfl
@[simp] theorem State.setPslot_saved (s : State) (p : Nat) (k : PSlot) : (s.setPslot p k).saved = s.saved := rfl
@[simp] theorem State.setPslot_queues (s : State) (p : Nat) (k : PSlot) : (s.setPslot p k).queues = s.queues := rfl
@[simp] theorem State.setPslot_graphs (s : State) (p : Nat) (k : PSlot) : (s.setPslot p k).graphs = s.graphs := rfl
@[simp] theorem State.setPslot_jobs (s : State) (p : Nat) (k : PSlot) : (s.setPslot p k).jobs = s.jobs := rfl
@[simp] theorem State.setPslot_queries (s : State) (p : Nat) (k : PSlot) : (s.setPslot p k).queries = s.queries := rfl
@[simp] theorem State.setPslot_pairs (s : State) (p : Nat) (k : PSlot) : (s.setPslot p k).pairs = s.pairs := rfl
@[simp] theorem State.setPslot_homeOps (s : State) (p : Nat) (k : PSlot) : (s.setPslot p k).homeOps = s.homeOps := rfl
@[simp] theorem State.setPslot_outbound (s : State) (p : Nat) (k : PSlot) : (s.setPslot p k).outbound = s.outbound := rfl
@[simp] theorem State.setPslot_inbound (s : State) (p : Nat) (k : PSlot) : (s.setPslot p k).inbound = s.inbound := rfl
@[simp] theorem State.setPslot_far (s : State) (p : Nat) (k : PSlot) : (s.setPslot p k).far = s.far := rfl
@[simp] theorem State.setPslot_posts (s : State) (p : Nat) (k : PSlot) : (s.setPslot p k).posts = s.posts := rfl
@[simp] theorem State.setPslot_contribs (s : State) (p : Nat) (k : PSlot) : (s.setPslot p k).contribs = s.contribs := rfl
@[simp] theorem State.setPslot_sent (s : State) (p : Nat) (k : PSlot) : (s.setPslot p k).sent = s.sent := rfl
@[simp] theorem State.setPslot_owner (s : State) (p : Nat) (k : PSlot) : (s.setPslot p k).owner = s.owner := rfl

/-! setLog -/

@[simp] theorem State.setLog_time (s : State) (l : Nat) (k : Log) : (s.setLog l k).time = s.time := rfl
@[simp] theorem State.setLog_fresh (s : State) (l : Nat) (k : Log) : (s.setLog l k).fresh = s.fresh := rfl
@[simp] theorem State.setLog_nextId (s : State) (l : Nat) (k : Log) : (s.setLog l k).nextId = s.nextId := rfl
@[simp] theorem State.setLog_agenda (s : State) (l : Nat) (k : Log) : (s.setLog l k).agenda = s.agenda := rfl
@[simp] theorem State.setLog_focus (s : State) (l : Nat) (k : Log) : (s.setLog l k).focus = s.focus := rfl
@[simp] theorem State.setLog_pair (s : State) (l : Nat) (k : Log) : (s.setLog l k).pair = s.pair := rfl
@[simp] theorem State.setLog_ev (s : State) (l : Nat) (k : Log) : (s.setLog l k).ev = s.ev := rfl
@[simp] theorem State.setLog_mem (s : State) (l : Nat) (k : Log) : (s.setLog l k).mem = s.mem := rfl
@[simp] theorem State.setLog_stamps (s : State) (l : Nat) (k : Log) : (s.setLog l k).stamps = s.stamps := rfl
@[simp] theorem State.setLog_poison (s : State) (l : Nat) (k : Log) : (s.setLog l k).poison = s.poison := rfl
@[simp] theorem State.setLog_etlbs (s : State) (l : Nat) (k : Log) : (s.setLog l k).etlbs = s.etlbs := rfl
@[simp] theorem State.setLog_sets (s : State) (l : Nat) (k : Log) : (s.setLog l k).sets = s.sets := rfl
@[simp] theorem State.setLog_counted (s : State) (l : Nat) (k : Log) : (s.setLog l k).counted = s.counted := rfl
@[simp] theorem State.setLog_fot (s : State) (l : Nat) (k : Log) : (s.setLog l k).fot = s.fot := rfl
@[simp] theorem State.setLog_bar (s : State) (l : Nat) (k : Log) : (s.setLog l k).bar = s.bar := rfl
@[simp] theorem State.setLog_lwdAct (s : State) (l : Nat) (k : Log) : (s.setLog l k).lwdAct = s.lwdAct := rfl
@[simp] theorem State.setLog_cores (s : State) (l : Nat) (k : Log) : (s.setLog l k).cores = s.cores := rfl
@[simp] theorem State.setLog_dies (s : State) (l : Nat) (k : Log) : (s.setLog l k).dies = s.dies := rfl
@[simp] theorem State.setLog_groups (s : State) (l : Nat) (k : Log) : (s.setLog l k).groups = s.groups := rfl
@[simp] theorem State.setLog_slots (s : State) (l : Nat) (k : Log) : (s.setLog l k).slots = s.slots := rfl
@[simp] theorem State.setLog_fotCmd (s : State) (l : Nat) (k : Log) : (s.setLog l k).fotCmd = s.fotCmd := rfl
@[simp] theorem State.setLog_deficit (s : State) (l : Nat) (k : Log) : (s.setLog l k).deficit = s.deficit := rfl
@[simp] theorem State.setLog_used (s : State) (l : Nat) (k : Log) : (s.setLog l k).used = s.used := rfl
@[simp] theorem State.setLog_interval (s : State) (l : Nat) (k : Log) : (s.setLog l k).interval = s.interval := rfl
@[simp] theorem State.setLog_turns (s : State) (l : Nat) (k : Log) : (s.setLog l k).turns = s.turns := rfl
@[simp] theorem State.setLog_tasks (s : State) (l : Nat) (k : Log) : (s.setLog l k).tasks = s.tasks := rfl
@[simp] theorem State.setLog_trains (s : State) (l : Nat) (k : Log) : (s.setLog l k).trains = s.trains := rfl
@[simp] theorem State.setLog_saved (s : State) (l : Nat) (k : Log) : (s.setLog l k).saved = s.saved := rfl
@[simp] theorem State.setLog_queues (s : State) (l : Nat) (k : Log) : (s.setLog l k).queues = s.queues := rfl
@[simp] theorem State.setLog_graphs (s : State) (l : Nat) (k : Log) : (s.setLog l k).graphs = s.graphs := rfl
@[simp] theorem State.setLog_jobs (s : State) (l : Nat) (k : Log) : (s.setLog l k).jobs = s.jobs := rfl
@[simp] theorem State.setLog_queries (s : State) (l : Nat) (k : Log) : (s.setLog l k).queries = s.queries := rfl
@[simp] theorem State.setLog_pairs (s : State) (l : Nat) (k : Log) : (s.setLog l k).pairs = s.pairs := rfl
@[simp] theorem State.setLog_homeOps (s : State) (l : Nat) (k : Log) : (s.setLog l k).homeOps = s.homeOps := rfl
@[simp] theorem State.setLog_outbound (s : State) (l : Nat) (k : Log) : (s.setLog l k).outbound = s.outbound := rfl
@[simp] theorem State.setLog_inbound (s : State) (l : Nat) (k : Log) : (s.setLog l k).inbound = s.inbound := rfl
@[simp] theorem State.setLog_far (s : State) (l : Nat) (k : Log) : (s.setLog l k).far = s.far := rfl
@[simp] theorem State.setLog_posts (s : State) (l : Nat) (k : Log) : (s.setLog l k).posts = s.posts := rfl
@[simp] theorem State.setLog_contribs (s : State) (l : Nat) (k : Log) : (s.setLog l k).contribs = s.contribs := rfl
@[simp] theorem State.setLog_sent (s : State) (l : Nat) (k : Log) : (s.setLog l k).sent = s.sent := rfl
@[simp] theorem State.setLog_owner (s : State) (l : Nat) (k : Log) : (s.setLog l k).owner = s.owner := rfl

/-! setQueue -/

@[simp] theorem State.setQueue_time (s : State) (q : Nat) (k : Queue) : (s.setQueue q k).time = s.time := rfl
@[simp] theorem State.setQueue_fresh (s : State) (q : Nat) (k : Queue) : (s.setQueue q k).fresh = s.fresh := rfl
@[simp] theorem State.setQueue_nextId (s : State) (q : Nat) (k : Queue) : (s.setQueue q k).nextId = s.nextId := rfl
@[simp] theorem State.setQueue_agenda (s : State) (q : Nat) (k : Queue) : (s.setQueue q k).agenda = s.agenda := rfl
@[simp] theorem State.setQueue_focus (s : State) (q : Nat) (k : Queue) : (s.setQueue q k).focus = s.focus := rfl
@[simp] theorem State.setQueue_pair (s : State) (q : Nat) (k : Queue) : (s.setQueue q k).pair = s.pair := rfl
@[simp] theorem State.setQueue_ev (s : State) (q : Nat) (k : Queue) : (s.setQueue q k).ev = s.ev := rfl
@[simp] theorem State.setQueue_mem (s : State) (q : Nat) (k : Queue) : (s.setQueue q k).mem = s.mem := rfl
@[simp] theorem State.setQueue_stamps (s : State) (q : Nat) (k : Queue) : (s.setQueue q k).stamps = s.stamps := rfl
@[simp] theorem State.setQueue_poison (s : State) (q : Nat) (k : Queue) : (s.setQueue q k).poison = s.poison := rfl
@[simp] theorem State.setQueue_etlbs (s : State) (q : Nat) (k : Queue) : (s.setQueue q k).etlbs = s.etlbs := rfl
@[simp] theorem State.setQueue_sets (s : State) (q : Nat) (k : Queue) : (s.setQueue q k).sets = s.sets := rfl
@[simp] theorem State.setQueue_counted (s : State) (q : Nat) (k : Queue) : (s.setQueue q k).counted = s.counted := rfl
@[simp] theorem State.setQueue_fot (s : State) (q : Nat) (k : Queue) : (s.setQueue q k).fot = s.fot := rfl
@[simp] theorem State.setQueue_bar (s : State) (q : Nat) (k : Queue) : (s.setQueue q k).bar = s.bar := rfl
@[simp] theorem State.setQueue_lwdAct (s : State) (q : Nat) (k : Queue) : (s.setQueue q k).lwdAct = s.lwdAct := rfl
@[simp] theorem State.setQueue_logs (s : State) (q : Nat) (k : Queue) : (s.setQueue q k).logs = s.logs := rfl
@[simp] theorem State.setQueue_cores (s : State) (q : Nat) (k : Queue) : (s.setQueue q k).cores = s.cores := rfl
@[simp] theorem State.setQueue_dies (s : State) (q : Nat) (k : Queue) : (s.setQueue q k).dies = s.dies := rfl
@[simp] theorem State.setQueue_groups (s : State) (q : Nat) (k : Queue) : (s.setQueue q k).groups = s.groups := rfl
@[simp] theorem State.setQueue_slots (s : State) (q : Nat) (k : Queue) : (s.setQueue q k).slots = s.slots := rfl
@[simp] theorem State.setQueue_fotCmd (s : State) (q : Nat) (k : Queue) : (s.setQueue q k).fotCmd = s.fotCmd := rfl
@[simp] theorem State.setQueue_deficit (s : State) (q : Nat) (k : Queue) : (s.setQueue q k).deficit = s.deficit := rfl
@[simp] theorem State.setQueue_used (s : State) (q : Nat) (k : Queue) : (s.setQueue q k).used = s.used := rfl
@[simp] theorem State.setQueue_interval (s : State) (q : Nat) (k : Queue) : (s.setQueue q k).interval = s.interval := rfl
@[simp] theorem State.setQueue_turns (s : State) (q : Nat) (k : Queue) : (s.setQueue q k).turns = s.turns := rfl
@[simp] theorem State.setQueue_tasks (s : State) (q : Nat) (k : Queue) : (s.setQueue q k).tasks = s.tasks := rfl
@[simp] theorem State.setQueue_trains (s : State) (q : Nat) (k : Queue) : (s.setQueue q k).trains = s.trains := rfl
@[simp] theorem State.setQueue_saved (s : State) (q : Nat) (k : Queue) : (s.setQueue q k).saved = s.saved := rfl
@[simp] theorem State.setQueue_graphs (s : State) (q : Nat) (k : Queue) : (s.setQueue q k).graphs = s.graphs := rfl
@[simp] theorem State.setQueue_jobs (s : State) (q : Nat) (k : Queue) : (s.setQueue q k).jobs = s.jobs := rfl
@[simp] theorem State.setQueue_queries (s : State) (q : Nat) (k : Queue) : (s.setQueue q k).queries = s.queries := rfl
@[simp] theorem State.setQueue_pairs (s : State) (q : Nat) (k : Queue) : (s.setQueue q k).pairs = s.pairs := rfl
@[simp] theorem State.setQueue_homeOps (s : State) (q : Nat) (k : Queue) : (s.setQueue q k).homeOps = s.homeOps := rfl
@[simp] theorem State.setQueue_outbound (s : State) (q : Nat) (k : Queue) : (s.setQueue q k).outbound = s.outbound := rfl
@[simp] theorem State.setQueue_inbound (s : State) (q : Nat) (k : Queue) : (s.setQueue q k).inbound = s.inbound := rfl
@[simp] theorem State.setQueue_far (s : State) (q : Nat) (k : Queue) : (s.setQueue q k).far = s.far := rfl
@[simp] theorem State.setQueue_posts (s : State) (q : Nat) (k : Queue) : (s.setQueue q k).posts = s.posts := rfl
@[simp] theorem State.setQueue_contribs (s : State) (q : Nat) (k : Queue) : (s.setQueue q k).contribs = s.contribs := rfl
@[simp] theorem State.setQueue_sent (s : State) (q : Nat) (k : Queue) : (s.setQueue q k).sent = s.sent := rfl
@[simp] theorem State.setQueue_owner (s : State) (q : Nat) (k : Queue) : (s.setQueue q k).owner = s.owner := rfl

/-! setPair -/

@[simp] theorem State.setPair_time (s : State) (l : Nat) (k : Pair) : (s.setPair l k).time = s.time := rfl
@[simp] theorem State.setPair_fresh (s : State) (l : Nat) (k : Pair) : (s.setPair l k).fresh = s.fresh := rfl
@[simp] theorem State.setPair_nextId (s : State) (l : Nat) (k : Pair) : (s.setPair l k).nextId = s.nextId := rfl
@[simp] theorem State.setPair_agenda (s : State) (l : Nat) (k : Pair) : (s.setPair l k).agenda = s.agenda := rfl
@[simp] theorem State.setPair_focus (s : State) (l : Nat) (k : Pair) : (s.setPair l k).focus = s.focus := rfl
@[simp] theorem State.setPair_pair (s : State) (l : Nat) (k : Pair) : (s.setPair l k).pair = s.pair := rfl
@[simp] theorem State.setPair_ev (s : State) (l : Nat) (k : Pair) : (s.setPair l k).ev = s.ev := rfl
@[simp] theorem State.setPair_mem (s : State) (l : Nat) (k : Pair) : (s.setPair l k).mem = s.mem := rfl
@[simp] theorem State.setPair_stamps (s : State) (l : Nat) (k : Pair) : (s.setPair l k).stamps = s.stamps := rfl
@[simp] theorem State.setPair_poison (s : State) (l : Nat) (k : Pair) : (s.setPair l k).poison = s.poison := rfl
@[simp] theorem State.setPair_etlbs (s : State) (l : Nat) (k : Pair) : (s.setPair l k).etlbs = s.etlbs := rfl
@[simp] theorem State.setPair_sets (s : State) (l : Nat) (k : Pair) : (s.setPair l k).sets = s.sets := rfl
@[simp] theorem State.setPair_counted (s : State) (l : Nat) (k : Pair) : (s.setPair l k).counted = s.counted := rfl
@[simp] theorem State.setPair_fot (s : State) (l : Nat) (k : Pair) : (s.setPair l k).fot = s.fot := rfl
@[simp] theorem State.setPair_bar (s : State) (l : Nat) (k : Pair) : (s.setPair l k).bar = s.bar := rfl
@[simp] theorem State.setPair_lwdAct (s : State) (l : Nat) (k : Pair) : (s.setPair l k).lwdAct = s.lwdAct := rfl
@[simp] theorem State.setPair_logs (s : State) (l : Nat) (k : Pair) : (s.setPair l k).logs = s.logs := rfl
@[simp] theorem State.setPair_cores (s : State) (l : Nat) (k : Pair) : (s.setPair l k).cores = s.cores := rfl
@[simp] theorem State.setPair_dies (s : State) (l : Nat) (k : Pair) : (s.setPair l k).dies = s.dies := rfl
@[simp] theorem State.setPair_groups (s : State) (l : Nat) (k : Pair) : (s.setPair l k).groups = s.groups := rfl
@[simp] theorem State.setPair_slots (s : State) (l : Nat) (k : Pair) : (s.setPair l k).slots = s.slots := rfl
@[simp] theorem State.setPair_fotCmd (s : State) (l : Nat) (k : Pair) : (s.setPair l k).fotCmd = s.fotCmd := rfl
@[simp] theorem State.setPair_deficit (s : State) (l : Nat) (k : Pair) : (s.setPair l k).deficit = s.deficit := rfl
@[simp] theorem State.setPair_used (s : State) (l : Nat) (k : Pair) : (s.setPair l k).used = s.used := rfl
@[simp] theorem State.setPair_interval (s : State) (l : Nat) (k : Pair) : (s.setPair l k).interval = s.interval := rfl
@[simp] theorem State.setPair_turns (s : State) (l : Nat) (k : Pair) : (s.setPair l k).turns = s.turns := rfl
@[simp] theorem State.setPair_tasks (s : State) (l : Nat) (k : Pair) : (s.setPair l k).tasks = s.tasks := rfl
@[simp] theorem State.setPair_trains (s : State) (l : Nat) (k : Pair) : (s.setPair l k).trains = s.trains := rfl
@[simp] theorem State.setPair_saved (s : State) (l : Nat) (k : Pair) : (s.setPair l k).saved = s.saved := rfl
@[simp] theorem State.setPair_queues (s : State) (l : Nat) (k : Pair) : (s.setPair l k).queues = s.queues := rfl
@[simp] theorem State.setPair_graphs (s : State) (l : Nat) (k : Pair) : (s.setPair l k).graphs = s.graphs := rfl
@[simp] theorem State.setPair_jobs (s : State) (l : Nat) (k : Pair) : (s.setPair l k).jobs = s.jobs := rfl
@[simp] theorem State.setPair_queries (s : State) (l : Nat) (k : Pair) : (s.setPair l k).queries = s.queries := rfl
@[simp] theorem State.setPair_homeOps (s : State) (l : Nat) (k : Pair) : (s.setPair l k).homeOps = s.homeOps := rfl
@[simp] theorem State.setPair_outbound (s : State) (l : Nat) (k : Pair) : (s.setPair l k).outbound = s.outbound := rfl
@[simp] theorem State.setPair_inbound (s : State) (l : Nat) (k : Pair) : (s.setPair l k).inbound = s.inbound := rfl
@[simp] theorem State.setPair_far (s : State) (l : Nat) (k : Pair) : (s.setPair l k).far = s.far := rfl
@[simp] theorem State.setPair_posts (s : State) (l : Nat) (k : Pair) : (s.setPair l k).posts = s.posts := rfl
@[simp] theorem State.setPair_contribs (s : State) (l : Nat) (k : Pair) : (s.setPair l k).contribs = s.contribs := rfl
@[simp] theorem State.setPair_sent (s : State) (l : Nat) (k : Pair) : (s.setPair l k).sent = s.sent := rfl
@[simp] theorem State.setPair_owner (s : State) (l : Nat) (k : Pair) : (s.setPair l k).owner = s.owner := rfl

/-! setTask -/

@[simp] theorem State.setTask_time (s : State) (t : Nat) (k : Task) : (s.setTask t k).time = s.time := rfl
@[simp] theorem State.setTask_fresh (s : State) (t : Nat) (k : Task) : (s.setTask t k).fresh = s.fresh := rfl
@[simp] theorem State.setTask_nextId (s : State) (t : Nat) (k : Task) : (s.setTask t k).nextId = s.nextId := rfl
@[simp] theorem State.setTask_agenda (s : State) (t : Nat) (k : Task) : (s.setTask t k).agenda = s.agenda := rfl
@[simp] theorem State.setTask_focus (s : State) (t : Nat) (k : Task) : (s.setTask t k).focus = s.focus := rfl
@[simp] theorem State.setTask_pair (s : State) (t : Nat) (k : Task) : (s.setTask t k).pair = s.pair := rfl
@[simp] theorem State.setTask_ev (s : State) (t : Nat) (k : Task) : (s.setTask t k).ev = s.ev := rfl
@[simp] theorem State.setTask_mem (s : State) (t : Nat) (k : Task) : (s.setTask t k).mem = s.mem := rfl
@[simp] theorem State.setTask_stamps (s : State) (t : Nat) (k : Task) : (s.setTask t k).stamps = s.stamps := rfl
@[simp] theorem State.setTask_poison (s : State) (t : Nat) (k : Task) : (s.setTask t k).poison = s.poison := rfl
@[simp] theorem State.setTask_etlbs (s : State) (t : Nat) (k : Task) : (s.setTask t k).etlbs = s.etlbs := rfl
@[simp] theorem State.setTask_sets (s : State) (t : Nat) (k : Task) : (s.setTask t k).sets = s.sets := rfl
@[simp] theorem State.setTask_counted (s : State) (t : Nat) (k : Task) : (s.setTask t k).counted = s.counted := rfl
@[simp] theorem State.setTask_fot (s : State) (t : Nat) (k : Task) : (s.setTask t k).fot = s.fot := rfl
@[simp] theorem State.setTask_bar (s : State) (t : Nat) (k : Task) : (s.setTask t k).bar = s.bar := rfl
@[simp] theorem State.setTask_lwdAct (s : State) (t : Nat) (k : Task) : (s.setTask t k).lwdAct = s.lwdAct := rfl
@[simp] theorem State.setTask_logs (s : State) (t : Nat) (k : Task) : (s.setTask t k).logs = s.logs := rfl
@[simp] theorem State.setTask_cores (s : State) (t : Nat) (k : Task) : (s.setTask t k).cores = s.cores := rfl
@[simp] theorem State.setTask_dies (s : State) (t : Nat) (k : Task) : (s.setTask t k).dies = s.dies := rfl
@[simp] theorem State.setTask_groups (s : State) (t : Nat) (k : Task) : (s.setTask t k).groups = s.groups := rfl
@[simp] theorem State.setTask_slots (s : State) (t : Nat) (k : Task) : (s.setTask t k).slots = s.slots := rfl
@[simp] theorem State.setTask_fotCmd (s : State) (t : Nat) (k : Task) : (s.setTask t k).fotCmd = s.fotCmd := rfl
@[simp] theorem State.setTask_deficit (s : State) (t : Nat) (k : Task) : (s.setTask t k).deficit = s.deficit := rfl
@[simp] theorem State.setTask_used (s : State) (t : Nat) (k : Task) : (s.setTask t k).used = s.used := rfl
@[simp] theorem State.setTask_interval (s : State) (t : Nat) (k : Task) : (s.setTask t k).interval = s.interval := rfl
@[simp] theorem State.setTask_turns (s : State) (t : Nat) (k : Task) : (s.setTask t k).turns = s.turns := rfl
@[simp] theorem State.setTask_trains (s : State) (t : Nat) (k : Task) : (s.setTask t k).trains = s.trains := rfl
@[simp] theorem State.setTask_saved (s : State) (t : Nat) (k : Task) : (s.setTask t k).saved = s.saved := rfl
@[simp] theorem State.setTask_queues (s : State) (t : Nat) (k : Task) : (s.setTask t k).queues = s.queues := rfl
@[simp] theorem State.setTask_graphs (s : State) (t : Nat) (k : Task) : (s.setTask t k).graphs = s.graphs := rfl
@[simp] theorem State.setTask_jobs (s : State) (t : Nat) (k : Task) : (s.setTask t k).jobs = s.jobs := rfl
@[simp] theorem State.setTask_queries (s : State) (t : Nat) (k : Task) : (s.setTask t k).queries = s.queries := rfl
@[simp] theorem State.setTask_pairs (s : State) (t : Nat) (k : Task) : (s.setTask t k).pairs = s.pairs := rfl
@[simp] theorem State.setTask_homeOps (s : State) (t : Nat) (k : Task) : (s.setTask t k).homeOps = s.homeOps := rfl
@[simp] theorem State.setTask_outbound (s : State) (t : Nat) (k : Task) : (s.setTask t k).outbound = s.outbound := rfl
@[simp] theorem State.setTask_inbound (s : State) (t : Nat) (k : Task) : (s.setTask t k).inbound = s.inbound := rfl
@[simp] theorem State.setTask_far (s : State) (t : Nat) (k : Task) : (s.setTask t k).far = s.far := rfl
@[simp] theorem State.setTask_posts (s : State) (t : Nat) (k : Task) : (s.setTask t k).posts = s.posts := rfl
@[simp] theorem State.setTask_contribs (s : State) (t : Nat) (k : Task) : (s.setTask t k).contribs = s.contribs := rfl
@[simp] theorem State.setTask_sent (s : State) (t : Nat) (k : Task) : (s.setTask t k).sent = s.sent := rfl
@[simp] theorem State.setTask_owner (s : State) (t : Nat) (k : Task) : (s.setTask t k).owner = s.owner := rfl

/-! modTask -/

@[simp] theorem State.modTask_time (s : State) (t : Nat) (f : Task → Task) : (s.modTask t f).time = s.time := rfl
@[simp] theorem State.modTask_fresh (s : State) (t : Nat) (f : Task → Task) : (s.modTask t f).fresh = s.fresh := rfl
@[simp] theorem State.modTask_nextId (s : State) (t : Nat) (f : Task → Task) : (s.modTask t f).nextId = s.nextId := rfl
@[simp] theorem State.modTask_agenda (s : State) (t : Nat) (f : Task → Task) : (s.modTask t f).agenda = s.agenda := rfl
@[simp] theorem State.modTask_focus (s : State) (t : Nat) (f : Task → Task) : (s.modTask t f).focus = s.focus := rfl
@[simp] theorem State.modTask_pair (s : State) (t : Nat) (f : Task → Task) : (s.modTask t f).pair = s.pair := rfl
@[simp] theorem State.modTask_ev (s : State) (t : Nat) (f : Task → Task) : (s.modTask t f).ev = s.ev := rfl
@[simp] theorem State.modTask_mem (s : State) (t : Nat) (f : Task → Task) : (s.modTask t f).mem = s.mem := rfl
@[simp] theorem State.modTask_stamps (s : State) (t : Nat) (f : Task → Task) : (s.modTask t f).stamps = s.stamps := rfl
@[simp] theorem State.modTask_poison (s : State) (t : Nat) (f : Task → Task) : (s.modTask t f).poison = s.poison := rfl
@[simp] theorem State.modTask_etlbs (s : State) (t : Nat) (f : Task → Task) : (s.modTask t f).etlbs = s.etlbs := rfl
@[simp] theorem State.modTask_sets (s : State) (t : Nat) (f : Task → Task) : (s.modTask t f).sets = s.sets := rfl
@[simp] theorem State.modTask_counted (s : State) (t : Nat) (f : Task → Task) : (s.modTask t f).counted = s.counted := rfl
@[simp] theorem State.modTask_fot (s : State) (t : Nat) (f : Task → Task) : (s.modTask t f).fot = s.fot := rfl
@[simp] theorem State.modTask_bar (s : State) (t : Nat) (f : Task → Task) : (s.modTask t f).bar = s.bar := rfl
@[simp] theorem State.modTask_lwdAct (s : State) (t : Nat) (f : Task → Task) : (s.modTask t f).lwdAct = s.lwdAct := rfl
@[simp] theorem State.modTask_logs (s : State) (t : Nat) (f : Task → Task) : (s.modTask t f).logs = s.logs := rfl
@[simp] theorem State.modTask_cores (s : State) (t : Nat) (f : Task → Task) : (s.modTask t f).cores = s.cores := rfl
@[simp] theorem State.modTask_dies (s : State) (t : Nat) (f : Task → Task) : (s.modTask t f).dies = s.dies := rfl
@[simp] theorem State.modTask_groups (s : State) (t : Nat) (f : Task → Task) : (s.modTask t f).groups = s.groups := rfl
@[simp] theorem State.modTask_slots (s : State) (t : Nat) (f : Task → Task) : (s.modTask t f).slots = s.slots := rfl
@[simp] theorem State.modTask_fotCmd (s : State) (t : Nat) (f : Task → Task) : (s.modTask t f).fotCmd = s.fotCmd := rfl
@[simp] theorem State.modTask_deficit (s : State) (t : Nat) (f : Task → Task) : (s.modTask t f).deficit = s.deficit := rfl
@[simp] theorem State.modTask_used (s : State) (t : Nat) (f : Task → Task) : (s.modTask t f).used = s.used := rfl
@[simp] theorem State.modTask_interval (s : State) (t : Nat) (f : Task → Task) : (s.modTask t f).interval = s.interval := rfl
@[simp] theorem State.modTask_turns (s : State) (t : Nat) (f : Task → Task) : (s.modTask t f).turns = s.turns := rfl
@[simp] theorem State.modTask_trains (s : State) (t : Nat) (f : Task → Task) : (s.modTask t f).trains = s.trains := rfl
@[simp] theorem State.modTask_saved (s : State) (t : Nat) (f : Task → Task) : (s.modTask t f).saved = s.saved := rfl
@[simp] theorem State.modTask_queues (s : State) (t : Nat) (f : Task → Task) : (s.modTask t f).queues = s.queues := rfl
@[simp] theorem State.modTask_graphs (s : State) (t : Nat) (f : Task → Task) : (s.modTask t f).graphs = s.graphs := rfl
@[simp] theorem State.modTask_jobs (s : State) (t : Nat) (f : Task → Task) : (s.modTask t f).jobs = s.jobs := rfl
@[simp] theorem State.modTask_queries (s : State) (t : Nat) (f : Task → Task) : (s.modTask t f).queries = s.queries := rfl
@[simp] theorem State.modTask_pairs (s : State) (t : Nat) (f : Task → Task) : (s.modTask t f).pairs = s.pairs := rfl
@[simp] theorem State.modTask_homeOps (s : State) (t : Nat) (f : Task → Task) : (s.modTask t f).homeOps = s.homeOps := rfl
@[simp] theorem State.modTask_outbound (s : State) (t : Nat) (f : Task → Task) : (s.modTask t f).outbound = s.outbound := rfl
@[simp] theorem State.modTask_inbound (s : State) (t : Nat) (f : Task → Task) : (s.modTask t f).inbound = s.inbound := rfl
@[simp] theorem State.modTask_far (s : State) (t : Nat) (f : Task → Task) : (s.modTask t f).far = s.far := rfl
@[simp] theorem State.modTask_posts (s : State) (t : Nat) (f : Task → Task) : (s.modTask t f).posts = s.posts := rfl
@[simp] theorem State.modTask_contribs (s : State) (t : Nat) (f : Task → Task) : (s.modTask t f).contribs = s.contribs := rfl
@[simp] theorem State.modTask_sent (s : State) (t : Nat) (f : Task → Task) : (s.modTask t f).sent = s.sent := rfl
@[simp] theorem State.modTask_owner (s : State) (t : Nat) (f : Task → Task) : (s.modTask t f).owner = s.owner := rfl

/-! setTrain -/

@[simp] theorem State.setTrain_time (s : State) (c j : Nat) (t : Train) : (s.setTrain c j t).time = s.time := rfl
@[simp] theorem State.setTrain_fresh (s : State) (c j : Nat) (t : Train) : (s.setTrain c j t).fresh = s.fresh := rfl
@[simp] theorem State.setTrain_nextId (s : State) (c j : Nat) (t : Train) : (s.setTrain c j t).nextId = s.nextId := rfl
@[simp] theorem State.setTrain_agenda (s : State) (c j : Nat) (t : Train) : (s.setTrain c j t).agenda = s.agenda := rfl
@[simp] theorem State.setTrain_focus (s : State) (c j : Nat) (t : Train) : (s.setTrain c j t).focus = s.focus := rfl
@[simp] theorem State.setTrain_pair (s : State) (c j : Nat) (t : Train) : (s.setTrain c j t).pair = s.pair := rfl
@[simp] theorem State.setTrain_ev (s : State) (c j : Nat) (t : Train) : (s.setTrain c j t).ev = s.ev := rfl
@[simp] theorem State.setTrain_mem (s : State) (c j : Nat) (t : Train) : (s.setTrain c j t).mem = s.mem := rfl
@[simp] theorem State.setTrain_stamps (s : State) (c j : Nat) (t : Train) : (s.setTrain c j t).stamps = s.stamps := rfl
@[simp] theorem State.setTrain_poison (s : State) (c j : Nat) (t : Train) : (s.setTrain c j t).poison = s.poison := rfl
@[simp] theorem State.setTrain_etlbs (s : State) (c j : Nat) (t : Train) : (s.setTrain c j t).etlbs = s.etlbs := rfl
@[simp] theorem State.setTrain_sets (s : State) (c j : Nat) (t : Train) : (s.setTrain c j t).sets = s.sets := rfl
@[simp] theorem State.setTrain_counted (s : State) (c j : Nat) (t : Train) : (s.setTrain c j t).counted = s.counted := rfl
@[simp] theorem State.setTrain_fot (s : State) (c j : Nat) (t : Train) : (s.setTrain c j t).fot = s.fot := rfl
@[simp] theorem State.setTrain_bar (s : State) (c j : Nat) (t : Train) : (s.setTrain c j t).bar = s.bar := rfl
@[simp] theorem State.setTrain_lwdAct (s : State) (c j : Nat) (t : Train) : (s.setTrain c j t).lwdAct = s.lwdAct := rfl
@[simp] theorem State.setTrain_logs (s : State) (c j : Nat) (t : Train) : (s.setTrain c j t).logs = s.logs := rfl
@[simp] theorem State.setTrain_cores (s : State) (c j : Nat) (t : Train) : (s.setTrain c j t).cores = s.cores := rfl
@[simp] theorem State.setTrain_dies (s : State) (c j : Nat) (t : Train) : (s.setTrain c j t).dies = s.dies := rfl
@[simp] theorem State.setTrain_groups (s : State) (c j : Nat) (t : Train) : (s.setTrain c j t).groups = s.groups := rfl
@[simp] theorem State.setTrain_slots (s : State) (c j : Nat) (t : Train) : (s.setTrain c j t).slots = s.slots := rfl
@[simp] theorem State.setTrain_fotCmd (s : State) (c j : Nat) (t : Train) : (s.setTrain c j t).fotCmd = s.fotCmd := rfl
@[simp] theorem State.setTrain_deficit (s : State) (c j : Nat) (t : Train) : (s.setTrain c j t).deficit = s.deficit := rfl
@[simp] theorem State.setTrain_used (s : State) (c j : Nat) (t : Train) : (s.setTrain c j t).used = s.used := rfl
@[simp] theorem State.setTrain_interval (s : State) (c j : Nat) (t : Train) : (s.setTrain c j t).interval = s.interval := rfl
@[simp] theorem State.setTrain_turns (s : State) (c j : Nat) (t : Train) : (s.setTrain c j t).turns = s.turns := rfl
@[simp] theorem State.setTrain_tasks (s : State) (c j : Nat) (t : Train) : (s.setTrain c j t).tasks = s.tasks := rfl
@[simp] theorem State.setTrain_saved (s : State) (c j : Nat) (t : Train) : (s.setTrain c j t).saved = s.saved := rfl
@[simp] theorem State.setTrain_queues (s : State) (c j : Nat) (t : Train) : (s.setTrain c j t).queues = s.queues := rfl
@[simp] theorem State.setTrain_graphs (s : State) (c j : Nat) (t : Train) : (s.setTrain c j t).graphs = s.graphs := rfl
@[simp] theorem State.setTrain_jobs (s : State) (c j : Nat) (t : Train) : (s.setTrain c j t).jobs = s.jobs := rfl
@[simp] theorem State.setTrain_queries (s : State) (c j : Nat) (t : Train) : (s.setTrain c j t).queries = s.queries := rfl
@[simp] theorem State.setTrain_pairs (s : State) (c j : Nat) (t : Train) : (s.setTrain c j t).pairs = s.pairs := rfl
@[simp] theorem State.setTrain_homeOps (s : State) (c j : Nat) (t : Train) : (s.setTrain c j t).homeOps = s.homeOps := rfl
@[simp] theorem State.setTrain_outbound (s : State) (c j : Nat) (t : Train) : (s.setTrain c j t).outbound = s.outbound := rfl
@[simp] theorem State.setTrain_inbound (s : State) (c j : Nat) (t : Train) : (s.setTrain c j t).inbound = s.inbound := rfl
@[simp] theorem State.setTrain_far (s : State) (c j : Nat) (t : Train) : (s.setTrain c j t).far = s.far := rfl
@[simp] theorem State.setTrain_posts (s : State) (c j : Nat) (t : Train) : (s.setTrain c j t).posts = s.posts := rfl
@[simp] theorem State.setTrain_contribs (s : State) (c j : Nat) (t : Train) : (s.setTrain c j t).contribs = s.contribs := rfl
@[simp] theorem State.setTrain_sent (s : State) (c j : Nat) (t : Train) : (s.setTrain c j t).sent = s.sent := rfl
@[simp] theorem State.setTrain_owner (s : State) (c j : Nat) (t : Train) : (s.setTrain c j t).owner = s.owner := rfl

/-! modTrain -/

@[simp] theorem State.modTrain_time (s : State) (c j : Nat) (f : Train → Train) : (s.modTrain c j f).time = s.time := rfl
@[simp] theorem State.modTrain_fresh (s : State) (c j : Nat) (f : Train → Train) : (s.modTrain c j f).fresh = s.fresh := rfl
@[simp] theorem State.modTrain_nextId (s : State) (c j : Nat) (f : Train → Train) : (s.modTrain c j f).nextId = s.nextId := rfl
@[simp] theorem State.modTrain_agenda (s : State) (c j : Nat) (f : Train → Train) : (s.modTrain c j f).agenda = s.agenda := rfl
@[simp] theorem State.modTrain_focus (s : State) (c j : Nat) (f : Train → Train) : (s.modTrain c j f).focus = s.focus := rfl
@[simp] theorem State.modTrain_pair (s : State) (c j : Nat) (f : Train → Train) : (s.modTrain c j f).pair = s.pair := rfl
@[simp] theorem State.modTrain_ev (s : State) (c j : Nat) (f : Train → Train) : (s.modTrain c j f).ev = s.ev := rfl
@[simp] theorem State.modTrain_mem (s : State) (c j : Nat) (f : Train → Train) : (s.modTrain c j f).mem = s.mem := rfl
@[simp] theorem State.modTrain_stamps (s : State) (c j : Nat) (f : Train → Train) : (s.modTrain c j f).stamps = s.stamps := rfl
@[simp] theorem State.modTrain_poison (s : State) (c j : Nat) (f : Train → Train) : (s.modTrain c j f).poison = s.poison := rfl
@[simp] theorem State.modTrain_etlbs (s : State) (c j : Nat) (f : Train → Train) : (s.modTrain c j f).etlbs = s.etlbs := rfl
@[simp] theorem State.modTrain_sets (s : State) (c j : Nat) (f : Train → Train) : (s.modTrain c j f).sets = s.sets := rfl
@[simp] theorem State.modTrain_counted (s : State) (c j : Nat) (f : Train → Train) : (s.modTrain c j f).counted = s.counted := rfl
@[simp] theorem State.modTrain_fot (s : State) (c j : Nat) (f : Train → Train) : (s.modTrain c j f).fot = s.fot := rfl
@[simp] theorem State.modTrain_bar (s : State) (c j : Nat) (f : Train → Train) : (s.modTrain c j f).bar = s.bar := rfl
@[simp] theorem State.modTrain_lwdAct (s : State) (c j : Nat) (f : Train → Train) : (s.modTrain c j f).lwdAct = s.lwdAct := rfl
@[simp] theorem State.modTrain_logs (s : State) (c j : Nat) (f : Train → Train) : (s.modTrain c j f).logs = s.logs := rfl
@[simp] theorem State.modTrain_cores (s : State) (c j : Nat) (f : Train → Train) : (s.modTrain c j f).cores = s.cores := rfl
@[simp] theorem State.modTrain_dies (s : State) (c j : Nat) (f : Train → Train) : (s.modTrain c j f).dies = s.dies := rfl
@[simp] theorem State.modTrain_groups (s : State) (c j : Nat) (f : Train → Train) : (s.modTrain c j f).groups = s.groups := rfl
@[simp] theorem State.modTrain_slots (s : State) (c j : Nat) (f : Train → Train) : (s.modTrain c j f).slots = s.slots := rfl
@[simp] theorem State.modTrain_fotCmd (s : State) (c j : Nat) (f : Train → Train) : (s.modTrain c j f).fotCmd = s.fotCmd := rfl
@[simp] theorem State.modTrain_deficit (s : State) (c j : Nat) (f : Train → Train) : (s.modTrain c j f).deficit = s.deficit := rfl
@[simp] theorem State.modTrain_used (s : State) (c j : Nat) (f : Train → Train) : (s.modTrain c j f).used = s.used := rfl
@[simp] theorem State.modTrain_interval (s : State) (c j : Nat) (f : Train → Train) : (s.modTrain c j f).interval = s.interval := rfl
@[simp] theorem State.modTrain_turns (s : State) (c j : Nat) (f : Train → Train) : (s.modTrain c j f).turns = s.turns := rfl
@[simp] theorem State.modTrain_tasks (s : State) (c j : Nat) (f : Train → Train) : (s.modTrain c j f).tasks = s.tasks := rfl
@[simp] theorem State.modTrain_saved (s : State) (c j : Nat) (f : Train → Train) : (s.modTrain c j f).saved = s.saved := rfl
@[simp] theorem State.modTrain_queues (s : State) (c j : Nat) (f : Train → Train) : (s.modTrain c j f).queues = s.queues := rfl
@[simp] theorem State.modTrain_graphs (s : State) (c j : Nat) (f : Train → Train) : (s.modTrain c j f).graphs = s.graphs := rfl
@[simp] theorem State.modTrain_jobs (s : State) (c j : Nat) (f : Train → Train) : (s.modTrain c j f).jobs = s.jobs := rfl
@[simp] theorem State.modTrain_queries (s : State) (c j : Nat) (f : Train → Train) : (s.modTrain c j f).queries = s.queries := rfl
@[simp] theorem State.modTrain_pairs (s : State) (c j : Nat) (f : Train → Train) : (s.modTrain c j f).pairs = s.pairs := rfl
@[simp] theorem State.modTrain_homeOps (s : State) (c j : Nat) (f : Train → Train) : (s.modTrain c j f).homeOps = s.homeOps := rfl
@[simp] theorem State.modTrain_outbound (s : State) (c j : Nat) (f : Train → Train) : (s.modTrain c j f).outbound = s.outbound := rfl
@[simp] theorem State.modTrain_inbound (s : State) (c j : Nat) (f : Train → Train) : (s.modTrain c j f).inbound = s.inbound := rfl
@[simp] theorem State.modTrain_far (s : State) (c j : Nat) (f : Train → Train) : (s.modTrain c j f).far = s.far := rfl
@[simp] theorem State.modTrain_posts (s : State) (c j : Nat) (f : Train → Train) : (s.modTrain c j f).posts = s.posts := rfl
@[simp] theorem State.modTrain_contribs (s : State) (c j : Nat) (f : Train → Train) : (s.modTrain c j f).contribs = s.contribs := rfl
@[simp] theorem State.modTrain_sent (s : State) (c j : Nat) (f : Train → Train) : (s.modTrain c j f).sent = s.sent := rfl
@[simp] theorem State.modTrain_owner (s : State) (c j : Nat) (f : Train → Train) : (s.modTrain c j f).owner = s.owner := rfl

/-! modCur -/

@[simp] theorem State.modCur_time (s : State) (f : Train → Train) : (s.modCur f).time = s.time := rfl
@[simp] theorem State.modCur_fresh (s : State) (f : Train → Train) : (s.modCur f).fresh = s.fresh := rfl
@[simp] theorem State.modCur_nextId (s : State) (f : Train → Train) : (s.modCur f).nextId = s.nextId := rfl
@[simp] theorem State.modCur_agenda (s : State) (f : Train → Train) : (s.modCur f).agenda = s.agenda := rfl
@[simp] theorem State.modCur_focus (s : State) (f : Train → Train) : (s.modCur f).focus = s.focus := rfl
@[simp] theorem State.modCur_pair (s : State) (f : Train → Train) : (s.modCur f).pair = s.pair := rfl
@[simp] theorem State.modCur_ev (s : State) (f : Train → Train) : (s.modCur f).ev = s.ev := rfl
@[simp] theorem State.modCur_mem (s : State) (f : Train → Train) : (s.modCur f).mem = s.mem := rfl
@[simp] theorem State.modCur_stamps (s : State) (f : Train → Train) : (s.modCur f).stamps = s.stamps := rfl
@[simp] theorem State.modCur_poison (s : State) (f : Train → Train) : (s.modCur f).poison = s.poison := rfl
@[simp] theorem State.modCur_etlbs (s : State) (f : Train → Train) : (s.modCur f).etlbs = s.etlbs := rfl
@[simp] theorem State.modCur_sets (s : State) (f : Train → Train) : (s.modCur f).sets = s.sets := rfl
@[simp] theorem State.modCur_counted (s : State) (f : Train → Train) : (s.modCur f).counted = s.counted := rfl
@[simp] theorem State.modCur_fot (s : State) (f : Train → Train) : (s.modCur f).fot = s.fot := rfl
@[simp] theorem State.modCur_bar (s : State) (f : Train → Train) : (s.modCur f).bar = s.bar := rfl
@[simp] theorem State.modCur_lwdAct (s : State) (f : Train → Train) : (s.modCur f).lwdAct = s.lwdAct := rfl
@[simp] theorem State.modCur_logs (s : State) (f : Train → Train) : (s.modCur f).logs = s.logs := rfl
@[simp] theorem State.modCur_cores (s : State) (f : Train → Train) : (s.modCur f).cores = s.cores := rfl
@[simp] theorem State.modCur_dies (s : State) (f : Train → Train) : (s.modCur f).dies = s.dies := rfl
@[simp] theorem State.modCur_groups (s : State) (f : Train → Train) : (s.modCur f).groups = s.groups := rfl
@[simp] theorem State.modCur_slots (s : State) (f : Train → Train) : (s.modCur f).slots = s.slots := rfl
@[simp] theorem State.modCur_fotCmd (s : State) (f : Train → Train) : (s.modCur f).fotCmd = s.fotCmd := rfl
@[simp] theorem State.modCur_deficit (s : State) (f : Train → Train) : (s.modCur f).deficit = s.deficit := rfl
@[simp] theorem State.modCur_used (s : State) (f : Train → Train) : (s.modCur f).used = s.used := rfl
@[simp] theorem State.modCur_interval (s : State) (f : Train → Train) : (s.modCur f).interval = s.interval := rfl
@[simp] theorem State.modCur_turns (s : State) (f : Train → Train) : (s.modCur f).turns = s.turns := rfl
@[simp] theorem State.modCur_tasks (s : State) (f : Train → Train) : (s.modCur f).tasks = s.tasks := rfl
@[simp] theorem State.modCur_saved (s : State) (f : Train → Train) : (s.modCur f).saved = s.saved := rfl
@[simp] theorem State.modCur_queues (s : State) (f : Train → Train) : (s.modCur f).queues = s.queues := rfl
@[simp] theorem State.modCur_graphs (s : State) (f : Train → Train) : (s.modCur f).graphs = s.graphs := rfl
@[simp] theorem State.modCur_jobs (s : State) (f : Train → Train) : (s.modCur f).jobs = s.jobs := rfl
@[simp] theorem State.modCur_queries (s : State) (f : Train → Train) : (s.modCur f).queries = s.queries := rfl
@[simp] theorem State.modCur_pairs (s : State) (f : Train → Train) : (s.modCur f).pairs = s.pairs := rfl
@[simp] theorem State.modCur_homeOps (s : State) (f : Train → Train) : (s.modCur f).homeOps = s.homeOps := rfl
@[simp] theorem State.modCur_outbound (s : State) (f : Train → Train) : (s.modCur f).outbound = s.outbound := rfl
@[simp] theorem State.modCur_inbound (s : State) (f : Train → Train) : (s.modCur f).inbound = s.inbound := rfl
@[simp] theorem State.modCur_far (s : State) (f : Train → Train) : (s.modCur f).far = s.far := rfl
@[simp] theorem State.modCur_posts (s : State) (f : Train → Train) : (s.modCur f).posts = s.posts := rfl
@[simp] theorem State.modCur_contribs (s : State) (f : Train → Train) : (s.modCur f).contribs = s.contribs := rfl
@[simp] theorem State.modCur_sent (s : State) (f : Train → Train) : (s.modCur f).sent = s.sent := rfl
@[simp] theorem State.modCur_owner (s : State) (f : Train → Train) : (s.modCur f).owner = s.owner := rfl

/-! modPortion -/

@[simp] theorem State.modPortion_time (s : State) (f : Portion → Portion) : (s.modPortion f).time = s.time := rfl
@[simp] theorem State.modPortion_fresh (s : State) (f : Portion → Portion) : (s.modPortion f).fresh = s.fresh := rfl
@[simp] theorem State.modPortion_nextId (s : State) (f : Portion → Portion) : (s.modPortion f).nextId = s.nextId := rfl
@[simp] theorem State.modPortion_agenda (s : State) (f : Portion → Portion) : (s.modPortion f).agenda = s.agenda := rfl
@[simp] theorem State.modPortion_focus (s : State) (f : Portion → Portion) : (s.modPortion f).focus = s.focus := rfl
@[simp] theorem State.modPortion_pair (s : State) (f : Portion → Portion) : (s.modPortion f).pair = s.pair := rfl
@[simp] theorem State.modPortion_ev (s : State) (f : Portion → Portion) : (s.modPortion f).ev = s.ev := rfl
@[simp] theorem State.modPortion_mem (s : State) (f : Portion → Portion) : (s.modPortion f).mem = s.mem := rfl
@[simp] theorem State.modPortion_stamps (s : State) (f : Portion → Portion) : (s.modPortion f).stamps = s.stamps := rfl
@[simp] theorem State.modPortion_poison (s : State) (f : Portion → Portion) : (s.modPortion f).poison = s.poison := rfl
@[simp] theorem State.modPortion_etlbs (s : State) (f : Portion → Portion) : (s.modPortion f).etlbs = s.etlbs := rfl
@[simp] theorem State.modPortion_sets (s : State) (f : Portion → Portion) : (s.modPortion f).sets = s.sets := rfl
@[simp] theorem State.modPortion_counted (s : State) (f : Portion → Portion) : (s.modPortion f).counted = s.counted := rfl
@[simp] theorem State.modPortion_fot (s : State) (f : Portion → Portion) : (s.modPortion f).fot = s.fot := rfl
@[simp] theorem State.modPortion_bar (s : State) (f : Portion → Portion) : (s.modPortion f).bar = s.bar := rfl
@[simp] theorem State.modPortion_lwdAct (s : State) (f : Portion → Portion) : (s.modPortion f).lwdAct = s.lwdAct := rfl
@[simp] theorem State.modPortion_logs (s : State) (f : Portion → Portion) : (s.modPortion f).logs = s.logs := rfl
@[simp] theorem State.modPortion_cores (s : State) (f : Portion → Portion) : (s.modPortion f).cores = s.cores := rfl
@[simp] theorem State.modPortion_dies (s : State) (f : Portion → Portion) : (s.modPortion f).dies = s.dies := rfl
@[simp] theorem State.modPortion_groups (s : State) (f : Portion → Portion) : (s.modPortion f).groups = s.groups := rfl
@[simp] theorem State.modPortion_slots (s : State) (f : Portion → Portion) : (s.modPortion f).slots = s.slots := rfl
@[simp] theorem State.modPortion_fotCmd (s : State) (f : Portion → Portion) : (s.modPortion f).fotCmd = s.fotCmd := rfl
@[simp] theorem State.modPortion_deficit (s : State) (f : Portion → Portion) : (s.modPortion f).deficit = s.deficit := rfl
@[simp] theorem State.modPortion_used (s : State) (f : Portion → Portion) : (s.modPortion f).used = s.used := rfl
@[simp] theorem State.modPortion_interval (s : State) (f : Portion → Portion) : (s.modPortion f).interval = s.interval := rfl
@[simp] theorem State.modPortion_turns (s : State) (f : Portion → Portion) : (s.modPortion f).turns = s.turns := rfl
@[simp] theorem State.modPortion_tasks (s : State) (f : Portion → Portion) : (s.modPortion f).tasks = s.tasks := rfl
@[simp] theorem State.modPortion_saved (s : State) (f : Portion → Portion) : (s.modPortion f).saved = s.saved := rfl
@[simp] theorem State.modPortion_queues (s : State) (f : Portion → Portion) : (s.modPortion f).queues = s.queues := rfl
@[simp] theorem State.modPortion_graphs (s : State) (f : Portion → Portion) : (s.modPortion f).graphs = s.graphs := rfl
@[simp] theorem State.modPortion_jobs (s : State) (f : Portion → Portion) : (s.modPortion f).jobs = s.jobs := rfl
@[simp] theorem State.modPortion_queries (s : State) (f : Portion → Portion) : (s.modPortion f).queries = s.queries := rfl
@[simp] theorem State.modPortion_pairs (s : State) (f : Portion → Portion) : (s.modPortion f).pairs = s.pairs := rfl
@[simp] theorem State.modPortion_homeOps (s : State) (f : Portion → Portion) : (s.modPortion f).homeOps = s.homeOps := rfl
@[simp] theorem State.modPortion_outbound (s : State) (f : Portion → Portion) : (s.modPortion f).outbound = s.outbound := rfl
@[simp] theorem State.modPortion_inbound (s : State) (f : Portion → Portion) : (s.modPortion f).inbound = s.inbound := rfl
@[simp] theorem State.modPortion_far (s : State) (f : Portion → Portion) : (s.modPortion f).far = s.far := rfl
@[simp] theorem State.modPortion_posts (s : State) (f : Portion → Portion) : (s.modPortion f).posts = s.posts := rfl
@[simp] theorem State.modPortion_contribs (s : State) (f : Portion → Portion) : (s.modPortion f).contribs = s.contribs := rfl
@[simp] theorem State.modPortion_sent (s : State) (f : Portion → Portion) : (s.modPortion f).sent = s.sent := rfl
@[simp] theorem State.modPortion_owner (s : State) (f : Portion → Portion) : (s.modPortion f).owner = s.owner := rfl

/-! setPoison -/

@[simp] theorem State.setPoison_time (s : State) (a : Nat) (p : Bool) : (s.setPoison a p).time = s.time := rfl
@[simp] theorem State.setPoison_fresh (s : State) (a : Nat) (p : Bool) : (s.setPoison a p).fresh = s.fresh := rfl
@[simp] theorem State.setPoison_nextId (s : State) (a : Nat) (p : Bool) : (s.setPoison a p).nextId = s.nextId := rfl
@[simp] theorem State.setPoison_agenda (s : State) (a : Nat) (p : Bool) : (s.setPoison a p).agenda = s.agenda := rfl
@[simp] theorem State.setPoison_focus (s : State) (a : Nat) (p : Bool) : (s.setPoison a p).focus = s.focus := rfl
@[simp] theorem State.setPoison_pair (s : State) (a : Nat) (p : Bool) : (s.setPoison a p).pair = s.pair := rfl
@[simp] theorem State.setPoison_ev (s : State) (a : Nat) (p : Bool) : (s.setPoison a p).ev = s.ev := rfl
@[simp] theorem State.setPoison_mem (s : State) (a : Nat) (p : Bool) : (s.setPoison a p).mem = s.mem := rfl
@[simp] theorem State.setPoison_stamps (s : State) (a : Nat) (p : Bool) : (s.setPoison a p).stamps = s.stamps := rfl
@[simp] theorem State.setPoison_counted (s : State) (a : Nat) (p : Bool) : (s.setPoison a p).counted = s.counted := rfl
@[simp] theorem State.setPoison_etlbs (s : State) (a : Nat) (p : Bool) : (s.setPoison a p).etlbs = s.etlbs := rfl
@[simp] theorem State.setPoison_sets (s : State) (a : Nat) (p : Bool) : (s.setPoison a p).sets = s.sets := rfl
@[simp] theorem State.setPoison_fot (s : State) (a : Nat) (p : Bool) : (s.setPoison a p).fot = s.fot := rfl
@[simp] theorem State.setPoison_bar (s : State) (a : Nat) (p : Bool) : (s.setPoison a p).bar = s.bar := rfl
@[simp] theorem State.setPoison_lwdAct (s : State) (a : Nat) (p : Bool) : (s.setPoison a p).lwdAct = s.lwdAct := rfl
@[simp] theorem State.setPoison_logs (s : State) (a : Nat) (p : Bool) : (s.setPoison a p).logs = s.logs := rfl
@[simp] theorem State.setPoison_cores (s : State) (a : Nat) (p : Bool) : (s.setPoison a p).cores = s.cores := rfl
@[simp] theorem State.setPoison_dies (s : State) (a : Nat) (p : Bool) : (s.setPoison a p).dies = s.dies := rfl
@[simp] theorem State.setPoison_groups (s : State) (a : Nat) (p : Bool) : (s.setPoison a p).groups = s.groups := rfl
@[simp] theorem State.setPoison_slots (s : State) (a : Nat) (p : Bool) : (s.setPoison a p).slots = s.slots := rfl
@[simp] theorem State.setPoison_fotCmd (s : State) (a : Nat) (p : Bool) : (s.setPoison a p).fotCmd = s.fotCmd := rfl
@[simp] theorem State.setPoison_deficit (s : State) (a : Nat) (p : Bool) : (s.setPoison a p).deficit = s.deficit := rfl
@[simp] theorem State.setPoison_used (s : State) (a : Nat) (p : Bool) : (s.setPoison a p).used = s.used := rfl
@[simp] theorem State.setPoison_interval (s : State) (a : Nat) (p : Bool) : (s.setPoison a p).interval = s.interval := rfl
@[simp] theorem State.setPoison_turns (s : State) (a : Nat) (p : Bool) : (s.setPoison a p).turns = s.turns := rfl
@[simp] theorem State.setPoison_tasks (s : State) (a : Nat) (p : Bool) : (s.setPoison a p).tasks = s.tasks := rfl
@[simp] theorem State.setPoison_trains (s : State) (a : Nat) (p : Bool) : (s.setPoison a p).trains = s.trains := rfl
@[simp] theorem State.setPoison_saved (s : State) (a : Nat) (p : Bool) : (s.setPoison a p).saved = s.saved := rfl
@[simp] theorem State.setPoison_queues (s : State) (a : Nat) (p : Bool) : (s.setPoison a p).queues = s.queues := rfl
@[simp] theorem State.setPoison_graphs (s : State) (a : Nat) (p : Bool) : (s.setPoison a p).graphs = s.graphs := rfl
@[simp] theorem State.setPoison_jobs (s : State) (a : Nat) (p : Bool) : (s.setPoison a p).jobs = s.jobs := rfl
@[simp] theorem State.setPoison_queries (s : State) (a : Nat) (p : Bool) : (s.setPoison a p).queries = s.queries := rfl
@[simp] theorem State.setPoison_pairs (s : State) (a : Nat) (p : Bool) : (s.setPoison a p).pairs = s.pairs := rfl
@[simp] theorem State.setPoison_homeOps (s : State) (a : Nat) (p : Bool) : (s.setPoison a p).homeOps = s.homeOps := rfl
@[simp] theorem State.setPoison_outbound (s : State) (a : Nat) (p : Bool) : (s.setPoison a p).outbound = s.outbound := rfl
@[simp] theorem State.setPoison_inbound (s : State) (a : Nat) (p : Bool) : (s.setPoison a p).inbound = s.inbound := rfl
@[simp] theorem State.setPoison_far (s : State) (a : Nat) (p : Bool) : (s.setPoison a p).far = s.far := rfl
@[simp] theorem State.setPoison_posts (s : State) (a : Nat) (p : Bool) : (s.setPoison a p).posts = s.posts := rfl
@[simp] theorem State.setPoison_contribs (s : State) (a : Nat) (p : Bool) : (s.setPoison a p).contribs = s.contribs := rfl
@[simp] theorem State.setPoison_sent (s : State) (a : Nat) (p : Bool) : (s.setPoison a p).sent = s.sent := rfl
@[simp] theorem State.setPoison_owner (s : State) (a : Nat) (p : Bool) : (s.setPoison a p).owner = s.owner := rfl

/-! Registers of a train -/

@[simp] theorem Train.setS_task (t : Train) (n : Nat) (v : W64) : (t.setS n v).task = t.task := by unfold Train.setS; split <;> rfl
@[simp] theorem Train.setS_index (t : Train) (n : Nat) (v : W64) : (t.setS n v).index = t.index := by unfold Train.setS; split <;> rfl
@[simp] theorem Train.setS_budget (t : Train) (n : Nat) (v : W64) : (t.setS n v).budget = t.budget := by unfold Train.setS; split <;> rfl
@[simp] theorem Train.setS_b (t : Train) (n : Nat) (v : W64) : (t.setS n v).b = t.b := by unfold Train.setS; split <;> rfl
@[simp] theorem Train.setS_k (t : Train) (n : Nat) (v : W64) : (t.setS n v).k = t.k := by unfold Train.setS; split <;> rfl
@[simp] theorem Train.setS_v (t : Train) (n : Nat) (v : W64) : (t.setS n v).v = t.v := by unfold Train.setS; split <;> rfl
@[simp] theorem Train.setS_deadm (t : Train) (n : Nat) (v : W64) : (t.setS n v).deadm = t.deadm := by unfold Train.setS; split <;> rfl
@[simp] theorem Train.setS_xflags (t : Train) (n : Nat) (v : W64) : (t.setS n v).xflags = t.xflags := by unfold Train.setS; split <;> rfl
@[simp] theorem Train.setS_lineage (t : Train) (n : Nat) (v : W64) : (t.setS n v).lineage = t.lineage := by unfold Train.setS; split <;> rfl
@[simp] theorem Train.setS_lcb (t : Train) (n : Nat) (v : W64) : (t.setS n v).lcb = t.lcb := by unfold Train.setS; split <;> rfl
@[simp] theorem Train.setS_portions (t : Train) (n : Nat) (v : W64) : (t.setS n v).portions = t.portions := by unfold Train.setS; split <;> rfl
@[simp] theorem Train.setS_entries (t : Train) (n : Nat) (v : W64) : (t.setS n v).entries = t.entries := by unfold Train.setS; split <;> rfl
@[simp] theorem Train.setS_nextEntry (t : Train) (n : Nat) (v : W64) : (t.setS n v).nextEntry = t.nextEntry := by unfold Train.setS; split <;> rfl
@[simp] theorem Train.setS_pend (t : Train) (n : Nat) (v : W64) : (t.setS n v).pend = t.pend := by unfold Train.setS; split <;> rfl
@[simp] theorem Train.setS_nextPend (t : Train) (n : Nat) (v : W64) : (t.setS n v).nextPend = t.nextPend := by unfold Train.setS; split <;> rfl
@[simp] theorem Train.setS_wqry (t : Train) (n : Nat) (v : W64) : (t.setS n v).wqry = t.wqry := by unfold Train.setS; split <;> rfl
@[simp] theorem Train.setS_fltinfo (t : Train) (n : Nat) (v : W64) : (t.setS n v).fltinfo = t.fltinfo := by unfold Train.setS; split <;> rfl
@[simp] theorem Train.setS_fltmask (t : Train) (n : Nat) (v : W64) : (t.setS n v).fltmask = t.fltmask := by unfold Train.setS; split <;> rfl
@[simp] theorem Train.setS_flash (t : Train) (n : Nat) (v : W64) : (t.setS n v).flash = t.flash := by unfold Train.setS; split <;> rfl
@[simp] theorem Train.setS_boundary (t : Train) (n : Nat) (v : W64) : (t.setS n v).boundary = t.boundary := by unfold Train.setS; split <;> rfl
@[simp] theorem Train.setS_handler (t : Train) (n : Nat) (v : W64) : (t.setS n v).handler = t.handler := by unfold Train.setS; split <;> rfl
@[simp] theorem Train.setS_fault (t : Train) (n : Nat) (v : W64) : (t.setS n v).fault = t.fault := by unfold Train.setS; split <;> rfl
@[simp] theorem Train.setS_call (t : Train) (n : Nat) (v : W64) : (t.setS n v).call = t.call := by unfold Train.setS; split <;> rfl
@[simp] theorem Train.setS_arrivals (t : Train) (n : Nat) (v : W64) : (t.setS n v).arrivals = t.arrivals := by unfold Train.setS; split <;> rfl
@[simp] theorem Train.setS_logErrs (t : Train) (n : Nat) (v : W64) : (t.setS n v).logErrs = t.logErrs := by unfold Train.setS; split <;> rfl
@[simp] theorem Train.setS_startAcq (t : Train) (n : Nat) (v : W64) : (t.setS n v).startAcq = t.startAcq := by unfold Train.setS; split <;> rfl
@[simp] theorem Train.setS_startAcqAll (t : Train) (n : Nat) (v : W64) : (t.setS n v).startAcqAll = t.startAcqAll := by unfold Train.setS; split <;> rfl
@[simp] theorem Train.setS_member (t : Train) (n : Nat) (v : W64) : (t.setS n v).member = t.member := by unfold Train.setS; split <;> rfl
@[simp] theorem Train.setS_draining (t : Train) (n : Nat) (v : W64) : (t.setS n v).draining = t.draining := by unfold Train.setS; split <;> rfl
@[simp] theorem Train.setS_rewound (t : Train) (n : Nat) (v : W64) : (t.setS n v).rewound = t.rewound := by unfold Train.setS; split <;> rfl
@[simp] theorem Train.setS_readySince (t : Train) (n : Nat) (v : W64) : (t.setS n v).readySince = t.readySince := by unfold Train.setS; split <;> rfl
@[simp] theorem Train.setS_bounds (t : Train) (n : Nat) (v : W64) : (t.setS n v).bounds = t.bounds := by unfold Train.setS; split <;> rfl
@[simp] theorem Train.setS_stuck (t : Train) (n : Nat) (v : W64) : (t.setS n v).stuck = t.stuck := by unfold Train.setS; split <;> rfl
@[simp] theorem Train.setS_lastPortion (t : Train) (n : Nat) (v : W64) : (t.setS n v).lastPortion = t.lastPortion := by unfold Train.setS; split <;> rfl

@[simp] theorem Train.setK_task (t : Train) (n : Nat) (v : W32) : (t.setK n v).task = t.task := rfl
@[simp] theorem Train.setK_index (t : Train) (n : Nat) (v : W32) : (t.setK n v).index = t.index := rfl
@[simp] theorem Train.setK_budget (t : Train) (n : Nat) (v : W32) : (t.setK n v).budget = t.budget := rfl
@[simp] theorem Train.setK_s (t : Train) (n : Nat) (v : W32) : (t.setK n v).s = t.s := rfl
@[simp] theorem Train.setK_b (t : Train) (n : Nat) (v : W32) : (t.setK n v).b = t.b := rfl
@[simp] theorem Train.setK_v (t : Train) (n : Nat) (v : W32) : (t.setK n v).v = t.v := rfl
@[simp] theorem Train.setK_deadm (t : Train) (n : Nat) (v : W32) : (t.setK n v).deadm = t.deadm := rfl
@[simp] theorem Train.setK_xflags (t : Train) (n : Nat) (v : W32) : (t.setK n v).xflags = t.xflags := rfl
@[simp] theorem Train.setK_lineage (t : Train) (n : Nat) (v : W32) : (t.setK n v).lineage = t.lineage := rfl
@[simp] theorem Train.setK_lcb (t : Train) (n : Nat) (v : W32) : (t.setK n v).lcb = t.lcb := rfl
@[simp] theorem Train.setK_portions (t : Train) (n : Nat) (v : W32) : (t.setK n v).portions = t.portions := rfl
@[simp] theorem Train.setK_entries (t : Train) (n : Nat) (v : W32) : (t.setK n v).entries = t.entries := rfl
@[simp] theorem Train.setK_nextEntry (t : Train) (n : Nat) (v : W32) : (t.setK n v).nextEntry = t.nextEntry := rfl
@[simp] theorem Train.setK_pend (t : Train) (n : Nat) (v : W32) : (t.setK n v).pend = t.pend := rfl
@[simp] theorem Train.setK_nextPend (t : Train) (n : Nat) (v : W32) : (t.setK n v).nextPend = t.nextPend := rfl
@[simp] theorem Train.setK_wqry (t : Train) (n : Nat) (v : W32) : (t.setK n v).wqry = t.wqry := rfl
@[simp] theorem Train.setK_fltinfo (t : Train) (n : Nat) (v : W32) : (t.setK n v).fltinfo = t.fltinfo := rfl
@[simp] theorem Train.setK_fltmask (t : Train) (n : Nat) (v : W32) : (t.setK n v).fltmask = t.fltmask := rfl
@[simp] theorem Train.setK_flash (t : Train) (n : Nat) (v : W32) : (t.setK n v).flash = t.flash := rfl
@[simp] theorem Train.setK_boundary (t : Train) (n : Nat) (v : W32) : (t.setK n v).boundary = t.boundary := rfl
@[simp] theorem Train.setK_handler (t : Train) (n : Nat) (v : W32) : (t.setK n v).handler = t.handler := rfl
@[simp] theorem Train.setK_fault (t : Train) (n : Nat) (v : W32) : (t.setK n v).fault = t.fault := rfl
@[simp] theorem Train.setK_call (t : Train) (n : Nat) (v : W32) : (t.setK n v).call = t.call := rfl
@[simp] theorem Train.setK_arrivals (t : Train) (n : Nat) (v : W32) : (t.setK n v).arrivals = t.arrivals := rfl
@[simp] theorem Train.setK_logErrs (t : Train) (n : Nat) (v : W32) : (t.setK n v).logErrs = t.logErrs := rfl
@[simp] theorem Train.setK_startAcq (t : Train) (n : Nat) (v : W32) : (t.setK n v).startAcq = t.startAcq := rfl
@[simp] theorem Train.setK_startAcqAll (t : Train) (n : Nat) (v : W32) : (t.setK n v).startAcqAll = t.startAcqAll := rfl
@[simp] theorem Train.setK_member (t : Train) (n : Nat) (v : W32) : (t.setK n v).member = t.member := rfl
@[simp] theorem Train.setK_draining (t : Train) (n : Nat) (v : W32) : (t.setK n v).draining = t.draining := rfl
@[simp] theorem Train.setK_rewound (t : Train) (n : Nat) (v : W32) : (t.setK n v).rewound = t.rewound := rfl
@[simp] theorem Train.setK_readySince (t : Train) (n : Nat) (v : W32) : (t.setK n v).readySince = t.readySince := rfl
@[simp] theorem Train.setK_bounds (t : Train) (n : Nat) (v : W32) : (t.setK n v).bounds = t.bounds := rfl
@[simp] theorem Train.setK_stuck (t : Train) (n : Nat) (v : W32) : (t.setK n v).stuck = t.stuck := rfl
@[simp] theorem Train.setK_lastPortion (t : Train) (n : Nat) (v : W32) : (t.setK n v).lastPortion = t.lastPortion := rfl

@[simp] theorem Train.setB_task (t : Train) (n : Nat) (v : BitVec 256) : (t.setB n v).task = t.task := rfl
@[simp] theorem Train.setB_index (t : Train) (n : Nat) (v : BitVec 256) : (t.setB n v).index = t.index := rfl
@[simp] theorem Train.setB_budget (t : Train) (n : Nat) (v : BitVec 256) : (t.setB n v).budget = t.budget := rfl
@[simp] theorem Train.setB_s (t : Train) (n : Nat) (v : BitVec 256) : (t.setB n v).s = t.s := rfl
@[simp] theorem Train.setB_k (t : Train) (n : Nat) (v : BitVec 256) : (t.setB n v).k = t.k := rfl
@[simp] theorem Train.setB_v (t : Train) (n : Nat) (v : BitVec 256) : (t.setB n v).v = t.v := rfl
@[simp] theorem Train.setB_deadm (t : Train) (n : Nat) (v : BitVec 256) : (t.setB n v).deadm = t.deadm := rfl
@[simp] theorem Train.setB_xflags (t : Train) (n : Nat) (v : BitVec 256) : (t.setB n v).xflags = t.xflags := rfl
@[simp] theorem Train.setB_lineage (t : Train) (n : Nat) (v : BitVec 256) : (t.setB n v).lineage = t.lineage := rfl
@[simp] theorem Train.setB_lcb (t : Train) (n : Nat) (v : BitVec 256) : (t.setB n v).lcb = t.lcb := rfl
@[simp] theorem Train.setB_portions (t : Train) (n : Nat) (v : BitVec 256) : (t.setB n v).portions = t.portions := rfl
@[simp] theorem Train.setB_entries (t : Train) (n : Nat) (v : BitVec 256) : (t.setB n v).entries = t.entries := rfl
@[simp] theorem Train.setB_nextEntry (t : Train) (n : Nat) (v : BitVec 256) : (t.setB n v).nextEntry = t.nextEntry := rfl
@[simp] theorem Train.setB_pend (t : Train) (n : Nat) (v : BitVec 256) : (t.setB n v).pend = t.pend := rfl
@[simp] theorem Train.setB_nextPend (t : Train) (n : Nat) (v : BitVec 256) : (t.setB n v).nextPend = t.nextPend := rfl
@[simp] theorem Train.setB_wqry (t : Train) (n : Nat) (v : BitVec 256) : (t.setB n v).wqry = t.wqry := rfl
@[simp] theorem Train.setB_fltinfo (t : Train) (n : Nat) (v : BitVec 256) : (t.setB n v).fltinfo = t.fltinfo := rfl
@[simp] theorem Train.setB_fltmask (t : Train) (n : Nat) (v : BitVec 256) : (t.setB n v).fltmask = t.fltmask := rfl
@[simp] theorem Train.setB_flash (t : Train) (n : Nat) (v : BitVec 256) : (t.setB n v).flash = t.flash := rfl
@[simp] theorem Train.setB_boundary (t : Train) (n : Nat) (v : BitVec 256) : (t.setB n v).boundary = t.boundary := rfl
@[simp] theorem Train.setB_handler (t : Train) (n : Nat) (v : BitVec 256) : (t.setB n v).handler = t.handler := rfl
@[simp] theorem Train.setB_fault (t : Train) (n : Nat) (v : BitVec 256) : (t.setB n v).fault = t.fault := rfl
@[simp] theorem Train.setB_call (t : Train) (n : Nat) (v : BitVec 256) : (t.setB n v).call = t.call := rfl
@[simp] theorem Train.setB_arrivals (t : Train) (n : Nat) (v : BitVec 256) : (t.setB n v).arrivals = t.arrivals := rfl
@[simp] theorem Train.setB_logErrs (t : Train) (n : Nat) (v : BitVec 256) : (t.setB n v).logErrs = t.logErrs := rfl
@[simp] theorem Train.setB_startAcq (t : Train) (n : Nat) (v : BitVec 256) : (t.setB n v).startAcq = t.startAcq := rfl
@[simp] theorem Train.setB_startAcqAll (t : Train) (n : Nat) (v : BitVec 256) : (t.setB n v).startAcqAll = t.startAcqAll := rfl
@[simp] theorem Train.setB_member (t : Train) (n : Nat) (v : BitVec 256) : (t.setB n v).member = t.member := rfl
@[simp] theorem Train.setB_draining (t : Train) (n : Nat) (v : BitVec 256) : (t.setB n v).draining = t.draining := rfl
@[simp] theorem Train.setB_rewound (t : Train) (n : Nat) (v : BitVec 256) : (t.setB n v).rewound = t.rewound := rfl
@[simp] theorem Train.setB_readySince (t : Train) (n : Nat) (v : BitVec 256) : (t.setB n v).readySince = t.readySince := rfl
@[simp] theorem Train.setB_bounds (t : Train) (n : Nat) (v : BitVec 256) : (t.setB n v).bounds = t.bounds := rfl
@[simp] theorem Train.setB_stuck (t : Train) (n : Nat) (v : BitVec 256) : (t.setB n v).stuck = t.stuck := rfl
@[simp] theorem Train.setB_lastPortion (t : Train) (n : Nat) (v : BitVec 256) : (t.setB n v).lastPortion = t.lastPortion := rfl

@[simp] theorem Train.setV_task (t : Train) (r l : Nat) (v : W32) : (t.setV r l v).task = t.task := rfl
@[simp] theorem Train.setV_index (t : Train) (r l : Nat) (v : W32) : (t.setV r l v).index = t.index := rfl
@[simp] theorem Train.setV_budget (t : Train) (r l : Nat) (v : W32) : (t.setV r l v).budget = t.budget := rfl
@[simp] theorem Train.setV_s (t : Train) (r l : Nat) (v : W32) : (t.setV r l v).s = t.s := rfl
@[simp] theorem Train.setV_b (t : Train) (r l : Nat) (v : W32) : (t.setV r l v).b = t.b := rfl
@[simp] theorem Train.setV_k (t : Train) (r l : Nat) (v : W32) : (t.setV r l v).k = t.k := rfl
@[simp] theorem Train.setV_deadm (t : Train) (r l : Nat) (v : W32) : (t.setV r l v).deadm = t.deadm := rfl
@[simp] theorem Train.setV_xflags (t : Train) (r l : Nat) (v : W32) : (t.setV r l v).xflags = t.xflags := rfl
@[simp] theorem Train.setV_lineage (t : Train) (r l : Nat) (v : W32) : (t.setV r l v).lineage = t.lineage := rfl
@[simp] theorem Train.setV_lcb (t : Train) (r l : Nat) (v : W32) : (t.setV r l v).lcb = t.lcb := rfl
@[simp] theorem Train.setV_portions (t : Train) (r l : Nat) (v : W32) : (t.setV r l v).portions = t.portions := rfl
@[simp] theorem Train.setV_entries (t : Train) (r l : Nat) (v : W32) : (t.setV r l v).entries = t.entries := rfl
@[simp] theorem Train.setV_nextEntry (t : Train) (r l : Nat) (v : W32) : (t.setV r l v).nextEntry = t.nextEntry := rfl
@[simp] theorem Train.setV_pend (t : Train) (r l : Nat) (v : W32) : (t.setV r l v).pend = t.pend := rfl
@[simp] theorem Train.setV_nextPend (t : Train) (r l : Nat) (v : W32) : (t.setV r l v).nextPend = t.nextPend := rfl
@[simp] theorem Train.setV_wqry (t : Train) (r l : Nat) (v : W32) : (t.setV r l v).wqry = t.wqry := rfl
@[simp] theorem Train.setV_fltinfo (t : Train) (r l : Nat) (v : W32) : (t.setV r l v).fltinfo = t.fltinfo := rfl
@[simp] theorem Train.setV_fltmask (t : Train) (r l : Nat) (v : W32) : (t.setV r l v).fltmask = t.fltmask := rfl
@[simp] theorem Train.setV_flash (t : Train) (r l : Nat) (v : W32) : (t.setV r l v).flash = t.flash := rfl
@[simp] theorem Train.setV_boundary (t : Train) (r l : Nat) (v : W32) : (t.setV r l v).boundary = t.boundary := rfl
@[simp] theorem Train.setV_handler (t : Train) (r l : Nat) (v : W32) : (t.setV r l v).handler = t.handler := rfl
@[simp] theorem Train.setV_fault (t : Train) (r l : Nat) (v : W32) : (t.setV r l v).fault = t.fault := rfl
@[simp] theorem Train.setV_call (t : Train) (r l : Nat) (v : W32) : (t.setV r l v).call = t.call := rfl
@[simp] theorem Train.setV_arrivals (t : Train) (r l : Nat) (v : W32) : (t.setV r l v).arrivals = t.arrivals := rfl
@[simp] theorem Train.setV_logErrs (t : Train) (r l : Nat) (v : W32) : (t.setV r l v).logErrs = t.logErrs := rfl
@[simp] theorem Train.setV_startAcq (t : Train) (r l : Nat) (v : W32) : (t.setV r l v).startAcq = t.startAcq := rfl
@[simp] theorem Train.setV_startAcqAll (t : Train) (r l : Nat) (v : W32) : (t.setV r l v).startAcqAll = t.startAcqAll := rfl
@[simp] theorem Train.setV_member (t : Train) (r l : Nat) (v : W32) : (t.setV r l v).member = t.member := rfl
@[simp] theorem Train.setV_draining (t : Train) (r l : Nat) (v : W32) : (t.setV r l v).draining = t.draining := rfl
@[simp] theorem Train.setV_rewound (t : Train) (r l : Nat) (v : W32) : (t.setV r l v).rewound = t.rewound := rfl
@[simp] theorem Train.setV_readySince (t : Train) (r l : Nat) (v : W32) : (t.setV r l v).readySince = t.readySince := rfl
@[simp] theorem Train.setV_bounds (t : Train) (r l : Nat) (v : W32) : (t.setV r l v).bounds = t.bounds := rfl
@[simp] theorem Train.setV_stuck (t : Train) (r l : Nat) (v : W32) : (t.setV r l v).stuck = t.stuck := rfl
@[simp] theorem Train.setV_lastPortion (t : Train) (r l : Nat) (v : W32) : (t.setV r l v).lastPortion = t.lastPortion := rfl

@[simp] theorem Train.setPortion_task (t : Train) (p : Nat) (o : Portion) : (t.setPortion p o).task = t.task := rfl
@[simp] theorem Train.setPortion_index (t : Train) (p : Nat) (o : Portion) : (t.setPortion p o).index = t.index := rfl
@[simp] theorem Train.setPortion_budget (t : Train) (p : Nat) (o : Portion) : (t.setPortion p o).budget = t.budget := rfl
@[simp] theorem Train.setPortion_s (t : Train) (p : Nat) (o : Portion) : (t.setPortion p o).s = t.s := rfl
@[simp] theorem Train.setPortion_b (t : Train) (p : Nat) (o : Portion) : (t.setPortion p o).b = t.b := rfl
@[simp] theorem Train.setPortion_k (t : Train) (p : Nat) (o : Portion) : (t.setPortion p o).k = t.k := rfl
@[simp] theorem Train.setPortion_v (t : Train) (p : Nat) (o : Portion) : (t.setPortion p o).v = t.v := rfl
@[simp] theorem Train.setPortion_deadm (t : Train) (p : Nat) (o : Portion) : (t.setPortion p o).deadm = t.deadm := rfl
@[simp] theorem Train.setPortion_xflags (t : Train) (p : Nat) (o : Portion) : (t.setPortion p o).xflags = t.xflags := rfl
@[simp] theorem Train.setPortion_lineage (t : Train) (p : Nat) (o : Portion) : (t.setPortion p o).lineage = t.lineage := rfl
@[simp] theorem Train.setPortion_lcb (t : Train) (p : Nat) (o : Portion) : (t.setPortion p o).lcb = t.lcb := rfl
@[simp] theorem Train.setPortion_entries (t : Train) (p : Nat) (o : Portion) : (t.setPortion p o).entries = t.entries := rfl
@[simp] theorem Train.setPortion_nextEntry (t : Train) (p : Nat) (o : Portion) : (t.setPortion p o).nextEntry = t.nextEntry := rfl
@[simp] theorem Train.setPortion_pend (t : Train) (p : Nat) (o : Portion) : (t.setPortion p o).pend = t.pend := rfl
@[simp] theorem Train.setPortion_nextPend (t : Train) (p : Nat) (o : Portion) : (t.setPortion p o).nextPend = t.nextPend := rfl
@[simp] theorem Train.setPortion_wqry (t : Train) (p : Nat) (o : Portion) : (t.setPortion p o).wqry = t.wqry := rfl
@[simp] theorem Train.setPortion_fltinfo (t : Train) (p : Nat) (o : Portion) : (t.setPortion p o).fltinfo = t.fltinfo := rfl
@[simp] theorem Train.setPortion_fltmask (t : Train) (p : Nat) (o : Portion) : (t.setPortion p o).fltmask = t.fltmask := rfl
@[simp] theorem Train.setPortion_flash (t : Train) (p : Nat) (o : Portion) : (t.setPortion p o).flash = t.flash := rfl
@[simp] theorem Train.setPortion_boundary (t : Train) (p : Nat) (o : Portion) : (t.setPortion p o).boundary = t.boundary := rfl
@[simp] theorem Train.setPortion_handler (t : Train) (p : Nat) (o : Portion) : (t.setPortion p o).handler = t.handler := rfl
@[simp] theorem Train.setPortion_fault (t : Train) (p : Nat) (o : Portion) : (t.setPortion p o).fault = t.fault := rfl
@[simp] theorem Train.setPortion_call (t : Train) (p : Nat) (o : Portion) : (t.setPortion p o).call = t.call := rfl
@[simp] theorem Train.setPortion_arrivals (t : Train) (p : Nat) (o : Portion) : (t.setPortion p o).arrivals = t.arrivals := rfl
@[simp] theorem Train.setPortion_logErrs (t : Train) (p : Nat) (o : Portion) : (t.setPortion p o).logErrs = t.logErrs := rfl
@[simp] theorem Train.setPortion_startAcq (t : Train) (p : Nat) (o : Portion) : (t.setPortion p o).startAcq = t.startAcq := rfl
@[simp] theorem Train.setPortion_startAcqAll (t : Train) (p : Nat) (o : Portion) : (t.setPortion p o).startAcqAll = t.startAcqAll := rfl
@[simp] theorem Train.setPortion_member (t : Train) (p : Nat) (o : Portion) : (t.setPortion p o).member = t.member := rfl
@[simp] theorem Train.setPortion_draining (t : Train) (p : Nat) (o : Portion) : (t.setPortion p o).draining = t.draining := rfl
@[simp] theorem Train.setPortion_rewound (t : Train) (p : Nat) (o : Portion) : (t.setPortion p o).rewound = t.rewound := rfl
@[simp] theorem Train.setPortion_readySince (t : Train) (p : Nat) (o : Portion) : (t.setPortion p o).readySince = t.readySince := rfl
@[simp] theorem Train.setPortion_bounds (t : Train) (p : Nat) (o : Portion) : (t.setPortion p o).bounds = t.bounds := rfl
@[simp] theorem Train.setPortion_stuck (t : Train) (p : Nat) (o : Portion) : (t.setPortion p o).stuck = t.stuck := rfl
@[simp] theorem Train.setPortion_lastPortion (t : Train) (p : Nat) (o : Portion) : (t.setPortion p o).lastPortion = t.lastPortion := rfl

/-! ### Reading back -/

@[simp] theorem State.core_setCore (s : State) (c : Nat) (k : Core) : (s.setCore c k).core c = k := by simp [State.core, State.setCore]
theorem State.core_setCore_other (s : State) (c c' : Nat) (k : Core) (h : c' ≠ c) : (s.setCore c k).core c' = s.core c' := by
  simp [State.core, State.setCore, Table.find_put_other _ _ _ _ h]
@[simp] theorem State.log_setLog (s : State) (l : Nat) (k : Log) : (s.setLog l k).log l = k := by simp [State.log, State.setLog]
theorem State.log_setLog_other (s : State) (l l' : Nat) (k : Log) (h : l' ≠ l) : (s.setLog l k).log l' = s.log l' := by
  simp [State.log, State.setLog, Table.find_put_other _ _ _ _ h]
@[simp] theorem State.task_setTask (s : State) (t : Nat) (k : Task) : (s.setTask t k).task t = some k := by simp [State.task, State.setTask]
theorem State.task_setTask_other (s : State) (t t' : Nat) (k : Task) (h : t' ≠ t) : (s.setTask t k).task t' = s.task t' := by
  simp [State.task, State.setTask, Table.find_put_other _ _ _ _ h]
@[simp] theorem State.task_modTask (s : State) (t : Nat) (f : Task → Task) : (s.modTask t f).task t = (s.task t).map f := by simp [State.task, State.modTask]
theorem State.task_modTask_other (s : State) (t t' : Nat) (f : Task → Task) (h : t' ≠ t) : (s.modTask t f).task t' = s.task t' := by
  simp [State.task, State.modTask, Table.find_modify_other _ _ _ _ h]
@[simp] theorem State.train_setTrain (s : State) (c j : Nat) (t : Train) : (s.setTrain c j t).train c j = some t := by simp [State.train, State.setTrain]
@[simp] theorem State.train_modTrain (s : State) (c j : Nat) (f : Train → Train) : (s.modTrain c j f).train c j = (s.train c j).map f := by simp [State.train, State.modTrain]

/-- S0 reads zero whatever is written (R12, R306). -/
@[simp] theorem Train.getS_zero (t : Train) : t.getS 0 = 0 := rfl
/-- A write of S0 changes nothing (R306). -/
@[simp] theorem Train.setS_zero (t : Train) (v : W64) : t.setS 0 v = t := rfl
/-- A scalar register reads what was written, in a register file of canonical form. -/
theorem Train.getS_setS (t : Train) (n : Nat) (v : W64) (hn : n ≠ 0) (h : Table.sorted t.s = true) : (t.setS n v).getS n = v := by
  simp [Train.getS, Train.setS, hn, Sparse.get_set_same _ _ _ _ h]
theorem Train.getS_setS_other (t : Train) (n m : Nat) (v : W64) (h : m ≠ n) : (t.setS n v).getS m = t.getS m := by
  by_cases hn : n = 0
  · subst hn; simp
  · by_cases hm : m = 0
    · subst hm; simp
    · simp [Train.getS, Train.setS, hn, hm, Sparse.get_set_other _ _ _ _ _ h]
theorem Train.getK_setK (t : Train) (n : Nat) (v : W32) (h : Table.sorted t.k = true) : (t.setK n v).getK n = v := by
  simp [Train.getK, Train.setK, Sparse.get_set_same _ _ _ _ h]
theorem Train.getK_setK_other (t : Train) (n m : Nat) (v : W32) (h : m ≠ n) : (t.setK n v).getK m = t.getK m := by
  simp [Train.getK, Train.setK, Sparse.get_set_other _ _ _ _ _ h]
theorem Train.getB_setB (t : Train) (n : Nat) (v : BitVec 256) (h : Table.sorted t.b = true) : (t.setB n v).getB n = v := by
  simp [Train.getB, Train.setB, Sparse.get_set_same _ _ _ _ h]
theorem Train.getV_setV (t : Train) (r l : Nat) (v : W32) (h : Table.sorted t.v = true) : (t.setV r l v).getV r l = v := by
  simp [Train.getV, Train.setV, Sparse.get_set_same _ _ _ _ h]
theorem Train.getV_setV_other (t : Train) (r l r' l' : Nat) (v : W32) (h : 32 * r' + l' ≠ 32 * r + l) : (t.setV r l v).getV r' l' = t.getV r' l' := by
  simp [Train.getV, Train.setV, Sparse.get_set_other _ _ _ _ _ h]

end Sys2Proof.Machine
end

