-- ==== Sys2Proof/Laws/Issue.lean ====
section
/-! SUPPORT. What the shared operations of issue can do: a scalar instruction, a lane instruction, and what an issue leaves. -/

set_option Elab.async false

namespace Sys2Proof.Machine

/-! ### The focus -/

/-- The focus with its train and portion. -/
theorem State.cur_eq {s : State} {c : Cur} (h : s.cur = some c) :
    s.focus = { core := c.core, slot := c.slot, portion := c.p } ∧ Table.find s.trains (trainKey c.core c.slot) = some c.t ∧ Table.find c.t.portions c.p = some c.o := by
  unfold State.cur at h
  split at h
  · simp at h
  · rename_i t ht
    split at h
    · simp at h
    · rename_i o ho
      cases h
      exact ⟨rfl, ht, ho⟩

/-! ### Messages of an agent -/

/-- Sending a message of an agent changes the list of messages and the counter of identifiers, and nothing else. -/
theorem State.sendTo_frame (s : State) (o a : Nat) : ∃ n l, s.sendTo o a = { s with nextId := n, far := l } := by
  unfold State.sendTo
  split
  · exact ⟨_, _, rfl⟩
  · exact ⟨s.nextId, s.far, rfl⟩

@[simp] theorem State.dropTrips_time (s : State) (o : Nat) : (s.dropTrips o).time = s.time := rfl
@[simp] theorem State.dropTrips_mem (s : State) (o : Nat) : (s.dropTrips o).mem = s.mem := rfl
@[simp] theorem State.dropTrips_trains (s : State) (o : Nat) : (s.dropTrips o).trains = s.trains := rfl
@[simp] theorem State.dropTrips_tasks (s : State) (o : Nat) : (s.dropTrips o).tasks = s.tasks := rfl
@[simp] theorem State.dropTrips_cores (s : State) (o : Nat) : (s.dropTrips o).cores = s.cores := rfl
@[simp] theorem State.dropTrips_logs (s : State) (o : Nat) : (s.dropTrips o).logs = s.logs := rfl
@[simp] theorem State.dropTrips_bar (s : State) (o : Nat) : (s.dropTrips o).bar = s.bar := rfl
@[simp] theorem State.dropTrips_focus (s : State) (o : Nat) : (s.dropTrips o).focus = s.focus := rfl
@[simp] theorem State.dropTrips_homeOps (s : State) (o : Nat) : (s.dropTrips o).homeOps = s.homeOps := rfl

/-! ### What an issue leaves -/

/-- A change of the train after an issue. -/
theorem State.leaves_modCur (s : State) (c : Cur) (q : SReq) (f h : Train → Train) (g : Portion → Portion) (hc : s.cur = some c) :
    (s.leaves c q f g).modCur h = s.leaves c q (fun t => h (f t)) g := by
  obtain ⟨hf, -, -⟩ := State.cur_eq hc
  simp only [State.leaves, State.modCur, State.modTrain, hf, Table.modify_put]

/-- A change of the portion after an issue, when the train's change `f` leaves the portions alone. -/
theorem State.leaves_modPortion (s : State) (c : Cur) (q : SReq) (f : Train → Train) (g h : Portion → Portion) (hc : s.cur = some c)
    (hp : (fun t : Train => ({ t with portions := Table.modify t.portions c.p h } : Train)) (f (c.after q g)) = f (c.after q (fun o => h (g o)))) :
    (s.leaves c q f g).modPortion h = s.leaves c q f (fun o => h (g o)) := by
  obtain ⟨hf, -, -⟩ := State.cur_eq hc
  have hfp : (s.leaves c q f g).focus.portion = c.p := by simp [State.leaves, hf]
  unfold State.modPortion
  rw [hfp, State.leaves_modCur s c q f _ g hc]
  dsimp only at hp
  simp only [State.leaves, hp]

/-- The portion moves on. -/
theorem Cur.after_modify (c : Cur) (q : SReq) (g h : Portion → Portion) :
    ({ c.after q g with portions := Table.modify (c.after q g).portions c.p h } : Train) = c.after q (fun o => h (g o)) := by
  simp only [Cur.after, Table.modify_put]

@[simp] theorem keep_eq {α : Type} (x : α) : keep x = x := rfl

/-- A change of the portion after an issue. -/
theorem State.leaves_keep_modPortion (s : State) (c : Cur) (q : SReq) (g h : Portion → Portion) (hc : s.cur = some c) :
    (s.leaves c q keep g).modPortion h = s.leaves c q keep (fun o => h (g o)) :=
  State.leaves_modPortion s c q keep g h hc (Cur.after_modify c q g h)

/-- A change of the portion after a scalar register has been written. -/
theorem State.leaves_setS_modPortion (s : State) (c : Cur) (q : SReq) (n : Nat) (v : W64) (g h : Portion → Portion) (hc : s.cur = some c) :
    (s.leaves c q (fun t => t.setS n v) g).modPortion h = s.leaves c q (fun t => t.setS n v) (fun o => h (g o)) := by
  refine State.leaves_modPortion s c q _ g h hc ?_
  unfold Train.setS
  split
  · exact Cur.after_modify c q g h
  · simp only [Cur.after, Table.modify_put]

/-- The charge and the fold of an issue. -/
theorem State.pay_eq (s : State) (c : Cur) (q : SReq) (hc : s.cur = some c) :
    s.pay c q = { s with
      tasks := s.paid c q
      trains := Table.put s.trains (trainKey c.core c.slot)
        { c.t with portions := Table.put c.t.portions c.p { (if c.freeIssue q || !q.folds then c.o else c.o.foldScalar q.op) with again := .no } } } := by
  obtain ⟨hf, ht, hp⟩ := State.cur_eq hc
  have hm : ∀ (f : Portion → Portion), Table.modify c.t.portions c.p f = Table.put c.t.portions c.p (f c.o) := fun f => Table.modify_eq _ _ _ f hp
  have hfold : ∀ b, (c.o.foldScalar b).again = c.o.again := by
    intro b; unfold Portion.foldScalar; split <;> rfl
  by_cases hfree : (c.t.handler.isSome || q.free || decide (c.o.again = .free)) = true
  · simp only [State.pay, hfree, if_true, State.modPortion, State.modCur, State.modTrain, hf, Table.modify_eq _ _ _ _ ht, hm, State.paid, Cur.freeIssue, Bool.true_or]
  · have hag : c.o.again = .no := by
      have : c.o.again ≠ .free := by
        intro h; simp [h] at hfree
      cases h : c.o.again
      · rfl
      · exact absurd h this
    have hself : ∀ o : Portion, o.again = .no → ({ o with again := .no } : Portion) = o := by
      intro o ho; cases o; simp only at ho; subst ho; rfl
    simp only [State.pay, Cur.freeIssue, hfree, State.charge, State.modTask, State.modPortion, State.modCur, State.modTrain, hf, Table.modify_eq _ _ _ _ ht, hm,
      State.paid, Bool.false_or]
    cases q.folds
    · simp only [Bool.not_false, if_true, Bool.false_eq_true, if_false, hself c.o hag]
    · simp only [if_true, Bool.not_true, Bool.false_eq_true, if_false, hself _ ((hfold q.op).trans hag)]

/-- An issued scalar instruction before its effect. -/
theorem State.issued_eq (s : State) (c : Cur) (q : SReq) (hc : s.cur = some c) : s.issued c q = s.leaves c q keep keep := by
  obtain ⟨hf, ht, hp⟩ := State.cur_eq hc
  unfold State.issued
  rw [State.pay_eq s c q hc]
  cases hb : q.boundary <;> cases ho : q.orders
  all_goals
    simp only [State.modPortion, State.modCur, State.modTrain, State.dropTrips, State.farAfter, hf, Table.modify_put, State.leaves, keep, Cur.after, Cur.pended,
      Train.markBefore, Cur.moved, hb, ho, Bool.or_false, Bool.or_true, Bool.false_eq_true, if_false, if_true]

/-- A scalar instruction that is ready and meets no fault of its own has its effect. -/
theorem State.scalarGo_ready (s : State) (c : Cur) (q : Cur → SReq) (ill : Cur → Bool) (pre : Cur → Option (Nat × Nat)) (eff : Cur → State → State)
    (h : s.ready c (q c)) (hi : ill c = false) (hp : pre c = none) : s.scalarGo q ill pre eff = .next (eff c (s.leaves c (q c) keep keep)) := by
  obtain ⟨hc, hm, hw, hs, hb, hn⟩ := h
  unfold State.scalarGo
  rw [hc]
  simp [hm, hw, hs, hb, hi, hn, hp, State.issued_eq s c (q c) hc]

/-- One that is ready but ill-formed faults ILLOP. -/
theorem State.scalarGo_ill (s : State) (c : Cur) (q : Cur → SReq) (ill : Cur → Bool) (pre : Cur → Option (Nat × Nat)) (eff : Cur → State → State)
    (h : s.ready c (q c)) (hi : ill c = true) : s.scalarGo q ill pre eff = .next (s.scalarFault c fILLOP 0 false) := by
  obtain ⟨hc, hm, hw, hs, hb, hn⟩ := h
  unfold State.scalarGo
  rw [hc]
  simp [hm, hw, hs, hb, hi]

/-- One that is ready and finds a precise fault takes it. -/
theorem State.scalarGo_fault (s : State) (c : Cur) (q : Cur → SReq) (ill : Cur → Bool) (pre : Cur → Option (Nat × Nat)) (eff : Cur → State → State) (f : Nat × Nat)
    (h : s.ready c (q c)) (hi : ill c = false) (hp : pre c = some f) : s.scalarGo q ill pre eff = .next (s.scalarFault c f.1 f.2 false) := by
  obtain ⟨hc, hm, hw, hs, hb, hn⟩ := h
  unfold State.scalarGo
  rw [hc]
  simp [hm, hw, hs, hb, hi, hn, hp]

/-- While a portion is in focus, a scalar instruction never stops the machine. -/
theorem State.scalarGo_next (s : State) (c : Cur) (q : Cur → SReq) (ill : Cur → Bool) (pre : Cur → Option (Nat × Nat)) (eff : Cur → State → State)
    (hc : s.cur = some c) : ∃ t, s.scalarGo q ill pre eff = .next t := by
  unfold State.scalarGo
  rw [hc]
  dsimp only
  repeat' split
  all_goals exact ⟨_, rfl⟩

/-! ### Lane instructions -/

/-- A change of the train after a lane issue. -/
theorem State.leavesLane_modCur (s : State) (x : LCtx) (q : LReq) (f h : Train → Train) (hc : s.cur = some x.c) :
    (s.leavesLane x q f).modCur h = s.leavesLane x q (fun t => h (f t)) := by
  obtain ⟨hf, -, -⟩ := State.cur_eq hc
  simp only [State.leavesLane, State.modCur, State.modTrain, hf, Table.modify_put]

/-- An issued lane instruction before its effect. -/
theorem State.issuedLane_eq (s : State) (x : LCtx) (q : LReq) (hc : s.cur = some x.c) : s.issuedLane x q = s.leavesLane x q keep := by
  obtain ⟨hf, ht, hp⟩ := State.cur_eq hc
  have hm : ∀ (f : Portion → Portion), Table.modify x.c.t.portions x.c.p f = Table.put x.c.t.portions x.c.p (f x.c.o) := fun f => Table.modify_eq _ _ _ f hp
  unfold State.issuedLane State.payLane
  cases hh : x.c.t.handler.isSome
  · cases hr : x.cl.recipe <;> cases hb : q.boundary
    all_goals
      simp only [State.charge, State.modTask, State.dropTrips, State.farAfter, State.modPortion, State.modCur, State.modTrain, hf, Table.modify_eq _ _ _ _ ht, hm, Table.modify_put, State.leavesLane,
        keep, LCtx.after, LCtx.moved, State.paidLane, hh, hr, hb, Bool.or_false, Bool.or_true, Bool.false_eq_true, if_false, if_true]
  · cases hb : q.boundary
    all_goals
      simp only [State.dropTrips, State.farAfter, State.modPortion, State.modCur, State.modTrain, hf, Table.modify_eq _ _ _ _ ht, hm, Table.modify_put, State.leavesLane, keep, LCtx.after,
        LCtx.moved, State.paidLane, hh, hb, Bool.or_false, Bool.or_true, Bool.true_or, Bool.false_eq_true, if_false, if_true]

/-- A lane instruction that is ready and meets no fault of its own has its effect. -/
theorem State.laneTry_ready (s : State) (x : LCtx) (q : LCtx → LReq) (ill : LCtx → Bool) (pre : LCtx → List LaneFault) (eff : LCtx → State → State)
    (h : s.readyLane x (q x)) (hi : ill x = false) (hp : pre x = []) : s.laneTry q ill pre eff = .next (eff x (s.leavesLane x (q x) keep)) := by
  obtain ⟨hc, hcl, hact, hm, hw, hr, hs, hb, hbud, hn⟩ := h
  obtain ⟨c, cl, act⟩ := x
  simp only at *
  subst hact
  unfold State.laneTry
  rw [hc]
  simp only [hcl]
  simp [hm, hw, hr, hs, hb, hbud, hi, hn, hp, State.issuedLane_eq s { c := c, cl := cl, act := live cl.exm c.t.deadm } _ hc]

/-- One that is ready but ill-formed faults ILLOP. -/
theorem State.laneTry_ill (s : State) (x : LCtx) (q : LCtx → LReq) (ill : LCtx → Bool) (pre : LCtx → List LaneFault) (eff : LCtx → State → State)
    (h : s.readyLane x (q x)) (hi : ill x = true) : s.laneTry q ill pre eff = .next (s.laneFault x fILLOP 0) := by
  obtain ⟨hc, hcl, hact, hm, hw, hr, hs, hb, hbud, hn⟩ := h
  obtain ⟨c, cl, act⟩ := x
  simp only at *
  subst hact
  unfold State.laneTry
  rw [hc]
  simp only [hcl]
  simp [hm, hw, hr, hs, hb, hi]

/-- While a clause is under the cursor, a lane instruction never stops the machine. -/
theorem State.laneTry_next (s : State) (c : Cur) (cl : Clause) (q : LCtx → LReq) (ill : LCtx → Bool) (pre : LCtx → List LaneFault) (eff : LCtx → State → State)
    (hc : s.cur = some c) (hcl : c.clause = some cl) : ∃ t, s.laneTry q ill pre eff = .next t := by
  unfold State.laneTry
  rw [hc]
  simp only [hcl]
  repeat' split
  all_goals exact ⟨_, rfl⟩

/-! ### Matrix commands -/

/-- A change of the running program after another that keeps it running. -/
theorem State.modProg_modProg (s : State) (l : Nat) (f g : MxProg → MxProg) (hf : ∀ m, (f m).active = m.active) :
    (s.modProg l f).modProg l g = s.modProg l (fun m => g (f m)) := by
  have h : ∀ m : MxProg, (if (if m.active = true then f m else m).active = true then g (if m.active = true then f m else m) else (if m.active = true then f m else m)) = if m.active = true then g (f m) else m := by
    intro m
    by_cases ha : m.active = true
    · simp [ha, hf]
    · simp [ha]
  simp [State.modProg, State.setPair, State.pairOf, Function.comp_def, h]

/-- A program's stage taken or its au spent leaves the pairs alone. -/
theorem State.modProg_spendRsv (s : State) (l t n : Nat) (f : MxProg → MxProg) : (s.modProg l f).spendRsv t n = (s.spendRsv t n).modProg l f := rfl

theorem State.modProg_setScratch (s : State) (l c t : Nat) (x : Scratch) (f : MxProg → MxProg) :
    (s.modProg l f).setScratch c t x = (s.setScratch c t x).modProg l f := rfl

/-- What a command waits for does not depend on the programs. -/
theorem State.modProg_mxLost (s : State) (l : Nat) (f : MxProg → MxProg) (x : MxCtx) (q : MxReq) : (s.modProg l f).mxLost x q = s.mxLost x q := rfl
theorem State.modProg_mxStops (s : State) (l : Nat) (f : MxProg → MxProg) (x : MxCtx) (q : MxReq) : (s.modProg l f).mxStops x q = s.mxStops x q := rfl

/-- A command of no ring that is ready has its effect. -/
theorem State.mxGo_ready (s : State) (x : MxCtx) (q : MxCtx → MxReq) (eff : MxCtx → List Byte → State → State) (h : s.mxReady x (q x)) (hr : (q x).ring = none) :
    s.mxGo q eff = .next (eff x [] (s.mxDone x (q x))) := by
  obtain ⟨hm, hh, he, hg, hw, hl, hn, hu⟩ := h
  unfold State.mxGo
  simp only [hm, hh, he, List.isEmpty_nil, hg, hr, hw, hl, hn, State.mxSpend, hu, if_true, Bool.not_true, Bool.false_eq_true, if_false, id]
  have e := State.modProg_modProg (s.spendRsv x.m.task (q x).cost) x.leader (fun m => { m with used := m.used + (q x).cost }) (fun m => { m with pc := m.pc + 1 }) (fun _ => rfl)
  rw [e]
  rfl

/-- Four changes of the running program in a row. -/
theorem State.stage_modProg (s : State) (l : Nat) (f g h k : MxProg → MxProg) (hf : ∀ m, (f m).active = m.active) (hg : ∀ m, (g m).active = m.active) (hh : ∀ m, (h m).active = m.active) :
    (((s.modProg l f).modProg l g).modProg l h).modProg l k = s.modProg l (fun m => k (h (g (f m)))) := by
  rw [State.modProg_modProg s l f g hf, State.modProg_modProg s l _ h (fun m => (hg _).trans (hf m)), State.modProg_modProg s l _ k (fun m => (hh _).trans ((hg _).trans (hf m)))]

/-- A command that is ready and finds its stage full has its effect on the stage's bytes. -/
theorem State.mxGo_stage (s : State) (x : MxCtx) (q : MxCtx → MxReq) (eff : MxCtx → List Byte → State → State) (r i : Nat)
    (h : s.mxReady x (q x)) (hs : s.mxStage x (q x) r i) : s.mxGo q eff = .next (eff x (s.mxData x (q x) r i) (s.mxTook x (q x) r i)) := by
  obtain ⟨hm, hh, he, hg, hw, hl, hn, hu⟩ := h
  obtain ⟨hr, hst, hb⟩ := hs
  unfold MxProg.ring at hst hb
  unfold State.mxGo
  simp only [hm, hh, he, List.isEmpty_nil, hg, hr, hw, State.modProg_mxLost, State.modProg_mxStops, hl, hn, State.mxSpend, hu, if_true, Bool.not_true,
    Bool.false_eq_true, if_false, hst, hb]
  simp only [State.modProg_spendRsv, State.modProg_setScratch]
  exact congrArg (fun u => Host.Outcome.next (eff x (s.mxData x (q x) r i) u)) (State.stage_modProg _ x.leader _ _ _ _ (fun _ => rfl) (fun _ => rfl) (fun _ => rfl))

end Sys2Proof.Machine
end

