-- ==== Sys2Proof/Laws/Memory.lean ====
section
/-! SUPPORT. The laws of stack memory: every operation on it keeps its canonical form, and what a byte reads after a write. -/

set_option Elab.async false

namespace Sys2Proof.Machine

/-- Memory after reset has the canonical form. -/
theorem Memory.wf_reset : Memory.wf State.reset.mem = true := rfl

/-- One byte written keeps the form. -/
theorem Memory.wf_write (m : List Host.Cell) (a : Nat) (b : Byte) (h : Memory.wf m = true) : Memory.wf (Memory.write m a b) = true :=
  Sparse.wf_set _ m a b h

/-- Bytes written keep the form. -/
theorem Memory.wf_writeBytes (bs : List Byte) (m : List Host.Cell) (a : Nat) (h : Memory.wf m = true) : Memory.wf (Memory.writeBytes m a bs) = true := by
  induction bs generalizing m a with
  | nil => exact h
  | cons b bs ih => exact ih _ _ (Memory.wf_write m a b h)

/-- The byte that was written reads back. -/
theorem Memory.read_write_same (m : List Host.Cell) (a : Nat) (b : Byte) (h : Memory.wf m = true) : Memory.read (Memory.write m a b) a = b :=
  Sparse.get_set_same _ m a b (Sparse.sorted_of_wf h)

/-- Every other byte reads as before. -/
theorem Memory.read_write_other (m : List Host.Cell) (a a' : Nat) (b : Byte) (h : a' ≠ a) : Memory.read (Memory.write m a b) a' = Memory.read m a' :=
  Sparse.get_set_other _ m a a' b h

/-- Bytes outside the written ones read as before. -/
theorem Memory.read_writeBytes_other (bs : List Byte) (m : List Host.Cell) (a a' : Nat) (h : a' < a ∨ a + bs.length ≤ a') :
    Memory.read (Memory.writeBytes m a bs) a' = Memory.read m a' := by
  induction bs generalizing m a with
  | nil => rfl
  | cons b bs ih =>
    simp only [List.length_cons] at h
    rw [Memory.writeBytes, ih _ _ (by omega), Memory.read_write_other _ _ _ _ (by omega)]

/-- The bytes that were written read back. -/
theorem Memory.read_writeBytes_same (bs : List Byte) (m : List Host.Cell) (a i : Nat) (h : Memory.wf m = true) (hi : i < bs.length) :
    Memory.read (Memory.writeBytes m a bs) (a + i) = bs[i] := by
  induction bs generalizing m a i with
  | nil => simp at hi
  | cons b bs ih =>
    cases i with
    | zero =>
      rw [Memory.writeBytes, Memory.read_writeBytes_other _ _ _ _ (by omega)]
      exact Memory.read_write_same m a b h
    | succ i =>
      have := ih (Memory.write m a b) (a + 1) i (Memory.wf_write m a b h) (by simpa using hi)
      rw [Memory.writeBytes, show a + (i + 1) = a + 1 + i by omega, this]
      simp

/-! ### Writes that carry a stamp -/

/-- What a fold of one byte can do (R217): nothing, or the byte and its stamp. -/
theorem State.foldByte_cases (s : State) (a : Nat) (b : Byte) (st : Nat × Nat) :
    (s.yields a st = false ∧ s.foldByte a b st = s) ∨
    (s.yields a st = true ∧ s.foldByte a b st = { s with mem := Memory.write s.mem a b, stamps := Sparse.set (0, 0) s.stamps a st }) := by
  unfold State.foldByte
  cases h : s.yields a st <;> simp

theorem State.foldByte_wf (s : State) (a : Nat) (b : Byte) (st : Nat × Nat) (h : Memory.wf s.mem = true) : Memory.wf (s.foldByte a b st).mem = true := by
  rcases s.foldByte_cases a b st with ⟨_, e⟩ | ⟨_, e⟩ <;> rw [e]
  · exact h
  · exact Memory.wf_write _ _ _ h

theorem State.foldBytes_wf (bs : List Byte) (ms : List Bool) (s : State) (a : Nat) (st : Nat × Nat) (h : Memory.wf s.mem = true) :
    Memory.wf (s.foldBytes a bs ms st).mem = true := by
  induction bs generalizing s a ms with
  | nil => simpa [State.foldBytes] using h
  | cons b bs ih =>
    cases ms with
    | nil => simpa [State.foldBytes] using h
    | cons m ms =>
      rw [State.foldBytes]
      refine ih ms _ _ ?_
      split
      · exact State.foldByte_wf _ _ _ _ h
      · exact h

/-- A fold of a record keeps the form. -/
theorem State.foldGranule_wf (s : State) (a : Nat) (data : List Byte) (mask : W32) (pois : Bool) (st : Nat × Nat) (h : Memory.wf s.mem = true) :
    Memory.wf (s.foldGranule a data mask pois st).mem = true := by
  unfold State.foldGranule
  dsimp only
  split
  · simpa using State.foldBytes_wf _ _ _ _ _ h
  · split <;> simpa using State.foldBytes_wf _ _ _ _ _ h

/-- A zeroed frame keeps the form. -/
theorem State.zeroFrame_wf (s : State) (f : Nat) (h : Memory.wf s.mem = true) : Memory.wf (s.zeroFrame f).mem = true :=
  Sparse.wf_filter _ _ _ h

/-- An atomic's write at its home keeps the form. -/
theorem State.atomicWrite_wf (bs : List Byte) (s : State) (log a : Nat) (h : Memory.wf s.mem = true) : Memory.wf (s.atomicWrite log a bs).mem = true := by
  induction bs generalizing s a with
  | nil => exact h
  | cons b bs ih => exact ih _ _ (Memory.wf_write _ _ _ h)

/-- A device write in place keeps the form. -/
theorem State.deviceNow_wf (bs : List Byte) (s : State) (a : Nat) (h : Memory.wf s.mem = true) : Memory.wf (s.deviceNow a bs).mem = true := by
  induction bs generalizing s a with
  | nil => exact h
  | cons b bs ih => exact ih _ _ (Memory.wf_write _ _ _ h)

/-- What every step of a fold keeps, the fold keeps. -/
theorem foldl_keeps {σ β : Type} (P : σ → Prop) (f : σ → β → σ) (xs : List β) (s : σ) (h : P s) (hf : ∀ s x, P s → P (f s x)) : P (xs.foldl f s) := by
  induction xs generalizing s with
  | nil => exact h
  | cons x xs ih => exact ih _ (hf s x h)

/-- So does one of which some lines wait for their home. -/
theorem State.deviceWrite_wf (bs : List Byte) (s : State) (a : Nat) (h : Memory.wf s.mem = true) : Memory.wf (s.deviceWrite a bs).mem = true := by
  refine foldl_keeps (fun s : State => Memory.wf s.mem = true) _ _ _ h (fun s x hs => ?_)
  split
  · exact hs
  · exact State.deviceNow_wf _ _ _ hs

/-- An add of the device keeps the form, done at once or waiting. -/
theorem State.addAt_wf (s : State) (pa v : Nat) (h : Memory.wf s.mem = true) : Memory.wf (s.addAt pa v).mem = true := by
  unfold State.addAt
  split
  · exact h
  · exact State.deviceNow_wf _ _ _ h

/-- The device's waiting writes keep the form when they land. -/
theorem State.flushPosts_wf (s : State) (h : Memory.wf s.mem = true) : Memory.wf s.flushPosts.mem = true := by
  refine foldl_keeps (fun s : State => Memory.wf s.mem = true) _ _ _ h (fun s x hs => ?_)
  split
  · exact State.deviceNow_wf _ _ _ hs
  · exact State.deviceNow_wf _ _ _ hs

/-- A counted line's restored contents keep the form. -/
theorem State.restoreLine_wf (s : State) (line : Nat) (c : CLine) (h : Memory.wf s.mem = true) : Memory.wf (s.restoreLine line c).mem = true := by
  unfold State.restoreLine
  refine foldl_keeps (fun s : State => Memory.wf s.mem = true) _ _ _ ?_ (fun s i hs => by split <;> exact hs)
  exact foldl_keeps (fun s : State => Memory.wf s.mem = true) _ _ _ h (fun s i hs => Memory.wf_write _ _ _ hs)

/-- A frame copied to another keeps the form. -/
theorem State.copyFrame_wf (s : State) (src dst : Nat) (h : Memory.wf s.mem = true) : Memory.wf (s.copyFrame src dst).mem = true := by
  unfold State.copyFrame
  exact foldl_keeps (fun m => Memory.wf m = true) _ _ _ (s.zeroFrame_wf dst h) (fun m e hm => Memory.wf_write _ _ _ hm)

/-- Bytes copied keep the form. -/
theorem copyBytes_wf (m : List Host.Cell) (src dst n : Nat) (h : Memory.wf m = true) : Memory.wf (copyBytes m src dst n) = true :=
  foldl_keeps (fun m => Memory.wf m = true) _ _ _ h (fun _ _ hm => Memory.wf_write _ _ _ hm)

theorem State.copyLine_mem (s : State) (src dst : Nat) : (s.copyLine src dst).mem = copyBytes s.mem (256 * src) (256 * dst) 256 := by
  delta State.copyLine
  dsimp only

/-- A line copied to another keeps the form. -/
theorem State.copyLine_wf (s : State) (src dst : Nat) (h : Memory.wf s.mem = true) : Memory.wf (s.copyLine src dst).mem = true := by
  rw [State.copyLine_mem]
  exact copyBytes_wf _ _ _ _ h

/-- A line that came across a window keeps the form. -/
theorem State.fillLine_wf (s : State) (line : Nat) (bs : List Byte) (h : Memory.wf s.mem = true) : Memory.wf (s.fillLine line bs).mem = true :=
  Memory.wf_writeBytes _ _ _ h

/-- Poison changes no byte. -/
theorem State.setPoison_wf (s : State) (a : Nat) (p : Bool) (h : Memory.wf s.mem = true) : Memory.wf (s.setPoison a p).mem = true := h

end Sys2Proof.Machine
end

