-- ==== Sys2Proof/Laws/PerInstr.lean ====
section
/-! SUPPORT. The per-instruction family `Enc`: an instruction's word fits in the number of bits its encoding gives it (R302, R305, R315, R441). -/

set_option Elab.async false

namespace Sys2Proof.Laws.Enc

/-- The word of an instruction lies below 2 to the number of its bits; a device step has no word. -/
def Statement (i : Instr) : Prop := ∀ n w, encode i = some (n, w) → w < 2 ^ n

/-! ### The words of each format -/

theorem of_some {i : Instr} (m v : Nat) (h : encode i = some (m, v)) (hv : v < 2 ^ m) : Statement i := by
  intro n w e
  rw [h] at e
  cases e
  exact hv

theorem of_none {i : Instr} (h : encode i = none) : Statement i := by
  intro n w e
  rw [h] at e
  cases e

theorem lr_lt (op : Nat) (o : LR) (h : op < 1024) : lrWord op o < 2 ^ 96 := by
  have h1 := Bool.toNat_lt o.sat
  have h2 := Bool.toNat_lt o.ftz
  have h3 := Bool.toNat_lt o.fs
  simp only [lrWord]
  omega

theorem lm_lt (op : Nat) (o : LM) (h : op < 1024) : lmWord op o < 2 ^ 96 := by
  have h1 := Bool.toNat_lt o.fs
  simp only [lmWord]
  omega

theorem mx_lt (op : Nat) (f : MxFields) (h : op < 256) : mxWord op f < 2 ^ 128 := by
  simp only [mxWord]
  omega

/-! ### One lemma for each constructor -/

theorem udf : Statement (.udf) := of_some 32 _ rfl (by decide)
theorem sadd (d a b : BitVec 6) : Statement (.sadd d a b) := of_some 32 _ rfl (by simp only [wordOf, pl]; omega)
theorem ssub (d a b : BitVec 6) : Statement (.ssub d a b) := of_some 32 _ rfl (by simp only [wordOf, pl]; omega)
theorem sand (d a b : BitVec 6) : Statement (.sand d a b) := of_some 32 _ rfl (by simp only [wordOf, pl]; omega)
theorem sor (d a b : BitVec 6) : Statement (.sor d a b) := of_some 32 _ rfl (by simp only [wordOf, pl]; omega)
theorem sxor (d a b : BitVec 6) : Statement (.sxor d a b) := of_some 32 _ rfl (by simp only [wordOf, pl]; omega)
theorem sshl (d a b : BitVec 6) : Statement (.sshl d a b) := of_some 32 _ rfl (by simp only [wordOf, pl]; omega)
theorem sshr (d a b : BitVec 6) : Statement (.sshr d a b) := of_some 32 _ rfl (by simp only [wordOf, pl]; omega)
theorem ssra (d a b : BitVec 6) : Statement (.ssra d a b) := of_some 32 _ rfl (by simp only [wordOf, pl]; omega)
theorem smul (d a b : BitVec 6) : Statement (.smul d a b) := of_some 32 _ rfl (by simp only [wordOf, pl]; omega)
theorem smulh (d a b : BitVec 6) : Statement (.smulh d a b) := of_some 32 _ rfl (by simp only [wordOf, pl]; omega)
theorem smulhu (d a b : BitVec 6) : Statement (.smulhu d a b) := of_some 32 _ rfl (by simp only [wordOf, pl]; omega)
theorem smin (d a b : BitVec 6) : Statement (.smin d a b) := of_some 32 _ rfl (by simp only [wordOf, pl]; omega)
theorem smax (d a b : BitVec 6) : Statement (.smax d a b) := of_some 32 _ rfl (by simp only [wordOf, pl]; omega)
theorem sminu (d a b : BitVec 6) : Statement (.sminu d a b) := of_some 32 _ rfl (by simp only [wordOf, pl]; omega)
theorem smaxu (d a b : BitVec 6) : Statement (.smaxu d a b) := of_some 32 _ rfl (by simp only [wordOf, pl]; omega)
theorem sslt (d a b : BitVec 6) : Statement (.sslt d a b) := of_some 32 _ rfl (by simp only [wordOf, pl]; omega)
theorem ssltu (d a b : BitVec 6) : Statement (.ssltu d a b) := of_some 32 _ rfl (by simp only [wordOf, pl]; omega)
theorem sseq (d a b : BitVec 6) : Statement (.sseq d a b) := of_some 32 _ rfl (by simp only [wordOf, pl]; omega)
theorem sdiv (d a b : BitVec 6) : Statement (.sdiv d a b) := of_some 32 _ rfl (by simp only [wordOf, pl]; omega)
theorem sdivu (d a b : BitVec 6) : Statement (.sdivu d a b) := of_some 32 _ rfl (by simp only [wordOf, pl]; omega)
theorem srem (d a b : BitVec 6) : Statement (.srem d a b) := of_some 32 _ rfl (by simp only [wordOf, pl]; omega)
theorem sremu (d a b : BitVec 6) : Statement (.sremu d a b) := of_some 32 _ rfl (by simp only [wordOf, pl]; omega)
theorem spopc (d a : BitVec 6) : Statement (.spopc d a) := of_some 32 _ rfl (by simp only [wordOf, pl]; omega)
theorem sclz (d a : BitVec 6) : Statement (.sclz d a) := of_some 32 _ rfl (by simp only [wordOf, pl]; omega)
theorem sctz (d a : BitVec 6) : Statement (.sctz d a) := of_some 32 _ rfl (by simp only [wordOf, pl]; omega)
theorem sbrev (d a : BitVec 6) : Statement (.sbrev d a) := of_some 32 _ rfl (by simp only [wordOf, pl]; omega)
theorem saddi (d a : BitVec 6) (i : BitVec 14) : Statement (.saddi d a i) := of_some 32 _ rfl (by simp only [wordOf, pl]; omega)
theorem sandi (d a : BitVec 6) (i : BitVec 14) : Statement (.sandi d a i) := of_some 32 _ rfl (by simp only [wordOf, pl]; omega)
theorem sori (d a : BitVec 6) (i : BitVec 14) : Statement (.sori d a i) := of_some 32 _ rfl (by simp only [wordOf, pl]; omega)
theorem sxori (d a : BitVec 6) (i : BitVec 14) : Statement (.sxori d a i) := of_some 32 _ rfl (by simp only [wordOf, pl]; omega)
theorem sshli (d a s : BitVec 6) : Statement (.sshli d a s) := of_some 32 _ rfl (by simp only [wordOf, pl]; omega)
theorem sshri (d a s : BitVec 6) : Statement (.sshri d a s) := of_some 32 _ rfl (by simp only [wordOf, pl]; omega)
theorem ssrai (d a s : BitVec 6) : Statement (.ssrai d a s) := of_some 32 _ rfl (by simp only [wordOf, pl]; omega)
theorem sslti (d a : BitVec 6) (i : BitVec 14) : Statement (.sslti d a i) := of_some 32 _ rfl (by simp only [wordOf, pl]; omega)
theorem smovi (d : BitVec 6) (i : BitVec 20) : Statement (.smovi d i) := of_some 32 _ rfl (by simp only [wordOf, pl]; omega)
theorem shori (d : BitVec 6) (i : BitVec 20) : Statement (.shori d i) := of_some 32 _ rfl (by simp only [wordOf, pl]; omega)
theorem sld (d : BitVec 6) (b : BitVec 4) (z : BitVec 2) (i : BitVec 14) : Statement (.sld d b z i) := of_some 32 _ rfl (by simp only [wordOf, pl]; omega)
theorem sldx (d : BitVec 6) (b : BitVec 4) (z : BitVec 2) (a : BitVec 6) (i : BitVec 8) : Statement (.sldx d b z a i) := of_some 32 _ rfl (by simp only [wordOf, pl]; omega)
theorem sst (d : BitVec 6) (b : BitVec 4) (z : BitVec 2) (i : BitVec 14) : Statement (.sst d b z i) := of_some 32 _ rfl (by simp only [wordOf, pl]; omega)
theorem sstx (d : BitVec 6) (b : BitVec 4) (z : BitVec 2) (a : BitVec 6) (i : BitVec 8) : Statement (.sstx d b z a i) := of_some 32 _ rfl (by simp only [wordOf, pl]; omega)
theorem sldh (d : BitVec 6) (b : BitVec 4) (z : BitVec 2) (i : BitVec 14) : Statement (.sldh d b z i) := of_some 32 _ rfl (by simp only [wordOf, pl]; omega)
theorem satom (d : BitVec 6) (b : BitVec 4) (a : BitVec 6) (o : BitVec 4) (s : BitVec 2) (c r : BitVec 1) : Statement (.satom d b a o s c r) := of_some 32 _ rfl (by simp only [wordOf, pl]; omega)
theorem brld (d s : BitVec 4) (i : BitVec 14) : Statement (.brld d s i) := of_some 32 _ rfl (by simp only [wordOf, pl]; omega)
theorem brbase (d : BitVec 4) (a : BitVec 6) (s : BitVec 4) : Statement (.brbase d a s) := of_some 32 _ rfl (by simp only [wordOf, pl]; omega)
theorem broff (d : BitVec 4) (a : BitVec 6) (s : BitVec 4) : Statement (.broff d a s) := of_some 32 _ rfl (by simp only [wordOf, pl]; omega)
theorem brext (d : BitVec 4) (a : BitVec 6) (s : BitVec 4) : Statement (.brext d a s) := of_some 32 _ rfl (by simp only [wordOf, pl]; omega)
theorem brstr (d : BitVec 4) (a : BitVec 6) (s : BitVec 4) : Statement (.brstr d a s) := of_some 32 _ rfl (by simp only [wordOf, pl]; omega)
theorem brswz (d : BitVec 4) (a : BitVec 6) (s : BitVec 4) : Statement (.brswz d a s) := of_some 32 _ rfl (by simp only [wordOf, pl]; omega)
theorem brflg (d : BitVec 4) (a : BitVec 6) (s : BitVec 4) : Statement (.brflg d a s) := of_some 32 _ rfl (by simp only [wordOf, pl]; omega)
theorem brcpy (d s : BitVec 4) : Statement (.brcpy d s) := of_some 32 _ rfl (by simp only [wordOf, pl]; omega)
theorem bz (a : BitVec 6) (o : BitVec 16) : Statement (.bz a o) := of_some 32 _ rfl (by simp only [wordOf, pl]; omega)
theorem bnz (a : BitVec 6) (o : BitVec 16) : Statement (.bnz a o) := of_some 32 _ rfl (by simp only [wordOf, pl]; omega)
theorem bltz (a : BitVec 6) (o : BitVec 16) : Statement (.bltz a o) := of_some 32 _ rfl (by simp only [wordOf, pl]; omega)
theorem bgez (a : BitVec 6) (o : BitVec 16) : Statement (.bgez a o) := of_some 32 _ rfl (by simp only [wordOf, pl]; omega)
theorem blez (a : BitVec 6) (o : BitVec 16) : Statement (.blez a o) := of_some 32 _ rfl (by simp only [wordOf, pl]; omega)
theorem bgtz (a : BitVec 6) (o : BitVec 16) : Statement (.bgtz a o) := of_some 32 _ rfl (by simp only [wordOf, pl]; omega)
theorem bkany (k : BitVec 4) (o : BitVec 20) : Statement (.bkany k o) := of_some 32 _ rfl (by simp only [wordOf, pl]; omega)
theorem bkall (k : BitVec 4) (o : BitVec 20) : Statement (.bkall k o) := of_some 32 _ rfl (by simp only [wordOf, pl]; omega)
theorem bknone (k : BitVec 4) (o : BitVec 20) : Statement (.bknone k o) := of_some 32 _ rfl (by simp only [wordOf, pl]; omega)
theorem bra (o : BitVec 26) : Statement (.bra o) := of_some 32 _ rfl (by simp only [wordOf, pl]; omega)
theorem call (o : BitVec 26) : Statement (.call o) := of_some 32 _ rfl (by simp only [wordOf, pl]; omega)
theorem jr (a : BitVec 6) : Statement (.jr a) := of_some 32 _ rfl (by simp only [wordOf, pl]; omega)
theorem callr (a : BitVec 6) : Statement (.callr a) := of_some 32 _ rfl (by simp only [wordOf, pl]; omega)
theorem ret (a : BitVec 6) : Statement (.ret a) := of_some 32 _ rfl (by simp only [wordOf, pl]; omega)
theorem retS0 : Statement (.retS0) := of_some 32 _ rfl (by decide)
theorem callv (v : BitVec 8) : Statement (.callv v) := of_some 32 _ rfl (by simp only [wordOf, pl]; omega)
theorem divg (k : BitVec 4) (c : BitVec 1) (o : BitVec 20) : Statement (.divg k c o) := of_some 32 _ rfl (by simp only [wordOf, pl]; omega)
theorem divgLoop (o : BitVec 20) : Statement (.divgLoop o) := of_some 32 _ rfl (by simp only [wordOf, pl]; omega)
theorem junc : Statement (.junc) := of_some 32 _ rfl (by decide)
theorem brkl (k : BitVec 4) (c : BitVec 1) : Statement (.brkl k c) := of_some 32 _ rfl (by simp only [wordOf, pl]; omega)
theorem cls (w : BitVec 24) : Statement (.cls w) := of_some 32 _ rfl (by simp only [wordOf, pl]; omega)
theorem clsr (a : BitVec 6) : Statement (.clsr a) := of_some 32 _ rfl (by simp only [wordOf, pl]; omega)
theorem kand (d a b : BitVec 4) : Statement (.kand d a b) := of_some 32 _ rfl (by simp only [wordOf, pl]; omega)
theorem kor (d a b : BitVec 4) : Statement (.kor d a b) := of_some 32 _ rfl (by simp only [wordOf, pl]; omega)
theorem kxor (d a b : BitVec 4) : Statement (.kxor d a b) := of_some 32 _ rfl (by simp only [wordOf, pl]; omega)
theorem kandn (d a b : BitVec 4) : Statement (.kandn d a b) := of_some 32 _ rfl (by simp only [wordOf, pl]; omega)
theorem knot (d a : BitVec 4) : Statement (.knot d a) := of_some 32 _ rfl (by simp only [wordOf, pl]; omega)
theorem kmov (d a : BitVec 4) : Statement (.kmov d a) := of_some 32 _ rfl (by simp only [wordOf, pl]; omega)
theorem ksetexm (a : BitVec 4) : Statement (.ksetexm a) := of_some 32 _ rfl (by simp only [wordOf, pl]; omega)
theorem kgetexm (d : BitVec 4) : Statement (.kgetexm d) := of_some 32 _ rfl (by simp only [wordOf, pl]; omega)
theorem klive (d : BitVec 4) : Statement (.klive d) := of_some 32 _ rfl (by simp only [wordOf, pl]; omega)
theorem kclr (d : BitVec 4) : Statement (.kclr d) := of_some 32 _ rfl (by simp only [wordOf, pl]; omega)
theorem kones (d : BitVec 4) : Statement (.kones d) := of_some 32 _ rfl (by simp only [wordOf, pl]; omega)
theorem ktos (d : BitVec 6) (a : BitVec 4) : Statement (.ktos d a) := of_some 32 _ rfl (by simp only [wordOf, pl]; omega)
theorem stok (d : BitVec 4) (a : BitVec 6) : Statement (.stok d a) := of_some 32 _ rfl (by simp only [wordOf, pl]; omega)
theorem kpopc (d : BitVec 6) (a : BitVec 4) : Statement (.kpopc d a) := of_some 32 _ rfl (by simp only [wordOf, pl]; omega)
theorem kffs (d : BitVec 6) (a : BitVec 4) : Statement (.kffs d a) := of_some 32 _ rfl (by simp only [wordOf, pl]; omega)
theorem setfmt (f : BitVec 18) : Statement (.setfmt f) := of_some 32 _ rfl (by simp only [wordOf, pl]; omega)
theorem getfmt (d : BitVec 6) : Statement (.getfmt d) := of_some 32 _ rfl (by simp only [wordOf, pl]; omega)
theorem putfmt (a : BitVec 6) : Statement (.putfmt a) := of_some 32 _ rfl (by simp only [wordOf, pl]; omega)
theorem mfs (d : BitVec 6) (s : BitVec 8) : Statement (.mfs d s) := of_some 32 _ rfl (by simp only [wordOf, pl]; omega)
theorem mts (d : BitVec 6) (s : BitVec 8) : Statement (.mts d s) := of_some 32 _ rfl (by simp only [wordOf, pl]; omega)
theorem waitf (m : BitVec 12) : Statement (.waitf m) := of_some 32 _ rfl (by simp only [wordOf, pl]; omega)
theorem sigc (p : BitVec 16) : Statement (.sigc p) := of_some 32 _ rfl (by simp only [wordOf, pl]; omega)
theorem sigr : Statement (.sigr) := of_some 32 _ rfl (by decide)
theorem nop : Statement (.nop) := of_some 32 _ rfl (by decide)
theorem spawn (d a : BitVec 6) : Statement (.spawn d a) := of_some 32 _ rfl (by simp only [wordOf, pl]; omega)
theorem spawnf (d a b : BitVec 6) : Statement (.spawnf d a b) := of_some 32 _ rfl (by simp only [wordOf, pl]; omega)
theorem joinSelf : Statement (.joinSelf) := of_some 32 _ rfl (by decide)
theorem joinChild (d a : BitVec 6) : Statement (.joinChild d a) := of_some 32 _ rfl (by simp only [wordOf, pl]; omega)
theorem joinany (d b : BitVec 6) : Statement (.joinany d b) := of_some 32 _ rfl (by simp only [wordOf, pl]; omega)
theorem grant (d a b : BitVec 6) : Statement (.grant d a b) := of_some 32 _ rfl (by simp only [wordOf, pl]; omega)
theorem cut (d a : BitVec 6) : Statement (.cut d a) := of_some 32 _ rfl (by simp only [wordOf, pl]; omega)
theorem tstat (d a : BitVec 6) : Statement (.tstat d a) := of_some 32 _ rfl (by simp only [wordOf, pl]; omega)
theorem barr (r : BitVec 8) (s : BitVec 1) : Statement (.barr r s) := of_some 32 _ rfl (by simp only [wordOf, pl]; omega)
theorem arrive (r : BitVec 8) : Statement (.arrive r) := of_some 32 _ rfl (by simp only [wordOf, pl]; omega)
theorem waitb (r : BitVec 8) : Statement (.waitb r) := of_some 32 _ rfl (by simp only [wordOf, pl]; omega)
theorem arriveStage (a : BitVec 6) (p : BitVec 4) : Statement (.arriveStage a p) := of_some 32 _ rfl (by simp only [wordOf, pl]; omega)
theorem arriveStageClose (a : BitVec 6) (p : BitVec 4) : Statement (.arriveStageClose a p) := of_some 32 _ rfl (by simp only [wordOf, pl]; omega)
theorem waita (d a b : BitVec 6) : Statement (.waita d a b) := of_some 32 _ rfl (by simp only [wordOf, pl]; omega)
theorem waitm (d a b : BitVec 6) : Statement (.waitm d a b) := of_some 32 _ rfl (by simp only [wordOf, pl]; omega)
theorem rel (d : BitVec 6) (s : BitVec 2) : Statement (.rel d s) := of_some 32 _ rfl (by simp only [wordOf, pl]; omega)
theorem acq (a : BitVec 6) (s : BitVec 2) (n : BitVec 5) : Statement (.acq a s n) := of_some 32 _ rfl (by simp only [wordOf, pl]; omega)
theorem strel (d : BitVec 6) (b : BitVec 4) (s : BitVec 2) (i : BitVec 5) : Statement (.strel d b s i) := of_some 32 _ rfl (by simp only [wordOf, pl]; omega)
theorem ldacq (d : BitVec 6) (b : BitVec 4) (s : BitVec 2) (i : BitVec 5) : Statement (.ldacq d b s i) := of_some 32 _ rfl (by simp only [wordOf, pl]; omega)
theorem fence (d : BitVec 6) (s : BitVec 2) : Statement (.fence d s) := of_some 32 _ rfl (by simp only [wordOf, pl]; omega)
theorem acqall (s : BitVec 2) : Statement (.acqall s) := of_some 32 _ rfl (by simp only [wordOf, pl]; omega)
theorem resize (d a b : BitVec 6) : Statement (.resize d a b) := of_some 32 _ rfl (by simp only [wordOf, pl]; omega)
theorem cont (d a b c : BitVec 6) : Statement (.cont d a b c) := of_some 32 _ rfl (by simp only [wordOf, pl]; omega)
theorem trap (i : BitVec 16) : Statement (.trap i) := of_some 32 _ rfl (by simp only [wordOf, pl]; omega)
theorem fbp (w : BitVec 24) : Statement (.fbp w) := of_some 32 _ rfl (by simp only [wordOf, pl]; omega)
theorem rflt : Statement (.rflt) := of_some 32 _ rfl (by decide)
theorem mappg (d a b : BitVec 6) : Statement (.mappg d a b) := of_some 32 _ rfl (by simp only [wordOf, pl]; omega)
theorem ivpg (a b : BitVec 6) : Statement (.ivpg a b) := of_some 32 _ rfl (by simp only [wordOf, pl]; omega)
theorem halt : Statement (.halt) := of_some 32 _ rfl (by decide)
theorem mxfork (a : BitVec 6) : Statement (.mxfork a) := of_some 32 _ rfl (by simp only [wordOf, pl]; omega)
theorem rdv (d : BitVec 6) : Statement (.rdv d) := of_some 32 _ rfl (by simp only [wordOf, pl]; omega)
theorem wqry (a b : BitVec 6) (f : BitVec 4) : Statement (.wqry a b f) := of_some 32 _ rfl (by simp only [wordOf, pl]; omega)
theorem coll (a b : BitVec 6) : Statement (.coll a b) := of_some 32 _ rfl (by simp only [wordOf, pl]; omega)
theorem repack (r : BitVec 8) : Statement (.repack r) := of_some 32 _ rfl (by simp only [wordOf, pl]; omega)
theorem lnop (o : LR) : Statement (.lnop o) := of_some 96 _ rfl (lr_lt _ o (by decide))
theorem iadd (o : LR) : Statement (.iadd o) := of_some 96 _ rfl (lr_lt _ o (by decide))
theorem isub (o : LR) : Statement (.isub o) := of_some 96 _ rfl (lr_lt _ o (by decide))
theorem imul (o : LR) : Statement (.imul o) := of_some 96 _ rfl (lr_lt _ o (by decide))
theorem imulh (o : LR) : Statement (.imulh o) := of_some 96 _ rfl (lr_lt _ o (by decide))
theorem imad (o : LR) : Statement (.imad o) := of_some 96 _ rfl (lr_lt _ o (by decide))
theorem iabs (o : LR) : Statement (.iabs o) := of_some 96 _ rfl (lr_lt _ o (by decide))
theorem ineg (o : LR) : Statement (.ineg o) := of_some 96 _ rfl (lr_lt _ o (by decide))
theorem imin (o : LR) : Statement (.imin o) := of_some 96 _ rfl (lr_lt _ o (by decide))
theorem imax (o : LR) : Statement (.imax o) := of_some 96 _ rfl (lr_lt _ o (by decide))
theorem lAnd (o : LR) : Statement (.lAnd o) := of_some 96 _ rfl (lr_lt _ o (by decide))
theorem lOr (o : LR) : Statement (.lOr o) := of_some 96 _ rfl (lr_lt _ o (by decide))
theorem lXor (o : LR) : Statement (.lXor o) := of_some 96 _ rfl (lr_lt _ o (by decide))
theorem andn (o : LR) : Statement (.andn o) := of_some 96 _ rfl (lr_lt _ o (by decide))
theorem lNot (o : LR) : Statement (.lNot o) := of_some 96 _ rfl (lr_lt _ o (by decide))
theorem shl (o : LR) : Statement (.shl o) := of_some 96 _ rfl (lr_lt _ o (by decide))
theorem shr (o : LR) : Statement (.shr o) := of_some 96 _ rfl (lr_lt _ o (by decide))
theorem sra (o : LR) : Statement (.sra o) := of_some 96 _ rfl (lr_lt _ o (by decide))
theorem rotl (o : LR) : Statement (.rotl o) := of_some 96 _ rfl (lr_lt _ o (by decide))
theorem bfe (o : LR) : Statement (.bfe o) := of_some 96 _ rfl (lr_lt _ o (by decide))
theorem bfi (o : LR) : Statement (.bfi o) := of_some 96 _ rfl (lr_lt _ o (by decide))
theorem popc (o : LR) : Statement (.popc o) := of_some 96 _ rfl (lr_lt _ o (by decide))
theorem clz (o : LR) : Statement (.clz o) := of_some 96 _ rfl (lr_lt _ o (by decide))
theorem brev (o : LR) : Statement (.brev o) := of_some 96 _ rfl (lr_lt _ o (by decide))
theorem permb (o : LR) : Statement (.permb o) := of_some 96 _ rfl (lr_lt _ o (by decide))
theorem icmp (o : LR) : Statement (.icmp o) := of_some 96 _ rfl (lr_lt _ o (by decide))
theorem sel (o : LR) : Statement (.sel o) := of_some 96 _ rfl (lr_lt _ o (by decide))
theorem lMov (o : LR) : Statement (.lMov o) := of_some 96 _ rfl (lr_lt _ o (by decide))
theorem idiv (o : LR) : Statement (.idiv o) := of_some 96 _ rfl (lr_lt _ o (by decide))
theorem irem (o : LR) : Statement (.irem o) := of_some 96 _ rfl (lr_lt _ o (by decide))
theorem shfl (o : LR) : Statement (.shfl o) := of_some 96 _ rfl (lr_lt _ o (by decide))
theorem shflup (o : LR) : Statement (.shflup o) := of_some 96 _ rfl (lr_lt _ o (by decide))
theorem shfldn (o : LR) : Statement (.shfldn o) := of_some 96 _ rfl (lr_lt _ o (by decide))
theorem shflx (o : LR) : Statement (.shflx o) := of_some 96 _ rfl (lr_lt _ o (by decide))
theorem vote (o : LR) : Statement (.vote o) := of_some 96 _ rfl (lr_lt _ o (by decide))
theorem redu (o : LR) : Statement (.redu o) := of_some 96 _ rfl (lr_lt _ o (by decide))
theorem scan (o : LR) : Statement (.scan o) := of_some 96 _ rfl (lr_lt _ o (by decide))
theorem elect (o : LR) : Statement (.elect o) := of_some 96 _ rfl (lr_lt _ o (by decide))
theorem fadd (o : LR) : Statement (.fadd o) := of_some 96 _ rfl (lr_lt _ o (by decide))
theorem fsub (o : LR) : Statement (.fsub o) := of_some 96 _ rfl (lr_lt _ o (by decide))
theorem fmul (o : LR) : Statement (.fmul o) := of_some 96 _ rfl (lr_lt _ o (by decide))
theorem ffma (o : LR) : Statement (.ffma o) := of_some 96 _ rfl (lr_lt _ o (by decide))
theorem fmin (o : LR) : Statement (.fmin o) := of_some 96 _ rfl (lr_lt _ o (by decide))
theorem fmax (o : LR) : Statement (.fmax o) := of_some 96 _ rfl (lr_lt _ o (by decide))
theorem fcmp (o : LR) : Statement (.fcmp o) := of_some 96 _ rfl (lr_lt _ o (by decide))
theorem fclass (o : LR) : Statement (.fclass o) := of_some 96 _ rfl (lr_lt _ o (by decide))
theorem frnd (o : LR) : Statement (.frnd o) := of_some 96 _ rfl (lr_lt _ o (by decide))
theorem frcp (o : LR) : Statement (.frcp o) := of_some 96 _ rfl (lr_lt _ o (by decide))
theorem frsq (o : LR) : Statement (.frsq o) := of_some 96 _ rfl (lr_lt _ o (by decide))
theorem fsqrt (o : LR) : Statement (.fsqrt o) := of_some 96 _ rfl (lr_lt _ o (by decide))
theorem fexp2 (o : LR) : Statement (.fexp2 o) := of_some 96 _ rfl (lr_lt _ o (by decide))
theorem flog2 (o : LR) : Statement (.flog2 o) := of_some 96 _ rfl (lr_lt _ o (by decide))
theorem fsinpi (o : LR) : Statement (.fsinpi o) := of_some 96 _ rfl (lr_lt _ o (by decide))
theorem fcospi (o : LR) : Statement (.fcospi o) := of_some 96 _ rfl (lr_lt _ o (by decide))
theorem fdiv (o : LR) : Statement (.fdiv o) := of_some 96 _ rfl (lr_lt _ o (by decide))
theorem fscale (o : LR) : Statement (.fscale o) := of_some 96 _ rfl (lr_lt _ o (by decide))
theorem cvt (o : LR) : Statement (.cvt o) := of_some 96 _ rfl (lr_lt _ o (by decide))
theorem qsx (o : LR) : Statement (.qsx o) := of_some 96 _ rfl (lr_lt _ o (by decide))
theorem pksx (o : LR) : Statement (.pksx o) := of_some 96 _ rfl (lr_lt _ o (by decide))
theorem upsx (o : LR) : Statement (.upsx o) := of_some 96 _ rfl (lr_lt _ o (by decide))
theorem dqsx (o : LR) : Statement (.dqsx o) := of_some 96 _ rfl (lr_lt _ o (by decide))
theorem outl (o : LM) : Statement (.outl o) := of_some 96 _ rfl (lm_lt _ o (by decide))
theorem ld (o : LM) : Statement (.ld o) := of_some 96 _ rfl (lm_lt _ o (by decide))
theorem st (o : LM) : Statement (.st o) := of_some 96 _ rfl (lm_lt _ o (by decide))
theorem ldc (o : LM) : Statement (.ldc o) := of_some 96 _ rfl (lm_lt _ o (by decide))
theorem stc (o : LM) : Statement (.stc o) := of_some 96 _ rfl (lm_lt _ o (by decide))
theorem ldh (o : LM) : Statement (.ldh o) := of_some 96 _ rfl (lm_lt _ o (by decide))
theorem pref (o : LM) : Statement (.pref o) := of_some 96 _ rfl (lm_lt _ o (by decide))
theorem atom (o : LM) : Statement (.atom o) := of_some 96 _ rfl (lm_lt _ o (by decide))
theorem tcp (o : LR) : Statement (.tcp o) := of_some 96 _ rfl (lr_lt _ o (by decide))
theorem mldb (f : MxFields) : Statement (.mldb f) := of_some 128 _ rfl (mx_lt _ f (by decide))
theorem mstrm (f : MxFields) : Statement (.mstrm f) := of_some 128 _ rfl (mx_lt _ f (by decide))
theorem mzero (f : MxFields) : Statement (.mzero f) := of_some 128 _ rfl (mx_lt _ f (by decide))
theorem mdrain (f : MxFields) : Statement (.mdrain f) := of_some 128 _ rfl (mx_lt _ f (by decide))
theorem mloop (f : MxFields) : Statement (.mloop f) := of_some 128 _ rfl (mx_lt _ f (by decide))
theorem mrdv (f : MxFields) : Statement (.mrdv f) := of_some 128 _ rfl (mx_lt _ f (by decide))
theorem mend (f : MxFields) : Statement (.mend f) := of_some 128 _ rfl (mx_lt _ f (by decide))
theorem partReset : Statement (.partReset) := of_none rfl
theorem firmwareStageVerify : Statement (.firmwareStageVerify) := of_none rfl
theorem dieTrainingComplete : Statement (.dieTrainingComplete) := of_none rfl
theorem dieretWrite : Statement (.dieretWrite) := of_none rfl
theorem thermalEvent : Statement (.thermalEvent) := of_none rfl
theorem thermalEventClear : Statement (.thermalEventClear) := of_none rfl
theorem mainLineMessage : Statement (.mainLineMessage) := of_none rfl
theorem mainLineTimeout : Statement (.mainLineTimeout) := of_none rfl
theorem lgctlGo : Statement (.lgctlGo) := of_none rfl
theorem drainComplete : Statement (.drainComplete) := of_none rfl
theorem quiesceTimeout : Statement (.quiesceTimeout) := of_none rfl
theorem fenceComplete : Statement (.fenceComplete) := of_none rfl
theorem retrainComplete : Statement (.retrainComplete) := of_none rfl
theorem retrainTimeout : Statement (.retrainTimeout) := of_none rfl
theorem remap : Statement (.remap) := of_none rfl
theorem linkInboundRequest : Statement (.linkInboundRequest) := of_none rfl
theorem inboundHomeTimeout : Statement (.inboundHomeTimeout) := of_none rfl
theorem outboundCompletion : Statement (.outboundCompletion) := of_none rfl
theorem outboundTimeout : Statement (.outboundTimeout) := of_none rfl
theorem bar4Access : Statement (.bar4Access) := of_none rfl
theorem hwdWrite : Statement (.hwdWrite) := of_none rfl
theorem claimgo : Statement (.claimgo) := of_none rfl
theorem arbitrationIntervalEnd : Statement (.arbitrationIntervalEnd) := of_none rfl
theorem handoff : Statement (.handoff) := of_none rfl
theorem handack : Statement (.handack) := of_none rfl
theorem handoffTimeout : Statement (.handoffTimeout) := of_none rfl
theorem ownerPathLoss : Statement (.ownerPathLoss) := of_none rfl
theorem attgo : Statement (.attgo) := of_none rfl
theorem attestationSigned : Statement (.attestationSigned) := of_none rfl
theorem registerWrite : Statement (.registerWrite) := of_none rfl
theorem pctlStop : Statement (.pctlStop) := of_none rfl
theorem pctlRun : Statement (.pctlRun) := of_none rfl
theorem pctlFree : Statement (.pctlFree) := of_none rfl
theorem squotaWrite : Statement (.squotaWrite) := of_none rfl
theorem pinSet : Statement (.pinSet) := of_none rfl
theorem pinClear : Statement (.pinClear) := of_none rfl
theorem pinFillComplete : Statement (.pinFillComplete) := of_none rfl
theorem fotGo : Statement (.fotGo) := of_none rfl
theorem fotFrameChange : Statement (.fotFrameChange) := of_none rfl
theorem slotTurn : Statement (.slotTurn) := of_none rfl
theorem deficitDecrement : Statement (.deficitDecrement) := of_none rfl
theorem setmvWrite : Statement (.setmvWrite) := of_none rfl
theorem sramModeSwitchComplete : Statement (.sramModeSwitchComplete) := of_none rfl
theorem queueEnable : Statement (.queueEnable) := of_none rfl
theorem queueDisable : Statement (.queueDisable) := of_none rfl
theorem doorbellTail : Statement (.doorbellTail) := of_none rfl
theorem doorbellReplyValue : Statement (.doorbellReplyValue) := of_none rfl
theorem doorbellReplyCommit : Statement (.doorbellReplyCommit) := of_none rfl
theorem doorbellStail : Statement (.doorbellStail) := of_none rfl
theorem entryFetch : Statement (.entryFetch) := of_none rfl
theorem entryDispatch : Statement (.entryDispatch) := of_none rfl
theorem graphValidation : Statement (.graphValidation) := of_none rfl
theorem graphNodeDispatch : Statement (.graphNodeDispatch) := of_none rfl
theorem jobCardAccept : Statement (.jobCardAccept) := of_none rfl
theorem jobStart : Statement (.jobStart) := of_none rfl
theorem jobComplete : Statement (.jobComplete) := of_none rfl
theorem completionRecordWritten : Statement (.completionRecordWritten) := of_none rfl
theorem syscallRecordWrite : Statement (.syscallRecordWrite) := of_none rfl
theorem taskClose : Statement (.taskClose) := of_none rfl
theorem parkLimitExpiry : Statement (.parkLimitExpiry) := of_none rfl
theorem placementAttempt : Statement (.placementAttempt) := of_none rfl
theorem reserveRequest : Statement (.reserveRequest) := of_none rfl
theorem placementCommit : Statement (.placementCommit) := of_none rfl
theorem placementRelease : Statement (.placementRelease) := of_none rfl
theorem placementBackoffExpiry : Statement (.placementBackoffExpiry) := of_none rfl
theorem placementSidingAttempt : Statement (.placementSidingAttempt) := of_none rfl
theorem stealRequest : Statement (.stealRequest) := of_none rfl
theorem stealReply : Statement (.stealReply) := of_none rfl
theorem stealRetryExpiry : Statement (.stealRetryExpiry) := of_none rfl
theorem activeEntryFill : Statement (.activeEntryFill) := of_none rfl
theorem blockedSwap : Statement (.blockedSwap) := of_none rfl
theorem urgentPromotion : Statement (.urgentPromotion) := of_none rfl
theorem tier2Start : Statement (.tier2Start) := of_none rfl
theorem tier3Start : Statement (.tier3Start) := of_none rfl
theorem force : Statement (.force) := of_none rfl
theorem coreSave : Statement (.coreSave) := of_none rfl
theorem handlerTimeout : Statement (.handlerTimeout) := of_none rfl
theorem invcmd : Statement (.invcmd) := of_none rfl
theorem invalidateComplete : Statement (.invalidateComplete) := of_none rfl
theorem sectorFill : Statement (.sectorFill) := of_none rfl
theorem pressurePublication : Statement (.pressurePublication) := of_none rfl
theorem recordFold : Statement (.recordFold) := of_none rfl
theorem foldUnitCompact : Statement (.foldUnitCompact) := of_none rfl
theorem atomicAtHome : Statement (.atomicAtHome) := of_none rfl
theorem migrationPrecopy : Statement (.migrationPrecopy) := of_none rfl
theorem migrationPostcopy : Statement (.migrationPostcopy) := of_none rfl
theorem migrationPull : Statement (.migrationPull) := of_none rfl
theorem migrationPullFail : Statement (.migrationPullFail) := of_none rfl
theorem mxforkAccept : Statement (.mxforkAccept) := of_none rfl
theorem programAutoCollect : Statement (.programAutoCollect) := of_none rfl
theorem copyStep : Statement (.copyStep) := of_none rfl
theorem copyChunkComplete : Statement (.copyChunkComplete) := of_none rfl
theorem continuationFire : Statement (.continuationFire) := of_none rfl
theorem distributorQuery : Statement (.distributorQuery) := of_none rfl
theorem collectiveContribution : Statement (.collectiveContribution) := of_none rfl
theorem collectiveDeadline : Statement (.collectiveDeadline) := of_none rfl
theorem resultLands : Statement (.resultLands) := of_none rfl
theorem homeLoad : Statement (.homeLoad) := of_none rfl
theorem reserveAnswer : Statement (.reserveAnswer) := of_none rfl
theorem illegalEncoding : Statement (.illegalEncoding) := of_none rfl

end Sys2Proof.Laws.Enc
end

