-- ==== Sys2Proof/Tests/Slice0.lean ====
section
/-! SUPPORT. Tests of the model: ill-formed words that each check refuses, words written out from the encoding tables with the instructions they stand for, and single steps on a small state. Expected results are worked out by hand from the rule each test names. -/

set_option Elab.async false

namespace Sys2Proof.Tests

open Sys2Proof Sys2Proof.Machine

/-! ### What WellFormed refuses (R302 and the rules named) -/

theorem test_wf_satom_op : (Instr.satom 1 0 2 12 0 0 0).wf = true ∧ (Instr.satom 1 0 2 13 0 0 0).wf = false := by decide
theorem test_wf_ret_s0 : (Instr.ret 1).wf = true ∧ (Instr.ret 0).wf = false := by decide
theorem test_wf_callv_odd : (Instr.callv 4).wf = true ∧ (Instr.callv 5).wf = false := by decide
theorem test_wf_setfmt : (Instr.setfmt 0x31265).wf = true ∧ (Instr.setfmt 0x8000).wf = false ∧ (Instr.setfmt 3).wf = false ∧ (Instr.setfmt 0x4000).wf = false := by decide
theorem test_wf_special : (Instr.mfs 1 0x11).wf = true ∧ (Instr.mfs 1 0x12).wf = false ∧ (Instr.mts 1 0xFF).wf = false := by decide
theorem test_wf_join : (Instr.joinChild 0 1).wf = true ∧ (Instr.joinChild 0 0).wf = false := by decide
theorem test_decode_barr_reserved : decodeTableWord 32 0xB0003000 = some (.barr 3 0) ∧ decodeTableWord 32 0xB0003008 = some (.barr 3 1) ∧ decodeTableWord 32 0xB0003010 = none := by decide
theorem test_wf_rel_scope : (Instr.rel 3 2).wf = true ∧ (Instr.rel 3 3).wf = false ∧ (Instr.fence 3 3).wf = false := by decide
theorem test_wf_acq_range : (Instr.acq 32 1 31).wf = true ∧ (Instr.acq 33 1 31).wf = false ∧ (Instr.acq 1 3 0).wf = false := by decide
theorem test_wf_acqall_scope : (Instr.acqall 1).wf = true ∧ (Instr.acqall 0).wf = false := by decide
theorem test_wf_trap : (Instr.trap 0xFEFF).wf = true ∧ (Instr.trap 0xFF00).wf = false := by decide
theorem test_wf_wqry_flag : (Instr.wqry 1 2 11).wf = true ∧ (Instr.wqry 1 2 12).wf = false := by decide
theorem test_wf_lnop : (Instr.lnop {}).wf = true ∧ (Instr.lnop { d := 1 }).wf = false := by decide
theorem test_wf_type : (Instr.iadd { d := 1, typ := 4 }).wf = true ∧ (Instr.iadd { d := 1, typ := 10 }).wf = false ∧ (Instr.bfe { typ := 3 }).wf = false := by decide
theorem test_wf_selector : (Instr.iadd { a := 0x142, typ := 4 }).wf = true ∧ (Instr.iadd { a := 0x143, typ := 4 }).wf = false := by decide
theorem test_wf_wide_even : (Instr.iadd { d := 2, a := 4, typ := 6 }).wf = true ∧ (Instr.iadd { d := 3, a := 4, typ := 6 }).wf = false ∧ (Instr.iadd { d := 2, a := 5, typ := 6 }).wf = false := by decide
theorem test_wf_unused : (Instr.iabs { d := 1, a := 2, typ := 4 }).wf = true ∧ (Instr.iabs { d := 1, a := 2, b := 1, typ := 4 }).wf = false ∧ (Instr.iadd { kd := 1, typ := 4 }).wf = false := by decide
theorem test_wf_imm : (Instr.iadd { a := 0x1FF, typ := 4, imm := 7 }).wf = true ∧ (Instr.iadd { a := 1, typ := 4, imm := 7 }).wf = false := by decide
theorem test_wf_sign_bits : (Instr.fadd { neg := 6, typ := 10 }).wf = true ∧ (Instr.fadd { neg := 1, typ := 10 }).wf = false ∧ (Instr.fadd { a := 0x1FF, neg := 4, typ := 10 }).wf = false := by decide
theorem test_wf_modifiers : (Instr.imulh { sat := true, typ := 4 }).wf = false ∧ (Instr.iadd { ftz := true, typ := 4 }).wf = false ∧ (Instr.iadd { rnd := 1, typ := 4 }).wf = false := by decide
theorem test_wf_rounding : (Instr.fadd { rnd := 4, typ := 10 }).wf = true ∧ (Instr.fadd { rnd := 5, typ := 10 }).wf = false := by decide
theorem test_wf_flag_select : (Instr.idiv { fs := true, typ := 4 }).wf = true ∧ (Instr.iadd { fs := true, typ := 4 }).wf = false := by decide
theorem test_wf_conditions : (Instr.icmp { d := 5, typ := 4 }).wf = true ∧ (Instr.icmp { d := 6, typ := 4 }).wf = false ∧ (Instr.fcmp { d := 8, typ := 10 }).wf = false := by decide
theorem test_wf_redu : (Instr.redu { kd := 5, typ := 4 }).wf = true ∧ (Instr.redu { kd := 6, typ := 4 }).wf = false ∧ (Instr.redu { kd := 8, typ := 4 }).wf = false ∧ (Instr.scan { kd := 8, typ := 4 }).wf = true ∧
    (Instr.redu { kd := 3, typ := 10 }).wf = false := by decide
theorem test_wf_cvt : (Instr.cvt { kd := 4, typ := 10 }).wf = true ∧ (Instr.cvt { kd := 4, typ := 4 }).wf = false ∧ (Instr.cvt { kd := 4, typ := 12 }).wf = false ∧ (Instr.cvt { kd := 10, typ := 4, sat := true }).wf = false := by decide
theorem test_wf_shared : (Instr.pksx { abs := 1 }).wf = true ∧ (Instr.pksx {}).wf = false ∧ (Instr.qsx { abs := 2, typ := 11 }).wf = false := by decide
theorem test_wf_tcp : (Instr.tcp { b := 0x101 }).wf = true ∧ (Instr.tcp { b := 0x100 }).wf = false ∧ (Instr.tcp { a := 0x100, b := 0x101 }).wf = false ∧ (Instr.tcp { b := 0x101, d := 1 }).wf = false := by decide
theorem test_wf_lm_common : (Instr.ld { i := 0x140, w := 4, scope := 3 }).wf = true ∧ (Instr.ld { i := 0x1FF }).wf = false ∧ (Instr.ld { w := 5 }).wf = false ∧ (Instr.ld { scope := 4 }).wf = false := by decide
theorem test_wf_lm_fields : (Instr.st { fs := true }).wf = false ∧ (Instr.ldc { w := 1 }).wf = false ∧ (Instr.stc { aux := 0x100 }).wf = false ∧ (Instr.pref { d := 1 }).wf = false ∧ (Instr.ld { aux := 1 }).wf = false := by decide
theorem test_wf_atom : (Instr.atom { aux := 12 }).wf = true ∧ (Instr.atom { aux := 13 }).wf = false ∧ (Instr.atom { aux := 0x1000 }).wf = false ∧ (Instr.atom { aux := 0x100A }).wf = true := by decide
theorem test_wf_outl : (Instr.outl { scope := 2 }).wf = true ∧ (Instr.outl { scope := 1 }).wf = false := by decide
theorem test_wf_matrix : (Instr.mldb { a := 1, x := 2, y := 3 }).wf = true ∧ (Instr.mldb { res := 1 }).wf = false ∧ (Instr.mzero { a := 1 }).wf = false ∧ (Instr.mrdv { y := 1 }).wf = false ∧ (Instr.mend { x := 1 }).wf = false := by decide

/-! ### Words from the encoding tables (Tables 17-1 to 17-11, 22-7, 22-8) -/

/-- Table 17-5a and Table 17-12: the spec's worked words. -/
theorem test_decode_worked_scalar : decodeTableWord 32 0x00304200 = some (.sadd 3 1 2) ∧ decodeTableWord 32 0x24500007 = some (.smovi 5 7) ∧ decodeTableWord 32 0x6041FFFD = some (.bnz 4 0xFFFD) ∧
    decodeTableWord 32 0x80000002 = some (.cls 2) ∧ decodeTableWord 32 0x9870000B = some (.mfs 7 0x0B) ∧ decodeTableWord 32 0xB8600920 = some (.strel 6 2 1 0) ∧ decodeTableWord 32 0xAC000000 = some .joinSelf := by decide
theorem test_decode_worked_lane : decodeTableWord 96 0xC00082800000000000000000 = some (.ld { d := 2, i := 0x140 }) ∧
    decodeTableWord 96 0x0140C05FF828200000000003 = some (.imad { d := 3, a := 0x002, b := 0x1FF, c := 0x105, typ := 4, imm := 3 }) ∧
    decodeTableWord 96 0xC040C6800000000000000000 = some (.st { d := 3, b := 1, i := 0x140 }) := by decide
/-- The worked FMT word of R348. -/
theorem test_decode_setfmt : decodeTableWord 32 (0b100100 * 2 ^ 26 + 0x31265) = some (.setfmt 0x31265) := by decide
/-- op6, d6, a6, imm14 (SI). -/
theorem test_decode_si : decodeTableWord 32 0b00000100001000001111111111111110 = some (.saddi 2 3 0x3FFE) ∧ decodeTableWord 32 0b00011000001000001100000000111111 = some (.sshri 2 3 63) ∧
    decodeTableWord 32 0b00011000001000001100000001000000 = none := by decide
/-- op6, d6, b4, sz2, imm14 (SM); a6 and imm8 (SMX). -/
theorem test_decode_memory : decodeTableWord 32 0b01000000011100111111111111111111 = some (.sld 7 3 3 0x3FFF) ∧ decodeTableWord 32 0b01001100011100111000010010000000 = some (.sstx 7 3 2 4 0x80) := by decide
/-- SA: aop4, sc2, acq, rel; SB; SBO. -/
theorem test_decode_records : decodeTableWord 32 0b01010100000100100000111010011000 = some (.satom 1 2 3 10 1 1 0) ∧ decodeTableWord 32 0b01011001010110000000000000000001 = some (.brld 5 6 1) ∧
    decodeTableWord 32 0b01011100010000001000110000000010 = some (.brext 1 2 3) := by decide
/-- SBR, SK, SJ. -/
theorem test_decode_branches : decodeTableWord 32 0b01100000010001011000000000000000 = some (.bgtz 4 0x8000) ∧ decodeTableWord 32 0b01100100100100000000000000000011 = some (.bkall 2 3) ∧
    decodeTableWord 32 0b01101011111111111111111111111111 = some (.bra 0x3FFFFFF) ∧ decodeTableWord 32 0b01101100000000000000000000000001 = some (.call 1) := by decide
/-- Opcode 0x1C: RET S0 is the junction of a CALLV; CALLV holds v8 in bits 19:12. -/
theorem test_decode_jumps : decodeTableWord 32 0b01110000000000010100000000000000 = some (.jr 5) ∧ decodeTableWord 32 0b01110000000000000000000000000010 = some .retS0 ∧
    decodeTableWord 32 0b01110000000000000100000000000010 = some (.ret 1) ∧ decodeTableWord 32 0b01110000000011111110000000000011 = some (.callv 0xFE) := by decide
/-- SK of DIVG and BRKL, SN of JUNC. -/
theorem test_decode_division : decodeTableWord 32 0b01110100110100000000000000000111 = some (.divg 3 1 7) ∧ decodeTableWord 32 0b01110100001011111111111111111111 = some (.divgLoop 0xFFFFF) ∧
    decodeTableWord 32 0b01111100010000000000000000000000 = some (.brkl 1 0) ∧ decodeTableWord 32 0b01111000000000000000000000000000 = some .junc := by decide
/-- KOP names K registers in 6-bit fields; 16 is refused. -/
theorem test_decode_masks : decodeTableWord 32 0b10001000000100001000001100000011 = some (.kandn 1 2 3) ∧ decodeTableWord 32 0b10001001000000001000001100000011 = none ∧
    decodeTableWord 32 0b10001100010100011000000000000010 = some (.kpopc 5 6) := by decide
/-- SW (Table 17-4), SO (Table 17-5), SQ, SY, SE, SV, SX. -/
theorem test_decode_task_forms : decodeTableWord 32 0b10110000000000001001000000001000 = some (.barr 9 1) ∧ decodeTableWord 32 0b10110000001100000000010100000100 = some (.arriveStageClose 3 5) ∧
    decodeTableWord 32 0b10111000000000011100000011000011 = some (.acq 7 2 3) ∧ decodeTableWord 32 0b11000000000100001000001100010000 = some (.cont 1 2 3 4) ∧
    decodeTableWord 32 0b11000100000000000000000000101010 = some (.trap 42) ∧ decodeTableWord 32 0b11100000000000000111000000000000 = some (.repack 7) ∧
    decodeTableWord 32 0b10100010000000000000000000000000 = some .sigr ∧ decodeTableWord 32 0b10011100000000000000100000000001 = some (.waitf 0x801) := by decide
/-- Opcodes 0x2A, 0x2B, 0x2D, 0x33 to 0x37. -/
theorem test_decode_system : decodeTableWord 32 0b10101000000100001000001100000001 = some (.spawnf 1 2 3) ∧ decodeTableWord 32 0b10101100000100001000000000000000 = some (.joinChild 1 2) ∧
    decodeTableWord 32 0b10110100000100001000001100000001 = some (.waitm 1 2 3) ∧ decodeTableWord 32 0b11001100000100001000001100000001 = some (.mappg 1 2 3) ∧
    decodeTableWord 32 0b11011000000000001000001100001011 = some (.wqry 2 3 11) ∧ decodeTableWord 32 0b11010100010000000000000000000000 = some (.rdv 4) := by decide
/-- Unassigned opcodes and selectors, and a field that must be zero (R302, R308). -/
theorem test_decode_refuses : decodeTableWord 32 0b00101100000000000000000000000000 = none ∧ decodeTableWord 32 0b00000000000100001000001100011010 = none ∧
    decodeTableWord 32 0b10100100000000000000000000000001 = none ∧ decodeTableWord 96 (0x01E * 2 ^ 86) = none ∧ decodeTableWord 128 (0x08 * 2 ^ 120) = none := by decide
/-- An LR word of each class, op10 in bits 95:86: SHFL, FFMA with every modifier, CVT, TCP. -/
theorem test_decode_lr : decodeTableWord 96 (0x080 * 2 ^ 86 + 4 * 2 ^ 78 + 2 * 2 ^ 69 + 3 * 2 ^ 60 + 5 * 2 ^ 51 + 4 * 2 ^ 43) = some (.shfl { d := 4, a := 2, b := 3, c := 5, typ := 4 }) ∧
    decodeTableWord 96 (0x103 * 2 ^ 86 + 10 * 2 ^ 43 + 3 * 2 ^ 40 + 2 ^ 39 + 2 ^ 38 + 0b101 * 2 ^ 35 + 0b10 * 2 ^ 33) = some (.ffma { typ := 10, rnd := 3, sat := true, ftz := true, neg := 5, abs := 2 }) ∧
    decodeTableWord 96 (0x200 * 2 ^ 86 + 4 * 2 ^ 47 + 10 * 2 ^ 43) = some (.cvt { kd := 4, typ := 10 }) ∧ decodeTableWord 96 (0x3C0 * 2 ^ 86 + 0x101 * 2 ^ 60) = some (.tcp { b := 0x101 }) := by decide
/-- An LM word with every field: ATOM and OUTL. -/
theorem test_decode_lm : decodeTableWord 96 (0x380 * 2 ^ 86 + 6 * 2 ^ 78 + 9 * 2 ^ 74 + 0x141 * 2 ^ 65 + 2 * 2 ^ 59 + 3 * 2 ^ 57 + 2 ^ 56 + 0x0420A * 2 ^ 32 + 0xFFFFFFFF) =
      some (.atom { d := 6, b := 9, i := 0x141, scope := 2, hint := 3, fs := true, aux := 0x0420A, off := 0xFFFFFFFF }) ∧
    decodeTableWord 96 (0x205 * 2 ^ 86 + 2 ^ 78 + 0x140 * 2 ^ 65 + 3 * 2 ^ 52) = some (.outl { d := 1, i := 0x140, kd := 3 }) := by decide
theorem test_decode_matrix : decodeTableWord 128 (0x04 * 2 ^ 120 + 2 * 2 ^ 96 + 16 * 2 ^ 64 + 8 * 2 ^ 32) = some (.mdrain { a := 2, x := 16, y := 8 }) ∧
    decodeTableWord 128 (0x05 * 2 ^ 120 + 3 * 2 ^ 64 + 10 * 2 ^ 32) = some (.mloop { x := 3, y := 10 }) := by decide
theorem test_encode_worked : encode (.sadd 3 1 2) = some (32, 0x00304200) ∧ encode (.imad { d := 3, a := 0x002, b := 0x1FF, c := 0x105, typ := 4, imm := 3 }) = some (96, 0x0140C05FF828200000000003) ∧
    encode (.mend {}) = some (128, 0x07 * 2 ^ 120) ∧ encode .partReset = none := by decide

/-! ### One step on a small state -/

/-- The train that one step of a placed word leaves, from the placed train changed by `f`. -/
def runWord (nbits w : Nat) (f : Train → Train) : Option Train := match step ((State.reset.withFetchWord nbits w).modTrain 0 0 f) with
  | .next s => s.train 0 0
  | _ => none

/-- Scalar register `n` after such a step. -/
def sAfter (w n : Nat) (f : Train → Train) : Option W64 := (runWord 32 w f).map (fun t => t.getS n)
/-- Lane register `r` of lane `l` after such a step. -/
def vAfter (w r l : Nat) (f : Train → Train) : Option W32 := (runWord 96 w f).map (fun t => t.getV r l)
/-- The task after a step of a placed word. -/
def taskAfter (nbits w : Nat) (f : Train → Train) : Option Task := match step ((State.reset.withFetchWord nbits w).modTrain 0 0 f) with
  | .next s => s.task 0
  | _ => none

/-- R327: SADD S3, S1, S2 wraps; the source is also the destination in the second. -/
theorem test_step_sadd : sAfter 0x00304200 3 (fun t => (t.setS 1 0xFFFFFFFFFFFFFFFF).setS 2 2) = some 1 := by decide +kernel
/-- R306: a write to S0 is discarded. -/
theorem test_step_s0 : sAfter 0x00004200 0 (fun t => (t.setS 1 5).setS 2 2) = some 0 := by decide +kernel
/-- R328: SDIV of -2^63 by -1 is -2^63, and no flag. -/
theorem test_step_sdiv : (runWord 32 0x00304212 (fun t => (t.setS 1 0x8000000000000000).setS 2 0xFFFFFFFFFFFFFFFF)).map (fun t => (t.getS 3, t.xflags)) = some (0x8000000000000000, 0) := by decide +kernel
/-- R328: SREM by 0 is the dividend, with DZ. -/
theorem test_step_srem : (runWord 32 0x00304214 (fun t => t.setS 1 77)).map (fun t => (t.getS 3, t.xflags)) = some (77, 2) := by decide +kernel
/-- R329: SADDI sign-extends its immediate. -/
theorem test_step_saddi : sAfter 0b00000100001000001111111111111110 2 (fun t => t.setS 3 1) = some 0xFFFFFFFFFFFFFFFF := by decide +kernel
/-- R331, R307: BNZ S4 three words back from VA 0 wraps below 0. -/
theorem test_step_bnz : (runWord 32 0x6041FFFD (fun t => t.setS 4 1)).bind (fun t => (t.portion 0).map Portion.pc) = some 0xFFFFFFFFFFFFFFF4 := by decide +kernel
/-- R333: CALL links the next word. -/
theorem test_step_call : (runWord 32 0b01101100000000000000000000000100 id).bind (fun t => (t.portion 0).map (fun o => (o.pc, t.getS 63))) = some (16, 4) := by decide +kernel
/-- R116, R179: an instruction of 1 au moves it from ALW to SPENT. -/
theorem test_step_charge : (taskAfter 32 0xA4000000 id).map (fun k => (k.alw, k.spent)) = some (2 ^ 32 - 1, 1) := by decide +kernel
/-- R303, R159: UDF unwinds its task with status FAULT and code 0x02 (ILLOP), and charges nothing. -/
theorem test_step_udf : (taskAfter 32 0xFFFFFFFF id).map (fun k => (k.state, k.status, k.faultCode, k.spent)) = some (.unwinding, 4, fILLOP, 0) := by decide +kernel
/-- R346: KSETEXM enables no lane outside PM or DEADM's complement. -/
theorem test_step_ksetexm : (runWord 32 0b10001000000000000100000000000110 (fun t => { t.setK 1 0xFF with deadm := 0x0F })).bind (fun t => (t.portion 0).map Portion.exm) = some 0xF0 := by decide +kernel
/-- R350: MFS of COREID, and of SPSIZE with no scratchpad. -/
theorem test_step_mfs : sAfter 0b10011000011100000000000000000010 7 (fun t => t.setS 7 9) = some 0 := by decide +kernel
/-- R351: MTS of XFLAGS ignores the RZ bits. -/
theorem test_step_mts : (runWord 32 0b10011000011100000000000100001010 (fun t => t.setS 7 0xFFFFFFFFFFFFFFFF)).map Train.xflags = some 0xF77F := by decide +kernel
/-- R355: SIGR clears SIG and folds nothing. -/
theorem test_step_sigr : (runWord 32 0xA2000000 (fun t => t.setPortion 0 { pc := 0, sig := 5 })).bind (fun t => (t.portion 0).map Portion.sig) = some 0 := by decide +kernel
/-- R342: CLS queues a clause at its offset. -/
theorem test_step_cls : (runWord 32 0x80000002 id).bind (fun t => (t.portion 0).map (fun o => o.clauses.map Clause.off)) = some [2] := by decide +kernel
/-- R172: DIVG K1 with lanes 0 to 7 taken makes two portions. -/
theorem test_step_divg : (runWord 32 0b01110100010000000000000000000100 (fun t => t.setK 1 0xFF)).map (fun t => t.portions.map (fun e => (e.2.pc, e.2.exm))) = some [(4, 0xFFFFFF00), (16, 0xFF)] := by decide +kernel
/-- R405: BREXT writes EXTENT and keeps the rest; a value above 32 bits faults. -/
theorem test_step_brext : (runWord 32 0b01011100010000001000110000000010 (fun t => (t.setB 3 5).setS 2 7)).map (fun t => t.getB 1) = some (5 + 7 * 2 ^ 96) := by decide +kernel
/-- R443: TRAP parks with its immediate and costs 16 au. -/
theorem test_step_trap : (taskAfter 32 0b11000100000000000000000000101010 id).map Task.spent = some 16 ∧
    (runWord 32 0b11000100000000000000000000101010 id).bind (fun t => t.call.map Call.imm) = some 42 := by decide +kernel
/-- R445: RFLT outside the handler faults ILLOP. -/
theorem test_step_rflt : (taskAfter 32 0b11001100000000000000000000000000 id).map Task.faultCode = some fILLOP := by decide +kernel
/-- R430: TSTAT of 0 gives the caller's ALW after the charge, and RUNNING. -/
theorem test_step_tstat : sAfter 0b10101100000100000000000000000100 1 id = some (BitVec.ofNat 64 ((2 ^ 32 - 1) * 65536 + 1)) := by decide +kernel
/-- R438: RDV with nothing to collect. -/
theorem test_step_rdv : sAfter 0b11010100010000000000000000000000 4 id = some 0xFFFFFFFF := by decide +kernel
/-- R423: RESIZE of more than 10 ways returns NOWAYS. -/
theorem test_step_resize : sAfter 0b10111100000100001000001100000000 1 (fun t => t.setS 2 11) = some 1 := by decide +kernel
/-- R361: IMAD V3 = V2 * 3 + S5, in lane 5. -/
theorem test_step_imad : vAfter 0x0140C05FF828200000000003 3 5 (fun t => t.setV 2 5 7) = some 21 := by decide +kernel
/-- R252: IADD.u8.sat of 200 and 100 clamps to 255, kept as the register's 8 bits sign-extended or not as R251 says, with SAT. -/
theorem test_step_iadd_sat : (runWord 96 (0x001 * 2 ^ 86 + 3 * 2 ^ 78 + 1 * 2 ^ 69 + 2 * 2 ^ 60 + 1 * 2 ^ 43 + 2 ^ 39) (fun t => (t.setV 1 0 200).setV 2 0 100)).map (fun t => (t.getV 3 0, t.xflags)) = some (255, 32) := by decide +kernel
/-- R363: SHL by the width gives 0. -/
theorem test_step_shl : vAfter (0x00F * 2 ^ 86 + 3 * 2 ^ 78 + 1 * 2 ^ 69 + 2 * 2 ^ 60 + 5 * 2 ^ 43) 3 0 (fun t => (t.setV 1 0 0xFFFFFFFF).setV 2 0 32) = some 0 := by decide +kernel
/-- R366: ICMP.s32 < of -1 and 1 in lane 0. -/
theorem test_step_icmp : (runWord 96 (0x019 * 2 ^ 86 + 2 * 2 ^ 78 + 1 * 2 ^ 69 + 2 * 2 ^ 60 + 1 * 2 ^ 47 + 4 * 2 ^ 43) (fun t => (t.setV 1 0 0xFFFFFFFF).setV 2 0 1)).map (fun t => t.getK 1) = some 1 := by decide +kernel
/-- R381: 1.0 + 1.0 = 2.0 in FP32, and 0.1 + 0.2 rounds to the nearest. -/
theorem test_step_fadd : vAfter (0x100 * 2 ^ 86 + 3 * 2 ^ 78 + 1 * 2 ^ 69 + 2 * 2 ^ 60 + 10 * 2 ^ 43) 3 0 (fun t => (t.setV 1 0 0x3F800000).setV 2 0 0x3F800000) = some 0x40000000 := by decide +kernel
theorem test_step_fadd_rounds : (runWord 96 (0x100 * 2 ^ 86 + 3 * 2 ^ 78 + 1 * 2 ^ 69 + 2 * 2 ^ 60 + 10 * 2 ^ 43) (fun t => (t.setV 1 0 0x3DCCCCCD).setV 2 0 0x3E4CCCCD)).map (fun t => (t.getV 3 0, t.xflags)) = some (0x3E99999A, 16) := by decide +kernel
/-- R390: CVT of the s32 value 3 to FP32. -/
theorem test_step_cvt : vAfter (0x200 * 2 ^ 86 + 3 * 2 ^ 78 + 1 * 2 ^ 69 + 4 * 2 ^ 47 + 10 * 2 ^ 43) 3 0 (fun t => t.setV 1 0 3) = some 0x40400000 := by decide +kernel
/-- R370: SHFLUP by 1 in a segment of 32: lane 5 reads lane 4, lane 0 itself. -/
theorem test_step_shflup : vAfter (0x081 * 2 ^ 86 + 3 * 2 ^ 78 + 1 * 2 ^ 69 + 0x1FF * 2 ^ 60 + 0 * 2 ^ 51 + 4 * 2 ^ 43 + 1) 3 5 (fun t => t.setV 1 4 9) = some 9 := by decide +kernel
/-- R372: VOTE counts the lanes that are not 0. -/
theorem test_step_vote : (runWord 96 (0x084 * 2 ^ 86 + 1 * 2 ^ 69 + 2 * 2 ^ 47) (fun t => t.setV 1 3 1)).map (fun t => t.getK 2) = some 8 := by decide +kernel
/-- R373: REDU.add over all lanes. -/
theorem test_step_redu : vAfter (0x085 * 2 ^ 86 + 3 * 2 ^ 78 + 1 * 2 ^ 69 + 4 * 2 ^ 43) 3 9 (fun t => (t.setV 1 3 5).setV 1 30 6) = some 11 := by decide +kernel
/-- R274, R278: MEND ends the program with status OK at its index. -/
theorem test_step_mend : (match step (State.reset.withFetchWord 128 (0x07 * 2 ^ 120)) with
    | .next s => (s.pairOf 0).progs.map (fun m => (m.ended, m.status, m.at_, m.used))
    | _ => []) = [(true, 0, 0, 1)] := by decide +kernel
/-- R274: MLOOP whose target is not below its own index stops with CMD. -/
theorem test_step_mloop : (match step (State.reset.withFetchWord 128 (0x05 * 2 ^ 120)) with
    | .next s => (s.pairOf 0).progs.map (fun m => (m.ended, m.status))
    | _ => []) = [(true, 6)] := by decide +kernel
/-- R83: a lane register operand that fails its check kills its lane; the task counts it. -/
theorem test_upset_lane : (match step { State.reset.withFetchWord 96 0x0140C05FF828200000000003 with agenda := [.upset (.laneOperand {} 0x20)] } with
    | .next s => ((s.train 0 0).map Train.deadm, (s.task 0).map Task.dead)
    | _ => (none, none)) = (some 0x20, some 1) := by decide +kernel
/-- R87, R88: a scalar register that fails its check, with no retry left, ends the task SIGFAIL (3). -/
theorem test_upset_scalar : (match step { State.reset.withFetchWord 32 0x00304200 with agenda := [.upset (.scalarOperand {})] } with
    | .next s => (s.task 0).map (fun k => k.status)
    | _ => none) = some 3 := by decide +kernel

end Sys2Proof.Tests
end

