-- ==== Sys2Proof/Tests/Witness.lean ====
section
/-! SUPPORT. Witnesses: for each statement with hypotheses, a concrete state and operands that meet them together, clause by clause (`witness_<Statement>`), boundary values first. The states are small: one train on core 0, or the fields a device step reads. -/

set_option Elab.async false

namespace Sys2Proof.Tests

open Sys2Proof Sys2Proof.Machine Sys2Proof.Claims

/-- The focus of a state, or an empty one. -/
def curOf (s : State) : Cur := match s.cur with
  | some c => c
  | none => { core := 0, slot := 0, p := 0, t := placedTrain false, o := { pc := 0 } }

/-- Whether a scalar instruction with the needs `q` issues at the focus. -/
def mayIssue (s : State) (q : SReq) : Bool :=
  s.cur.isSome && s.scalarMay (curOf s) && !(curOf s).mustWait q && decide (q.stall = .no) && !((curOf s).t.handler.isSome && q.breach) && s.canPay (curOf s).t.task ((curOf s).need q)

theorem cur_curOf {s : State} (h : s.cur.isSome = true) : s.cur = some (curOf s) := by
  unfold curOf
  split <;> simp_all

theorem ready_iff {s : State} {q : SReq} : s.ready (curOf s) q ↔ mayIssue s q = true := by
  simp only [mayIssue, Bool.and_eq_true, Bool.not_eq_true', decide_eq_true_eq]
  exact ⟨fun h => ⟨⟨⟨⟨⟨by rw [h.1]; rfl, h.2.1⟩, h.2.2.1⟩, h.2.2.2.1⟩, h.2.2.2.2.1⟩, h.2.2.2.2.2⟩, fun h => ⟨cur_curOf h.1.1.1.1.1, h.1.1.1.1.2, h.1.1.1.2, h.1.1.2, h.1.2, h.2⟩⟩

theorem cur_iff {s : State} : s.cur = some (curOf s) ↔ s.cur.isSome = true := ⟨fun h => by rw [h]; rfl, cur_curOf⟩

/-- The lane cursor of a state, or an empty one. -/
def laneOf (s : State) : LCtx := match (curOf s).clause with
  | some cl => { c := curOf s, cl := cl, act := live cl.exm (curOf s).t.deadm }
  | none => { c := curOf s, cl := placedClause, act := 0 }

theorem laneOf_c (s : State) : (laneOf s).c = curOf s := by
  unfold laneOf
  split <;> rfl

/-- Whether a lane instruction with the needs `q` issues at the cursor. -/
def mayIssueLane (s : State) (q : LReq) : Bool :=
  s.cur.isSome && (curOf s).clause.isSome && s.laneMay (curOf s) && !(curOf s).t.awaitsLane (curOf s).p q && !(q.memory && (curOf s).t.replying) && decide (q.stall = .no) &&
    !((curOf s).t.handler.isSome && q.breach) && q.inBudget (curOf s).t.budget && s.canPay (curOf s).t.task (if (curOf s).t.handler.isSome then 0 else q.cost + q.extra)

theorem readyLane_iff {s : State} {q : LReq} : s.readyLane (laneOf s) q ↔ mayIssueLane s q = true := by
  simp only [mayIssueLane, Bool.and_eq_true, Bool.not_eq_true', decide_eq_true_eq]
  constructor
  · rintro ⟨h, hc, -, h4, h5, h6, h7, h8, h9, h10⟩
    have e : laneOf s = { c := curOf s, cl := (laneOf s).cl, act := (laneOf s).act } := by unfold laneOf; split <;> rfl
    rw [e] at h hc h4 h5 h6 h8 h9 h10
    exact ⟨⟨⟨⟨⟨⟨⟨⟨by rw [h]; rfl, by rw [hc]; rfl⟩, h4⟩, h5⟩, h6⟩, h7⟩, h8⟩, h9⟩, h10⟩
  intro h
  obtain ⟨cl, hcl⟩ := Option.isSome_iff_exists.1 h.1.1.1.1.1.1.1.2
  have e : laneOf s = { c := curOf s, cl := cl, act := live cl.exm (curOf s).t.deadm } := by simp [laneOf, hcl]
  rw [e]
  exact ⟨cur_curOf h.1.1.1.1.1.1.1.1, hcl, rfl, h.1.1.1.1.1.1.2, h.1.1.1.1.1.2, h.1.1.1.1.2, h.1.1.1.2, h.1.1.2, h.1.2, h.2⟩

/-- The train on core 0 changed by `f`, in a state whose focus it has; its task may spend 2^32 au. -/
def on (f : Train → Train) : State := { (State.reset.withTrain false).modTrain 0 0 f with agenda := [] }
/-- The same with a lane word's clause under way. -/
def onLane (f : Train → Train) : State := { (State.reset.withTrain true).modTrain 0 0 f with agenda := [] }
/-- A plain train. -/
def s0 : State := on id
def l0 : State := onLane id
/-- The portion of that train changed by `f`. -/
def onPortion (f : Portion → Portion) : State := on (fun t => { t with portions := [(0, f { pc := 0 })] })
/-- The task changed by `f`. -/
def onTask (f : Task → Task) : State := s0.modTask 0 f
/-- A plain handler bank and fault context. -/
def bank : Handler := { portion := 0, s := [1, 2, 3, 4, 5, 6, 7, 8], v := [(511, 1)], k0 := 1, k1 := 2, exm := 0xFFFFFFFF, fmt := 0, sig := 5, lineage := false, xflags := 0, lcb := 0, pc := 0x40, clauses := [], wait := .none, since := 0 }
def cause (ls : List LaneFault) (a : Option Acc) : FaultCtx := { portion := 0, access := a, lanes := ls, pc := 0x40, word := none, charged := false }

/-! ### The scalar stream -/

theorem witness_ScalarArithmetic : s0.ready (curOf s0) (sreq 0 [63, 63, 0] [63]) ∧ s0.ready (curOf s0) (sreq 1 [0, 63] [0]) ∧ s0.ready (curOf s0) (sreq 5 [63, 1] [63]) ∧
    s0.ready (curOf s0) (sreq 9 [63, 0] [63]) ∧ s0.ready (curOf s0) (sreq 0xA [63, 63, 0] [63]) := by
  simp only [ready_iff]
  decide +kernel

theorem witness_BranchesAndJumps : s0.ready (curOf s0) (sreq 0x18 [0] []) ∧ s0.ready (curOf s0) (kreq 0x19 [] [] [15] []) ∧ s0.ready (curOf s0) (sreq 0x1A [] []) ∧ s0.ready (curOf s0) (sreq 0x1B [63] [63]) ∧
    s0.ready (curOf s0) (sreq 0x1C [1] []) ∧ goodTarget ((curOf s0).t.getS 1) ∧ s0.ready (curOf s0) (sreq 0x1C [1, 63] [63]) ∧
    (on (fun t => t.setS 1 0x01FFFFFFFFFFFFFC)).ready (curOf (on (fun t => t.setS 1 0x01FFFFFFFFFFFFFC))) (sreq 0x1C [1] []) ∧
    goodTarget ((curOf (on (fun t => t.setS 1 0x01FFFFFFFFFFFFFC))).t.getS 1) ∧ ¬ goodTarget ((curOf (on (fun t => t.setS 1 2))).t.getS 1) ∧
    ¬ goodTarget ((curOf (on (fun t => t.setS 1 0x0200000000000000))).t.getS 1) := by
  simp only [ready_iff, goodTarget]
  decide +kernel

theorem witness_MaskAndFormatRegisters : s0.ready (curOf s0) (kreq 0x22 [] [] [15, 15, 0] [15]) ∧ s0.ready (curOf s0) (kreq 0x22 [] [] [15, 0] [15]) ∧ s0.ready (curOf s0) (kreq 0x22 [] [] [15] [15]) ∧
    s0.ready (curOf s0) (kreq 0x23 [63] [63] [15] []) ∧ s0.ready (curOf s0) (kreq 0x23 [63] [] [15] [15]) ∧ s0.ready (curOf s0) { kreq 0x22 [] [] [15] [] with exm := true } ∧ s0.ready (curOf s0) { sreq 0x24 [] [] with fmt := true } ∧ ((0x31265 : BitVec 18).getLsbD 15 = false ∧ fmtOk ((0x31265 : BitVec 18).setWidth 64) = true) ∧
    ¬ ((0x8000 : BitVec 18).getLsbD 15 = false ∧ fmtOk ((0x8000 : BitVec 18).setWidth 64) = true) ∧ s0.ready (curOf s0) { sreq 0x25 [1] [] with fmt := true } ∧ s0.ready (curOf s0) (sreq 0x25 [1] [1]) ∧ fmtOk ((curOf s0).t.getS 1) = true ∧
    fmtOk ((curOf (on (fun t => t.setS 1 3))).t.getS 1) = false := by
  simp only [ready_iff]
  decide +kernel

theorem witness_SpecialRegisters : (∀ r ∈ [0x00, 0x09, 0x11, 0x12, 0xFF], s0.ready (curOf s0) (mfsReq (curOf s0) 63 r) ∧ s0.ready (curOf s0) (mtsReq (curOf s0) 63 r)) ∧ (∀ r ∈ [0x06, 0x07, 0x0A, 0x0C], s0.ready (curOf s0) (mtsReq (curOf s0) 0 r)) ∧
    fmtOk ((curOf s0).t.getS 1) = true ∧ fmtOk ((curOf (on (fun t => t.setS 1 3))).t.getS 1) = false ∧
    ((curOf (on (fun t => t.setS 1 12))).t.getS 1).toNat % 12 = 0 ∧ canonical ((curOf (on (fun t => t.setS 1 12))).t.getS 1).toNat = true ∧
    ¬ (((curOf (on (fun t => t.setS 1 4))).t.getS 1).toNat % 12 = 0) := by
  simp only [ready_iff]
  decide +kernel

/-- A clause at LCB 0. -/
abbrev clause0 : Clause := placedClause
/-- Code at LCB 0 that reads 7, and a train whose SIG is `g`. -/
def sigState (g : W32) (l : Bool) : State := { on (fun t => { t with lineage := l, portions := [(0, { pc := 0, sig := g })] }) with mem := [(0, 7)] }

theorem witness_WaitsSignaturesAndIllegalWords : s0.ready (curOf s0) (sreq 0x27 [] []) ∧ s0.ready (curOf s0) (sreq 0x29 [] []) ∧ s0.ready (curOf s0) sigReq ∧
    (∀ i ∈ [7, 8], let s := sigState (BitVec.ofNat 32 i) false;
      s.ready (curOf s) (sigcReq s 0 (curOf s)) ∧ s.codeLost (curOf s).core (portionOwner (curOf s).core (curOf s).slot (curOf s).p) ((curOf s).pslot s) ((curOf s).t.lcb.toNat + 4 * 0) = false ∧ (s.codeAt (curOf s).core ((curOf s).pslot s) ((curOf s).t.lcb.toNat + 4 * 0) 4).toOption = some 7) ∧
    (let s := sigState 7 true;
      s.ready (curOf s) (sigcReq s 0 (curOf s)) ∧ s.codeLost (curOf s).core (portionOwner (curOf s).core (curOf s).slot (curOf s).p) ((curOf s).pslot s) ((curOf s).t.lcb.toNat + 4 * 0) = false ∧ (s.codeAt (curOf s).core ((curOf s).pslot s) ((curOf s).t.lcb.toNat + 4 * 0) 4).toOption = some 7 ∧ (curOf s).t.lineage = true) ∧
    s0.cur = some (curOf s0) ∧ s0.scalarMay (curOf s0) = true ∧ s0.ev.yes = false ∧
    (let s : State := { l0 with ev := { yes := true } }
     s.ev.yes = true ∧ s.cur = some (laneOf s).c ∧ (laneOf s).c.clause = some (laneOf s).cl ∧ (laneOf s).act = live (laneOf s).cl.exm (laneOf s).c.t.deadm ∧ s.laneMay (laneOf s).c = true) := by
  simp only [laneOf_c, ready_iff, cur_iff]
  decide +kernel

theorem witness_ClauseEnqueue : s0.ready (curOf s0) (clsReq (curOf s0) 0x20 []) ∧ s0.ready (curOf s0) (clsReq (curOf s0) 0x21 [63]) ∧
    ((curOf (on (fun t => t.setS 63 0xFFFFFF))).t.getS 63).toNat < 2 ^ 24 ∧ 2 ^ 24 ≤ ((curOf (on (fun t => t.setS 63 0x1000000))).t.getS 63).toNat ∧
    (onPortion (fun o => { o with clauses := [clause0, clause0, clause0, clause0] })).cur.isSome = true ∧
    4 ≤ (curOf (onPortion (fun o => { o with clauses := [clause0, clause0, clause0, clause0] }))).o.clauses.length := by
  simp only [ready_iff]
  decide +kernel

/-- A train whose reconvergence stack holds `n` entries. -/
def deep (n : Nat) : State := onPortion (fun o => { o with stack := List.range n })

theorem witness_DivisionAndLoops : (deep 15).ready (curOf (deep 15)) { ctlReq 0x1D [15] with exm := true } ∧ (curOf (deep 15)).o.stack.length < 16 ∧ (deep 16).ready (curOf (deep 16)) { ctlReq 0x1D [15] with exm := true } ∧
    16 ≤ (curOf (deep 16)).o.stack.length ∧ (deep 16).ready (curOf (deep 16)) { ctlReq 0x1D [] with exm := true } ∧ (deep 15).ready (curOf (deep 15)) { ctlReq 0x1D [] with exm := true } ∧
    s0.ready (curOf s0) { op := 0x1F, kregs := [15], exm := true } ∧
    ((curOf s0).t.portion 0 = some (curOf s0).o ∧ (curOf s0).t.freePortion = some 1 ∧ (0x80000000 : W32) &&& ((curOf s0).o.exm &&& ~~~ (curOf s0).t.deadm) = 0x80000000 ∧
      ((curOf s0).o.exm &&& ~~~ (curOf s0).t.deadm) &&& ~~~ (0x80000000 : W32) ≠ 0) := by
  simp only [ready_iff]
  decide +kernel

/-- A train with one reconvergence entry of a kind on its stack. -/
def within (k : EntryKind) : State :=
  on (fun t => { t with portions := [(0, { pc := 0x10, stack := [0] })], entries := [(0, { kind := k, m := 0xFFFFFFFF, fmt := 0, sig := 0, junc := some 0x10, owner := 0, members := [0] })] })

theorem witness_JunctionsAndCallv :
    (∀ k ∈ [EntryKind.divg, EntryKind.loop], ∃ o e, (curOf (within k)).t.portion 0 = some o ∧ o.stack = [0] ∧ Table.find (curOf (within k)).t.entries 0 = some e ∧ e.kind ≠ .callv ∧ e.deferred = [] ∧
      e.members = [0] ∧ e.owner = 0 ∧ Table.sorted (curOf (within k)).t.entries = true) ∧
    s0.ready (curOf s0) (ctlReq 0x1E []) ∧ s0.ready (curOf s0) (ctlReq 0x1C []) ∧ (curOf s0).top = none ∧
    (within .callv).ready (curOf (within .callv)) (ctlReq 0x1C []) ∧ ((curOf (within .callv)).top.map (fun e => (e.kind, e.junc))) = some (.callv, some 0x10) ∧
    (within .loop).ready (curOf (within .loop)) (ctlReq 0x1C []) ∧ ((curOf (within .loop)).top.map REntry.kind) = some .loop ∧
    s0.ready (curOf s0) (callvReq s0 (curOf s0) 255) ∧
    (let s : State := { on (fun t => { t with v := (List.range 32).map (fun l => (32 * 254 + l, 8)) }) with mem := [(6, 0xB0), (7, 0xFC)] }
     s.ready (curOf s) (callvReq s (curOf s) 254) ∧ (254 : BitVec 8).toNat % 2 = 0 ∧ (254 : BitVec 8).toNat + 1 < 32 + 16 * (curOf s).t.budget ∧ (curOf s).o.stack.length < 16 ∧
      callTargets (curOf s) 254 = [8] ∧ ∀ x ∈ callTargets (curOf s) 254, s.targetFault (curOf s) x = none) ∧
    (deep 16).ready (curOf (deep 16)) (callvReq (deep 16) (curOf (deep 16)) 0) ∧ (curOf (deep 16)).o.exm &&& ~~~ (curOf (deep 16)).t.deadm ≠ 0 ∧
    (let s := on (fun t => { t with budget := 0 }); s.ready (curOf s) (callvReq s (curOf s) 32) ∧ 32 + 16 * (curOf s).t.budget ≤ 32 + 1) ∧
    (let s := on (fun t => t.setV 0 31 2); s.ready (curOf s) (callvReq s (curOf s) 0) ∧ 2 ∈ callTargets (curOf s) 0 ∧ (s.targetFault (curOf s) 2).isSome = true) := by
  refine ⟨fun k h => ?_, ?_⟩
  · fin_cases h <;> exact ⟨_, _, rfl, rfl, rfl, by decide, rfl, rfl, rfl, rfl⟩
  simp only [ready_iff]
  decide +kernel

theorem witness_HandlerEntry : (let fs : List LaneFault := [{ lane := 31, code := 127, va := 2 ^ 57 - 1 }, { lane := 0, code := 0, va := 0 }]
    s0.train 0 0 = some (curOf s0).t ∧ (curOf s0).t.portion 0 = some (curOf s0).o ∧ Table.sorted (curOf s0).t.s = true ∧ Table.sorted (curOf s0).t.v = true ∧ Table.sorted (curOf s0).t.portions = true ∧ fs ≠ [] ∧
      (∀ f ∈ fs, f.lane < 32 ∧ f.code < 128 ∧ f.va < 2 ^ 57) ∧ (fs.map LaneFault.lane).Nodup) := by
  decide +kernel

/-- The handler running for lane 31, whose access is `a`, with EXM `m`. -/
def handling (m : W32) (a : Option Acc) : State :=
  on (fun t => { t with handler := some bank, fault := some (cause [{ lane := 31, code := fPAGEPOOL, va := 8 }] a), portions := [(0, { pc := 0, exm := m, pm := m })] })
def laneLoad : Acc := { op := .load, scalar := false, brec := 0, dest := .lanes 0, size := 4, width := 1, elems := [] }

/-- The handler running while lane 31 waits for the host. -/
def hosted : State := on (fun t => { t with handler := some bank, fault := some (cause [{ lane := 0, code := fPAGEPOOL, va := 8 }, { lane := 31, code := fLINKERR, va := 8 }] (some laneLoad)) })
/-- The same with a handler that leaves lane 0 out of its EXM. -/
def hostedOnly : State := { hosted with trains := hosted.trains.map (fun e => (e.1, { e.2 with portions := [(0, { pc := 0, exm := 0xFFFFFFFE, pm := 0xFFFFFFFE })] })) }

theorem witness_HandlerReturn : (curOf s0).t.handler = none ∧ s0.ready (curOf s0) (rfltReq s0 (curOf s0)) ∧ s0.ready (curOf s0) (leaveReq (curOf s0)) ∧
    s0.ready (curOf s0) (mappgNeeds 63 0 1) ∧ s0.ready (curOf s0) (ivpgNeeds 63 1) ∧
    (let s := handling 0x80000000 (some laneLoad)
     s.ready (curOf s) (leaveReq (curOf s)) ∧ (rfltReq s (curOf s)).stall = .no ∧ (curOf s).t.handler = some bank ∧ bank.portion = (curOf s).p ∧ bank.s.length = 8 ∧ bank.v.all (fun e => decide (e.1 < 512)) = true ∧
      Table.sorted (curOf s).t.s = true ∧ Table.sorted (curOf s).t.k = true ∧ (curOf s).t.fault.map (fun f => f.access.isSome) = some true ∧
      (curOf s).t.fault.map (fun f => ((f.routed .handler).filter (fun x => (curOf s).o.exm.getLsbD x.lane)).map LaneFault.lane) = some [31]) ∧
    (let s := handling 0x7FFFFFFF (some laneLoad)
     s.ready (curOf s) (leaveReq (curOf s)) ∧ (rfltReq s (curOf s)).stall = .no ∧ (curOf s).t.fault.map (fun f => ((f.routed .handler).filter (fun x => (curOf s).o.exm.getLsbD x.lane)).map LaneFault.lane) = some [] ∧
      (curOf s).t.fault.map (fun f => f.routed .host) = some []) ∧
    (let s := hosted
     s.ready (curOf s) (leaveReq (curOf s)) ∧ (curOf s).t.fault.map (fun f => (f.routed .host).map LaneFault.lane) = some [31]) ∧
    (let s := hostedOnly
     s.ready (curOf s) (leaveReq (curOf s)) ∧ (rfltReq s (curOf s)).stall = .no ∧ (curOf s).t.fault.map (fun f => (f.routed .host).map LaneFault.lane) = some [31] ∧
      (curOf s).t.fault.map (fun f => ((f.routed .handler).filter (fun x => (curOf s).o.exm.getLsbD x.lane)).map LaneFault.lane) = some []) := by
  simp only [ready_iff]
  decide +kernel

/-- A train with a flashback store of S1 and S63. -/
def flash0 : Flash := { pc := 0x20, lcb := 12, sregs := [(1, 5), (63, 6)] }

theorem witness_IntegrityAndRewind :
    (let s := onTask (fun k => { k with retryN := 1 }); ∃ t k, s.train 0 0 = some t ∧ t.handler = none ∧ s.task t.task = some k ∧ k.retryC < k.retryN) ∧
    (let s := onTask (fun k => { k with retryN := 0 }); ∃ t k, s.train 0 0 = some t ∧ t.handler = none ∧ s.task t.task = some k ∧ k.retryN ≤ k.retryC ∧ k.held = true ∧ k.closing = false ∧
      k.state ≠ .done ∧ k.state ≠ .unwinding) ∧
    (∀ e ∈ [(0x0140C05FF828200000000003, false), (0x081 * 2 ^ 86 + 3 * 2 ^ 78 + 1 * 2 ^ 69 + 0x1FF * 2 ^ 60 + 4 * 2 ^ 43 + 1, true)],
      let s : State := { State.reset.withFetchWord 96 e.1 with focus := {}, ev := {} }
      s.cur.isSome = true ∧ s.laneMay (curOf s) = true ∧ (curOf s).o.lwait = .none ∧ (curOf s).clause.map Clause.exm = some 0xFFFFFFFF ∧ (curOf s).t.deadm = 0 ∧
      ((curOf s).clause.bind (fun cl => s.laneNext (curOf s) cl)).map readsAcross = some e.2) ∧
    31 * 1024 < ((State.reset.setScratch 0 0 { ways := 1 }).scratch 0 0).size ∧
    (∀ e ∈ flash0.sregs, 1 ≤ e.1 ∧ e.1 < 64) ∧ (flash0.sregs.map Prod.fst).Nodup := by
  exact ⟨⟨_, _, rfl, rfl, rfl, by decide⟩, ⟨_, _, rfl, rfl, rfl, by decide, rfl, rfl, by decide, by decide⟩, by decide +kernel, by decide +kernel, by decide, by decide⟩

theorem witness_FaultRoutes :
    (∀ p ∈ [true, false], let s := onTask (fun k => { k with alw := 0, park := p }); s.cur.isSome = true ∧ s.scalarMay (curOf s) = true ∧ (s.task (curOf s).t.task).map (fun k => (k.alw, k.park, k.signalVa)) = some (0, p, 0) ∧
      (curOf s).t.handler = none ∧ (curOf s).o.again = .no ∧ (curOf s).t.pend = [] ∧ (curOf s).o.clauses = []) ∧
    (∃ t k, s0.train 0 0 = some t ∧ t.handler = none ∧ s0.task t.task = some k ∧ k.held = true ∧ k.closing = false ∧ k.state ≠ .done ∧ k.state ≠ .unwinding) ∧
    (∃ t, (handling 1 none).train 0 0 = some t ∧ t.handler.isSome = true ∧ ∀ x ∈ [({ lane := 0, code := fILLOP, va := 0 } : LaneFault)], x.code ≠ fOWNERSHIP ∧ x.code ≠ fLINKERR ∧ x.code ≠ fLINKTIMEOUT) ∧
    s0.ready (curOf s0) { op := 0x31, cost := 16, clauses := true, boundary := true } ∧ (Instr.trap 0xFEFF).wf = true ∧ (Instr.trap 0xFF00).wf = false := by
  refine ⟨by decide +kernel, ⟨_, _, rfl, rfl, rfl, rfl, rfl, by decide, by decide⟩, ⟨_, rfl, rfl, by decide⟩, ?_⟩
  simp only [ready_iff]
  decide +kernel

/-- A buffer record: base, kind, element size code, stride, extent, and the bits from 128 up. -/
def recOf (base kind esz stride extent hi : Nat) : BitVec 256 := BitVec.ofNat 256 (base + kind * 2 ^ 57 + esz * 2 ^ 60 + stride * 2 ^ 64 + extent * 2 ^ 96 + hi * 2 ^ 128)
/-- A train with one way of scratchpad, B0 = `r` and S1 = `v`. -/
def pad (r : BitVec 256) (v : W64) : State := (on (fun t => (t.setB 0 r).setS 1 v)).setScratch 0 0 { ways := 1 }
/-- The last element of the scratchpad. -/
def padRec : BitVec 256 := recOf 32760 1 3 8 1 0

theorem witness_RecordBuilding : s0.ready (curOf s0) (recReq 15 15 63) ∧ s0.ready (curOf s0) (recReq 15 15 0) ∧
    recordOps.map (fun op => op.2.1 0) = [true, true, true, true, true, true] ∧
    (recordOps.zip [(2 ^ 63 - 1 : W64), 2 ^ 64 - 1, 2 ^ 32 - 1, 2 ^ 31 - 1, 511, 0xFF07]).map (fun e => e.1.2.1 e.2) = [true, true, true, true, true, true] ∧
    (recordOps.zip [(2 ^ 63 : W64), 0, 2 ^ 32, 2 ^ 31, 512, 8]).map (fun e => e.1.2.1 e.2) = [false, true, false, false, false, false] ∧ 255 + 1 ≤ 256 := by
  simp only [ready_iff]
  decide +kernel

theorem witness_ScalarAccesses : (let s := pad padRec 0
    let c := curOf s
    s.ready (curOf s) ((ScalarAccess.sld 0).req s c 63 0 3) ∧ s.ready (curOf s) ((ScalarAccess.sldh 0).req s c 63 0 3) ∧ s.ready (curOf s) ((ScalarAccess.sldx 1 0).req s c 63 0 3) ∧
      s.ready (curOf s) ((ScalarAccess.sst 0).req s c 63 0 3) ∧ s.ready (curOf s) ((ScalarAccess.sstx 1 0).req s c 63 0 3) ∧ usable c 0 3 (ScalarAccess.sst 0).kinds ∧ ¬ usable c 0 3 (ScalarAccess.sldh 0).kinds ∧
      recOk (c.t.getB 0) = true ∧ rKind (c.t.getB 0) ≤ 2 ∧
      s.ready (curOf s) (accReq s c { op := 0x16, bregs := [15, 0] }
        { op := .load, scalar := true, brec := c.t.getB 0, dest := .buffer 15, size := 32, width := 1, elems := (s.formScalar c (c.t.getB 0) 32 32 0).1 })) ∧
    (∀ r ∈ [recOf 0 3 3 8 0 0, recOf 0 1 5 8 0 0], let s := pad r 0
     let c := curOf s
     s.ready (curOf s) (accReq s c (brldNeeds 15 0)
        { op := .load, scalar := true, brec := c.t.getB 0, dest := .buffer 15, size := 32, width := 1, elems := (s.formScalar c (c.t.getB 0) 32 32 0).1 }) ∧ ¬ (recOk (c.t.getB 0) = true ∧ rKind (c.t.getB 0) ≤ 2)) ∧
    (let c := curOf (pad (recOf 0 0 2 8 1 0) 0); usable c 0 2 (ScalarAccess.sldh 0).kinds ∧ ¬ usable c 0 3 (ScalarAccess.sldh 0).kinds) := by
  simp only [ready_iff, usable]
  refine ⟨by decide +kernel, fun r h => ?_, by decide +kernel⟩
  fin_cases h <;> decide +kernel

theorem witness_ScratchpadAccesses : 
    ([recOf 4 0 3 8 1 0, recOf 32760 1 3 8 1 0].map rExtent = [1, 1] ∧ (((4 : Int) + swz 0 0 * 8) % 2 ^ 64).toNat % 8 ≠ 0 ∧
    (let r := recOf 32760 1 3 8 1 0; (((rBase r : Int) + swz (rSwz r) 0 * rStride r) % 2 ^ 64).toNat = 32760 ∧ rKind r = 1 ∧ 32760 + 8 ≤ 32768 ∧ 32768 < 32761 + 8) ∧
    (let r := recOf (2 ^ 57 - 8) 0 3 8 2 0; ((0 : Int) ≤ 1 ∧ (1 : Int) < rExtent r ∧ rKind r ≠ 1 ∧ canonical (((rBase r : Int) + swz (rSwz r) 0 * rStride r) % 2 ^ 64).toNat = true ∧
      canonical (((rBase r : Int) + swz (rSwz r) 1 * rStride r) % 2 ^ 64).toNat = false)) ∧
    ((-1 : Int) < 0 ∧ (rExtent (recOf 0 0 3 8 1 0) : Int) ≤ 1 ∧ rOob (recOf 0 0 3 8 1 0) = 0 ∧ rOob (recOf 0 0 3 8 1 16) = 1 ∧ rOob (recOf 0 0 3 8 1 32) = 2 ∧ rExtent (recOf 0 0 3 8 1 32) ≠ 0 ∧
      rOob (recOf 0 0 3 8 0 32) = 2 ∧ rExtent (recOf 0 0 3 8 0 32) = 0)) ∧
    (let s := pad padRec 0xFFFFFFFFFFFFFFFF
    let c := curOf s
    s.ready (curOf s) ((ScalarAccess.sst 0).req s c 1 0 3) ∧ s.ready (curOf s) ((ScalarAccess.sld 0).req s c 63 0 3) ∧ usable c 0 3 (fun _ => true) ∧ rKind (c.t.getB 0) = 1 ∧ rRdonly (c.t.getB 0) = false ∧
      formElem (c.t.getB 0) (rE (c.t.getB 0)) (2 ^ (3 : BitVec 2).toNat) (s.scratch c.core c.t.task).size (0 : BitVec 14).toInt = .ok (some 32760) ∧ Table.sorted (s.scratch c.core c.t.task).bytes = true ∧
      c.t.handler = none ∧ c.t.fault = none ∧ c.t.call = none ∧ Table.sorted c.t.s = true ∧ Table.sorted c.t.pend = true ∧ (s.scratch c.core c.t.task).isBad 32760 (2 ^ (3 : BitVec 2).toNat) = false) := by
  simp only [ready_iff, usable]
  decide +kernel

theorem witness_ScalarAtomics : (let s := pad padRec 0
    let c := curOf s
    s.ready (curOf s) (satomReq s c 63 0 1 11 0 1 1) ∧ (Instr.satom 63 0 1 11 0 1 1).wf = true ∧ recOk (c.t.getB 0) = true ∧ rKind (c.t.getB 0) ≠ 3 ∧ rEsz (c.t.getB 0) = 3 ∧
      s.ready (curOf s) (tokenReq s c 63 0 2 0 true) ∧ s.ready (curOf s) (tokenReq s c 63 0 2 0 false)) ∧
    s0.counted = [] ∧ Memory.wf s0.mem = true ∧ 2 ^ 32 - 1 < 2 ^ 32 ∧ (9, 2 ^ 32 - 1) ∈ [(0, (s0.readLe 0 4 + (2 ^ 32 - 1)) % 2 ^ 32), (9, 2 ^ 32 - 1), (10, if s0.readLe 0 4 = 0 then 2 ^ 32 - 1 else s0.readLe 0 4)] := by
  simp only [ready_iff]
  decide +kernel

/-- A log with one record. -/
def logged : State := { s0 with logs := [(0, { tail := 1, recs := [{ pos := 0, slot := 0, mask := 1, gran := 0, data := [], pa := some 0 }] })] }

/-- A portion that waits, its release the first of its log. -/
def stalled (w : Wait) : State := { onPortion (fun o => { o with wait := w }) with logs := [(0, { rels := [ticketOf 0 0 0] })] }

theorem witness_OrderingInstructions : s0.ready (curOf s0) (relNeeds (curOf s0) 63) ∧ [0, 1, 2, 3].map (fun sc => (Instr.rel 63 sc).wf) = [true, true, true, false] ∧
    s0.ready (curOf s0) (fenceNeeds (curOf s0) 63) ∧ [0, 1, 2, 3].map (fun sc => (Instr.fence 63 sc).wf) = [true, true, true, false] ∧
    s0.ready (curOf s0) (acqNeeds (curOf s0) 32 1 31) ∧ s0.ready (curOf s0) (acqNeeds (curOf s0) 0 0 0) ∧ s0.ready (curOf s0) (acqNeeds (curOf s0) 0 3 0) ∧
    ((Instr.acq 32 1 31).wf = true ∧ (Instr.acq 0 0 0).wf = true ∧ (Instr.acq 0 3 0).wf = false) ∧
    s0.ready (curOf s0) (orderNeeds (curOf s0) [] [] false) ∧ [0, 1, 2, 3].map (fun sc => (Instr.acqall sc).wf) = [false, true, true, false] ∧
    (∀ w ∈ [Wait.fence none false 63, .settle 63, .release 0 false 63 0, .fence (some 0) false 0, .acquire [0] false, .acqAll [(0, 0)] false], let s := stalled w
      s.cur.isSome = true ∧ (curOf s).o.wait = w ∧ s.waitMay 0 0 (curOf s).t = true ∧ (curOf s).t.performed = true ∧ s.released 0 0 0 0 false = true ∧
      (s.acquireList 0 false [0]).1 = [] ∧ s.allFolded [(0, 0)] false = true) ∧
    s0.train 0 0 = some (curOf s0).t ∧ (curOf s0).t.portion 0 = some (curOf s0).o ∧
    (let c := curOf s0
     let later := fun (u : State) => ({ u with time := 16 } : State)
     let may := fun (u : State) (w : Wait) => ((later u).train c.core c.slot).bind (fun t => (t.portion c.p).map (fun o => (later u).waitMay c.core c.p t && t.performed && decide (o.wait = w)))
     may (s0.leaves c (relNeeds c 63) keep (fun o => { o with wait := .settle 63 })) (.settle 63) = some true ∧
     (let w := releasing (s0.leaves c (relNeeds c 63) keep keep) c
      let r : Wait := .release (w.log c.core).tail false 63 (tokenOf w c.core)
      may (w.waitFor r) r = some true ∧ (later (w.waitFor r)).released c.core c.slot c.p (w.log c.core).tail false = true) ∧
     may (s0.leaves c (fenceNeeds c 63) keep (fun o => { o with wait := .fence none false 63 })) (.fence none false 63) = some true ∧
     (let w := releasing (s0.leaves c (fenceNeeds c 63) keep keep) c
      let r : Wait := .fence (some (w.log c.core).tail) false 63
      may (w.waitFor r) r = some true ∧ (later (w.waitFor r)).released c.core c.slot c.p (w.log c.core).tail false = true) ∧
     (let u := s0.leaves c (acqNeeds c 32 1 0) keep (fun o => { o with wait := .acquire [0] false })
      acqWait c 32 1 0 = .acquire [0] false ∧ may u (.acquire [0] false) = some true ∧ ((later u).acquireList c.core false [0]).1 = []) ∧
     (let v := s0.leaves c (orderNeeds c [] [] false) keep keep
      let w := v.setLog c.core { v.log c.core with last := v.nextStamp c.core }
      w.acqAllTails c.core (v.nextStamp c.core) false = [] ∧ may (w.waitFor (.acqAll [] false)) (.acqAll [] false) = some true)) := by
  simp only [ready_iff]
  decide +kernel

theorem witness_FoldsByStamp : (∀ r ∈ (logged.log 0).recs, r.pa.isSome = true) ∧ (logged.log 0).recs ≠ [] ∧ (let s : State := { s0 with stamps := [(5, (3, 0))] }
    Memory.wf s.mem = true ∧ Table.sorted s.stamps = true ∧ Sparse.wf (0, 0) s.stamps = true ∧ stampLt (3, 0) (s.stampOf 5) = false ∧ stampLt (2, 9) (s.stampOf 5) = true ∧ stampLt (3, 0) (3, 1) = true) := by
  decide +kernel

theorem witness_WaitsOnMemory :
    (let s := pad 0 32760; s.ready (curOf s) (waitmReq (curOf s) 63 1 2) ∧ ((curOf s).t.getS 1).toNat % 8 = 0 ∧ ((curOf s).t.getS 1).toNat + 8 ≤ (s.scratch (curOf s).core (curOf s).t.task).ways * 32768 ∧
      (s.scratch (curOf s).core (curOf s).t.task).isBad ((curOf s).t.getS 1).toNat 8 = false) ∧
    (let s := pad 0 32764; s.ready (curOf s) (waitmReq (curOf s) 63 1 2) ∧ ¬ (((curOf s).t.getS 1).toNat % 8 = 0)) ∧
    (let s := pad 0 32768; s.ready (curOf s) (waitmReq (curOf s) 63 1 2) ∧ ¬ (((curOf s).t.getS 1).toNat + 8 ≤ (s.scratch (curOf s).core (curOf s).t.task).ways * 32768)) ∧
    (let s := pad padRec 0
     let c := curOf s
     s.ready (curOf s) (waitaReq s c 63 1 2) ∧ bits (c.t.getS 1) 7 25 = 0 ∧ recOk (watchRec c 1) = true ∧ rKind (watchRec c 1) = 1 ∧ rEsz (watchRec c 1) = 3 ∧
      formElem (watchRec c 1) (rE (watchRec c 1)) (rE (watchRec c 1)) (s.scratch c.core c.t.task).size (toSigned 32 (bits (c.t.getS 1) 32 32)) = .ok (some 32760) ∧
      (s.scratch c.core c.t.task).isBad 32760 (rE (watchRec c 1)) = false ∧ s.counted = []) ∧
    s0.ready (curOf s0) { op := 0x2F, sregs := [63, 1, 2], swrites := [63], clauses := true, boundary := true, orders := true, stall := if (curOf s0).t.appending then .waits else .no } ∧
    10 < ((curOf (pad 0 11)).t.getS 1).toNat ∧ ¬ (10 < ((curOf (pad 0 10)).t.getS 1).toNat) := by
  simp only [ready_iff]
  decide +kernel

theorem witness_FlashbackPoint : (let bs := List.replicate 36 (0 : Byte)
    s0.ready (curOf s0) { op := 0x32, clauses := true } ∧ (curOf s0).t.handler = none ∧ fbpWait s0 0 (curOf s0) = .no ∧ fbpRead s0 0 (curOf s0) = .ok bs ∧ fbpOk bs (curOf s0).t.budget = true ∧ (curOf s0).t.liveBusy bs = false ∧
      (curOf s0).t.portions.length = 1 ∧ (curOf s0).o.stack = []) ∧
    (let s := deep 1; s.ready (curOf s) { op := 0x32, clauses := true } ∧ fbpWait s 0 (curOf s) = .no ∧ fbpRead s 0 (curOf s) = .ok (List.replicate 36 0) ∧ (curOf s).o.stack ≠ []) ∧
    (let s : State := { s0 with mem := [(0x18, 9)] }; s.ready (curOf s) { op := 0x32, clauses := true } ∧ fbpWait s 0 (curOf s) = .no ∧ fbpRead s 0 (curOf s) = .ok (List.replicate 24 0 ++ [9] ++ List.replicate 11 0) ∧
      fbpOk (List.replicate 24 0 ++ [9] ++ List.replicate 11 0) (curOf s).t.budget = false) ∧
    (let s := handling 1 none; s.ready (curOf s) { op := 0x32, clauses := true } ∧ (curOf s).t.handler.isSome = true) := by
  simp only [ready_iff]
  decide +kernel

/-- The page tables of slot 0 map VA page 0 by the level-0 entry at 0x50000, which holds `e`; the slot's page pool is an array at 0x60000 with `n` frames left. -/
def mapped (s : State) (e n : Nat) : State :=
  let s := (((s.setReg (slotOff 0 0x3B0) 0x10001).setReg (slotOff 0 0x3E0) 0x60000).setReg (slotOff 0 0x3E8) (BitVec.ofNat 64 n))
  { s with mem := Memory.writeBytes (Memory.writeBytes (Memory.writeBytes (Memory.writeBytes (Memory.writeBytes s.mem 0x10000 (leBytes 8 0x20001)) 0x20000 (leBytes 8 0x30001)) 0x30000 (leBytes 8 0x40001)) 0x40000 (leBytes 8 0x50001)) 0x50000 (leBytes 8 e) }

theorem witness_PageMapping : (let s := mapped (handling 1 none) 0 0
    let b : BitVec 64 := (curOf s).t.getS 2
    s.ready (curOf s) (mappgNeeds 7 1 2) ∧ s.ready (curOf s) (ivpgNeeds 1 2) ∧ s.mappgStall (curOf s) ((curOf s).t.getS 1) ((curOf s).t.getS 2) = .no ∧ s.mappgLost (curOf s) ((curOf s).t.getS 1) ((curOf s).t.getS 2) = false ∧ s.homeShut 0x50000 = false ∧ (curOf s).t.handler.isSome = true ∧ (curOf s).pslot s ≤ 64 ∧ b.toNat < 4 ∧ canonical ((curOf s).t.getS 1).toNat = true ∧
      s.leafEntry ((curOf s).pslot s) ((curOf s).t.getS 1).toNat = .entry 0x50000 ∧ (BitVec.ofNat 64 (s.readLe 0x50000 8)).getLsbD 0 = false ∧ s.regBits (slotOff ((curOf s).pslot s) 0x3E8) 0 32 = 0) ∧
    (let s := mapped (handling 1 none) 3 0
     s.leafEntry ((curOf s).pslot s) ((curOf s).t.getS 1).toNat = .entry 0x50000 ∧ (BitVec.ofNat 64 (s.readLe 0x50000 8)).getLsbD 0 = true) ∧
    (let s := { mapped (handling 1 none) 0 1 with mem := Memory.writeBytes (mapped (handling 1 none) 0 1).mem 0x60000 [7] }
     s.leafEntry ((curOf s).pslot s) ((curOf s).t.getS 1).toNat = .entry 0x50000 ∧ (BitVec.ofNat 64 (s.readLe 0x50000 8)).getLsbD 0 = false ∧ s.regBits (slotOff ((curOf s).pslot s) 0x3E8) 0 32 = 0 + 1 ∧
      bits (s.slotReg ((curOf s).pslot s) 0x3E0) 2 50 * 4 + 4 * 0 = 0x60000 ∧ s.readLe 0x60000 4 % 2 ^ 24 = 7 ∧ isStack 0x60000 = true ∧ s.usable (dieOf 0x60000) = true ∧ s.poisoned 0x60000 = false ∧ s.mappgStall (curOf s) ((curOf s).t.getS 1) ((curOf s).t.getS 2) = .no ∧
      s.mappgLost (curOf s) ((curOf s).t.getS 1) ((curOf s).t.getS 2) = false ∧ s.ready (curOf s) (mappgNeeds 7 1 2) ∧
      s.usable (dieOf (7 * 65536)) = true ∧ s.fotOk (s.ownid ((curOf s).pslot s)) (7 * 65536) = true ∧ Memory.wf s.mem = true) ∧
    (let s := { mapped (handling 1 none) 0 1 with mem := Memory.writeBytes (mapped (handling 1 none) 0 1).mem 0x60000 (leBytes 4 0x1FFFE0) }
     s.leafEntry ((curOf s).pslot s) ((curOf s).t.getS 1).toNat = .entry 0x50000 ∧ s.readLe 0x60000 4 % 2 ^ 24 = 0x1FFFE0 ∧ s.fotOk (s.ownid ((curOf s).pslot s)) (0x1FFFE0 * 65536) = false) ∧
    (let s := (mapped (handling 1 none) 0 1).setReg (slotOff 0 0x3E0) 0x7000000000
     bits (s.slotReg ((curOf s).pslot s) 0x3E0) 2 50 * 4 + 4 * 0 = 0x7000000000 ∧ isStack 0x7000000000 = true ∧ s.usable (dieOf 0x7000000000) = false ∧ s.ready (curOf s) (mappgNeeds 7 1 2) ∧
      s.mappgStall (curOf s) ((curOf s).t.getS 1) ((curOf s).t.getS 2) = .no ∧ s.mappgLost (curOf s) ((curOf s).t.getS 1) ((curOf s).t.getS 2) = false) ∧
    (let s := handling 1 none; s.leafEntry ((curOf s).pslot s) ((curOf s).t.getS 1).toNat = .noTable) ∧
    (let s := (handling 1 none).setReg (slotOff 0 0x3B0) 0xFFFFFFFFFF001; s.leafEntry ((curOf s).pslot s) ((curOf s).t.getS 1).toNat = .fault) ∧
    (let s := stalled (.invalidate 0 0); s.train 0 0 = some (curOf s).t ∧ (curOf s).t.portion 0 = some (curOf s).o ∧ (curOf s).o.wait = .invalidate 0 0 ∧ s.waitMay 0 0 (curOf s).t = true ∧ s.mappingIdle (s.slotOfTask (curOf s).t.task) 0 0 = true) ∧
    4 ≤ ((curOf (on (fun t => t.setS 2 4))).t.getS 2).toNat ∧ canonical ((curOf (on (fun t => t.setS 1 0x0200000000000000))).t.getS 1).toNat = false := by
  simp only [ready_iff]
  decide +kernel

/-- VA page 0 of slot 0 maps to frame 7, where the bytes `bs` stand. -/
def withDesc (s : State) (bs : List Byte) : State :=
  let s := mapped s 0x70003 0
  { s with mem := Memory.writeBytes s.mem 0x70000 bs }
/-- A launch record: one train on one core, grant `g`. -/
def launchRec (g : Nat) : List Byte := [1, 0, 1, 1, 0, 0, 0, 0] ++ leBytes 8 g ++ List.replicate 112 0
/-- A state that spawns, whose slot has room for `n` tasks. -/
def spawner (n : Nat) : State := (withDesc s0 (launchRec 7)).setReg (slotOff 0 0x380) (BitVec.ofNat 64 n)

theorem taskRoom_of {s : State} {p n : Nat} (h : s.regBits (slotOff p 0x380) 32 17 < s.regBits (slotOff p 0x380) 0 17) (hn : n < 65536) (ht : s.task n = none) : s.taskRoom p = true := by
  have hf : s.freeTask.isSome = true := by
    unfold State.freeTask
    rw [List.find?_isSome]
    refine ⟨n, List.mem_map.2 ⟨(n + 65536 - Config.pick s.fresh % 65536) % 65536, List.mem_range.2 (Nat.mod_lt _ (by decide)), by omega⟩, by simp [ht]⟩
  simp [State.taskRoom, h, hf]

theorem witness_SpawnCreatesChild : (∀ n ∈ [0, 1], (let s := spawner n
    let c := curOf s
    (c.t.getS 2).toNat % 128 = 0 ∧ canonical (c.t.getS 2).toNat = true ∧ s.deviceRead (portionOwner c.core c.slot c.p) (c.pslot s) (c.t.getS 2).toNat 128 = .ok (launchRec 7) ∧ launchOk (launchRec 7) = true ∧
      launchFits (launchRec 7) = true ∧ s.ready (curOf s) (spawnNeeds 63 2 none (launchGrant (launchRec 7))) ∧ s.ready (curOf s) (spawnNeeds 63 2 (some 3) (launchGrant (launchRec 7))) ∧ c.o.again = .no ∧
      (s.task c.t.task).map (fun k => (k.held, k.slot)) = some (true, 0) ∧ Table.sorted c.t.s = true ∧ (s.acquire c.core ((c.t.getS 3).toNat % 2 ^ 63) false).isSome = true)) ∧
    (spawner 0).taskRoom 0 = false ∧ (spawner 1).taskRoom 0 = true := by
  refine ⟨?_, by decide +kernel, taskRoom_of (n := 1) (by decide +kernel) (by decide) (by decide +kernel)⟩
  simp only [ready_iff]
  decide +kernel

/-- A parent (task 0, TASKID 65536) with the entry `d` on its done list and a task 1 changed by `f`, whose TASKID 65537 stands in S1. -/
def family (d : List (Nat × Nat)) (n : Nat) (f : Task → Task) : State :=
  ((on (fun t => t.setS 1 65537)).modTask 0 (fun k => { k with doneList := d, children := n })).setTask 1 (f { gen := 1, parent := 65536, state := .running })

theorem witness_JoinGrantCut :
    (∀ s ∈ [family [(65537, 0)] 1 id, family [] 1 id, family [] 0 (fun k => { k with gen := 2 }), family [] 0 (fun k => { k with parent := 0 }), family [] 1 (fun k => { k with held := false })],
      s.ready (curOf s) (taskReq [63, 1] [63] 2 0) ∧ s.ready (curOf s) (taskReq [63, 2] [63, 2] 2 0) ∧ s.ready (curOf s) (taskReq [63, 1, 2] [63] 2 0) ∧ Table.sorted (curOf s).t.s = true ∧ (s.task (curOf s).t.task).isSome = true) ∧
    (Instr.joinChild 63 1).wf = true ∧ ([((65537 : Nat), (0 : Nat))].find? (fun x => decide (x.1 = ((curOf (family [(65537, 0)] 1 id)).t.getS 1).toNat))) = some (65537, 0) ∧
    (family [] 0 (fun k => { k with gen := 2 })).named 0 65537 = .stale ∧ (family [] 0 (fun k => { k with parent := 0 })).named 0 65537 = .notChild ∧
    (family [] 1 (fun k => { k with held := false })).named 0 65537 = .freed ∧ (family [] 1 id).named 0 65537 = .child 1 ∧ (family [] 1 id).actStatus 0 65537 = 0 ∧
    (family [] 1 (fun k => { k with closing := true })).actStatus 0 65537 = 1 ∧ ((family [] 0 id).task 0).map (fun k => (k.doneList, k.children)) = some ([], 0) ∧
    ((family [(65537, 0)] 1 id).task 0).map Task.doneList = some [(65537, 0)] ∧
    s0.ready (curOf s0) (taskReq [] [] 2 0) ∧ (curOf s0).t.appending = false ∧ ((curOf s0).t.portions.length = 1 ∧ (curOf s0).o.stack = []) ∧
    (deep 1).ready (curOf (deep 1)) (taskReq [] [] 2 0) ∧ ¬ ((curOf (deep 1)).t.portions.length = 1 ∧ (curOf (deep 1)).o.stack = []) ∧
    (curOf s0).o.again = .no ∧ (curOf s0).t.handler = none ∧ s0.ready (curOf s0) { op := 0x2B, sregs := [63, 0], swrites := [63], clauses := true } ∧ (curOf s0).t.getS 0 = 0 ∧
    (let s := family [] 0 (fun k => { k with parent := 0 })
     s.ready (curOf s) { op := 0x2B, sregs := [63, 1], swrites := [63], clauses := true } ∧ (curOf s).t.getS 1 ≠ 0 ∧ (s.task (((curOf s).t.getS 1).toNat % 65536)).isSome = true ∧ ((curOf s).t.getS 1).toNat % 65536 ≠ (curOf s).t.task) := by
  simp only [ready_iff]
  decide +kernel

theorem onRoute_iff {s : State} {c : Cur} {r : BitVec 8} :
    onRoute s c r ↔ ((s.task c.t.task).any (fun k => c.t.member && decide (r.toNat < k.routes.length) && ((k.routes[r.toNat]?).getD 0).getLsbD c.t.index)) = true := by
  simp only [onRoute, Option.any_eq_true, Bool.and_eq_true, decide_eq_true_eq, and_assoc]

/-- A task with 256 routes, all of train 0. -/
def routed : State := onTask (fun k => { k with routes := List.replicate 256 1 })

theorem witness_RouteInstructions : routed.ready (curOf routed) (routeReq [] true) ∧ onRoute routed (curOf routed) 255 ∧ s0.ready (curOf s0) (routeReq [] true) ∧ ¬ onRoute s0 (curOf s0) 0 ∧
    (curOf s0).t.appending = false ∧ routed.ready (curOf routed) (routeReq [] false) ∧ s0.ready (curOf s0) (routeReq [] false) ∧ (routed.task (curOf routed).t.task).isSome = true ∧
    routed.ready (curOf routed) { op := 0x38, clauses := true, boundary := true } ∧ (curOf routed).t.portions.length = 1 ∧ (curOf routed).o.stack = [] ∧
    (deep 1).ready (curOf (deep 1)) { op := 0x38, clauses := true, boundary := true } ∧ (curOf (deep 1)).o.stack ≠ [] ∧
    s0.ready (curOf s0) { op := 0x38, clauses := true, boundary := true } ∧ (curOf s0).t.portions.length = 1 ∧ (curOf s0).o.stack = [] ∧
    (∀ n ∈ [32760, 32764, 32768], (let s := pad 0 (BitVec.ofNat 64 n); s.ready (curOf s) (routeReq [1] true) ∧ n = ((curOf s).t.getS 1).toNat ∧ Table.sorted (s.scratch (curOf s).core (curOf s).t.task).bytes = true ∧
      (s.scratch (curOf s).core (curOf s).t.task).ways = 1)) ∧ (32760 % 8 = 0 ∧ 32760 + 4 ≤ 1 * 32768) ∧ ¬ (32764 % 8 = 0 ∧ 32764 + 4 ≤ 1 * 32768) ∧ ¬ (32768 % 8 = 0 ∧ 32768 + 4 ≤ 1 * 32768) := by
  simp only [onRoute_iff]
  simp only [ready_iff]
  decide +kernel

/-- A core that holds `n` continuations. -/
def waiting (n : Nat) : State := let s := pad 0 32760
  s.setCore 0 { s.core 0 with conts := List.replicate n { task := 0, off := 0, mask := 0, entry := 0, arg := 0, index := 0, b := [] } }

theorem witness_ContinuationsAndQueries :
    (∀ n ∈ [63, 64], (let s := waiting n; s.ready (curOf s) { op := 0x30, cost := 2, sregs := [63, 1, 2, 3], clauses := true, boundary := true } ∧ ((curOf s).t.getS 1).toNat % 8 = 0 ∧
      ((curOf s).t.getS 1).toNat + 8 ≤ (s.scratch (curOf s).core (curOf s).t.task).ways * 32768 ∧ goodTarget ((curOf s).t.getS 3) ∧ (s.core (curOf s).core).conts.length = n)) ∧
    (let s := (pad 0 32760).setReg (slotOff 0 0xA0) 1
     let q : SReq := wqryReq s 2 1 (curOf s)
     s.ready (curOf s) (wqryReq s 2 1 (curOf s)) ∧ (Instr.wqry 2 1 11).wf = true ∧ ((curOf s).t.getS 2).toNat % 32 = 0 ∧ canonical ((curOf s).t.getS 2).toNat = true ∧
      ((curOf s).t.getS 1).toNat % 8 = 0 ∧ ((curOf s).t.getS 1).toNat + 8 ≤ (s.scratch (curOf s).core (curOf s).t.task).ways * 32768 ∧
      s.slotBit ((curOf s).pslot s) 0xA0 ((curOf s).core / 192) = true ∧
      s.coreStops (curOf s).core (portionOwner (curOf s).core (curOf s).slot (curOf s).p) ((curOf s).pslot s) ((curOf s).t.getS 2).toNat = none ∧
      (s.leaves (curOf s) q keep keep).gridAt (curOf s) ((curOf s).t.getS 2).toNat = .ok 0) ∧
    (∀ y ∈ [0, 1], gridOk (leBytes 4 0 ++ leBytes 2 4096 ++ leBytes 2 4096 ++ [255, BitVec.ofNat 8 y] ++ List.replicate 22 0) = true) ∧
    4096 * 4096 * 255 - 1 < 4096 * 4096 * 255 ∧ 4096 * 4096 * 255 ≤ 4096 * 4096 * 255 := by
  simp only [ready_iff, goodTarget]
  decide +kernel

/-- A collective descriptor: two members, the caller of rank 0, 512 bytes; and a layout record of one element of one byte. -/
def collDesc : List Byte := [1, 4, 0, 0] ++ leBytes 2 2 ++ leBytes 2 0 ++ List.replicate 32 0 ++ leBytes 4 512 ++ List.replicate 20 0
def layoutRec : List Byte := List.replicate 0x3A 0 ++ [1] ++ List.replicate 5 0
/-- A state that submits to engines: the descriptor at VA 0, CPENG of yard 0 granted, two ways of scratchpad. -/
def submitter (bs : List Byte) (f : Portion → Portion) : State := (((withDesc (onPortion f) bs).setReg (slotOff 0 0x80) 1).setScratch 0 0 { ways := 1 })
def tcpState (m : W32) : State :=
  ((withDesc (onLane (fun t => { t with portions := [(0, { pc := 0, clauses := [{ placedClause with exm := m }] })] })) layoutRec).setReg (slotOff 0 0x80) 1).setScratch 0 0 { ways := 1 }

theorem witness_EngineSubmissions :
    (let bs := leBytes 8 0 ++ leBytes 8 9
     let s := submitter bs (fun o => { o with fmt := 0x11 })
     let c := curOf s
     c.core % 2 = 0 ∧ fmtA c.o.fmt ≠ 0 ∧ fmtB c.o.fmt ≠ 0 ∧ s.level ≠ 1 ∧ s.running c.core = none ∧ s.resizes c.core c.t.task = false ∧ s.headerRead c (c.t.getS 1).toNat = some (.ok bs) ∧
      s.ready (curOf s) { op := 0x34, extra := le bs 8 8, sregs := [1], clauses := true, boundary := true } ∧ c.o.again = .no) ∧
    (let s := s0.setPair 0 { s0.pairOf 0 with progs := [placedProgram 0] }
     s.ready (curOf s) { op := 0x35, sregs := [63], clauses := true, boundary := true } ∧ (curOf s).core % 2 = 0 ∧ s.toCollect (curOf s).core (curOf s).t.task ≠ none) ∧
    s0.ready (curOf s0) { op := 0x35, sregs := [63], clauses := true, boundary := true } ∧ s0.toCollect (curOf s0).core (curOf s0).t.task = none ∧
    (let s := submitter collDesc id
     s.collRead (curOf s) 1 = some (.ok collDesc) ∧ collOk collDesc = true ∧ s.slotBit ((curOf s).pslot s) 0x80 ((curOf s).core / 8) = true ∧
      s.ready (curOf s) { op := 0x37, cost := 0, extra := 2 + (coBytes collDesc + 31) / 32, sregs := [1, 2], clauses := true, boundary := true } ∧ ((curOf s).t.getS 2).toNat % 8 = 0 ∧
      ((curOf s).t.getS 2).toNat + 8 ≤ (s.scratch (curOf s).core (curOf s).t.task).ways * 32768) ∧
    (let o : LR := { b := 0x101 }
     let s := tcpState 0
     (Instr.tcp o).wf = true ∧ (laneOf s).act = 0 ∧ s.readyLane (laneOf s) (tcpReq s o (laneOf s))) ∧
    (let o : LR := { b := 0x101 }
     let s := tcpState 0x80000000
     (Instr.tcp o).wf = true ∧ (laneOf s).act ≠ 0 ∧ tcpRead s (laneOf s) o = .ok layoutRec ∧ layoutOk layoutRec = true ∧ tcpPre s o (laneOf s) = [] ∧ s.readyLane (laneOf s) (tcpReq s o (laneOf s))) := by
  simp only [ready_iff, readyLane_iff]
  decide +kernel

/-! ### Lane instructions -/

theorem witness_LaneIntegerResults :
    (∀ op ∈ exactOps, l0.readyLane (laneOf l0) (lrNeeds op.2.2.1 op.2.1 1 { d := 255, a := 254, typ := 4 } (laneOf l0)) ∧ (op.1 { d := 255, a := 254, typ := 4 }).wf = true ∧
      (op.1 { d := 255, typ := 10 }).wf = false ∧ l0.readyLane (laneOf l0) (lrNeeds op.2.2.1 op.2.1 1 { d := 255, typ := 10 } (laneOf l0))) ∧
    (∀ op ∈ bitOps, l0.readyLane (laneOf l0) (lrNeeds op.2.2.1 op.2.1 1 { d := 255, a := 254, typ := 5 } (laneOf l0)) ∧ (op.1 { d := 255, a := 254, typ := 5 }).wf = true ∧
      (op.1 { d := 255, typ := 10 }).wf = false ∧ l0.readyLane (laneOf l0) (lrNeeds op.2.2.1 op.2.1 1 { d := 255, typ := 10 } (laneOf l0))) ∧
    l0.readyLane (laneOf l0) { op := 0x000 } ∧ (Instr.lnop {}).wf = true ∧ (Instr.lnop { d := 1 }).wf = false := by
  simp only [readyLane_iff]
  decide +kernel

theorem witness_LaneSelectAndCrossLane :
    l0.readyLane (laneOf l0) (lrNeeds Row.permb 0x018 1 { d := 255 } (laneOf l0)) ∧ (Instr.permb { d := 255 }).wf = true ∧
    l0.readyLane (laneOf l0) (lrNeeds Row.icmp 0x019 1 { d := 5, kd := 15, typ := 4 } (laneOf l0)) ∧ (Instr.icmp { d := 5, kd := 15, typ := 4 }).wf = true ∧
    l0.readyLane (laneOf l0) (lrNeeds Row.sel 0x01A 1 { d := 255, kd := 15, typ := 4 } (laneOf l0)) ∧ (Instr.sel { d := 255, kd := 15, typ := 4 }).wf = true ∧
    l0.readyLane (laneOf l0) (lrNeeds Row.idiv 0x01C 4 { d := 255, typ := 4, fs := true } (laneOf l0)) ∧ (Instr.idiv { d := 255, typ := 4, fs := true }).wf = true ∧
    l0.readyLane (laneOf l0) (lrNeeds Row.irem 0x01D 4 { d := 255, typ := 4 } (laneOf l0)) ∧ (Instr.irem { d := 255, typ := 4 }).wf = true ∧
    (∀ op ∈ shuffles, l0.readyLane (laneOf l0) (lrNeeds Row.shfl op.2.1 1 { d := 255, typ := 4 } (laneOf l0)) ∧ (op.1 { d := 255, typ := 4 }).wf = true) ∧
    l0.readyLane (laneOf l0) (lrNeeds Row.vote 0x084 1 { kd := 15 } (laneOf l0)) ∧ (Instr.vote { kd := 15 }).wf = true ∧
    l0.readyLane (laneOf l0) (lrNeeds Row.elect 0x087 1 { kd := 15 } (laneOf l0)) ∧ (Instr.elect { kd := 15 }).wf = true ∧
    l0.readyLane (laneOf l0) (lrNeeds foldRow 0x085 2 { d := 254, typ := 11 } (laneOf l0)) ∧ (Instr.redu { d := 254, typ := 11 }).wf = true ∧
    l0.readyLane (laneOf l0) (lrNeeds foldRow 0x086 1 { d := 255, kd := 8, typ := 4 } (laneOf l0)) ∧ (Instr.scan { d := 255, kd := 8, typ := 4 }).wf = true := by
  simp only [readyLane_iff]
  decide +kernel

theorem witness_IntegerFinish : (∀ op ∈ integerOps, l0.readyLane (laneOf l0) (lrNeeds op.2.2.1 op.2.1 op.2.2.2 { d := 5, typ := 4, rnd := 1 } (laneOf l0)) ∧
      l0.readyLane (laneOf l0) (lrNeeds op.2.2.1 op.2.1 op.2.2.2 { d := 5, typ := 4, ftz := true } (laneOf l0))) ∧
    ((1 : BitVec 3) ≠ 0) ∧ (∀ t ∈ [0, 7], t < 8 ∧ intLo t ≤ intLo t ∧ intLo t ≤ intHi t ∧ intLo t - 1 < intLo t ∧ intHi t < intHi t + 1) := by
  simp only [readyLane_iff]
  decide +kernel

theorem witness_LaneWriteFrame : Table.sorted (laneOf l0).c.t.v = true ∧ (31 < 32 ∧ (laneOf l0).act.getLsbD 31 = true) ∧ (resultWords 4 5)[0]? = some 5 ∧ (resultWords 7 5)[1]? = some 0 ∧
    (laneOf (tcpState 0)).act.getLsbD 31 = false := by
  simp only [laneOf_c]
  decide +kernel

theorem witness_LaneFloatResults :
    (∀ op ∈ floatOps, l0.readyLane (laneOf l0) (lrNeeds op.2.2.1 op.2.1 (fcost { d := 254, typ := 11 } 1) { d := 254, typ := 11 } (laneOf l0)) ∧ (op.1 { d := 254, typ := 11 }).wf = true) ∧
    (∀ op ∈ longOps, l0.readyLane (laneOf l0) (lrNeeds op.2.2.1 op.2.1 (fcost { d := 255, typ := 10, fs := true } 4) { d := 255, typ := 10, fs := true } (laneOf l0)) ∧ (op.1 { d := 255, typ := 10, fs := true }).wf = true) ∧
    l0.readyLane (laneOf l0) (lrNeeds Row.fcmp 0x106 (fcost { d := 7, kd := 15, typ := 10 } 1) { d := 7, kd := 15, typ := 10 } (laneOf l0)) ∧ (Instr.fcmp { d := 7, kd := 15, typ := 10 }).wf = true ∧
    l0.readyLane (laneOf l0) (lrNeeds Row.fclass 0x107 (fcost { d := 255, typ := 10 } 1) { d := 255, typ := 10 } (laneOf l0)) ∧ (Instr.fclass { d := 255, typ := 10 }).wf = true ∧
    l0.readyLane (laneOf l0) (lrNeeds Row.fscale 0x111 (fcost { d := 255, typ := 10 } 1) { d := 255, typ := 10 } (laneOf l0)) ∧ (Instr.fscale { d := 255, typ := 10 }).wf = true := by
  simp only [readyLane_iff]
  decide +kernel

theorem witness_FloatRounding : (3 < 4 ∧ 2 ^ 64 - 2 ^ 52 < 2 ^ f64.width ∧ (f64.decode (2 ^ 64 - 2 ^ 52)).isNan = false ∧ 0 < 2 ^ f16.width ∧ (f16.decode 0).isNan = false) ∧ (f32.decode 0x7F800001).isNan = true ∧
    (f32.decode 0x7F800001).isSig = true ∧ f32.decode 0x7F800000 = .inf false ∧ f32.decode 0xFF800000 = .inf (!false) ∧ f32.decode 0x80000000 = .zero true ∧ f32.decode 1 = .fin false 1 (-149) := by
  decide +kernel

theorem witness_ConversionsAndSharedExponents : (let o : LR := { d := 255, kd := 4, typ := 10 }
    (∀ s ∈ [l0], s.readyLane (laneOf s) (lrReq (cvtRow o) 0x200 (if o.typ.toNat = 11 ∨ o.kd.toNat = 11 then 2 else 1) o.kd.toNat o (laneOf s))) ∧ (Instr.cvt o).wf = true) ∧
    (∀ s ∈ [l0, tcpState 0],
      s.readyLane (laneOf s) (lrNeeds Row.qsx 0x201 1 { d := 255, kd := 15, typ := 10, abs := 1 } (laneOf s)) ∧ s.readyLane (laneOf s) (lrNeeds Row.sx1 0x202 1 { d := 255, abs := 1 } (laneOf s)) ∧
      s.readyLane (laneOf s) (lrNeeds Row.sx1 0x203 1 { d := 255, abs := 1 } (laneOf s)) ∧ s.readyLane (laneOf s) (lrNeeds Row.sx1 0x204 1 { d := 255, abs := 1 } (laneOf s))) ∧
    (Instr.qsx { d := 255, kd := 15, typ := 10, abs := 1 }).wf = true ∧ (Instr.pksx { d := 255, abs := 1 }).wf = true ∧ (Instr.upsx { d := 255, abs := 1 }).wf = true ∧ (Instr.dqsx { d := 255, abs := 1 }).wf = true ∧
    (laneOf l0).act ≠ 0 ∧ (laneOf (tcpState 0)).act = 0 := by
  simp only [readyLane_iff]
  decide +kernel

/-- A lane cursor whose clause holds the record `r` in B15, K15 naming lane 31. -/
def lanePad (r : BitVec 256) : State :=
  (onLane (fun t => { t with portions := [(0, { pc := 0, clauses := [{ placedClause with b := [(15, r)], k := [(15, 0x80000000)] }] })] })).setScratch 0 0 { ways := 1 }
def lmFields : LM := { d := 254, b := 15, i := 0x140 }

theorem witness_LaneAccesses :
    (let s := lanePad (recOf 0 0 3 8 1 0)
     (∀ f ∈ [LaneAccess.ld, .ldh, .st, .atom], s.readyLane (laneOf s) (f.req s (laneOf s) lmFields) ∧ (f.instr lmFields).wf = true ∧ f.allows (laneOf s) lmFields = true) ∧
     s.readyLane (laneOf s) (LaneAccess.pref.req s (laneOf s) { lmFields with d := 0 }) ∧ (LaneAccess.pref.instr { lmFields with d := 0 }).wf = true ∧ LaneAccess.pref.allows (laneOf s) { lmFields with d := 0 } = true ∧
     LaneAccess.ldc.allows (laneOf s) lmFields = false ∧ LaneAccess.stc.allows (laneOf s) { lmFields with aux := 255 } = false) ∧
    (let s := lanePad (recOf 0 4 3 8 1 0)
     s.readyLane (laneOf s) (LaneAccess.ldc.req s (laneOf s) lmFields) ∧ (LaneAccess.ldc.instr lmFields).wf = true ∧ LaneAccess.ldc.allows (laneOf s) lmFields = true ∧
     s.readyLane (laneOf s) (LaneAccess.stc.req s (laneOf s) { lmFields with aux := 255 }) ∧ (LaneAccess.stc.instr { lmFields with aux := 255 }).wf = true ∧
      LaneAccess.stc.allows (laneOf s) { lmFields with aux := 255 } = true ∧ LaneAccess.stc.allows (laneOf s) lmFields = false) ∧
    (let s := lanePad (recOf 0 0 3 8 1 0)
     let x := laneOf s
     (∀ kd ∈ [14, 15], (let o : LM := { lmFields with d := 255, scope := 2, kd := BitVec.ofNat 4 kd }
      s.readyLane (laneOf s) { op := 0x205, reads := selRegs o.i.toNat false ++ [o.d.toNat], kregs := [o.kd.toNat], sregs := selScalars o.i.toNat, memory := true, stall := s.memStall (laneOf s).c (State.outlAcc (laneOf s) o).1 } ∧
      (Instr.outl o).wf = true ∧ x.badOutl o = false)) ∧ ((x.getK 14).getLsbD 31 = false ∧ x.getK 14 = 0) ∧ x.act.getLsbD 31 = true ∧ (x.getK 15).getLsbD 31 = true ∧
      (laneOf (lanePad (recOf 0 1 3 8 1 0))).badOutl { lmFields with scope := 2 } = true) := by
  simp only [laneOf_c, readyLane_iff]
  decide +kernel

/-! ### Registers, ownership, dies, links, partitions -/

/-- A part that the host owns, with die 0 usable, and a device step with the operands `a`. -/
def dev (a : EvArgs) : State := { (State.reset.setReg ownstatOff 1).setRegBits svcstatOff 24 1 1 with ev := a }

/-- The same with `n` VFs and every right on the registers for VF `n`. -/
def forVf (s : State) (n : Nat) : State := ((s.setReg numVfsOff (BitVec.ofNat 64 n)).setReg (accessOff 8 n 0 0) 0xF).setReg (accessOff 8 n 0 1) 0xFFFFFFFFF0000000
/-- Whether a VF's view does not hold the register; whether its write is one to refuse. -/
def hiddenOf (s : State) (w : Master) (off : Nat) : Bool := decide (masterCode w = 0) && !s.vfMay (masterId w) off && !(linkBlock off && s.vfOn (masterId w))
def refusedOf (s : State) (w : Master) (off : Nat) : Bool := if masterCode w = 0 then linkBlock off else ownerOnly off && !s.isOwner w

theorem witness_RegisterFields : Table.sorted (dev {}).bar = true ∧ 63 + 1 ≤ 64 := by
  decide +kernel

theorem witness_Ownership :
    (let s : State := { State.reset with ev := { who := .peer, val := 1 }, owner := { written := [(3, 15)] } }
     accepts s claimgoOff ∧ masterCode s.ev.who = 3 ∧ s.ev.val = 1 ∧ Sparse.get 0 s.owner.written 3 = 15 ∧ s.regBits ownstatOff 0 2 = 0) ∧
    (let s := dev { who := .host, val := 1 }; accepts s claimgoOff ∧ masterCode s.ev.who = 1 ∧ s.ev.val = 1 ∧ s.regBits ownstatOff 0 2 ≠ 0) ∧
    (let s : State := { State.reset with owner := { claims := [(1, 7), (3, 8)], interval := 5 } }
     Table.sorted s.bar = true ∧ (1, 7) ∈ s.owner.claims ∧ s.owner.interval ≠ s.clock / 100 ∧ s.regBits ownstatOff 0 2 = 0 ∧ ∀ x ∈ s.owner.claims, x = (1, 7) ∨ (1 < x.1 ∧ x.1 ≤ 3)) ∧
    (dev {}).owner.interval = (dev {}).clock / 100 ∧ accepts (dev {}) handoffOff ∧
    (∀ m ∈ [Master.bmc, .peer], (let s := (dev { who := m, val := 1 }).setRegBits ownstatOff 4 2 2
     accepts s handackOff ∧ masterCode s.ev.who ≠ 0 ∧ s.ev.val = 1 ∧ s.time - s.owner.handoffAt ≤ 8 * 100000000 ∧ s.regBits ownstatOff 4 2 = 2)) ∧
    ((dev {}).setRegBits ownstatOff 4 2 3).regBits ownstatOff 4 2 ≠ 0 := by
  simp only [accepts]
  decide +kernel

theorem witness_PackageController :
    (∀ e ∈ [(Master.host, 4), (.host, 0x30000), (.host, 0xFFFF8), (.host, 0x1900000), (.host, 0x10040), (.bmc, 0x18000), (.peer, numVfsOff), (.peer, apsizeOff), (.vf 1, 0x400400), (.vf 64, slotOff 63 0x3C0), (.vf 65, attgoOff 65), (.vf 2, 0x100000)],
      let s := forVf (dev { who := e.1 }) 1
      let off := ownOff e.1 e.2
      s.owner.claims = [] ∧ (off % 8 ≠ 0 ∨ inBlock off = false ∨ otherBank e.1 off = true ∨ (hostOnly off = true ∧ e.1 ≠ .host) ∨ hiddenOf s e.1 off = true)) ∧
    (let s : State := { dev { x := 0x100000 } with owner := { recovery := true } }; s.owner.claims = [] ∧ s.owner.recovery = true ∧ 0x30000 ≤ ownOff s.ev.who s.ev.x) ∧
    (let s := (dev { x := 0x18FFFF8 }).setReg (accessOff 8 0 0 0) 0
     s.owner.claims = [] ∧ s.ev.x % 8 = 0 ∧ ownOff .host s.ev.x = s.ev.x ∧ inBlock s.ev.x = true ∧ otherBank .host s.ev.x = false ∧ hostOnly s.ev.x = false ∧ hiddenOf s .host s.ev.x = false ∧ s.owner.recovery = false ∧
      s.accessOk 8 (masterId s.ev.who) 2 s.ev.x = false) ∧
    (∀ e ∈ [(Master.bmc, 0x400000), (.peer, 0x17FFFF8), (.peer, handoffOff), (.vf 1, 0x100000), (.vf 1, 0x1FFFF8)], let s := forVf (dev { who := e.1, x := e.2 }) 1
     s.owner.claims = [] ∧ s.ev.x % 8 = 0 ∧ ownOff e.1 e.2 = e.2 ∧ inBlock e.2 = true ∧ otherBank e.1 e.2 = false ∧ hostOnly e.2 = false ∧ hiddenOf s e.1 e.2 = false ∧ s.owner.recovery = false ∧ s.accessOk 8 (masterId e.1) 2 e.2 = true ∧
      refusedOf s e.1 e.2 = true) ∧
    (∀ e ∈ [(Master.host, 0x400000), (.bmc, 0x10040), (.vf 1, slotOff 1 0x3E0)], let s := forVf (dev { who := e.1, x := e.2 }) 1
     s.owner.claims = [] ∧ s.ev.x % 8 = 0 ∧ inBlock e.2 = true ∧ otherBank e.1 e.2 = false ∧ hostOnly e.2 = false ∧ hiddenOf s e.1 e.2 = false ∧ s.owner.recovery = false ∧
      s.accessOk 8 (masterId e.1) 2 e.2 = true ∧ refusedOf s e.1 e.2 = false ∧ ownStep e.2 = false ∧ isRequest e.2 s.ev.val = false) ∧
    (isRequest 0x400000 0x300 = true ∧ ownStep (slotOff 0 0x300) = true ∧ ownerOnly numVfsOff = false ∧ hostOnly numVfsOff = true ∧ hostOnly apsizeOff = true ∧ hostOnly vfapsizeOff = true) ∧
    (forVf (dev {}) 64).vfMay 64 (slotOff 64 0x3E0) = true ∧ Table.sorted (dev {}).bar = true ∧ ¬ specialStore 0x100100 ∧ ((65 : W64).toNat % 128 = 65 ∧ 64 < 65) ∧ ((29 : W64).toNat % 64 < 30 ∧ 40 < (41 : W64).toNat % 64 ∧ 36 < (37 : W64).toNat % 64) := by
  simp only [specialStore]
  refine ⟨by decide +kernel, by decide +kernel, by decide +kernel, by decide +kernel, by decide +kernel, by decide +kernel, by decide +kernel, by decide +kernel, by decide +kernel, by decide +kernel, by decide +kernel⟩

theorem witness_FirmwareAndAttestation :
    (∀ e ∈ [(Master.host, 1), (.bmc, 1), (.peer, 0), (.vf 64, 1)], let s := forVf (dev { who := e.1, val := BitVec.ofNat 64 e.2 }) 64
      accepts s (attgoOff (masterId e.1)) ∧ masterId e.1 ∉ s.owner.attQueue ∧ s.regBits (attdoneOff (masterId e.1)) 0 1 = 0) ∧
    (let s := (dev { val := 1 }).setRegBits (attdoneOff 0) 0 1 1; accepts s (attgoOff 0) ∧ s.regBits (attdoneOff 0) 0 1 = 1) ∧
    (let s : State := { dev {} with owner := { attQueue := [0, 66] } }; s.owner.attQueue = 0 :: [66] ∧ s.ev.x = 0) ∧ (∀ n ∈ [1, 2, 3], (dev { x := n }).ev.x = n ∧ imageGood n [] = false) := by
  simp only [accepts]
  decide +kernel


/-- The rail of die 7 at 900 mV nominal, with a setpoint, a mode and its switching bit. -/
def railed (a : EvArgs) (mv mode sw : Nat) : State := { dev a with bar := (dev a).bar ++ [(sramrailOff 7, BitVec.ofNat 64 (mv + 900 * 2 ^ 16 + mode * 2 ^ 32 + sw * 2 ^ 34))] }

theorem witness_DiesAndReset :
    (let s := dev { x := 7, ok := false }; s.ev.x = 7 ∧ 7 < 8 ∧ s.owner.recovery = false ∧ s.ev.ok = false) ∧
    (let s := (dev { x := 7, yes := true }).setDie 7 { (dev {}).die 7 with dieOk := true }
     s.owner.recovery = false ∧ s.ev.ok = true ∧ s.ev.yes = true ∧ (s.die 7).dieOk = true ∧ (s.die 7).failed = false ∧ s.regBits fwfailOff 3 1 = 0 ∧ s.regBits svcstatOff (8 + 7) 1 = 0) ∧
    (let s := dev { x := 7, yes := true }; s.ev.ok = true ∧ s.ev.yes = true ∧ (s.die 7).dieOk = false) ∧ (let s := dev { x := 7 }; s.ev.ok = true ∧ s.ev.yes = false ∧ (s.die 7).stackOk = false) ∧
    (dev {}).level ≠ 2 ∧ ((dev {}).setRegBits svcstatOff 24 8 0xFF).regBits svcstatOff 24 8 = 0xFF ∧ State.reset.regBits svcstatOff 24 8 = 0 ∧
    ((dev {}).regBits svcstatOff 24 8 ≠ 0 ∧ (dev {}).regBits svcstatOff 24 8 ||| (dev {}).regBits svcstatOff 8 8 ≠ 0xFF) ∧
    accepts (dev {}) svcstatOff ∧ Table.sorted (dev {}).bar = true ∧ (dev { x := 7, y := 95 }).isOwner .host = true ∧ Table.sorted State.reset.bar = true ∧
    (∀ n ∈ [600, 900], (let s := railed { x := 7, val := BitVec.ofNat 64 n } 0 0 0
      s.ev.x = 7 ∧ accepts s (sramrailOff 7) ∧ s.regBits (sramrailOff 7) 34 1 = 0 ∧ s.regBits (sramrailOff 7) 32 2 = 0 ∧ s.regBits (sramrailOff 7) 16 16 = 900 ∧ bits s.ev.val 0 16 = n ∧ Table.sorted s.bar = true)) ∧
    (∀ n ∈ [600, 900], (let s := railed { x := 7 } n 1 1
      s.ev.x = 7 ∧ s.regBits (sramrailOff 7) 34 1 = 1 ∧ s.regBits (sramrailOff 7) 32 2 = 1 ∧ s.regBits (sramrailOff 7) 0 16 = n ∧ s.regBits (sramrailOff 7) 16 16 = 900 ∧ Table.sorted s.bar = true)) ∧
    (let s := railed { x := 7 } 900 2 1; s.regBits (sramrailOff 7) 34 1 = 1 ∧ s.regBits (sramrailOff 7) 32 2 = 2 ∧ Table.sorted s.bar = true) := by
  simp only [accepts]
  decide +kernel

/-- Group 15 in a state, with a personality, its sequence under way for `n` ns. -/
def grouped (a : EvArgs) (st pers n : Nat) : State := { ((dev a).setRegBits (lgstatOff 15) 16 3 st).setRegBits (lgstatOff 15) 8 2 pers with time := 8 * n }
/-- A request sent to group 15 and not answered. -/
def asked : Outbound := { group := some 15, pa := 0, len := 4, write := false }
/-- An inbound read of 4 bytes at address 0. -/
def inRead : Access := { kind := .read, addr := 0, len := 4, data := [] }
def inWrite : Access := { kind := .write, addr := 0, len := 4, data := [1, 2, 3, 4] }

theorem witness_LinkGroups :
    (∀ st ∈ [0, 1, 2, 7], (let s := grouped { x := 15, val := 0x101 } st 0 0; Table.sorted s.bar = true ∧ s.ev.x = 15 ∧ 15 < 16 ∧ accepts s (lgctlOff 15) ∧ s.ev.val.getLsbD 0 = true ∧ s.groupState 15 = st ∧
      s.ev.val.getLsbD 1 = false ∧ bits s.ev.val 8 2 ≠ s.groupPers 15)) ∧
    (let s := grouped { x := 15, val := 0x101 } 1 1 0; accepts s (lgctlOff 15) ∧ s.groupState 15 = 1 ∧ s.ev.val.getLsbD 1 = false ∧ bits s.ev.val 8 2 = s.groupPers 15) ∧
    (let s := grouped { x := 15, val := 0x103 } 1 1 0; accepts s (lgctlOff 15) ∧ s.groupState 15 = 1 ∧ s.ev.val.getLsbD 1 = true) ∧
    (let s := grouped { x := 15 } 2 0 0; s.groupState 15 = 2 ∧ s.unanswered 15 = [] ∧ s.inbound = [] ∧ s.time - (s.group 15).since < 8 * 500000) ∧
    (let s : State := { grouped { x := 15 } 2 0 0 with inbound := [(0, { group := some 15, master := 127, acc := inRead, at_ := 0 })] }; s.groupState 15 = 2 ∧ ∃ e ∈ s.inbound, e.2.group = some 15) ∧
    (let s : State := { grouped { x := 15 } 2 0 500000 with outbound := [(0, asked), (1, { asked with write := true, reply := .fold 0 0 })] }
     s.groupState 15 = 2 ∧ s.unanswered 15 ≠ [] ∧ (s.unanswered 15).filter (fun e => !e.2.posted) = [(0, asked)] ∧ 8 * 500000 ≤ s.time - (s.group 15).since) ∧
    ((grouped { x := 15 } 3 0 0).groupState 15 = 3 ∧ ∀ i ∈ List.range 4, ((grouped { x := 15 } 3 0 0).log (1736 + 4 * 15 + i)).recs = []) ∧
    (let s := grouped { x := 15 } 4 0 1300000; Table.sorted s.bar = true ∧ s.groupState 15 = 4 ∧ s.regBits svcstatOff (8 + 15 / 2) 1 = 0 ∧ 8 * 1300000 ≤ s.time - (s.group 15).since ∧ (s.group 15).err = 0) := by
  simp only [accepts]
  decide +kernel

/-- The pending copy of descriptor 0 names group 15 and the range of the first GiB of windows. -/
def pended (s : State) : State := ((s.setRegBits (lwdOff 0 1) 47 1 1).setRegBits (lwdOff 0 0) 0 1 0)

theorem witness_LinkGroups_remap :
    (let s := grouped { x := 15 } 5 0 0; Table.sorted s.bar = true ∧ s.groupState 15 = 5 ∧ (s.group 15).hold = [] ∧ s.lwdNames 0 15 = false) ∧
    (let s := pended (grouped { x := 15 } 5 0 0)
     Table.sorted s.bar = true ∧ s.groupState 15 = 5 ∧ (List.range 256).filter (fun n => s.lwdNames n 15) = [0] ∧ s.goodWindows 257 ([0].filter (s.windowFits 15)) = [0] ∧ [0].any s.windowBusy = false ∧
      (s.group 15).hold = [] ∧ (s.group 15).err = 0) ∧
    (let s := (pended (grouped { x := 15 } 5 0 0)).setRegBits (lwdOff 0 0) 0 1 1
     (List.range 256).filter (fun n => s.lwdNames n 15) = [0] ∧ s.goodWindows 257 ([0].filter (s.windowFits 15)) = []) := by
  decide +kernel

/-- Group `g` of die `g` / 2 with a personality, every right in stack 0 for its ports, and the request `a` to come through it. -/
def gated (a : Access) (g pers : Nat) : State :=
  let s := ((dev { x := g, access := a }).setRegBits (lgstatOff g) 16 3 1).setRegBits (lgstatOff g) 8 2 pers
  (s.setReg (accessOff 0 (96 + 2 * g) 0 0) 0xF).setReg (accessOff 0 (96 + 2 * g) 0 1) 0xFFFFFFFFF0000000
/-- Requests of 32 and 256 bytes, one too small, and an atomic add. -/
def inRead32 : Access := { inRead with len := 32 }
def inAtomic (op : Nat) : Access := { kind := .atomic op, addr := 0, len := 4, data := [1, 0, 0, 0] }

theorem witness_LinkTraffic :
    (∀ p ∈ [0, 1, 3], (gated inRead32 0 p).groupState 0 = 1 ∧ (gated inRead32 0 p).groupPers 0 ≠ 2) ∧
    (∀ a ∈ [inRead, inRead32, { inWrite with data := List.replicate 256 1 }, inAtomic 0], let s := gated a 0 2
      s.ev.z = 0 ∧ s.groupState 0 = 1 ∧ s.groupPers 0 = 2 ∧ s.ev.ok = true ∧ inboundHere (some 0) false a = true ∧ s.inboundWaits false 96 a = false ∧ sizeOffered false a = decide (a ≠ inRead) ∧
      s.inboundFails 96 0 a = none ∧ s.poisonIn a.addr a.len = none ∧ s.poisoned a.addr = false) ∧
    (let s := gated inRead32 15 2; s.groupPers 15 = 2 ∧ inboundHere (some 15) false inRead32 = false) ∧ (gated { inRead32 with addr := 65536 - 16 } 1 2).inboundFails 96 0 { inRead32 with addr := 65536 - 16 } = some 0 ∧
    (let s : State := { gated inRead32 0 2 with poison := [(0, true)] }; s.poisonIn 0 32 ≠ none ∧ s.poisonIn 32 32 = none) ∧
    ((atomicOffered false 12 4 = true ∧ atomicOffered false 13 4 = false ∧ atomicOffered true 9 8 = true ∧ atomicOffered true 1 8 = false) ∧ 0 % 4 = 0 ∧ 2 % 4 ≠ 0) ∧
    (∀ n ∈ [0, 64], let s := (dev { x := n, access := { inRead32 with addr := 2 ^ 30 - 32 } }).setReg numVfsOff 64
      (n = 0 ∨ s.vfOn n = true) ∧ s.ev.access.addr + accessSize s.ev.access ≤ 2 ^ s.apSize n ∧ s.ev.ok = true ∧ s.inboundWaits true n { s.ev.access with addr := s.apBase n + s.ev.access.addr } = false ∧
      s.behindWrite true n s.nextId = false) ∧
    (let s := dev { x := 1, access := inRead32 }; (1 ≠ 0 ∧ s.vfOn 1 = false)) ∧ (let s := dev { access := { inRead32 with addr := 2 ^ 30 - 31 } }; 2 ^ s.apSize 0 < s.ev.access.addr + accessSize s.ev.access) ∧
    (let s : State := { dev { x := 0, access := inRead32 } with nextId := 1, inbound := [(0, { group := none, master := 0, acc := inWrite, at_ := 0 })] }; s.behindWrite true 0 s.nextId = true ∧ s.behindWrite true 0 0 = false) ∧
    (let s : State := { gated inRead32 0 2 with ev := { z := 1 }, inbound := [(0, { group := some 0, master := 96, acc := inRead32, at_ := 0 })] }
     s.ev.z = 0 + 1 ∧ (Table.find s.inbound 0).isSome = true ∧ s.inboundWaits false 96 inRead32 = false ∧ s.behindWrite false 96 0 = false ∧ inboundHere (some 0) false inRead32 = true) := by
  decide +kernel

/-- Window 0 enabled on the first GiB of link addresses, served by group 15, at whose port a record of line 2^48 waits. -/
def windowed (a : EvArgs) : State :=
  { dev a with lwdAct := [(0, 1 + 2 ^ 60), (1, 2 ^ 20 + 2 ^ 47)], logs := [(1796, { tail := 1, pub := 1, recs := [{ pos := 0, slot := 0, mask := 1, gran := 2 ^ 43, data := [], pa := some (2 ^ 48) }] })] }

theorem witness_LinkTraffic_answers :
    (∀ n ∈ [0, 8 * 1000000], let s : State := { dev { x := 0 } with inbound := [(0, { group := some 15, master := 127, acc := inRead, at_ := 0 })], time := n }; (Table.find s.inbound s.ev.x).isSome = true ∧ s.time - 0 = n) ∧
    (∀ e ∈ [(true, 0), (false, 8 * 1000000)], let s : State := { dev { x := 0, ok := e.1 } with outbound := [(0, asked)], time := e.2 }
      Table.find s.outbound s.ev.x = some asked ∧ asked.out = true ∧ s.ev.ok = e.1 ∧ s.time - asked.sent = e.2) ∧
    ({ asked with held := true }.out = false) ∧ (dev {}).lineBefore asked = false ∧
    ((windowed {}).place (2 ^ 48) = .link 0 ∧ (windowed {}).lineBefore { asked with pa := 2 ^ 48, mark := 1 } = true ∧ (windowed {}).lineBefore { asked with pa := 2 ^ 48 } = false) ∧
    (let o : Outbound := { asked with reply := .atomic 0 0 0 31 0 0 }; o.reply = .atomic 0 0 0 31 0 0 ∧ o.atom = none ∧ { o with aop := some 0, data := [1, 0, 0, 0] }.atom = some (0, 4, 1, 0, o.reply)) ∧
    (let o : Outbound := { asked with reply := .element 0 0 0 31 0 }; o.reply = .element 0 0 0 31 0) ∧ (let o : Outbound := { asked with reply := .sector 0 0 true }; o.reply = .sector 0 0 true) ∧
    (let o : Outbound := { asked with reply := .releaseRead 0 0 0 0 0 0 }; o.reply = .releaseRead 0 0 0 0 0 0) ∧
    (let q : Pend := { portion := 0, flag := none, dest := .nowhere, regs := 1, size := 4, width := 1, lanes := 1, acc := some { laneLoad with elems := [{ lane := 0, j := 0, va := some 28 }] } }
     (∀ e ∈ q.missing, e.lane = 0 → e.j = 0 → e.va.getD 0 % 32 + q.size ≤ 32) ∧ (List.replicate 32 (0 : Byte)).length = 32 ∧ q.size ≠ 32 ∧ q.missing.find? (fun e => decide (e.lane = 0) && decide (e.j = 0)) = some { lane := 0, j := 0, va := some 28 }) ∧
    (∀ h ∈ [0, 1], (let s := dev { x := 63, y := h, val := 1 }
      let u := s.setReg (hwdOff 63 h) (s.ev.val &&& (if h = 0 then 0xFFFFFFFFFFFFFFFD else 0xFFFFFFFFFFFFF));
      s.ev.x = 63 ∧ s.ev.y % 2 = h ∧ accepts s (hwdOff 63 h) ∧ (h = 0 → u.hwd 63 0 1 = 1 ∧ u.hwdOk 63 = false) ∧ (h = 1 → u.hwd 63 0 1 = 0))) := by
  simp only [accepts]
  refine ⟨by decide +kernel, by decide +kernel, by decide +kernel, by decide +kernel, by decide +kernel, by decide +kernel, by decide +kernel, by decide +kernel, by decide +kernel, by decide +kernel, by decide +kernel⟩

/-- Slot 64 with its PCTL word, in a part that the host owns. -/
def slot64 (a : EvArgs) (pctl : Nat) : State := (dev a).setReg (slotOff 64 0) (BitVec.ofNat 64 pctl)

theorem witness_PartitionControl :
    (∀ st ∈ [0, 1], (let s := slot64 { x := 64, val := 0x100 } st; accepts s (slotOff 64 0) ∧ bits s.ev.val 8 2 = 1 ∧ s.slotOpen 64 = true)) ∧
    (∀ st ∈ [2, 3], (let s := slot64 { x := 64, val := 0x100 } st; s.ev.x = 64 ∧ accepts s (slotOff 64 0) ∧ Table.sorted s.bar = true ∧ bits s.ev.val 8 2 = 1 ∧ s.pctlState 64 = st)) ∧
    (let s := slot64 { x := 64, val := BitVec.ofNat 64 (0x200 + 2 ^ 46 + 5 * 2 ^ 56) } 0; accepts s (slotOff 64 0) ∧ bits s.ev.val 8 2 = 2 ∧ s.slotOpen 64 = true ∧ (s.pctlFields 64 s.ev.val).runErrs 64 = [] ∧ (s.pctlFields 64 s.ev.val).restoreWaits 64 = false) ∧
    (let s : State := { ((slot64 { x := 64, val := BitVec.ofNat 64 (0x200 + 2 ^ 46 + 5 * 2 ^ 56) } 0).setReg (slotOff 0 0x40) 0).setReg (slotOff 64 0x40) 1 with posts := [{ pa := 0, data := [1] }] }
     s.slotOpen 64 = true ∧ (s.pctlFields 64 s.ev.val).runErrs 64 = [] ∧ (s.pctlFields 64 s.ev.val).restoreWaits 64 = true) ∧
    (let s := slot64 { x := 64, val := 0x200 } 1; bits s.ev.val 8 2 = 2 ∧ s.slotOpen 64 = true ∧ (s.pctlFields 64 s.ev.val).runErrs 64 = [1, 6]) ∧
    (let s := slot64 { x := 64, val := 0x200 } 2; bits s.ev.val 8 2 = 2 ∧ s.slotOpen 64 = false) ∧
    (∀ o ∈ [5, 6], (let s : State := { slot64 { x := 64, val := BitVec.ofNat 64 (0x300 + o * 2 ^ 56) } 1 with fot := [(9, 5)] }
      bits s.ev.val 8 2 = 3 ∧ s.pctlState 64 = 1 ∧ (s.pctlFields 64 s.ev.val).ownsFrames ((s.pctlFields 64 s.ev.val).ownid 64) = decide (o = 5))) ∧
    (∀ st ∈ [0, 2, 3], (let s := slot64 { x := 64, val := 0x300 } st; bits s.ev.val 8 2 = 3 ∧ s.pctlState 64 = st)) ∧
    (∀ v ∈ [0xFE00FE00FE000100, 0xFFFFFFFFFFFFFFFF], (let s := railed { x := 2047, val := BitVec.ofNat 64 v } 900 0 0; s.ev.x = 2047 ∧ 2047 < 2048 ∧ accepts s (squotaOff 2047) ∧ s.quotaBad 2047 s.ev.val = decide (v = 0xFFFFFFFFFFFFFFFF))) ∧
    (let s := dev { x := 64, y := 15, val := 0x8000000000000007 }
     accepts s (slotOff 64 (0x300 + 8 * 15)) ∧ s.ev.val.getLsbD 63 = true ∧ (s.pin 64 15).getLsbD 63 = false ∧
      ((s.setRegBits (slotOff 64 (0x300 + 8 * 15)) 63 1 0).setRegBits (slotOff 64 (0x300 + 8 * 15)) 0 24 (bits s.ev.val 0 24)).mayPin 64 (bits s.ev.val 0 24) = false) ∧
    (let s := (List.range 4).foldl (fun (s : State) i => s.setReg (squotaOff (frameSlice 7 + i)) 0xFE00FE00FE008011) (dev { x := 64, y := 15, val := 0x8000000000000007 })
     ((s.setRegBits (slotOff 64 (0x300 + 8 * 15)) 63 1 0).setRegBits (slotOff 64 (0x300 + 8 * 15)) 0 24 (bits s.ev.val 0 24)).mayPin 64 (bits s.ev.val 0 24) = true) ∧
    (let s := (dev { x := 64, y := 15 }).setReg (slotOff 64 (0x300 + 8 * 15)) 0x8000000000000007; accepts s (slotOff 64 (0x300 + 8 * 15)) ∧ s.ev.val.getLsbD 63 = false ∧ (s.pin 64 15).getLsbD 63 = true) ∧
    (∀ f ∈ [7, 8], let s := (dev { x := 64, y := 15, val := BitVec.ofNat 64 (2 ^ 63 + f) }).setReg (slotOff 64 (0x300 + 8 * 15)) 0x8000000000000007; accepts s (slotOff 64 (0x300 + 8 * 15)) ∧ s.ev.val.getLsbD 63 = true ∧ (s.pin 64 15).getLsbD 63 = true) ∧
    (let s := (dev { x := 64, y := 15 }).setPslot 64 { filling := [15] }; 15 ∈ (s.pslot 64).filling) ∧
    (let s := dev { val := 0x8000000000000000 }; accepts s (fotOff 8) ∧ Table.sorted s.bar = true ∧ s.ev.val.getLsbD 63 = true ∧ s.regBits (fotOff 0x10) 63 1 = 0 ∧
      s.fotErr (bits (s.reg (fotOff 0)) 0 24) (bits (s.reg (fotOff 0)) 24 24 + 1) (bits s.ev.val 0 8) = 0) ∧
    (let s := dev { val := 0x8000000000000005 }; s.fotErr (bits (s.reg (fotOff 0)) 0 24) (bits (s.reg (fotOff 0)) 24 24 + 1) (bits s.ev.val 0 8) = 1) ∧
    (let s := (dev { val := 0x8000000000000000 }).setRegBits (fotOff 0x10) 63 1 1; accepts s (fotOff 8) ∧ s.regBits (fotOff 0x10) 63 1 = 1 ∧ Table.sorted s.fot = true) ∧
    (accepts (dev {}) (fotOff 8) ∧ (dev {}).ev.val.getLsbD 63 = false) ∧ ((dev {}).counted = [] ∧ (dev {}).logs = [] ∧ (dev {}).posts = [] ∧ (dev {}).trains = [] ∧ Memory.wf (dev {}).mem = true) ∧
    (let s := dev { x := 64, val := 0x8000000000000000 }; accepts s (slotOff 64 0x3C0) ∧ s.regBits (slotOff 64 0x3C0) 62 1 = 0 ∧ s.ev.val.getLsbD 63 = true) ∧
    (let s := (dev { x := 64 }).setReg (slotOff 64 0x3C0) 0x4000000000000000; accepts s (slotOff 64 0x3C0) ∧ s.regBits (slotOff 64 0x3C0) 62 1 = 1) ∧
    (∀ n ∈ [0, 1], (let s : State := { (dev { x := 64 }).setPslot 64 { inval := some (0, 0, 64) } with cores := [(0, { lfsr := 1, fills := List.replicate n { key := sectorKey 64 0, stash := false } })] }
      (s.pslot 64).inval = some (0, 0, 64) ∧ s.mappingIdle 64 0 0 = decide (n = 0) ∧ s.writesFolded 64 = true)) := by
  simp only [accepts]
  refine ⟨?_, ?_, ?_, ?_, ?_, ?_, ?_, ?_, ?_, ?_, ?_⟩ <;> decide +kernel

/-- Die 7's migration of the leaf at 0x50000, which maps frame 7; the destination frame in bits 39:16 of the command. -/
def migrating (v : Nat) (busy : Nat) : State :=
  { ((dev { x := 7, val := BitVec.ofNat 64 v }).setReg (migOff 7 0) 0x50000).setRegBits (migOff 7 0x10) 63 1 busy with mem := Memory.writeBytes [] 0x50000 (leBytes 8 0x70003) }

/-- The same on die 0, the leaf mapping the frame `src` and frame 9 the destination. -/
def moving (v src : Nat) : State :=
  { (dev { val := BitVec.ofNat 64 (v + 9 * 65536) }).setReg (migOff 0 0) 0x50000 with mem := Memory.writeBytes [] 0x50000 (leBytes 8 (src * 65536 + 3)) }

theorem witness_Migration :
    (∀ v ∈ [1, 3], (let s := migrating v 0; s.ev.x = 7 ∧ 7 < 8 ∧ accepts s (migOff 7 8) ∧ s.ev.val.getLsbD 0 = true ∧ s.ev.val.getLsbD 1 = decide (v = 3))) ∧ Table.sorted (migrating 1 0).bar = true ∧
    (migrating 1 1).regBits (migOff 7 0x10) 63 1 = 1 ∧ ((migrating 1 0).regBits (migOff 7 0x10) 63 1 = 0 ∧ (dev {}).migLeaf 7 = none ∧ (dev {}).regBits (migOff 7 0x10) 63 1 = 0) ∧
    (migrating 1 0).migLeaf 7 = some (0x50000, 0x70003) ∧ dieOf (bits (1 : BitVec 64) 16 24 * 65536) ≠ 7 ∧ Memory.wf (migrating 1 0).mem = true ∧
    ((migrating 1 0).migStops 7 = some 0x50000 ∧ (moving 1 7).migStops 0 = none) ∧
    (let s : State := { migrating (1 + 7 * 2 ^ 37) 0 with mem := Memory.writeBytes [] 0x50000 (leBytes 8 (2 ^ 40 + 3)), far := [{ owner := migOwner 7, pa := 0x50000, len := 0, data := some [], code := 1 }] }
     let u := (s.setReg (migOff 7 8) (s.ev.val &&& 0xFFFFFF0002)).setRegBits svcstatOff 31 1 1
     s.migStops 7 = none ∧ u.migLeaf 7 = some (0x50000, 2 ^ 40 + 3) ∧ bits s.ev.val 16 24 = 7 * 2 ^ 21 ∧ dieOf (7 * 2 ^ 21 * 65536) = 7 ∧ u.frameOwner (7 * 2 ^ 21) = u.pageOwner 0x50000 (2 ^ 24) ∧ u.usable 7 = true ∧
      u.migDenied 7 0x50000 (2 ^ 24) (7 * 2 ^ 21) = none ∧ u.migLost 7 = some 2) ∧
    ((moving 1 (3 * 2 ^ 21)).migLost 0 = some 4) ∧
    (∀ e ∈ [(0, 0), (7, 1)], let s := (dev { x := e.1, y := 257 }).setDie e.1 { (dev {}).die e.1 with pulling := [257, 258], source := 3 }
     s.ev.x = e.1 ∧ s.ev.y = 257 ∧ (s.die e.1).pulling.contains 257 = true ∧ isStack (3 * 65536 + 257 % 256 * 256) = true ∧ s.sramSwitching e.1 = false ∧ s.usable (dieOf (3 * 65536 + 257 % 256 * 256)) = true ∧
      s.gaveUp (migOwner e.1) (3 * 65536 + 257 % 256 * 256) = false ∧ s.homeShut (3 * 65536 + 257 % 256 * 256) = false ∧ s.away (migOwner e.1) (3 * 65536 + 257 % 256 * 256) = decide (e.1 = 7) ∧ s.posts = [] ∧
      Memory.wf s.mem = true ∧ (s.die e.1).pulling = 257 :: [258] ∧ s.sourceGone e.1 = false) ∧
    (railed {} 600 1 1).sramSwitching 7 = true ∧
    (let s : State := { dev {} with far := [{ owner := migOwner 7, pa := 3 * 65536 + 256, len := 0, data := some [], code := 1 }] }; s.gaveUp (migOwner 7) (3 * 65536 + 256) = true) ∧
    ((dev {}).setDie 0 { (dev {}).die 0 with pulling := [3 * 256 + 1] }).homeShut (3 * 65536 + 256) = true ∧
    (let s := windowed {}
     let pa := 2 ^ 32 * 65536 + 257 % 256 * 256
     s.sramSwitching 0 = false ∧ isStack pa = false ∧ s.farBusy pa = false ∧ s.holdFull pa = false ∧ s.outbound = [] ∧ s.place pa = .link 0) ∧
    (∀ v ∈ [0, 2], (let s := migrating v 0; accepts s (migOff 7 8) ∧ s.ev.val.getLsbD 0 = false ∧ s.ev.val.getLsbD 1 = decide (v = 2))) ∧
    (∀ e ∈ [(1, 7), (3, 7), (3, 2 ^ 24)], let s := moving e.1 e.2
     let u := s.setReg (migOff 0 8) (s.ev.val &&& 0xFFFFFF0002)
     s.regBits (migOff 0 0x10) 63 1 = 0 ∧ u.migLeaf 0 = some (0x50000, BitVec.ofNat 64 (e.2 * 65536 + 3)) ∧ bits s.ev.val 16 24 = 9 ∧ dieOf (9 * 65536) = 0 ∧ u.frameOwner 9 = u.pageOwner 0x50000 e.2 ∧
      u.usable 0 = true ∧ u.migDenied 0 0x50000 e.2 9 = none ∧ u.migLost 0 = none ∧ s.migStops 0 = none ∧ s.ev.x = 0 ∧ accepts s (migOff 0 8) ∧ s.ev.val.getLsbD 0 = true ∧ s.ev.val.getLsbD 1 = decide (e.1 = 3) ∧
      isStack (e.2 * 65536) = decide (e.2 = 7)) ∧
    (let s := (moving 1 7).setReg (accessOff 0 129 0 0) 1; (s.setReg (migOff 0 8) (s.ev.val &&& 0xFFFFFF0002)).migDenied 0 0x50000 7 9 = some (2, 0x50000)) ∧
    (let s := (dev { x := 7, y := 0 }).setDie 7 { (dev {}).die 7 with pulling := [0], source := 3 * 2 ^ 21 }
     s.sourceGone 7 = true ∧ (s.die 7).pulling = 0 :: [] ∧ s.logs = [] ∧ s.homeOps = [] ∧ s.queries = [] ∧ s.cores = [] ∧ s.posts = [] ∧ Memory.wf s.mem = true ∧ s.homeShut (s.die 7).leaf = false ∧ Table.sorted s.bar = true ∧
      isStack ((s.die 7).source * 65536) = true ∧ s.usable (dieOf ((s.die 7).source * 65536)) = false) := by
  simp only [accepts]
  refine ⟨?_, ?_, ?_, ?_, ?_, ?_, ?_, ?_, ?_, ?_, ?_, ?_, ?_, ?_, ?_⟩ <;> decide +kernel

/-- A published record of the granule at physical address 32 `g` in the log of core 0. -/
def recAt (pos g : Nat) : Rec := { pos := pos, slot := 0, mask := 0xFFFFFFFF, gran := g, data := List.replicate 32 5, pa := some (32 * g), stamp := some 9 }
def withLog (a : EvArgs) (rs : List Rec) : State := { dev a with logs := [(0, { tail := rs.length, pub := rs.length, recs := rs })] }
/-- An access of core 0 to the home of die 7. -/
def opAt (cls : Nat) (deliv : Bool) : HomeOp := { core := 0, slot := 0, task := 0, part := 0, pend := 0, op := .loadHome, size := 4, home := 1792, elems := [({ lane := 0, j := 0, va := some 0 }, 7 * 2 ^ 37)], cls := cls, deliv := deliv }

/-- Core 0 with a record and two accesses to the homes of die 7 under way for `n` ns, or arrived there. -/
def lined (a : EvArgs) (n : Nat) (d : Bool) : State :=
  { withLog a [{ recAt 0 (7 * 2 ^ 32) with deliv := d }] with time := 8 * n, homeOps := [(0, opAt 0 d), (1, opAt 2 d)], outbound := [(2, asked)], queries := [(3, { core := 0, slot := 0, task := 0, flag := 11, va := 0, pa := 0x1000, off := 0 })] }

theorem witness_MainLine : (dev { ok := false }).ev.ok = false ∧ (dev {}).lineNext 0 1792 0 = none ∧
    (∀ e ∈ [(0, LineMsg.record 0), (2, .access 1)], let s := lined { x := 0, y := 1792, z := e.1 } 0 false; s.ev.ok = true ∧ s.ev.z ≠ 1 ∧ (s.lineNext s.ev.x s.ev.y s.ev.z).map (fun m => m.2.2) = some e.2) ∧
    (∀ n ∈ [9999, 10000], let s := lined { x := 0, y := 1792 } n false; (s.lineNext s.ev.x s.ev.y s.ev.z).map (fun m => decide (80000 ≤ s.time - m.1)) = some (decide (n = 10000))) ∧
    (∀ n ∈ [9999, 10000], let s := lined { x := 0, y := 1792, z := 1 } n true
      s.ev.z = 1 ∧ ((s.lineServed s.ev.x s.ev.y)[s.ev.val.toNat]?).map (fun m => (m.2, decide (80000 ≤ s.time - m.1))) = some (.record 0, decide (n = 10000))) ∧
    (let s := lined {} 0 false; ((s.log 0).recs.find? (fun r => decide (r.pos = 0))).isSome = true ∧ (Table.find s.homeOps 1).isSome = true ∧ (Table.find s.outbound 2).isSome = true ∧ (Table.find s.queries 3).isSome = true) ∧
    (let s : State := { dev {} with inbound := [(0, { group := none, master := 0, acc := inRead, at_ := 0 })], contribs := [(1, { job := 2, src := 0, yard := 0, rank := 0, member := 0, data := [], pois := false, sent := 0, msg := 0 })], jobs := [(2, { coll := true, yard := 0, slot := 0, desc := [], bytes := 512, cost := 18 })] }
     (Table.find s.inbound 0).isSome = true ∧ (Table.find s.contribs 1).map Contrib.job = some 2 ∧ (Table.find s.jobs 2).map Job.status = some 0) ∧
    (let m : Far := { owner := 0, pa := 7 * 2 ^ 37, len := 0, code := fMLTIMEOUT }; m ∈ ({ dev {} with far := [m] } : State).far ∧ m.len = 0 ∧ m.code ≠ 0 ∧ isStack (7 * 2 ^ 37) = true) ∧
    (let o : Outbound := { asked with pa := 2 ^ 48, deliv := false }
     o.ether = false ∧ ({ o with reply := .contribution 0 } : Outbound).ether = true ∧ o.posted = false ∧
      (windowed {}).place o.pa = .link 0 ∧ (windowed {}).inTransition 0 = false ∧ (windowed {}).linkCut 0 o.pa = true ∧
      ((windowed {}).setRegBits (lgstatOff 15) 16 3 1).place o.pa = .link 0 ∧ ((windowed {}).setRegBits (lgstatOff 15) 16 3 1).inTransition 0 = false ∧ ((windowed {}).setRegBits (lgstatOff 15) 16 3 1).linkCut 0 o.pa = false) ∧
    (∀ st ∈ [2, 3], (let s : State := { (windowed {}).setRegBits (lgstatOff 15) 16 3 (BitVec.ofNat 64 st).toNat with groups := [(15, { quiesced := true })] }
     s.place (2 ^ 48) = .link 0 ∧ s.inTransition 0 = true ∧ s.linkCut 0 (2 ^ 48) = false ∧ s.holdFull (2 ^ 48) = false ∧ s.groupState 15 = st)) := by
  refine ⟨?_, ?_, ?_, ?_, ?_, ?_, ?_, ?_, ?_, ?_⟩ <;> decide +kernel

theorem witness_RecordFolds :
    (∀ o ∈ [0, 5], (let s := (withLog { x := 0, y := 0 } [{ recAt 0 4 with slot := 64 }]).setRegBits (slotOff 64 0) 56 8 o
      let r : Rec := { recAt 0 4 with slot := 64 }
      (s.log s.ev.x).recs.find? (fun q => decide (q.pos = s.ev.y)) = some r ∧ s.ev.x < 1736 ∧ s.foldable s.ev.x r = true ∧ r.pa = some 128 ∧ s.place 128 = .stack ∧ s.fotOk (s.ownid r.slot) 128 = decide (o = 0) ∧ s.foldAllowed s.ev.x r 128 = true)) ∧
    (let s : State := { (dev { x := 1536, y := 0 }).setReg (accessOff 0 128 0 0) 1 with logs := [(1536, { tail := 1, pub := 1, recs := [recAt 0 4] })] }
     s.foldable 1536 (recAt 0 4) = true ∧ s.fotOk (s.ownid 0) 128 = true ∧ s.foldAllowed 1536 (recAt 0 4) 128 = false) ∧
    (let s := withLog { x := 0, y := 0 } [{ recAt 0 4 with stamp := none }]; s.foldable 0 { recAt 0 4 with stamp := none } = false) ∧
    (Memory.wf (dev {}).mem = true ∧ Table.sorted (dev {}).stamps = true ∧ Table.sorted (dev {}).poison = true ∧ (recAt 0 4).data.length = 32 ∧ 128 % 32 = 0 ∧ (31 < 32 ∧ (0xFFFFFFFF : W32).getLsbD 31 = true) ∧
      stampLt (9, 0) ((dev {}).stampOf (128 + 31)) = false ∧ (∀ i ∈ List.range 32, stampLt ((dev {}).stampOf (128 + i)) (9, 0) = true) ∧ stampLt (9, 0) (({ dev {} with stamps := [(159, (10, 0))] } : State).stampOf (128 + 31)) = true) ∧
    (dev {}).logs = [] ∧
    (∀ b ∈ [true, false], (let s := withLog { x := 0, y := 0, z := 1 } [{ recAt 0 4 with spilled := true }, { recAt 1 4 with spilled := b }]
      (s.log s.ev.x).recs.find? (fun r => decide (r.pos = s.ev.y)) = some { recAt 0 4 with spilled := true } ∧ (s.log s.ev.x).recs.find? (fun r => decide (r.pos = s.ev.z)) = some { recAt 1 4 with spilled := b } ∧
      (s.log s.ev.x).mayJoin { recAt 0 4 with spilled := true } { recAt 1 4 with spilled := b } = b)) ∧
    (let s := withLog { x := 0 } (List.replicate 512 { recAt 0 4 with stamp := none }); s.slotOfCore s.ev.x = some 0 ∧ s.pressed s.ev.x 0 = true) := by
  decide +kernel

theorem witness_HomeService :
    (∀ e ∈ [(0, 0), (7 * 2 ^ 37, 7 * 2 ^ 37), (2 ^ 40, 0)], (let f : Fill := { key := sectorKey 0 0, stash := false, pa := e.1 }
      let s : State := { dev { x := 0 } with cores := [(0, { lfsr := 1, fills := [f] })] }
      s.slotOfCore s.ev.x = some 0 ∧ sectorKey 0 0 = elemKey s.ev.yes s.ev.z 0 s.ev.val.toNat ∧ (s.core s.ev.x).fills.find? (fun f => decide (f.key = sectorKey 0 0) && (f.stash == s.ev.yes)) = some f ∧
      (e.1 = 2 ^ 40 → s.cutOff f.pa = false) ∧ isStack f.pa = decide (e.1 ≠ 2 ^ 40) ∧ s.homeWaits f.pa = false ∧ (e.1 ≠ 2 ^ 40 → arrived f.deliv (s.ev.x / 192) (homeOf f.pa) = decide (e.1 = 0)))) ∧
    ((windowed {}).cutOff (2 ^ 48) = true ∧ (windowed {}).sectorSent 0 0 false = false ∧ ({ windowed {} with outbound := [(0, { asked with reply := .sector 0 0 false })] } : State).sectorSent 0 0 false = true) ∧
    (dev {}).queryTaken { core := 0, slot := 0, task := 0, gen := 1, flag := 11, va := 0, pa := 0x1000, off := 0 } = false ∧
    (dev {}).homeRefuses 0 0 = none ∧ (dev {}).homeRefuses 0 (7 * 2 ^ 37) = some fADDRRANGE ∧ ((dev {}).log 0).recs = [] ∧
    (∀ z ∈ [0, 2], (let s : State := { dev { x := 0 } with homeOps := [(0, opAt z true)] }; Table.find s.homeOps s.ev.x = some (opAt z true) ∧ (opAt z true).cls = z ∧ s.servable s.ev.x (opAt z true) = true ∧ s.atomicHeld (opAt z true) = false)) ∧
    (let s : State := { withLog { x := 0 } [recAt 0 0] with homeOps := [(0, opAt 2 true)] }; s.servable s.ev.x (opAt 2 true) = true ∧ s.atomicHeld (opAt 2 true) = true) ∧
    (let s : State := { dev { x := 0 } with homeOps := [(0, opAt 2 false)] }; s.servable s.ev.x (opAt 2 false) = false) ∧
    (let q : Query := { core := 0, slot := 0, task := 0, flag := 11, va := 0, pa := 0x1000, off := 0 }
     let s : State := { dev { x := 0 } with queries := [(0, q)], mem := Memory.writeBytes [] 0x1004 ([1, 0, 1, 0, 1]) }
     Table.find s.queries s.ev.x = some q ∧ s.homeWaits q.pa = false ∧ arrived q.deliv 0 (homeOf q.pa) = true ∧ (s.log q.core).recs = [] ∧ s.homeRefuses q.part q.pa = none ∧ s.counted = [] ∧
      s.poisoned q.pa = false ∧ gridOk (s.readBytes q.pa 32) = true ∧ Memory.wf s.mem = true ∧ s.homeRefuses q.part (2 ^ 40 - 2 ^ 20) = some fADDRRANGE) ∧
    (let q : Pend := { portion := 0, flag := none, dest := .scalar 63, regs := 1, size := 8, width := 1, lanes := 0, acc := some { laneLoad with scalar := true, dest := .scalar 63 } }
     let s := on (fun t => { t with pend := [(0, q)] })
     ∃ t, s.train 0 0 = some t ∧ Table.find t.pend 0 = some q ∧ t.mayLand 0 q = true ∧ q.faults = [] ∧ q.killed = 0 ∧ q.acc = some { laneLoad with scalar := true, dest := .scalar 63 } ∧
      q.dest = .scalar 63 ∧ Table.sorted t.s = true ∧ Table.sorted t.pend = true) := by
  refine ⟨by decide +kernel, by decide +kernel, by decide +kernel, by decide +kernel, by decide +kernel, by decide +kernel, ?_⟩
  exact ⟨by decide +kernel, by decide +kernel, by decide +kernel, by decide +kernel, ⟨_, rfl, by decide +kernel⟩⟩

/-! ### Queues, tasks, placement -/

/-- Queue 4095 of slot 0, enabled at level 0 with a ring of 16 entries at 0x80000, and what the queue holds. -/
def queued (a : EvArgs) (head tail : Nat) (q : Queue) : State :=
  { ((dev a).setReg (queueOff 4095 8) 0x8000000000040000).setReg (queueOff 4095 0x10) (BitVec.ofNat 64 (head + tail * 2 ^ 32)) with queues := [(4095, q)] }

/-- The train of core 0 parked on call 7 of queue 4095. -/
def parked : Train := { placedTrain false with call := some { imm := 0, seq := some 7, fault := false } }

/-- Queue 4095 with one entry to fetch, which is poisoned or not. -/
def fetching (b : Bool) : State := { (queued { x := 4095 } 5 6 { accepts := [(6, 0, 0, [])] }).setReg (queueOff 4095 0) 0x80000 with poison := if b then [] else [(0x80000 / 32 + 4 * 5, true)] }

theorem witness_Doorbells :
    (∀ v ∈ [0x8000000000040000, 0x8000000000110000], (let s := dev { x := 4095, val := BitVec.ofNat 64 v }
      s.ev.x = 4095 ∧ 4095 < 4096 ∧ accepts s (queueOff 4095 8) ∧ Table.sorted s.bar = true ∧ s.regBits (queueOff 4095 8) 63 1 = 0 ∧ s.ev.val.getLsbD 63 = true ∧ bits s.ev.val 0 5 ≤ 23 ∧ 4 ≤ bits s.ev.val 16 5 ∧
        decide (bits s.ev.val 16 5 ≤ 16) = decide (v = 0x8000000000040000) ∧ bits s.ev.val 8 7 ≤ 64 ∧ s.pctlState (bits s.ev.val 8 7) ≠ 0)) ∧
    (let s := queued { x := 4095, val := 0x40000 } 0 0 {}; accepts s (queueOff 4095 8) ∧ s.regBits (queueOff 4095 8) 63 1 = 1 ∧ s.ev.val.getLsbD 63 = false ∧ s.ev.val &&& 0x7FF001F7F1F = s.reg (queueOff 4095 8) &&& 0x7FF001F7F1F) ∧
    (∀ v ∈ [2 ^ 32 - 1 + 16, 2 ^ 32 + 0, 15, 16], (let s := queued { x := 0, y := 4095, val := BitVec.ofNat 64 v } (2 ^ 32 - 1) (2 ^ 32 - 1) {}
      s.pageQueue s.ev.x s.ev.y = some 4095 ∧ v = s.ev.val.toNat ∧ s.behindWrite true s.ev.x s.nextId = false ∧
        decide (v < 2 ^ 32 ∧ (v + 2 ^ 32 - s.qHead 4095) % 2 ^ 32 ≤ s.qSize 4095 ∧ (v + 2 ^ 32 - s.qTail 4095) % 2 ^ 32 ≤ s.qSize 4095) = decide (v = 15))) ∧
    (dev { x := 0, y := 4096 }).pageQueue 0 4096 = none ∧
    (let s : State := { queued { x := 0, y := 4095 } 0 0 {} with nextId := 1, inbound := [(0, { group := none, master := 0, acc := inWrite, at_ := 0 })] }; s.behindWrite true s.ev.x s.nextId = true) ∧
    (let s : State := { queued { x := 0, y := 4095, val := 7 } 0 0 {} with trains := [(0, parked)], tasks := [(0, { placedTask with queue := 4095 })] }
     s.trains.find? (fun (e : Nat × Train) => s.parkedOn 4095 (s.ev.val.toNat % 2 ^ 32) e.2) = some (0, parked) ∧ Table.find s.trains 0 = some parked ∧ (parked.call.map Call.fault) = some false) ∧
    (let s := queued { x := 0, y := 4095, val := 7 } 0 0 {}
     s.trains.find? (fun (e : Nat × Train) => s.parkedOn 4095 (s.ev.val.toNat % 2 ^ 32) e.2) = none ∧ s.saved.find? (fun (e : Nat × Train) => s.parkedOn 4095 (s.ev.val.toNat % 2 ^ 32) e.2 && !e.2.staged) = none) ∧
    (let s : State := { queued { x := 0, y := 4095, val := 7 } 0 0 {} with saved := [(0, parked)], tasks := [(0, { placedTask with queue := 4095 })] }
     s.trains.find? (fun (e : Nat × Train) => s.parkedOn 4095 (s.ev.val.toNat % 2 ^ 32) e.2) = none ∧ s.saved.find? (fun (e : Nat × Train) => s.parkedOn 4095 (s.ev.val.toNat % 2 ^ 32) e.2 && !e.2.staged) = some (0, parked)) ∧
    (let s : State := { fetching true with queues := [(4095, { accepts := [(6, 0, 0, [(1728, 1)])] })], logs := [(1728, { tail := 1, pub := 1, recs := [recAt 0 4] })] }; s.doorbellFolded (6, 0, 0, [(1728, 1)]) = false) ∧
    ((fetching true).fotRange 0 (2 ^ 37 + 0x280) 128 = false) ∧
    (let s : State := { fetching true with far := [{ owner := queueOwner 4095, pa := 0x80280, len := 0, code := fMLTIMEOUT }] }; s.gaveUp (queueOwner 4095) 0x80280 = true ∧ s.fotRange 0 0x80280 128 = true) ∧
    (let s := ((fetching true).setReg (queueOff 4095 0) (2 ^ 37 - 0x280)).setRegBits svcstatOff 25 1 1
     s.regBits (queueOff 4095 0) 7 45 * 128 + s.qHead 4095 % s.qSize 4095 * 128 = 2 ^ 37 ∧ s.away (queueOwner 4095) (2 ^ 37) = true ∧ s.gaveUp (queueOwner 4095) (2 ^ 37) = false ∧ s.fotRange 0 (2 ^ 37) 128 = true) ∧
    ((fetching true).setDie 0 { (dev {}).die 0 with pulling := [0x802] }).homeWaits 0x80280 = true ∧
    (∀ n ∈ [0, 1], (let s := fetching (n == 0)
      s.regBits (queueOff 4095 8) 63 1 = 1 ∧ s.qHead 4095 ≠ s.qTail 4095 ∧ (s.queue 4095).head = none ∧ (s.queue 4095).stuck = false ∧ s.regBits fwfailOff 2 1 = 0 ∧ s.owner.recovery = false ∧
        (s.queue 4095).accepts.find? (fun x => after32 x.1 (s.qHead 4095)) = some (6, 0, 0, []) ∧ s.doorbellFolded (6, 0, 0, []) = true ∧ s.regBits (queueOff 4095 0) 7 45 * 128 + s.qHead 4095 % s.qSize 4095 * 128 = 0x80280 ∧
        s.homeWaits 0x80280 = false ∧ s.away (queueOwner 4095) 0x80280 = false ∧ s.gaveUp (queueOwner 4095) 0x80280 = false ∧ s.fotRange (s.qSlot 4095) 0x80280 128 = true ∧ s.anyPoison 0x80280 128 = decide (n = 1))) := by
  simp only [accepts]
  refine ⟨by decide +kernel, by decide +kernel, by decide +kernel, by decide +kernel, by decide +kernel, by decide +kernel, by decide +kernel, by decide +kernel, by decide +kernel, by decide +kernel, by decide +kernel, by decide +kernel, by decide +kernel, fun n h => ?_⟩
  fin_cases h <;> decide +kernel

theorem headReady_of {s : State} {q : Nat} {e : QEntry} (h : (s.queue q).head = some e) (hr : s.taskRoom (s.qSlot q) = true) (hk : le e.bytes 0 1 = 1 ∨ le e.bytes 0 1 = 2)
    (h1 : s.slotRuns (s.qSlot q) = true) (h2 : (s.queue q).dispatching = none) (h3 : le e.bytes 1 1 = 0) (h4 : s.level = 2) : s.headReady q = true := by
  rcases hk with hk | hk <;> simp [State.headReady, h, hr, h1, h2, h3, h4, hk]

theorem myTurn_of {s : State} {q : Nat} {x : Queue} (hq : s.queues = [(q, x)]) (hg : s.graphs = []) (hl : s.qLevel q = 0) (hr : s.headReady q = true) (ht : s.turnOf 0 = s.qSlot q) (hs : 0 < s.share (s.qSlot q) 0)
    (hp : x.dispatching = none) (hh : x.head.isNone = false) :
    s.myTurn (s.qSlot q) (s.qLevel q) q = true := by
  simp [State.myTurn, State.awaiting, State.unfetched, State.candidates, State.behindPlacing, hq, hg, hl, hr, hp, ht, hs, hh, oldest]

/-- An entry at the head of queue 4095, at its slot's turn, in full service, the slot with room for one task, `d` standing at VA 0. -/
def heading (e d : List Byte) : State :=
  { (((withDesc (queued { x := 4095 } 0 0 { head := some { bytes := e, accepted := 0 } }) d).setRegBits svcstatOff 0 2 2).setReg (slotOff 0 0x380) 1) with turns := [(0, 0)], deficit := [(0, 5)], trains := [], tasks := [] }
def graphEntry : List Byte := [2, 0] ++ List.replicate 126 0
/-- A graph of one task node with the count `n`. -/
def graphImage (n : Nat) : List Byte := [1] ++ List.replicate 63 0 ++ ([1, 0] ++ leBytes 2 n ++ List.replicate 60 0)
def cardEntry : List Byte := [3, 0, 1, 0, 0xFF, 0xFF] ++ List.replicate 122 0

theorem heads {e d : List Byte} (hk : le e 0 1 = 1 ∨ le e 0 1 = 2) (h3 : le e 1 1 = 0) (h : (heading e d).queues = [(4095, { head := some { bytes := e, accepted := 0 } })])
    (hc : (decide ((heading e d).qLevel 4095 = 0) && decide ((heading e d).qSlot 4095 = 0) && (heading e d).slotRuns 0 && decide ((heading e d).level = 2) && decide ((heading e d).turnOf 0 = 0) && decide (0 < (heading e d).share 0 0) &&
      decide ((heading e d).regBits (slotOff 0 0x380) 32 17 < (heading e d).regBits (slotOff 0 0x380) 0 17)) = true) :
    (heading e d).headReady 4095 = true ∧ (heading e d).myTurn ((heading e d).qSlot 4095) ((heading e d).qLevel 4095) 4095 = true := by
  simp only [Bool.and_eq_true, decide_eq_true_eq] at hc
  obtain ⟨⟨⟨⟨⟨⟨c1, c2⟩, c3⟩, c4⟩, c5⟩, c6⟩, c7⟩ := hc
  have hq : (heading e d).queue 4095 = { head := some { bytes := e, accepted := 0 } } := by unfold State.queue; rw [h]; rfl
  have hr : (heading e d).headReady 4095 = true :=
    headReady_of (e := { bytes := e, accepted := 0 }) (by rw [hq]) (by rw [c2]; exact taskRoom_of (n := 0) c7 (by decide) rfl) hk (by rw [c2]; exact c3) (by rw [hq]) h3 c4
  exact ⟨hr, myTurn_of h rfl c1 hr (by rw [c2]; exact c5) (by rw [c2]; exact c6) rfl rfl⟩

theorem witness_Dispatch :
    (∀ e ∈ [[1] ++ List.replicate 127 0, [1, 0, 32, 1, 14] ++ List.replicate 123 0, List.replicate 128 0, [4] ++ List.replicate 127 0, [2, 8] ++ List.replicate 126 0], (let s := heading e []
      s.ev.x = 4095 ∧ (s.queue 4095).head = some { bytes := e, accepted := 0 } ∧ s.headReady 4095 = true ∧ s.myTurn (s.qSlot 4095) (s.qLevel 4095) 4095 = true)) ∧
    launchOk ([1] ++ List.replicate 127 0) = false ∧ (launchOk ([1, 0, 32, 1, 14] ++ List.replicate 123 0) = true ∧ launchFits ([1, 0, 32, 1, 14] ++ List.replicate 123 0) = false) ∧ graphEntryOk ([2, 8] ++ List.replicate 126 0) = false ∧
    ((heading (launchRec 7) []).headReady 4095 = true ∧ (heading (launchRec 7) []).myTurn ((heading (launchRec 7) []).qSlot 4095) ((heading (launchRec 7) []).qLevel 4095) 4095 = true) ∧
    (∀ n ∈ [0, 1], (let s := heading graphEntry (graphImage n)
      s.headReady 4095 = true ∧ s.myTurn (s.qSlot 4095) (s.qLevel 4095) 4095 = true ∧ graphEntryOk graphEntry = true ∧ s.deviceRead (queueOwner 4095) (s.qSlot 4095) (le graphEntry 8 8) 64 = .ok ([1] ++ List.replicate 63 0) ∧
        le ([1] ++ List.replicate 63 0) 0 4 = 1 ∧ zeros ([1] ++ List.replicate 63 0) 4 60 = true ∧ s.deviceRead (queueOwner 4095) (s.qSlot 4095) (le graphEntry 8 8 + 64) (64 * 1) = .ok ([1, 0] ++ leBytes 2 n ++ List.replicate 60 0) ∧
        ((tableOf ([1, 0] ++ leBytes 2 n ++ List.replicate 60 0) 0 64 1).all (nodeOk 1) && graphOk ((tableOf ([1, 0] ++ leBytes 2 n ++ List.replicate 60 0) 0 64 1).map nodeOf)) = decide (n = 0))) ∧
    (∀ b ∈ [true, false], (let d := if b then layoutRec else List.replicate 64 0
      let s := heading cardEntry d
      s.headReady 4095 = true ∧ s.myTurn (s.qSlot 4095) (s.qLevel 4095) 4095 = true ∧ cardOk cardEntry = true ∧ s.cardRead (queueOwner 4095) (s.qSlot 4095) cardEntry = .ok d ∧ cardDescOk cardEntry d = b)) ∧
    (let s : State := { heading (List.replicate 128 0) (cardEntry ++ layoutRec) with
        queues := [], ev := { x := 9, y := 0 }, tasks := [(9, { gen := 1, root := true, kind := 2, state := .waiting })], graphs := [(9, [{ typ := 2, count := 0, succs := [], va := 0 }])] }
     (s.task 9).map (fun k => (k.slot, k.level)) = some (0, 0) ∧ (Table.find s.graphs 9).bind readyNode = some 0 ∧ s.graphReady 9 = true ∧ s.myTurn 0 0 (4096 + 9) = true ∧ s.deviceRead (taskOwner 9) 0 0 128 = .ok (cardEntry ++ layoutRec ++ List.replicate 0 0 |>.take 128)) ∧
    (let s : State := { dev { x := 23, y := 0 } with turns := [(23, 64)] }; s.ev.x = 23 ∧ 23 < 24 ∧ s.turnOver 23 = true ∧ s.nextSlot 23 = some 0 ∧ ({ s with turns := Sparse.set 65 s.turns 23 0 } : State).awaiting 0 23 = []) ∧
    (let s : State := { heading (List.replicate 128 0) [] with deficit := [], ev := { x := 0, y := 0 } }; s.turnOver 0 = true ∧ s.nextSlot 0 = some 0 ∧ ({ s with turns := Sparse.set 65 s.turns 0 0 } : State).awaiting 0 0 ≠ []) ∧
    ((dev {}).interval = (dev {}).clock / 1000) ∧ (let s : State := { dev {} with time := 8000, used := [(shareKey 64 23, 5)] }; s.interval ≠ s.clock / 1000 ∧ s.used = [(shareKey 64 23, 5)] ∧ 23 < 32 ∧ Table.sorted s.deficit = true) := by
  refine ⟨by decide +kernel, by decide +kernel, by decide +kernel, by decide +kernel, heads (.inl (by decide +kernel)) (by decide +kernel) rfl (by decide +kernel), ?_, by decide +kernel, by decide +kernel, by decide +kernel, by decide +kernel, by decide +kernel, by decide +kernel⟩
  intro n h
  have hh : (heading graphEntry (graphImage n)).headReady 4095 = true ∧ _ := heads (d := graphImage n) (.inr (by decide +kernel)) (by decide +kernel) rfl (by fin_cases h <;> decide +kernel)
  exact ⟨hh.1, hh.2, by fin_cases h <;> decide +kernel⟩

/-- A copy of one chunk in yard 0 (job 0), and the collective job of `collDesc` (rank 0 of 2). -/
def copyJob : Job := { coll := false, yard := 0, slot := 0, desc := layoutRec, bytes := 1, cost := 3 }
def collJob : Job := { coll := true, yard := 0, slot := 0, desc := collDesc, bytes := 512, cost := 18 }
def withJob (a : EvArgs) (j : Job) : State := { dev a with jobs := [(0, j)] }
/-- A program with one copy step of the pair of cores 0 and 1. -/
def copying : MxProg := { placedProgram 0 with copyN := 1 }
def withProg (a : EvArgs) (m : MxProg) : State := { dev a with tasks := [(0, { placedTask with rsv := 2 ^ 20, live := 0 })], pairs := [(0, { progs := [m] })] }

/-- A layout record of one byte at VA 0 of the tensor, its dense copy at `db` (bit 57: in the scratchpad); a job with it that has started on core 0; and a state whose VA page 0 the leaf `e` maps. -/
def byteRec (db : Nat) : List Byte := leBytes 8 0 ++ leBytes 8 db ++ leBytes 4 1 ++ List.replicate 38 0 ++ [1] ++ List.replicate 5 0
def byteJob (db : Nat) : Job := { copyJob with desc := byteRec db, started := true, core := some 0 }
def pageAt (e : Nat) : State := mapped ((dev {}).setRegBits svcstatOff 25 1 1) e 0

theorem witness_JobsAndPrograms_chunks :
    (let r := chunkReads (dev {}) 0 (byteJob 0x40) 0; (firstFault (r.2.1 ++ r.2.2)).isSome = true ∧ firstDenied (r.2.1 ++ r.2.2) = none) ∧
    (let r := chunkReads (pageAt (0x1FFFE0 * 65536 + 3)) 0 (byteJob 0x40) 0; (firstFault (r.2.1 ++ r.2.2)).isSome = true ∧ (firstDenied (r.2.1 ++ r.2.2)).isSome = true) ∧
    (let r := chunkReads (pageAt (2 ^ 37 + 3)) 0 (byteJob 0x40) 0; firstFault (r.2.1 ++ r.2.2) = none ∧ farReads (r.2.1 ++ r.2.2) ≠ []) ∧
    (let j := byteJob (2 ^ 57 + 0x40)
     let r := chunkReads (pageAt 0x70003) 0 j 0; firstFault (r.2.1 ++ r.2.2) = none ∧ farReads (r.2.1 ++ r.2.2) = [] ∧ j.toPad = true ∧ j.core = some 0) ∧
    (let j := byteJob 0x40
     let r := chunkReads (pageAt 0x70007) 0 j 0
     let ok : List (Elem × Nat) := [({ lane := 0, j := 0, va := some 0x40 }, 0x70040)]
     firstFault (r.2.1 ++ r.2.2) = none ∧ farReads (r.2.1 ++ r.2.2) = [] ∧ j.toPad = false ∧
      (chunkWrites j r.2.1).map (fun w => ((r.1.dropTrips (jobOwner 0)).writeTarget j.eng j.slot (if j.counted.isSome then 4 else 0) w.1).toOption) = ok.map (fun x => some x.2) ∧
      ok.map Prod.fst = (chunkWrites j r.2.1).map (fun w => ({ lane := 0, j := 0, va := some w.1, val := w.2.1 } : Elem))) ∧
    ((copyJob.core = none) ∧ (byteJob 0).core = some 0 ∧ (byteJob 0).step = none ∧ { byteJob 0 with step := some (0, 0, 0, false, 0) }.step.isSome = true) ∧
    ((dev {}).core 0).fills = [] ∧
    (let s := withJob {} (byteJob 0); let s : State := { s with tasks := [(0, { placedTask with rsv := 3, outstanding := 1 })] }
     Table.sorted s.jobs = true ∧ (byteJob 0).queue = none ∧ (byteJob 0).node = none ∧ (s.task 0).isSome = true ∧ s.padImage 0 0 = none ∧ (byteJob 0).coll = false) ∧
    ({ collJob with status := 11, core := some 0 }.coll = true ∧ { collJob with status := 11 }.status ≠ 4 ∧ { copyJob with queue := some 4095 }.queue.isSome = true) := by
  refine ⟨?_, ?_, ?_, ?_, ?_, ?_, ?_, ?_, ?_⟩ <;> decide +kernel

theorem witness_JobsAndPrograms_collectives :
    (∀ n ∈ [0, 1], let j : Job := { collJob with started := true, moved := if n = 1 then [(0, 0)] else [] }; (withJob {} j).collRuns j = true ∧ j.sentOwn = decide (n = 1) ∧ j.moved.any (fun m => decide (m.1 = coN j.desc)) = false) ∧
    (let j : Job := { collJob with started := true, moved := [(0, 0), (2, 0)] }; (withJob {} j).collRuns j = true ∧ j.sentOwn = true ∧ j.moved.any (fun m => decide (m.1 = coN j.desc)) = true) ∧
    (let j : Job := { collJob with started := true }
     let c : Contrib := { job := 9, src := 0, yard := 0, rank := 1, member := 0, data := List.replicate 512 1, pois := false, sent := 0, msg := 0, deliv := true }
     let s : State := { withJob { x := 0, y := 1, z := 1 } j with contribs := [(0, c)] }
     s.collRuns j = true ∧ 1 < coN j.desc ∧ 1 ≠ coRank j.desc ∧ s.ev.z = 0 + 1 ∧ Table.find s.contribs 0 = some c ∧ c.fits j 1 = true) ∧
    (let j : Job := { collJob with started := true }
     let s := pageAt 0x70007
     let u := s.cachePages j.eng (jobOwner 0) j.slot .write (pagesOf (0 + 128 + 1 * 512) 512)
     j.moved.any (fun m => decide (m.1 = 1)) = false ∧ (List.replicate 512 (1 : Byte)).length = coBytes j.desc ∧ coLand j.desc = 0 ∧ (u.readsWait 0 j (u.walksFor 0 j (pagesOf (0 + 128 + 1 * 512) 512))).isNone = true) ∧
    (([] : List Byte).length ≠ coBytes collDesc) ∧
    (let j : Job := { collJob with started := true, moved := [(1, 0)] }
     let s := pageAt 0x70003
     let u := s.cachePages j.eng (jobOwner 0) j.slot .read [0 + 1 / 8]
     j.moved.any (fun m => decide (m.1 = 1)) = true ∧ s.chunkFolded j 1 = true ∧ j.done.contains 1 = false ∧ u.readGlobal 0 j (0 + 1 / 8) 1 = .ok 0 none ∧ { j with done := [1] }.done.contains 1 = true) ∧
    (let j : Job := { collJob with started := true }
     let u := (pageAt 0x70007).cachePages j.eng (jobOwner 0) j.slot .write (pagesOf 8 1)
     let ok : List (Elem × Nat) := [({ lane := 0, j := 0, va := some 8, val := 5 }, 0x70008)]
     ([5] : List Byte).zipIdx.map (fun b => (u.writeTarget j.eng j.slot 0 (8 + b.2)).toOption) = ok.map (fun x => some x.2) ∧
      ok.map Prod.fst = ([5] : List Byte).zipIdx.map (fun b => ({ lane := 0, j := 0, va := some (8 + b.2), val := b.1.toNat } : Elem))) ∧
    (let bs := leBytes 8 0 ++ leBytes 8 9
     let s := submitter bs (fun o => { o with fmt := 0x11, wait := .mxfork 1 })
     let u := ({ s with focus := { core := s.ev.x, slot := s.ev.y, portion := s.ev.z } } : State).modPortion (fun o => { o with wait := .none })
     let c := curOf u
     (((s.train s.ev.x s.ev.y).bind (fun t => t.portion s.ev.z)).map Portion.wait = some (.mxfork 1)) ∧ s.running s.ev.x = none ∧ c.core = s.ev.x ∧ c.core % 2 = 0 ∧ fmtA c.o.fmt ≠ 0 ∧ fmtB c.o.fmt ≠ 0 ∧ u.level ≠ 1 ∧
      u.resizes c.core c.t.task = false ∧ u.headerRead c (c.t.getS 1).toNat = some (.ok bs) ∧ u.ready (curOf u) { op := 0x34, extra := le bs 8 8, sregs := [1], clauses := true, boundary := true } ∧ c.o.again = .no) ∧
    (le collDesc 0 1 = 1 ∧ le ([2] ++ collDesc.drop 1) 0 1 = 2 ∧ le ([4] ++ collDesc.drop 1) 0 1 = 4) := by
  simp only [ready_iff]
  refine ⟨?_, ?_, ?_, ?_, ?_, ?_, ?_, ?_, ?_⟩ <;> decide +kernel

theorem witness_JobsAndPrograms :
    (∀ j ∈ [copyJob, collJob], (let s := withJob { x := 0 } j; s.ev.x = 0 ∧ Table.find s.jobs 0 = some j ∧ s.jobMay 0 j = true)) ∧
    (let j : Job := { copyJob with started := true }
     let s := withJob { x := 0, y := 0 } j
     s.jobMay 0 j = false ∧ j.coll = false ∧ j.started = true ∧ s.ev.y < j.chunkCount ∧ j.status = 0 ∧ j.done.contains s.ev.y = false ∧ s.dieWorks (j.yard / 24) = true ∧ s.sourceFolded j = true ∧
      j.moved.any (fun m => decide (m.1 = s.ev.y)) = false ∧ s.stepCut j = false) ∧
    (let j : Job := { copyJob with started := true, moved := [(0, 0)] }; j.moved.any (fun m => decide (m.1 = (withJob { x := 0, y := 0 } j).ev.y)) = true ∧ (withJob { x := 0, y := 0 } j).chunkFolded j 0 = true) ∧
    (∀ st ∈ [none, some (0, 0, 0, false, 0)], (let j : Job := { copyJob with started := true, moved := [(0, 0)], done := [0], step := st }
      let s := withJob { x := 0, y := 0 } j
      j.status = 0 ∧ s.stepCut j = false ∧ (List.range j.chunkCount).all j.done.contains = true ∧ j.step.isSome = decide (st ≠ none))) ∧
    (let s := withJob { x := 0, y := 1 } collJob; collJob.coll = true ∧ s.ev.y < coN collJob.desc ∧ s.ev.y ≠ coRank collJob.desc ∧ collJob.status = 0 ∧ s.collRuns { collJob with started := true } = true ∧ s.collRuns collJob = false) ∧
    (let j : Job := { collJob with started := true }; j.started = true ∧ j.status = 0 ∧ j.startAt + le j.desc 0x30 8 ≤ (withJob { x := 0 } j).clock ∧ j.moved.any (fun m => decide (m.1 = coN j.desc)) = false) ∧
    (let s := withProg { x := 0 } copying
     s.ev.x = 0 ∧ s.running 0 = some copying ∧ copying.loaded = true ∧ copying.copyJob = none ∧ copying.copyDone < copying.copyN ∧ (copying.ended && decide (copying.status ≠ 0)) = false ∧
      s.mxHeld { leader := 0, pair := s.pairOf 0, m := copying } = false) ∧
    (let m : MxProg := { placedProgram 0 with ended := true, used := 2 ^ 20 }
     let s := withProg { x := 0 } m
     (s.pairOf 0).progs = [m] ∧ m.active = false ∧ (s.task m.task).map (fun k => (k.live, k.rsv)) = some (0, 2 ^ 20) ∧ m.used ≤ m.bound ∧ m.bound - m.used ≤ 2 ^ 20 ∧
      ((s.modTask 0 (fun k => { k with state := .unwinding })).task m.task).map (fun k => (k.live, k.state)) = some (0, .unwinding)) ∧
    (let j : Job := { copyJob with started := true, status := 4 }; j.status ≠ 0 ∧ (Table.find (withJob { x := 0 } j).jobs 0).isSome = true) ∧
    (let j : Job := { copyJob with started := true, moved := [(0, 0)], done := [0], step := some (0, 0, 0, false, 0) }; j.chunksDone = true ∧ ((withJob { x := 0 } j).setPair 0 { progs := [{ copying with ended := true, status := 6, copyJob := some 0 }] }).stepCut j = true) ∧
    (let s := onPortion (fun o => { o with wait := .mxfork 63 })
     (∃ o, (s.train s.ev.x s.ev.y).bind (fun t => t.portion s.ev.z) = some o ∧ o.wait = .mxfork 63) ∧ s.running s.ev.x = none ∧ ((s.setPair 0 { progs := [copying] }).running s.ev.x).isSome = true) ∧
    (let x : Cont := { ready := true, task := 0, off := 0, mask := 0, entry := 0, arg := 7, index := 0, b := [] }
     let s : State := { dev { x := 0, y := 0 } with tasks := [(0, { placedTask with outstanding := 1, state := .waiting })], cores := [(0, { lfsr := 1, conts := [x] })] }
     (s.core 0).conts[0]? = some x ∧ x.ready = true ∧ (s.task x.task).map (fun k => (k.held, k.issues, s.pctlState k.slot, s.roomFor 0 k)) = some (true, true, 2, true)) := by
  refine ⟨by decide +kernel, by decide +kernel, by decide +kernel, ?_, by decide +kernel, ?_⟩
  rotate_left
  · exact ⟨by decide +kernel, by decide +kernel, by decide +kernel, by decide +kernel, by decide +kernel, ⟨⟨_, rfl, rfl⟩, by decide +kernel⟩, by decide +kernel⟩
  intro st h
  fin_cases h <;> decide +kernel

/-- A child (task 1 of task 0) as `f` leaves it. -/
def child (a : EvArgs) (f : Task → Task) : State := { dev a with tasks := [(0, { placedTask with children := 1, state := .starved }), (1, f { gen := 1, parent := 65536, state := .running })] }

theorem witness_TaskEnds :
    (let s := child { x := 1 } id; ∃ k, s.task 1 = some k ∧ k.held = true ∧ k.closing = false ∧ k.state = .running ∧ k.live = 0 ∧ k.children = 0 ∧ k.outstanding = 0 ∧ k.placing = none ∧ Table.find s.graphs 1 = none ∧ k.kind = 1) ∧
    (let s := child { x := 1 } (fun k => { k with live := 1, state := .waiting }); ∃ k, s.task 1 = some k ∧ k.held = true ∧ k.closing = false ∧ k.state = .waiting ∧ k.live ≠ 0) ∧
    (let s : State := { child { x := 1 } (fun k => { k with closing := true }) with logs := [(0, { recs := [{ recAt 0 0 with task := 1 }] })] }; (s.task 1).isSome = true ∧ s.recordsFolded 1 = false) ∧
    (let s := child { x := 1 } (fun k => { k with closing := true }); ∃ k p, s.task 1 = some k ∧ k.held = true ∧ k.closing = true ∧ s.recordsFolded 1 = true ∧ k.root = false ∧ k.node = none ∧ s.counted = [] ∧ s.trains = [] ∧
      (s.writeCompletion (k.compl 1) (k.record 1 s.clock)).1 = true ∧ s.holder k.parent = some 0 ∧ s.task 0 = some p) ∧
    (∀ l ∈ [0, 1], (let s := child { x := 1 } (fun k => { k with state := .starved, expiry := l }); (s.task 1).map (fun k => (k.held, k.state, decide (k.expiry ≤ s.clock))) = some (true, .starved, decide (l = 0)))) ∧
    (∃ t, (handling 1 none).train (handling 1 none).ev.x (handling 1 none).ev.y = some t ∧ t.handler = some bank) ∧
    (let s : State := { (dev {}) with trains := [(0, { parked with call := some { imm := 0, fault := false } })], tasks := [(0, { placedTask with queue := 4095 })] }
     (∃ t k, s.train s.ev.x s.ev.y = some t ∧ t.call = some { imm := 0, fault := false } ∧ s.task t.task = some k ∧ k.queue = 4095) ∧
      (s.regBits (queueOff 4095 0x28) 0 32 + 2 ^ 32 - s.regBits (queueOff 4095 0x28) 32 32) % 2 ^ 32 ≤ s.regBits (queueOff 4095 0x20) 0 16 ∧ s.fotRange (s.regBits (queueOff 4095 8) 8 7) 0 64 = true ∧
      s.regBits ((queueOff 4095 0x18)) 6 46 * 64 + 64 * (s.regBits (queueOff 4095 0x28) 0 32 % (s.regBits (queueOff 4095 0x20) 0 16 + 1)) = 0) ∧
    (let s := (dev {}).setReg (queueOff 4095 0x28) 1; s.regBits (queueOff 4095 0x20) 0 16 < (s.regBits (queueOff 4095 0x28) 0 32 + 2 ^ 32 - s.regBits (queueOff 4095 0x28) 32 32) % 2 ^ 32) ∧
    (let s := (dev {}).setReg (queueOff 4095 0x18) 0x2000000000; s.fotRange (s.regBits (queueOff 4095 8) 8 7) 0x2000000000 64 = false) ∧
    (∀ b ∈ [true, false], let t : Train := { placedTrain false with portions := [(0, { pc := 0, wait := .join 65537 63 })] }
      let s : State := { child {} (fun k => { k with held := b, state := if b then .running else .done }) with trains := [(trainKey 0 31, t)] }
      31 < 32 ∧ t.portions = [(0, { pc := 0, wait := .join 65537 63 })] ∧ (s.joinLook t.task 65537).isSome = !b) ∧
    (let s := child {} (fun k => { k with alw := 5, rsv := 5 }); ∃ k, s.task 1 = some k ∧ 5 ≤ k.alw ∧ 5 ≤ k.rsv) := by
  refine ⟨⟨_, rfl, by decide +kernel⟩, ⟨_, rfl, by decide +kernel⟩, by decide +kernel, ⟨_, _, rfl, rfl, rfl, by decide +kernel, rfl, rfl, rfl, rfl, by decide +kernel, by decide +kernel, rfl⟩, by decide +kernel, ⟨_, rfl, rfl⟩,
    ⟨⟨_, _, rfl, rfl, rfl, rfl⟩, by decide +kernel⟩, by decide +kernel, by decide +kernel, by decide +kernel, ⟨_, rfl, by decide +kernel⟩⟩

/-- A ready root task (task 9) that queue 4095 dispatches, as `f` leaves it. -/
def placing (a : EvArgs) (f : Task → Task) : State :=
  { (queued a 0 0 { dispatching := some 9 }).setReg (slotOff 0 0x388) 0x10010 with tasks := [(9, f { gen := 1, root := true, queue := 4095, state := .ready, cores := 1, trains := 1 })] }
def attemptOf (granted refused heard asked : List Nat) : Placing := { yard := 0, w := 0, asked := asked, granted := granted, refused := refused, heard := heard }

theorem witness_Placement :
    (∀ b ∈ [true, false], (let s := (placing { x := 9, ok := true } (fun k => { k with ways := if b then 0 else 63 })).setReg (slotOff 0 0x40) 1
      ∃ k i, s.task 9 = some k ∧ s.mayPlace 9 k = true ∧ k.siding = none ∧ k.retryAt = 0 ∧ (k.attempts = 0 && s.behindSiding k) = false ∧ i = { k with agentCore := (s.agentOf 9 k).getD none } ∧
        (((s.adverts i).setTask 9 i).chooseWindow i).isSome = b)) ∧
    (let s := (placing { x := 9 } id).setPslot 0 { siding := [8] }; ∃ k, s.task 9 = some k ∧ s.mayPlace 9 k = true ∧ k.siding = none ∧ k.retryAt = 0 ∧ (k.attempts = 0 && s.behindSiding k) = true) ∧
    (let s := placing { x := 9 } (fun k => { k with placing := some (attemptOf [0] [] [0] []), routesN := 1 }); ∃ k, s.task 9 = some k ∧ k.routesN ≠ 0 ∧ s.deviceRead (taskOwner 9) k.slot k.routesVa.toNat (8 * k.routesN) = .fault fPAGEFAULT 0) ∧
    (blockOk [] = true ∧ blockOk (List.replicate 512 0) = true ∧ blockOk (List.replicate 511 0 ++ [1]) = false ∧ routesOk [] 0 1 = true) ∧
    (∀ b ∈ [0, 15], (let s := placing { x := 9, y := 0 } (fun k => { k with trains := 1, budget := b, ways := if b = 0 then 10 else 11, placing := some (attemptOf [] [] [] [0]) })
      ∃ k, s.task 9 = some k ∧ k.placing = some (attemptOf [] [] [] [0]) ∧ 0 ∈ (attemptOf [] [] [] [0]).asked ∧ s.fits k 0 = decide (b = 0))) ∧
    (let pl := attemptOf [0] [] [] []; 0 ∉ pl.heard ∧ (0 ∈ pl.granted ∨ 0 ∈ pl.refused) ∧ pl.granted ≠ []) ∧
    (let s := placing { x := 9 } (fun k => { k with placing := some (attemptOf [0] [] [0] []) }); ∃ k, s.task 9 = some k ∧ k.placing = some (attemptOf [0] [] [0] []) ∧ k.state = .ready ∧ (attemptOf [0] [] [0] []).answered k.cores = true ∧
      (attemptOf [0] [] [0] []).refused = [] ∧ s.slotRuns k.slot = true ∧ s.passes k = false ∧ k.routesN = 0 ∧ k.blockVa = 0) ∧
    (let s := withDesc (placing { x := 9 } (fun k => { k with placing := some (attemptOf [0] [] [0] []), routesN := 1 })) (leBytes 8 1); ∃ k, s.task 9 = some k ∧ k.routesN ≠ 0 ∧ k.blockVa = 0 ∧
      s.deviceRead (taskOwner 9) k.slot k.routesVa.toNat (8 * k.routesN) = .ok (leBytes 8 1)) ∧
    (let pl := attemptOf [0] [1] [0, 1] []; pl.answered 2 = true ∧ pl.refused ≠ [] ∧ pl.granted = [0]) ∧ (let pl := attemptOf [0, 1] [2] [0, 1, 2] []; pl.answered 3 = true ∧ 0 ∈ pl.granted ∧ (∃ d ∈ pl.granted, d ≠ 0)) ∧
    (∀ n ∈ [0, 1, 8], (let s := placing { x := 9 } (fun k => { k with attempts := n }); ∃ k, s.task 9 = some k ∧ k.siding = none ∧ s.retries k.slot = 1 ∧ k.attempts = n)) ∧
    (let s := (placing { x := 9 } (fun k => { k with retryAt := 5 })).setReg (slotOff 0 0x388) 0x20010; ∃ k, s.task 9 = some k ∧ s.mayPlace 9 k = true ∧ k.siding = none ∧ k.retryAt ≠ 0 ∧ k.attempts < s.retries k.slot ∧ s.time < k.retryAt ∧
      k.retryAt ≤ ({ s with time := 5 } : State).time) ∧
    (∀ b ∈ [true, false], (let s := (placing { x := 0 } (fun k => { k with siding := some 0 })).setPslot 0 { siding := [9], freed := b }
      ∃ k, s.ev.x = 0 ∧ (s.pslot 0).siding = 9 :: [] ∧ s.task 9 = some k ∧ s.mayPlace 9 k = true ∧ (s.pslot 0).freed = b)) := by
  refine ⟨?_, ⟨_, rfl, by decide +kernel⟩, ⟨_, rfl, by decide, by decide +kernel⟩, by decide +kernel, ?_, by decide, ⟨_, rfl, by decide +kernel⟩, ⟨_, rfl, by decide +kernel⟩, by decide, by decide, ?_, ⟨_, rfl, by decide +kernel⟩, ?_⟩
  · intro b h; fin_cases h <;> exact ⟨_, _, rfl, by decide +kernel, rfl, rfl, by decide +kernel, rfl, by decide +kernel⟩
  · intro b h; fin_cases h <;> exact ⟨_, rfl, by decide +kernel⟩
  · intro n h; fin_cases h <;> exact ⟨_, rfl, by decide +kernel⟩
  · intro b h; fin_cases h <;> exact ⟨_, by decide +kernel, by decide +kernel, rfl, by decide +kernel, by decide +kernel⟩

/-! ### Stealing, active sets, preemption -/

/-- Core 0 and core 1 as given, no trains running on them. -/
def twoCores (a : EvArgs) (c d : Core) : State := { dev a with cores := [(0, c), (1, d)] }
/-- A train slot's train with its ready time. -/
def sided (n : Nat) : Train := { placedTrain false with readySince := n }
/-- Core 0 with `act` as its active set and trains in slots 0 and 9, the one of slot 9 ready since `n`, at `time`. -/
def sideline (a : EvArgs) (act : List Entry) (n time : Nat) : State :=
  { s0 with ev := a, time := time, trains := [(0, sided 0), (9, sided n)], cores := [(0, { s0.core 0 with active := act })] }
/-- Eight entries held since 1 to 8: those of slots 1 to 7 name no train here. -/
def eight : List Entry := (List.range 8).map (fun i => { slot := i, since := i + 1 })

theorem witness_StealingAndActiveSets :
    (∀ q ∈ [[], [5], [5, 6], [5, 6, 7]], (let s := twoCores { x := 0 } { lfsr := 1, stealTo := some 1 } { lfsr := 1, readyQ := q }
      s.ev.x = 0 ∧ (s.core 0).stealAnswer = none ∧ (s.core 0).stealTo = some 1 ∧ (s.core 1).readyQ = q ∧ s.usable (1 / 192) = true ∧ s.usable (192 / 192) = false)) ∧
    (let s := twoCores { x := 0 } { lfsr := 1, stealTo := some 1, stealAnswer := some none } { lfsr := 1 }; s.ev.x = 0 ∧ (s.core 0).stealAnswer = some none) ∧
    (let s : State := { twoCores { x := 0 } { lfsr := 1, stealTo := some 1, stealAnswer := some (some 5) } { lfsr := 1 } with tasks := [(5, { gen := 1, state := .ready })] }
     s.ev.x = 0 ∧ (s.core 0).stealAnswer = some (some 5) ∧ s.task 5 = some { gen := 1, state := .ready } ∧ ({ gen := 1, state := .ready } : Task).held = true) ∧
    (∀ n ∈ [6, 7], (let s : State := { twoCores { x := 0 } { lfsr := 1, stealAt := 7 } { lfsr := 1 } with time := n }
      s.ev.x = 0 ∧ (s.core 0).stealAt = 7 ∧ (s.core 0).stealTo = none ∧ decide (s.time < 7) = decide (n = 6) ∧ s.coreIdle 0 = true)) ∧
    (∀ n ∈ [1, 7], (let s := sideline { x := 0 } ((List.range n).map (fun i => { slot := i, since := i + 1 })) 3 5; s.ev.x = 0 ∧ s.readiest 0 = some (9, 3) ∧ (s.core 0).active.length < 8)) ∧
    (let s := (sideline { x := 0, y := 0 } eight 3 16384).modTrain 0 0 (fun t => { t with
        stuck := [0], portions := [(0, { pc := 0, clauses := [{ placedClause with waits := 2 ^ 11, next := none }] })]
        pend := [(0, { portion := 0, flag := some 11, dest := .nowhere, regs := 0, size := 0, width := 0, lanes := 0 })] })
     s.readiest 0 = some (9, 3) ∧ s.ev.y = 0 ∧ (s.core 0).actives.contains 0 = true ∧ (s.train 0 0).map s.trainBlocked = some true) ∧
    (∀ n ∈ [10242, 10243], (let s := sideline { x := 0 } eight 3 n
      s.readiest 0 = some (9, 3) ∧ s.longestHeld 0 = some 0 ∧ 8 ≤ (s.core 0).active.length ∧ decide (2048 ≤ cyclesSince s.time 3) = decide (n = 10243) ∧ (s.core 0).lastUrgent = 0)) ∧
    (s0.readiest 0 = none ∧ s0.ev.x = 0) ∧
    (let s := twoCores { x := 0 } { lfsr := 1 } { lfsr := 1 }; s.coreIdle 0 = true ∧ (s.core 0).stealAt = 0 ∧ (s.core 0).stealTo = none ∧ ((s.sendSteal 0).core 0).stealTo.isSome = true) ∧
    (let s := { (sideline { x := 0 } eight 3 8) with cores := [(0, { lfsr := 1, stealAt := 7, active := eight })] }; (s.core 0).stealAt ≤ s.time ∧ s.coreIdle 0 = false) ∧
    (∃ s', step s0 = .next s' ∧ (s'.core 0).active.map Entry.slot = [0]) := by
  refine ⟨by decide +kernel, by decide +kernel, by decide +kernel, by decide +kernel, by decide +kernel, by decide +kernel, ?_⟩
  exact ⟨by decide +kernel, by decide +kernel, by decide +kernel, by decide +kernel, ⟨_, rfl, by decide +kernel⟩⟩

/-- Slot 64 (or 0) in DRAINING at a tier, stopped at time 0, with a DRAINUS of 1 us, now `time`; core 0 is its own. -/
def stopping (a : EvArgs) (p tier base time : Nat) : State :=
  { ((((dev a).setReg (slotOff p 0x40) 1).setReg (slotOff p 0) 3).setReg (slotOff p 0x390) (BitVec.ofNat 64 (2 ^ 32 + tier * 2 ^ 16))).setReg (slotOff p 0x3A8) (BitVec.ofNat 64 (base * 4096)) with time := time } |>.setPslot p { tier := tier }

/-- Train 0 of task 0 in slot `p`. -/
def inSlot (p : Nat) (s : State) : State := { s with tasks := [(0, { placedTask with slot := p })], trains := [(0, placedTrain false)] }

theorem witness_Preemption :
    (∀ n ∈ [7999, 8000], (let s := inSlot 64 (stopping { x := 64 } 64 1 1 n)
      s.ev.x = 64 ∧ s.pctlState 64 = 3 ∧ (s.pslot 64).tier = 1 ∧ s.csBase 64 ≠ 0 ∧ decide (s.drainNs 64 ≤ s.stopAge 64) = decide (n = 8000))) ∧
    (let s := inSlot 0 (stopping { x := 0 } 0 2 0 8000); (s.pslot 0).tier < 3 ∧ s.csBase 0 = 0 ∧ s.drainNs 0 ≤ s.stopAge 0 ∧ s.pctlState 0 = 3) ∧
    (let s := inSlot 0 (stopping { x := 0 } 0 2 1 168000); (s.pslot 0).tier < 3 ∧ s.csBase 0 ≠ 0 ∧ s.drainNs 0 + 20000 = s.stopAge 0 ∧ s.pctlState 0 = 3) ∧
    (∀ v ∈ [0, 1], (let s := inSlot 64 (stopping { x := 64, val := BitVec.ofNat 64 v } 64 1 1 0)
      s.ev.x = 64 ∧ s.pctlState 64 = 3 ∧ accepts s (slotOff 64 0x390) ∧ (s.slotWrite 64 0x390 s.ev.val).pctlState 64 = 3 ∧ decide (s.ev.val.getLsbD 0 = true) = decide (v = 1))) ∧
    (∀ b ∈ [true, false], (let s : State := { inSlot 0 (stopping { x := 0 } 0 2 1 168000) with trains := [], saved := [(0, placedTrain false)], logs := if b then [(0, { recs := [{ recAt 0 0 with stamp := none }] })] else [] }
      s.ev.x = 0 ∧ s.slotOfCore 0 = some 0 ∧ s.pctlState 0 = 3 ∧ 2 ≤ (s.pslot 0).tier ∧ s.csBase 0 ≠ 0 ∧ (s.core 0).saved = false ∧ 0 ∈ s.usedCores 0 ∧ (s.trainsIn 0).any (fun e => decide (e.1 / 32 = 0)) = false ∧
        (s.log 0).recs.any (fun r => r.stamp.isNone) = b ∧ decide ((s.log 0).recs = []) = !b ∧ s.padBusy 0 0 = false ∧ padBytes (s.padsIn 0 0) = [])) ∧
    (let s := inSlot 0 (stopping { x := 0 } 0 1 1 7999); s.pctlState 0 = 3 ∧ s.stopAge 0 < s.drainNs 0) ∧
    (let s : State := { inSlot 0 (stopping { x := 0 } 0 2 1 168000) with logs := [(0, { tail := 1, recs := [recAt 0 0] })], queries := [(3, { core := 0, slot := 0, task := 0, flag := 11, va := 0, pa := 0x1000, off := 0 })] };
      s.padBusy 0 0 = true ∧ (s.log 0).recs.any (fun r => r.stamp.isNone) = false ∧ (s.log 0).settledPkg (s.log 0).tail = false) ∧
    (∀ b ∈ [true, false], (let s : State := { inSlot 0 (stopping { x := 0 } 0 2 (if b then 1 else 2 ^ 30) 168000) with trains := [(0, parked)] }
      Table.find s.trains 0 = some parked ∧ s.slotOfTask parked.task = 0 ∧ s.fotRange 0 (s.recordAt 0 0 0) 4096 = b ∧ parked.call.any (fun c => c.fault || c.seq.isSome) = true)) := by
  simp only [accepts]
  refine ⟨?_, ?_, ?_, ?_, ?_, ?_, ?_, ?_⟩
  case refine_8 => intro b h; fin_cases h <;> exact ⟨rfl, by decide +kernel⟩
  all_goals decide +kernel

/-! ### Matrix commands, encodings, a step -/

/-- A ring of one stage of 32 KiB at 0, its control pair at 0x8000, one producer; drains to memory at 0x70000 and, with ring 0 as residual, to the scratchpad at 0x9000; one copy step. -/
def aRing : List Byte := leBytes 4 0 ++ leBytes 4 32768 ++ leBytes 4 0x8000 ++ [1, 0] ++ leBytes 2 1
def toMemory : List Byte := leBytes 8 0x70000 ++ leBytes 4 1024 ++ leBytes 4 0 ++ [0xFF, 0] ++ List.replicate 14 0
def toPad : List Byte := leBytes 8 (2 ^ 57 + 0x9000) ++ leBytes 4 1024 ++ leBytes 4 0 ++ [0, 0] ++ List.replicate 14 0
def prog (used : Nat) : MxProg := { placedProgram 0 with rings := [aRing], drains := [toMemory, toPad], copyN := 1, copyDone := used, pc := 1, ncmd := 2, used := used }
/-- Its pair in focus, with the ring's control word `full` and a bad word or none. -/
def sequencing (used full : Nat) (bad : List Nat) : State :=
  { dev {} with
    tasks := [(0, { placedTask with rsv := 2 ^ 20 })], pairs := [(0, { progs := [prog used] })]
    cores := [(0, { lfsr := 1, scratch := [(0, { ways := 10, bytes := [(0x8000, BitVec.ofNat 8 full), (0x8002, BitVec.ofNat 8 (full / 65536))], bad := bad })] })] }
/-- The program of a state with the pair in focus, or an empty one. -/
def mxOf (s : State) : MxCtx := match s.mx with
  | some x => x
  | none => { leader := 0, pair := {}, m := placedProgram 0 }
theorem mx_iff {s : State} : s.mx = some (mxOf s) ↔ s.mx.isSome = true := by
  unfold mxOf
  split <;> simp_all

/-- Fields of a matrix command. -/
def mf (a x y : Nat) : MxFields := { a := BitVec.ofNat 8 a, x := BitVec.ofNat 32 x, y := BitVec.ofNat 32 y }

/-- The same with the root of slot 0's page tables on die 1, and the message to it given up or not. -/
def rooted (lost : Bool) : State :=
  { ((sequencing 0 1 []).setRegBits svcstatOff 25 1 1).setReg (slotOff 0 0x3B0) (2 ^ 37 + 1) with far := if lost then [{ owner := programOwner 0, pa := 2 ^ 37, len := 0, code := fMLTIMEOUT }] else [] }

theorem witness_MatrixCommands :
    (let s := sequencing 0 1 []
     let x := mxOf s
     (∀ c ∈ [(0, 16), (112, 16), (0, 128)], s.mxReady x (mldbReq (mf 0 c.1 c.2) x) ∧ s.mxStage x (mldbReq (mf 0 c.1 c.2) x) 0 0) ∧
      (∀ c ∈ [(63, 1), (0, 64)], s.mxReady x (mstrmReq (mf 0 c.1 c.2) x) ∧ s.mxStage x (mstrmReq (mf 0 c.1 c.2) x) 0 0) ∧ x.m.nc ≤ 512 ∧ Table.sorted (s.pairOf x.leader).acc = true ∧
      (∀ c ∈ [(63, 1), (0, 64)], s.mxReady x (mzeroReq (mf 0 c.1 c.2) x)) ∧
      (∀ c ∈ [0, 1], s.mxReady x (mdrainReq (mf c 63 1) x) ∧ x.m.residual (mf c 63 1) = if c = 0 then none else some 0) ∧ s.mxStage x (mdrainReq (mf 1 63 1) x) 0 0 ∧
      s.mxReady x (mloopReq (mf 0 0 2) x) ∧ s.mxReady x (mendReq (mf 0 0 0) x) ∧ s.mxHeld x = false ∧ x.m.rest = [] ∧ (mrdvReq (mf 0 1 0) x).good = true ∧ (mrdvReq (mf 0 1 0) x).waits = true) ∧
    (let s := sequencing 1 1 []; s.mxReady (mxOf s) (mrdvReq (mf 0 1 0) (mxOf s))) ∧
    ((mxOps.map (fun op => (op.2 (mf 9 63 2) (mxOf (sequencing 0 1 []))).good)).take 6 = List.replicate 6 false ∧ (mendReq (mf 1 0 0) (mxOf (sequencing 0 1 []))).good = false) ∧
    (let s := sequencing (2 ^ 20) 1 []
     let x := mxOf s
     s.mx = some x ∧ s.mxHeld x = false ∧ x.m.rest = [] ∧ (∀ q ∈ [mzeroReq (mf 0 0 1) x, mdrainReq (mf 0 0 1) x, mloopReq (mf 0 0 2) x, mrdvReq (mf 0 1 0) x, mendReq (mf 0 0 0) x],
      q.good = true ∧ q.ring = none ∧ q.waits = false ∧ x.m.bound < x.m.used + q.cost)) ∧
    (∀ c ∈ [(0, [], StageAt.waits), (0x10001, [], StageAt.error), (0x10000, [], StageAt.closed), (1, [0x8004 / 4], StageAt.bad)], (let s := sequencing 0 c.1 c.2.1
      let x := mxOf s
      s.mx = some x ∧ s.mxHeld x = false ∧ x.m.rest = [] ∧ stageAt (s.scratch x.leader x.m.task) x.m 0 (x.m.ring 0) = c.2.2 ∧
        (∀ q ∈ [mldbReq (mf 0 0 16) x, mstrmReq (mf 0 0 1) x, mdrainReq (mf 1 0 1) x], q.good = true ∧ q.ring = some 0))) ∧
    (∀ n ∈ [0, 1, 2], (let m : MxProg := { prog 0 with loops := [(1, 1)] }; m.open_.length < 4 ∧ Sparse.wf 0 m.loops = true ∧ (if n = 0 then n = 0 else n ≤ Sparse.get 0 m.loops 1 + 1))) ∧
    (let m := prog 0; (2 : Nat) ≠ 0 ∧ Sparse.get 0 m.loops 1 + 1 < 2) ∧
    (let s := (sequencing 0 1 []).modProg 0 (fun m => { m with rest := [{ gran := 0, pa := 0x70000, mask := 1, data := [5] }] }); s.mx = some (mxOf s) ∧ s.mxHeld (mxOf s) = false ∧ (mxOf s).m.rest ≠ []) ∧
    (∀ b ∈ [true, false], let s := rooted b
      let x := mxOf s
      let q := mdrainReq (mf 0 0 1) x
      s.mx = some x ∧ s.mxHeld x = false ∧ x.m.rest = [] ∧ q.good = true ∧ q.ring = none ∧ q.waits = false ∧ s.mxLost x q = b ∧ (b = false → s.mxStops x q = some (2 ^ 37))) ∧
    (let s := sequencing (2 ^ 20) 1 []
     let x := mxOf s
     ∀ q ∈ [mzeroReq (mf 0 0 1) x, mloopReq (mf 0 0 2) x, mrdvReq (mf 0 1 0) x, mendReq (mf 0 0 0) x], s.mxLost x q = false ∧ s.mxStops x q = none) := by
  refine ⟨?_, ?_, ?_, ?_, ?_, ?_, ?_, ?_, ?_, ?_⟩
  · and_intros <;> ((try simp only [State.mxReady, mx_iff, State.mxStage]); decide +kernel)
  all_goals ((try simp only [State.mxReady, mx_iff]); decide +kernel)

theorem witness_RoundTrip : (∀ i ∈ [Instr.udf, .lnop {}, .mend {}], i.wf = true ∧ (encode i).isSome = true) ∧ (Instr.sadd 63 1 63).wf = true ∧ encode (.sadd 63 1 63) = some (32, 0x03F07F00) := by
  decide +kernel

/-- A state whose first turn is taken off the agenda. -/
def turned (s : State) : State := { s with agenda := [], focus := {}, ev := {} }

theorem witness_StepRunsDecoded :
    (∀ w ∈ [0x00304200, 0x0000001A], (let s := State.reset.withFetchWord 32 w
      let u := turned s
      let c := curOf u
      s.agenda = .scalar {} :: [] ∧ u.cur = some c ∧ c.o.wait = .none ∧ u.competes c = true ∧ c.t.starting = false ∧ u.scalarMay c = true ∧ u.chosen {} false = true ∧ canonical c.o.pc.toNat = true ∧
        (∃ v, u.translate c.core (c.pslot u) c.o.pc.toNat .fetch false = (.ok 0, v) ∧ v.refusal (c.pslot u) 0 0 true = none) ∧ u.codeBusy c c.o.pc.toNat = false ∧ u.codeLost c.core (portionOwner c.core c.slot c.p) (c.pslot u) c.o.pc.toNat = false ∧ isStack 0 = true ∧ u.poisoned 0 = false ∧
        w = leNat ((List.range 4).map (fun i => Memory.read u.mem (0 + i))) ∧ (decodeTableWord 32 w).isSome = decide (w = 0x00304200))) ∧
    (let s := State.reset.withFetchWord 96 0xC00082800000000000000000
     let u := turned s
     let c := curOf u
     s.agenda = .lane {} :: [] ∧ u.cur = some c ∧ c.o.lwait = .none ∧ u.competes c = true ∧ c.t.starting = false ∧ u.laneMay c = true ∧ u.chosen {} true = true ∧ c.o.clauses = placedClause :: [] ∧ placedClause.next = some 1 ∧
      wordVa placedClause.lcb (placedClause.off + 1) = 12 ∧ u.codeBusy c 12 = false ∧ u.codeBusy c 20 = false ∧
      u.codeLost c.core (portionOwner c.core c.slot c.p) (c.pslot u) 12 = false ∧ u.codeLost c.core (portionOwner c.core c.slot c.p) (c.pslot u) 20 = false ∧
      (let v := (u.touch c.core (c.pslot u) 12).touch c.core (c.pslot u) 20
       ∃ bs, v.codeWords c.core (c.pslot v) 3 12 = .ok bs ∧ decodeTableWord 96 (leNat bs) = some (.ld { d := 2, i := 0x140 }))) ∧
    (let s := State.reset.withFetchWord 128 0x01000002000000100000002000000000
     let u := turned s
     s.agenda = .matrix 0 :: [] ∧ u = { s with agenda := [], pair := 0, ev := {} } ∧ (∃ m, u.running 0 = some m ∧ m.ended = false ∧ (u.die (0 / 192)).stopped = false ∧ m.loaded = true ∧
      u.mxHeld { leader := 0, pair := u.pairOf 0, m := m } = false ∧ m.rest = [] ∧ m.pc < m.ncmd ∧ decodeTableWord 128 (le m.cmds (16 * m.pc) 16) = some (.mldb { a := 2, x := 16, y := 32 }))) ∧
    (({ State.reset with agenda := [.device .stealRequest {}] } : State).agenda = .device .stealRequest {} :: [] ∧ encode .stealRequest = none ∧ Instr.stealRequest ≠ .illegalEncoding) ∧ State.reset.agenda = [] := by
  refine ⟨?_, ?_, ⟨by decide +kernel, rfl, ⟨_, rfl, by decide +kernel⟩⟩, by decide +kernel, by decide +kernel⟩
  · intro w h
    fin_cases h <;> refine ⟨by decide +kernel, by rw [cur_iff]; decide +kernel, ?_⟩
    all_goals and_intros
    all_goals first | exact ⟨_, rfl, by decide +kernel⟩ | decide +kernel
  · refine ⟨by decide +kernel, by rw [cur_iff]; decide +kernel, ?_⟩
    and_intros
    all_goals first | exact ⟨_, rfl, by decide +kernel⟩ | decide +kernel

theorem witness_StepKeepsForm : s0.formed = true ∧ ∃ t, step s0 = .next t := by
  exact ⟨by decide +kernel, _, rfl⟩

end Sys2Proof.Tests
end

section
/-! ### Register fields (R9) -/

namespace Sys2Proof.Machine

/-- A number cut at bits `lo` and `lo + n`, with `v` put between the cuts. -/
theorem field_replaced (x lo n v : Nat) :
    x - x / 2 ^ lo % 2 ^ n * 2 ^ lo + v * 2 ^ lo = 2 ^ lo * (2 ^ n * (x / 2 ^ (lo + n)) + v) + x % 2 ^ lo := by
  have hx := Nat.div_add_mod x (2 ^ lo)
  have hq := Nat.div_add_mod (x / 2 ^ lo) (2 ^ n)
  rw [Nat.div_div_eq_div_mul, ← pow_add] at hq
  have hle : 2 ^ lo * (x / 2 ^ lo % 2 ^ n) ≤ x :=
    (Nat.mul_le_mul_left _ (Nat.mod_le _ _)).trans (Nat.mul_div_le x _)
  have hsplit : 2 ^ lo * (x / 2 ^ lo) = 2 ^ lo * (2 ^ n * (x / 2 ^ (lo + n))) + 2 ^ lo * (x / 2 ^ lo % 2 ^ n) := by
    rw [← Nat.mul_add, hq]
  rw [Nat.mul_comm (x / 2 ^ lo % 2 ^ n), Nat.mul_comm v, Nat.mul_add]
  omega

/-- Bit by bit: a replaced field holds the value, and every other bit stays. -/
theorem getLsbD_setBits (x : W64) (lo n v i : Nat) (h : lo + n ≤ 64) :
    (setBits x lo n v).getLsbD i = if lo ≤ i ∧ i < lo + n then v.testBit (i - lo) else x.getLsbD i := by
  have hv : v % 2 ^ n < 2 ^ n := Nat.mod_lt _ (Nat.two_pow_pos n)
  have hx : x.toNat % 2 ^ lo < 2 ^ lo := Nat.mod_lt _ (Nat.two_pow_pos lo)
  have hbit : x.getLsbD i = x.toNat.testBit i := rfl
  unfold setBits bits
  rw [BitVec.getLsbD_ofNat, field_replaced, Nat.testBit_two_pow_mul_add _ hx, Nat.testBit_two_pow_mul_add _ hv, hbit]
  rcases Nat.lt_or_ge i lo with hlo | hlo
  · simp [hlo, Nat.not_le.mpr hlo, show i < 64 by omega]
  · rcases Nat.lt_or_ge i (lo + n) with hhi | hhi
    · simp [hlo, hhi, Nat.not_lt.mpr hlo, show i < 64 by omega, show i - lo < n by omega]
    · have hidx : i - lo - n + (lo + n) = i := by omega
      have hout : 64 ≤ i → x.toNat.testBit i = false := fun hi => BitVec.getLsbD_of_ge x i hi
      simp only [Nat.not_lt.mpr hlo, show ¬ i - lo < n by omega, Nat.not_lt.mpr hhi, if_false, and_false, Nat.testBit_div_two_pow, hidx]
      by_cases hi : i < 64 <;> simp_all

/-- A replaced field reads back. -/
theorem bits_setBits (x : W64) (lo n v : Nat) (h : lo + n ≤ 64) : bits (setBits x lo n v) lo n = v % 2 ^ n := by
  refine Nat.eq_of_testBit_eq fun i => ?_
  have hbit : (setBits x lo n v).toNat.testBit (i + lo) = (setBits x lo n v).getLsbD (i + lo) := rfl
  simp only [bits, Nat.testBit_mod_two_pow, Nat.testBit_div_two_pow]
  by_cases hi : i < n
  · simp [hi, hbit, getLsbD_setBits x lo n v _ h, show ¬ lo + n ≤ i + lo by omega]
  · simp [hi]

/-- The register written reads what was written. -/
theorem State.reg_setReg_same (s : State) (off : Nat) (v : W64) (h : Table.sorted s.bar = true) : (s.setReg off v).reg off = v := by
  unfold State.reg State.setReg
  split
  · next hv => rw [Table.find_drop_same _ _ h, hv]; rfl
  · rw [Table.find_put_same]; rfl

/-- Every other register stays. -/
theorem State.reg_setReg_other (s : State) (off o : Nat) (v : W64) (h : o ≠ off) : (s.setReg off v).reg o = s.reg o := by
  unfold State.reg State.setReg
  split
  · rw [Table.find_drop_other _ _ _ h]
  · rw [Table.find_put_other _ _ _ _ h]

end Sys2Proof.Machine

namespace Sys2Proof.Proofs
open Sys2Proof.Machine

/-- Settles O35: bit by bit through `getLsbD_setBits`, with the register file's reads after writes. -/
theorem registerFields : Obligations.RegisterFields := by
  unfold Obligations.RegisterFields
  intro s off hs
  refine ⟨fun lo n v h => ⟨?_, fun i hi => ?_, fun o ho => s.reg_setReg_other off o _ ho⟩,
    fun v => ⟨fun i hi => ?_, fun o ho => s.reg_setReg_other off o _ ho⟩⟩
  · rw [State.regBits, State.setRegBits, State.reg_setReg_same _ _ _ hs, bits_setBits _ _ _ _ h]
  · rw [State.setRegBits, State.reg_setReg_same _ _ _ hs, getLsbD_setBits _ _ _ _ _ h, if_neg (by omega)]
  · rw [State.plainWrite, State.reg_setReg_same _ _ _ hs]
    simp only [BitVec.getLsbD_or, BitVec.getLsbD_and, BitVec.getLsbD_not, hi, decide_true, Bool.true_and]
    cases (writeMask off).getLsbD i <;> cases (w1cMask off).getLsbD i <;> cases v.getLsbD i <;> simp

end Sys2Proof.Proofs
end

section
/-! ### No step stops (R1, R9): what an instruction needs so that its meaning answers a state -/

namespace Sys2Proof.Machine

variable {s : State} {i : Instr}

/-- An instruction that answers a state wherever a portion is in focus. -/
def RunsInPortion (i : Instr) : Prop := ∀ (s : State) (c : Cur), s.cur = some c → ∃ t, exec i s = .next t

/-- An instruction that answers a state wherever the focus portion has a clause under way. -/
def RunsInClause (i : Instr) : Prop := ∀ (s : State) (c : Cur) (cl : Clause), s.cur = some c → c.clause = some cl → ∃ t, exec i s = .next t

/-- While a program is under way on the pair in focus, a matrix command never stops the machine. -/
theorem State.mxGo_next (s : State) (x : MxCtx) (q : MxCtx → MxReq) (eff : MxCtx → List Byte → State → State) (hx : s.mx = some x) : ∃ t, s.mxGo q eff = .next t := by
  unfold State.mxGo
  rw [hx]
  dsimp only
  repeat' split
  all_goals exact ⟨_, rfl⟩

/-- Every word that the scalar decoder reads is run by `State.scalarGo`. -/
theorem decodeScalar_runs {w : Nat} (h : decodeScalar w = some i) : RunsInPortion i := by
  intro s c hc
  unfold decodeScalar decodeMajor decodeOp00 decodeOp17 decodeOp18 decodeOp19 decodeOp1C decodeOp22 decodeOp23 decodeOp25 decodeOp26 decodeOp28 decodeOp2A decodeOp2B
    decodeOp2C decodeOp2D decodeOp2E decodeOp33 at h
  repeat' split at h
  all_goals cases h
  all_goals
    dsimp only [exec, State.salu, State.sdivide, State.scalarLoad, State.scalarAccess, State.scalarStore, State.brop, State.branchS, State.branchK, State.jumpS, State.kop,
      State.ktoS, State.spawn, State.stage, execUdf, execSadd, execSsub, execSand, execSor, execSxor, execSshl, execSshr, execSsra, execSmul, execSmulh, execSmulhu,
      execSmin, execSmax, execSminu, execSmaxu, execSslt, execSsltu, execSseq, execSdiv, execSdivu, execSrem, execSremu, execSpopc, execSclz, execSctz, execSbrev,
      execSaddi, execSandi, execSori, execSxori, execSshli, execSshri, execSsrai, execSslti, execSmovi, execShori, execSld, execSldx, execSst, execSstx, execSldh,
      execSatom, execBrld, execBrbase, execBroff, execBrext, execBrstr, execBrswz, execBrflg, execBrcpy, execBz, execBnz, execBltz, execBgez, execBlez, execBgtz,
      execBkany, execBkall, execBknone, execBra, execCall, execJr, execCallr, execRet, execRetS0, execCallv, execDivg, execDivgLoop, execJunc, execBrkl, execCls, execClsr,
      execKand, execKor, execKxor, execKandn, execKnot, execKmov, execKsetexm, execKgetexm, execKlive, execKclr, execKones, execKtos, execStok, execKpopc, execKffs,
      execSetfmt, execGetfmt, execPutfmt, execMfs, execMts, execWaitf, execSigc, execSigr, execNop, execSpawn, execSpawnf, execJoinSelf, execJoinChild, execJoinany,
      execGrant, execCut, execTstat, execBarr, execArrive, execWaitb, execArriveStage, execArriveStageClose, execWaita, execWaitm, execRel, execAcq, execStrel, execLdacq,
      execFence, execAcqall, execResize, execCont, execTrap, execFbp, execRflt, execMappg, execIvpg, execHalt, execMxfork, execRdv, execWqry, execColl, execRepack]
    exact State.scalarGo_next s c _ _ _ _ hc

/-- Every word that the lane decoder reads is run by `State.laneTry`. -/
theorem decodeLane_runs {w : Nat} (h : decodeLane w = some i) : RunsInClause i := by
  unfold decodeLane laneOf at h
  intro s c cl hc hcl
  split at h
  all_goals cases h
  all_goals
    dsimp only [exec, State.laneGo, State.laneInt, State.laneLr, State.laneBits, State.shuffle, State.laneFloat, State.laneLong, State.lmLoad, State.laneMem, execLnop, execIadd,
      execIsub, execImul, execImulh, execImad, execIabs, execIneg, execImin, execImax, execLAnd, execLOr, execLXor, execAndn, execLNot, execShl, execShr, execSra,
      execRotl, execBfe, execBfi, execPopc, execClz, execBrev, execPermb, execIcmp, execSel, execLMov, execIdiv, execIrem, execShfl, execShflup, execShfldn, execShflx,
      execVote, execRedu, execScan, execElect, execFadd, execFsub, execFmul, execFfma, execFmin, execFmax, execFcmp, execFclass, execFrnd, execFrcp, execFrsq, execFsqrt,
      execFexp2, execFlog2, execFsinpi, execFcospi, execFdiv, execFscale, execCvt, execQsx, execPksx, execUpsx, execDqsx, execOutl, execLd, execSt, execLdc, execStc,
      execLdh, execPref, execAtom, execTcp]
    exact State.laneTry_next s c cl _ _ _ _ hc hcl

/-- Every command that the matrix decoder reads is run by `State.mxGo`. -/
theorem decodeMx_runs {w : Nat} {x : MxCtx} (h : decodeMx w = some i) (hx : s.mx = some x) : ∃ t, exec i s = .next t := by
  unfold decodeMx mxOf at h
  split at h
  all_goals cases h
  all_goals
    dsimp only [exec]
    exact State.mxGo_next s x _ _ hx

/-- A portion in focus is still there after a change of it. -/
theorem State.cur_modPortion {c : Cur} {f : Portion → Portion} (hc : s.cur = some c) : ∃ d, (s.modPortion f).cur = some d := by
  obtain ⟨hf, ht, hp⟩ := State.cur_eq hc
  have hz : Table.find (s.modPortion f).trains (trainKey c.core c.slot) = some { c.t with portions := Table.modify c.t.portions c.p f } := by
    simp [State.modPortion, State.modCur, State.modTrain, hf, ht]
  refine ⟨{ c with t := { c.t with portions := Table.modify c.t.portions c.p f }, o := f c.o }, ?_⟩
  simp [State.cur, State.train, Train.portion, hf, hz, hp]

/-- MXFORK_ACCEPT runs MXFORK with the waiting portion in focus, or answers the state it was given. -/
theorem execMxforkAccept_next (s : State) : ∃ t, execMxforkAccept s = .next t := by
  unfold execMxforkAccept
  split
  · exact ⟨_, rfl⟩
  · next o ho =>
    split
    · split
      · exact ⟨_, rfl⟩
      · obtain ⟨t, ht, hp⟩ := Option.bind_eq_some_iff.1 ho
        have hc : State.cur { s with focus := ⟨s.ev.x, s.ev.y, s.ev.z⟩ } = some ⟨s.ev.x, s.ev.y, s.ev.z, t, o⟩ := by
          unfold State.train at ht
          simp [State.cur, State.train, ht, hp]
        obtain ⟨d, hd⟩ := State.cur_modPortion hc
        exact State.scalarGo_next _ d _ _ _ _ hd
    · exact ⟨_, rfl⟩

/-- A step of the device asks for nothing in focus. -/
theorem deviceStep_runs (h : deviceStep i = true) : ∃ t, exec i s = .next t := by
  simp only [deviceStep, Bool.and_eq_true, Option.isNone_iff_eq_none, decide_eq_true_eq] at h
  obtain ⟨hcode, hword⟩ := h
  cases i
  case illegalEncoding => exact absurd rfl hword
  case mxforkAccept => exact execMxforkAccept_next s
  all_goals cases hcode
  all_goals exact ⟨_, rfl⟩

/-! ### A fetch leaves the streams as they are -/

/-- The trains, the focus and the event of a turn are the same. -/
structure SameStreams (s t : State) : Prop where
  trains : t.trains = s.trains
  focus : t.focus = s.focus
  ev : t.ev = s.ev

namespace SameStreams

variable {s t u : State}

theorem refl (s : State) : SameStreams s s := ⟨rfl, rfl, rfl⟩

theorem trans (h : SameStreams s t) (h' : SameStreams t u) : SameStreams s u :=
  ⟨h'.trains.trans h.trains, h'.focus.trans h.focus, h'.ev.trans h.ev⟩

theorem cur_eq (h : SameStreams s t) : t.cur = s.cur := by
  simp only [State.cur, State.train, h.trains, h.focus]

theorem deviceNow (bs : List Byte) (s : State) (a : Nat) : SameStreams s (s.deviceNow a bs) := by
  induction bs generalizing s a with
  | nil => exact refl s
  | cons b bs ih =>
    rw [State.deviceNow]
    refine trans ?_ (ih _ _)
    exact ⟨rfl, rfl, rfl⟩

theorem deviceWrite (s : State) (a : Nat) (bs : List Byte) : SameStreams s (s.deviceWrite a bs) := by
  unfold State.deviceWrite
  refine foldl_keeps (SameStreams s) _ _ _ (refl s) (fun u x hu => hu.trans ?_)
  split
  · exact ⟨rfl, rfl, rfl⟩
  · exact deviceNow _ _ _

theorem setReg (s : State) (off : Nat) (v : W64) : SameStreams s (s.setReg off v) := ⟨rfl, rfl, rfl⟩

theorem ringWrite (s : State) (p : Nat) (bs : List Byte) : SameStreams s (s.ringWrite p bs) := by
  unfold State.ringWrite
  extract_lets
  split
  · exact (deviceWrite s _ bs).trans (setReg _ _ _)
  · exact setReg _ _ _

theorem event (s : State) (attr : Option Nat) (cls seg master unit pa : Nat) (mask : W32) : SameStreams s (s.event attr cls seg master unit pa mask) := by
  unfold State.event
  refine trans ?_ (ringWrite _ _ _)
  split
  · split
    · exact setReg _ _ _
    · exact setReg _ _ _
  · exact refl s

/-- A core's translation caches a leaf or reports a poisoned entry (R190). -/
theorem translate (s : State) (core p va : Nat) (r : Right) (pool : Bool) : SameStreams s (s.translate core p va r pool).2 := by
  unfold State.translate
  split
  · exact refl s
  · split
    · exact ⟨rfl, rfl, rfl⟩
    · exact refl s
    · dsimp only
      exact event _ _ _ _ _ _ _ _

theorem touch (s : State) (core p va : Nat) : SameStreams s (s.touch core p va) := by
  unfold State.touch
  split
  · exact translate _ _ _ _ _ _
  · exact refl s

end SameStreams

/-! ### What a turn comes to -/

/-- What a turn's fetch comes to answers a state. -/
def Fetched.Runs (f : Fetched) : Prop := ∃ t, f.out = .next t

theorem Fetched.runs_done (s : State) : (Fetched.done s).Runs := ⟨s, rfl⟩

/-- A word that names no instruction is run as a scalar instruction in a turn of a scalar stream (R302). -/
theorem illegalScalar_runs {c : Cur} (hc : s.cur = some c) (hy : s.ev.yes = false) : ∃ t, exec .illegalEncoding s = .next t := by
  show ∃ t, execIllegalEncoding s = .next t
  simp only [execIllegalEncoding, hy, Bool.false_eq_true, if_false]
  exact State.scalarGo_next s c _ _ _ _ hc

/-- And as a lane instruction in a turn of a lane cursor. -/
theorem illegalLane_runs {c : Cur} {cl : Clause} (hc : s.cur = some c) (hcl : c.clause = some cl) (hy : s.ev.yes = true) : ∃ t, exec .illegalEncoding s = .next t := by
  show ∃ t, execIllegalEncoding s = .next t
  simp only [execIllegalEncoding, hy, if_true]
  exact State.laneTry_next s c cl _ _ _ _ hc hcl

theorem scalarWord_runs {c : Cur} (hc : s.cur = some c) (hy : s.ev.yes = false) : (s.scalarWord c).Runs := by
  have hz := SameStreams.touch s c.core (c.pslot s) c.o.pc.toNat
  unfold State.scalarWord
  extract_lets va z
  split
  · exact Fetched.runs_done _
  · split
    · exact Fetched.runs_done _
    · split
      · exact Fetched.runs_done _
      · split
        · next i hi => exact decodeScalar_runs hi z c (hz.cur_eq.trans hc)
        · exact illegalScalar_runs (hz.cur_eq.trans hc) (by rw [hz.ev, hy])

theorem fetchScalar_runs (hy : s.ev.yes = false) : s.fetchScalar.Runs := by
  unfold State.fetchScalar
  split
  · exact Fetched.runs_done _
  · next c hc =>
    split
    · exact Fetched.runs_done _
    · split
      · exact Fetched.runs_done _
      · split
        · exact Fetched.runs_done _
        · split
          · exact Fetched.runs_done _
          · exact scalarWord_runs hc hy

/-- Lane code is handed on in a state with the same streams. -/
theorem laneCode_runs {c : Cur} {cl : Clause} {off : Nat} {f : Nat → State → Fetched} (hf : ∀ w t, SameStreams s t → (f w t).Runs) : (s.laneCode c cl off f).Runs := by
  unfold State.laneCode
  extract_lets va w z
  have hz : SameStreams s z := (SameStreams.touch _ _ _ _).trans (SameStreams.touch _ _ _ _)
  split
  · exact Fetched.runs_done _
  · split
    · exact Fetched.runs_done _
    · split
      · exact Fetched.runs_done _
      · exact hf _ z hz

theorem laneHeader_runs {c : Cur} {cl : Clause} : (s.laneHeader c cl).Runs := by
  refine laneCode_runs (fun w t _ => ?_)
  split
  · exact Fetched.runs_done _
  · exact Fetched.runs_done _

theorem laneWord_runs {c : Cur} {cl dl : Clause} {n : Nat} (hc : s.cur = some c) (hdl : c.clause = some dl) : (s.laneWord c cl n).Runs := by
  refine laneCode_runs (fun w t ht => ?_)
  have htc : t.cur = some c := ht.cur_eq.trans hc
  split
  · next i hi => exact decodeLane_runs hi t c dl htc hdl
  · exact illegalLane_runs (s := { t with ev := _ }) htc hdl rfl

theorem fetchLane_runs : s.fetchLane.Runs := by
  unfold State.fetchLane
  split
  · exact Fetched.runs_done _
  · next c hc =>
    split
    · exact Fetched.runs_done _
    · split
      · exact Fetched.runs_done _
      · split
        · exact Fetched.runs_done _
        · next cl cls hcl =>
          split
          · exact laneHeader_runs
          · next n hn => exact laneWord_runs (dl := cl) hc (by simp [Cur.clause, hcl, hn])

theorem fetchMatrix_runs : s.fetchMatrix.Runs := by
  unfold State.fetchMatrix
  split
  · exact Fetched.runs_done _
  · next m hm =>
    split
    · exact Fetched.runs_done _
    · split
      · exact Fetched.runs_done _
      · split
        · exact Fetched.runs_done _
        · next hended =>
          split
          · exact Fetched.runs_done _
          · next hloaded =>
            have hx : s.mx = some { leader := s.pair, pair := s.pairOf s.pair, m := m } := by simp_all [State.mx]
            split
            · exact Fetched.runs_done _
            · split
              · next i hi =>
                split at hi
                · exact decodeMx_runs hi hx
                · cases hi
              · exact Fetched.runs_done _

/-- Whatever a turn names, its fetch comes to a state or to an instruction that answers one. -/
theorem fetch_runs (s : State) (t : Turn) : (s.fetch t).Runs := by
  cases t with
  | scalar f => exact fetchScalar_runs rfl
  | lane f => exact fetchLane_runs
  | matrix l => exact fetchMatrix_runs
  | device i a =>
    dsimp only [State.fetch]
    split
    · next h => exact deviceStep_runs h
    · exact Fetched.runs_done _
  | evict core key => exact Fetched.runs_done _
  | forget core key => exact Fetched.runs_done _
  | upset u => exact Fetched.runs_done _
  | idle => exact Fetched.runs_done _

/-- Noting the turn keeps an outcome that is a state a state. -/
theorem noteTurn_next {f : Focus} {lane : Bool} {o : Out} (h : ∃ t, o = .next t) : ∃ t, s.noteTurn f lane i o = .next t := by
  obtain ⟨t, rfl⟩ := h
  dsimp only [State.noteTurn]
  split
  · exact ⟨_, rfl⟩
  · exact ⟨_, rfl⟩

theorem turnOut_next (s : State) (t : Turn) : ∃ u, s.turnOut t = .next u := by
  have hrun := fetch_runs s t
  cases t with
  | scalar f =>
    dsimp only [State.turnOut]
    split
    · exact ⟨_, rfl⟩
    · split
      · exact ⟨_, rfl⟩
      · next hx => rw [hx] at hrun; exact noteTurn_next hrun
  | lane f =>
    dsimp only [State.turnOut]
    split
    · exact ⟨_, rfl⟩
    · split
      · exact ⟨_, rfl⟩
      · next hx => rw [hx] at hrun; exact noteTurn_next hrun
  | matrix l => exact hrun
  | device i a => exact hrun
  | evict core key => exact hrun
  | forget core key => exact hrun
  | upset u => exact hrun
  | idle => exact hrun

/-- A turn ends its cycle in a state. -/
theorem runTurn_next (s : State) (t : Turn) : ∃ u, runTurn s t = .next u := by
  obtain ⟨u, hu⟩ := turnOut_next s t
  exact ⟨u.endCycle, by rw [runTurn, hu, after]⟩

end Sys2Proof.Machine

namespace Sys2Proof.Proofs

open Sys2Proof.Machine

/-- Settles O58: every turn's fetch comes to a state or to an instruction with what it needs in focus (`fetch_runs`), and so ends in a state. -/
theorem stepProgress : Obligations.StepProgress := by
  unfold Obligations.StepProgress
  intro s
  unfold step
  split
  · exact runTurn_next _ _
  · exact runTurn_next _ _

end Sys2Proof.Proofs
end

section
/-! ### The form of a state does not reach into a handler's bank (R161, R162) -/

namespace Sys2Proof.Proofs

open Sys2Proof.Machine

/-- A reconvergence entry of no lanes. -/
def idleEntry : REntry := { kind := .divg, m := 0, fmt := 0, sig := 0, owner := 0, members := [] }

/-- A handler bank whose reconvergence entries do not stand in the order of their keys: `Train.formed` asks nothing of them, for it looks at the bank's lane registers alone. -/
def crossedBank : Handler :=
  { portion := 0, s := [], v := [], k0 := 0, k1 := 0, exm := 0, fmt := 0, sig := 0, lineage := false, xflags := 0, lcb := 0, pc := 0, clauses := [], wait := .none, since := 0
    entries := [(1, idleEntry), (0, idleEntry)] }

/-- A train in the supervisor handler with that bank, about to issue RFLT (0xCC000000). -/
def leavingState : State :=
  (State.reset.withFetchWord 32 0xCC000000).modTrain 0 0 (fun t => { t with handler := some crossedBank })

/-- Whether the state that a step answers has the canonical form; none where it answers no state. -/
def formedAfter (s : State) : Option Bool := match step s with
  | .next t => some t.formed
  | _ => none

theorem formedAfter_of_next {s t : State} (h : step s = .next t) : formedAfter s = some t.formed := by
  rw [formedAfter, h]

/-- Refutes O59: `leavingState` has the canonical form, and the RFLT that its step runs makes the bank's entries the train's own (`Train.leaveHandler`, R162), whose keys fall. -/
theorem not_stepKeepsForm : ¬ Obligations.StepKeepsForm := by
  unfold Obligations.StepKeepsForm
  intro h
  obtain ⟨t, ht⟩ := stepProgress leavingState
  have hs : leavingState.formed = true := by decide +kernel
  have hbad : formedAfter leavingState = some false := by decide +kernel
  rw [formedAfter_of_next ht, h _ t hs ht] at hbad
  cases hbad

end Sys2Proof.Proofs
end

section
/-! ### Stealing between cores, the active set (R138-R144) -/

namespace Sys2Proof.Machine

/-- An entry that names a resident train which is neither parked nor stopped. -/
def State.holdsWell (s : State) (core : Nat) (a : Entry) : Prop := ∃ t, s.train core a.slot = some t ∧ s.trainAside t = false

/-- The end of a cycle leaves no active-set entry but those that may stand (R142). -/
theorem State.settleActive_holdsWell (s : State) : ∀ e ∈ s.settleActive.cores, ∀ a ∈ e.2.active, s.settleActive.holdsWell e.1 a := by
  intro e he a ha
  unfold State.settleActive at he ⊢
  dsimp only at he ⊢
  obtain ⟨d, -, rfl⟩ := List.mem_map.1 he
  obtain ⟨-, hstands⟩ := List.mem_filter.1 ha
  unfold State.holdsWell
  split at hstands
  · next t ht => exact ⟨t, ht, (Bool.not_eq_true' _).mp hstands⟩
  · cases hstands

/-- Every step ends with the active sets settled. -/
theorem step_eq_settleActive {s t : State} (h : step s = .next t) : ∃ u : State, t = u.settleActive := by
  have hrun : ∀ (u : State) (r : Turn), runTurn u r = .next t → ∃ v : State, t = v.settleActive := by
    intro u r hr
    unfold runTurn after at hr
    split at hr
    · cases hr; exact ⟨_, rfl⟩
    · cases hr
    · cases hr
  unfold step at h
  split at h
  · exact hrun _ _ h
  · exact hrun _ _ h

/-! ### Stealing -/

theorem State.answerSteal_tasks (s : State) (c v : Nat) : (s.answerSteal c v).tasks = s.tasks := by
  unfold State.answerSteal
  dsimp only
  split <;> rfl

theorem State.answerSteal_trains (s : State) (c v : Nat) : (s.answerSteal c v).trains = s.trains := by
  unfold State.answerSteal
  dsimp only
  split <;> rfl

/-- A victim gives nothing while its queue holds no task behind its head, or its die is not usable (R30, R139). -/
theorem State.answerSteal_empty (s : State) (c v : Nat) (hno : ¬ (s.usable (v / 192) = true ∧ 2 ≤ (s.core v).readyQ.length)) :
    s.answerSteal c v = s.setCore c { s.core c with stealAnswer := some none } := by
  unfold State.answerSteal
  dsimp only
  rw [if_neg hno]

/-- Else it gives the task at its tail, which leaves its queue. -/
theorem State.answerSteal_tail (s : State) {c v x : Nat} (h : v ≠ c) (hyes : s.usable (v / 192) = true ∧ 2 ≤ (s.core v).readyQ.length) (hx : (s.core v).readyQ.getLast? = some x) :
    s.answerSteal c v = (s.setCore v { s.core v with readyQ := (s.core v).readyQ.filter (fun y => decide (y ≠ x)) }).setCore c { s.core c with stealAnswer := some (some x) } := by
  unfold State.answerSteal
  dsimp only
  rw [if_pos hyes, hx]
  dsimp only
  rw [State.core_setCore_other _ _ _ _ (Ne.symm h)]

/-- A thief with an empty answer, and its victim's queue as it was. -/
theorem State.answerSteal_refused (s : State) {c v : Nat} (h : v ≠ c) (hno : ¬ (s.usable (v / 192) = true ∧ 2 ≤ (s.core v).readyQ.length)) :
    ((s.answerSteal c v).core c).stealAnswer = some none ∧ ((s.answerSteal c v).core v).readyQ = (s.core v).readyQ := by
  rw [State.answerSteal_empty s c v hno, State.core_setCore, State.core_setCore_other _ _ _ _ h]
  exact ⟨rfl, rfl⟩

/-- A thief with the tail task of a queue, whose head and middle stay. -/
theorem State.answerSteal_given (s : State) {c v hd x : Nat} {mid : List Nat} (h : v ≠ c) (hu : s.usable (v / 192) = true)
    (hq : (s.core v).readyQ = hd :: (mid ++ [x])) (hx : x ≠ hd) (hmid : x ∉ mid) :
    ((s.answerSteal c v).core c).stealAnswer = some (some x) ∧ ((s.answerSteal c v).core v).readyQ = hd :: mid := by
  have hlen : 2 ≤ (s.core v).readyQ.length := by rw [hq]; simp
  have hlast : (s.core v).readyQ.getLast? = some x := by rw [hq, ← List.cons_append]; exact List.getLast?_concat
  have hkeep : (hd :: (mid ++ [x])).filter (fun y => decide (y ≠ x)) = hd :: mid := by
    have hm : mid.filter (fun y => decide (y ≠ x)) = mid := List.filter_eq_self.2 (fun y hy => decide_eq_true (fun e : y = x => hmid (e ▸ hy)))
    rw [← List.cons_append, List.filter_append, List.filter_cons, hm]
    simp [Ne.symm hx]
  rw [State.answerSteal_tail s h ⟨hu, hlen⟩ hlast, State.core_setCore, State.core_setCore_other _ _ _ _ h, State.core_setCore, hq]
  exact ⟨rfl, hkeep⟩

/-- A request under way is answered at its victim. -/
theorem execStealRequest_sent {s : State} {c v : Nat} (hc : s.ev.x = c) (hn : (s.core c).stealAnswer = none) (hv : (s.core c).stealTo = some v) :
    exec .stealRequest s = .next (s.answerSteal c v) := by
  show execStealRequest s = _
  simp [execStealRequest, hc, hn, hv]

/-- An idle core with none under way sends one first. -/
theorem execStealRequest_sends {s : State} {c v : Nat} (hc : s.ev.x = c) (hn : (s.core c).stealAnswer = none) (hv : (s.core c).stealTo = none) (hat : (s.core c).stealAt = 0)
    (hi : s.coreIdle c = true) (hu : ((s.sendSteal c).core c).stealTo = some v) : exec .stealRequest s = .next ((s.sendSteal c).answerSteal c v) := by
  show execStealRequest s = _
  simp [execStealRequest, hc, hn, hv, hat, hi, hu]

/-- What an answer leaves of the thief (R139). -/
theorem execStealReply_empty {s : State} {c : Nat} (hc : s.ev.x = c) (h : (s.core c).stealAnswer = some none) :
    exec .stealReply s = .next (s.setCore c { s.core c with stealTo := none, stealAnswer := none, stealAt := s.time + 64 * cycle }) := by
  show execStealReply s = _
  simp [execStealReply, hc, h]

theorem execStealReply_task {s : State} {c x : Nat} {k : Task} (hc : s.ev.x = c) (h : (s.core c).stealAnswer = some (some x)) (hk : s.task x = some k) (hh : k.held = true) (hr : k.state = .ready) :
    exec .stealReply s = .next (s.setCore c { s.core c with stealTo := none, stealAnswer := none, readyQ := (s.core c).readyQ ++ [x] }) := by
  show execStealReply s = _
  simp [execStealReply, hc, h, hk, hh, hr]

/-- The wait after an empty answer goes on until its time, and then the core asks again if it is idle (R139). -/
theorem execStealRetryExpiry_eq {s : State} {c : Nat} (hc : s.ev.x = c) (hat : (s.core c).stealAt ≠ 0) (hto : (s.core c).stealTo = none) :
    exec .stealRetryExpiry s = .next (if s.time < (s.core c).stealAt then s
      else if s.coreIdle c then (s.setCore c { s.core c with stealAt := 0 }).sendSteal c else s.setCore c { s.core c with stealAt := 0 }) := by
  show execStealRetryExpiry s = _
  simp [execStealRetryExpiry, hc, hat, hto]

/-! ### The active set -/

/-- The active set with an entry more. -/
theorem State.activate_active (s : State) (c slot : Nat) (u : Bool) : ((s.activate c slot u).core c).active = (s.core c).active ++ [{ slot := slot, since := s.time, urgent := u }] := by
  simp [State.activate, State.core, State.setCore, State.modTrain]

/-- And without those of a train slot. -/
theorem State.deactivate_active (s : State) (c slot : Nat) : ((s.deactivate c slot).core c).active = (s.core c).active.filter (fun e => decide (e.slot ≠ slot)) := by
  simp [State.deactivate, State.core, State.setCore, State.modTrain]

/-- A free entry goes to the siding train ready longest (R142). -/
theorem execActiveEntryFill_free {s : State} {c : Nat} {r : Nat × Nat} (hc : s.ev.x = c) (hr : s.readiest c = some r) (hf : (s.core c).active.length < 8) :
    exec .activeEntryFill s = .next (s.activate c r.1 false) := by
  show execActiveEntryFill s = _
  simp [execActiveEntryFill, hc, hr, Nat.not_le.2 hf]

/-- A blocked train makes way for it (R143). -/
theorem execBlockedSwap_blocked {s : State} {c y : Nat} {t : Train} {r : Nat × Nat} (hc : s.ev.x = c) (hr : s.readiest c = some r) (hy : s.ev.y = y) (ht : s.train c y = some t)
    (ha : (s.core c).actives.contains y = true) (hb : s.trainBlocked t = true) : exec .blockedSwap s = .next ((s.deactivate c y).activate c r.1 false) := by
  show execBlockedSwap s = _
  unfold execBlockedSwap
  rw [hc, hy, ht, hr]
  simp only [ha, hb, Bool.and_true, if_true]

/-- One ready for 2,048 cycles takes the entry held longest (R144). -/
theorem execUrgentPromotion_long {s : State} {c old : Nat} {r : Nat × Nat} (hc : s.ev.x = c) (hr : s.readiest c = some r) (ho : s.longestHeld c = some old)
    (hfull : 8 ≤ (s.core c).active.length) (hsince : r.2 ≠ 0) (hlong : 2048 ≤ cyclesSince s.time r.2) (hlast : (s.core c).lastUrgent = 0) :
    exec .urgentPromotion s = .next (((s.deactivate c old).activate c r.1 true).setCore c
      { ((s.deactivate c old).activate c r.1 true).core c with lastUrgent := s.time }) := by
  show execUrgentPromotion s = _
  simp [execUrgentPromotion, hc, hr, ho, hsince, hlast, Nat.not_lt.2 hfull, Nat.not_lt.2 hlong]
  rfl

/-- No train is promoted before that, nor where no siding train is ready. -/
theorem execUrgentPromotion_early {s : State} {c : Nat} {r : Nat × Nat} (hc : s.ev.x = c) (hr : s.readiest c = some r) (hshort : cyclesSince s.time r.2 < 2048) :
    exec .urgentPromotion s = .next s := by
  show execUrgentPromotion s = _
  unfold execUrgentPromotion
  dsimp only
  rw [hc, hr]
  cases s.longestHeld c with
  | none => rfl
  | some old => simp [hshort]

theorem activeSteps_noneReady {s : State} {c : Nat} (hr : s.readiest c = none) (hc : s.ev.x = c) :
    exec .activeEntryFill s = .next s ∧ exec .blockedSwap s = .next s ∧ exec .urgentPromotion s = .next s := by
  subst hc
  refine ⟨?_, ?_, ?_⟩
  · show execActiveEntryFill s = _
    simp [execActiveEntryFill, hr]
  · show execBlockedSwap s = _
    simp [execBlockedSwap, hr]
  · show execUrgentPromotion s = _
    simp [execUrgentPromotion, hr]

end Sys2Proof.Machine

namespace Sys2Proof.Proofs

open Sys2Proof.Machine

/-- Settles O52: clause by clause; the last from `State.settleActive_holdsWell`, since every step ends in `State.settleActive`. -/
theorem stealingAndActiveSets : Obligations.StealingAndActiveSets := by
  unfold Obligations.StealingAndActiveSets
  refine ⟨?_, ?_, ?_, ?_, ?_, ?_, ?_, ?_⟩
  · intro s c v hc hn hto hne
    refine ⟨_, execStealRequest_sent hc hn hto, s.answerSteal_tasks c v, s.answerSteal_trains c v, fun hq => ?_, fun hu => ?_, fun hd mid x hu hq hx hmid => ?_⟩
    · exact s.answerSteal_refused hne (fun h => absurd h.2 (by omega))
    · exact s.answerSteal_refused hne (fun h => by simp [hu] at h)
    · exact s.answerSteal_given hne hu hq hx hmid
  · intro s c hc h
    exact ⟨_, execStealReply_empty hc h, by simp⟩
  · intro s c x k hc h hk hh hr
    exact ⟨_, execStealReply_task hc h hk hh hr, by simp⟩
  · rintro s u c v hc hn hto hat hi rfl hu
    exact execStealRequest_sends hc hn hto hat hi hu
  · intro s c hc hat hto
    rw [execStealRetryExpiry_eq hc hat hto]
    refine ⟨fun h => by simp [h], fun h hi => by simp [Nat.not_lt.2 h, hi], fun h hi => by simp [Nat.not_lt.2 h, hi]⟩
  · intro s c r hc hr
    refine ⟨fun hf => execActiveEntryFill_free hc hr hf, fun y t hy ht ha hb => execBlockedSwap_blocked hc hr hy ht ha hb,
      fun old ho hfull hsince hlong hlast => ⟨_, execUrgentPromotion_long hc hr ho hfull hsince hlong hlast, ?_, by simp, fun hne => ?_⟩,
      fun hshort => execUrgentPromotion_early hc hr hshort⟩
    · refine ⟨⟨r.1, (s.deactivate c old).time, true⟩, ?_, rfl, rfl⟩
      rw [State.core_setCore, State.activate_active]
      exact List.mem_append_right _ (List.mem_singleton_self _)
    · rw [State.core_setCore, State.activate_active, State.deactivate_active]
      intro e he
      rcases List.mem_append.1 he with he | he
      · simpa using (List.mem_filter.1 he).2
      · rw [List.mem_singleton.1 he]; exact Ne.symm hne
  · exact fun s c hr hc => activeSteps_noneReady hr hc
  · intro s s' h
    obtain ⟨u, rfl⟩ := step_eq_settleActive h
    exact u.settleActive_holdsWell

end Sys2Proof.Proofs
end

section
/-! ### Registers: fields bit by bit, and a write that is accepted (R9, R50, R55, R76) -/

namespace Sys2Proof.Machine

/-- A field is below its width. -/
theorem bits_lt (x : W64) (lo n : Nat) : bits x lo n < 2 ^ n := Nat.mod_lt _ (Nat.two_pow_pos n)

/-- The bits of a field are those of the register. -/
theorem testBit_bits (x : W64) (lo n i : Nat) : (bits x lo n).testBit i = (decide (i < n) && x.getLsbD (lo + i)) := by
  have hbit : x.getLsbD (lo + i) = x.toNat.testBit (i + lo) := by rw [Nat.add_comm]; rfl
  simp only [bits, Nat.testBit_mod_two_pow, Nat.testBit_div_two_pow, hbit]

/-- Two registers with the same bits in a field have the same field. -/
theorem bits_congr {x y : W64} {lo n : Nat} (h : ∀ i < n, x.getLsbD (lo + i) = y.getLsbD (lo + i)) : bits x lo n = bits y lo n := by
  refine Nat.eq_of_testBit_eq fun i => ?_
  rw [testBit_bits, testBit_bits]
  by_cases hi : i < n
  · rw [h i hi]
  · simp [hi]

/-- A field of one bit is that bit. -/
theorem bits_one (x : W64) (k : Nat) : bits x k 1 = (x.getLsbD k).toNat := by
  refine Nat.eq_of_testBit_eq fun i => ?_
  rw [testBit_bits]
  cases i with
  | zero => cases x.getLsbD k <;> rfl
  | succ i =>
    have hbig : (x.getLsbD k).toNat < 2 ^ (i + 1) := (Bool.toNat_le _).trans_lt (Nat.one_lt_two_pow (Nat.succ_ne_zero i))
    simp [Nat.testBit_lt_two_pow hbig]

theorem bits_one_eq_one {x : W64} {k : Nat} : bits x k 1 = 1 ↔ x.getLsbD k = true := by
  rw [bits_one]
  cases x.getLsbD k <;> simp

theorem bits_one_eq_zero {x : W64} {k : Nat} : bits x k 1 = 0 ↔ x.getLsbD k = false := by
  rw [bits_one]
  cases x.getLsbD k <;> simp

/-- A field that a masked write covers holds what was written. -/
theorem bits_masked (x v m : W64) (lo n : Nat) (h : ∀ i < n, m.getLsbD (lo + i) = true) : bits ((x &&& ~~~ m) ||| (v &&& m)) lo n = bits v lo n := by
  refine bits_congr fun i hi => ?_
  rw [BitVec.getLsbD_or, BitVec.getLsbD_and, BitVec.getLsbD_and, BitVec.getLsbD_not, h i hi]
  simp

/-- A field beside the one replaced stays. -/
theorem bits_setBits_other (x : W64) (lo n v lo' n' : Nat) (h : lo + n ≤ 64) (hd : lo' + n' ≤ lo ∨ lo + n ≤ lo') : bits (setBits x lo n v) lo' n' = bits x lo' n' := by
  refine bits_congr fun i hi => ?_
  rw [getLsbD_setBits _ _ _ _ _ h, if_neg (by omega)]

section
variable (s : State) (off lo n v : Nat)

/-- A field set reads back, in a register file of canonical form. -/
theorem State.regBits_setRegBits_same (h : Table.sorted s.bar = true) (hn : lo + n ≤ 64) : (s.setRegBits off lo n v).regBits off lo n = v % 2 ^ n := by
  rw [State.regBits, State.setRegBits, State.reg_setReg_same _ _ _ h, bits_setBits _ _ _ _ hn]

/-- The other fields of its register stay. -/
theorem State.regBits_setRegBits_beside (lo' n' : Nat) (h : Table.sorted s.bar = true) (hn : lo + n ≤ 64) (hd : lo' + n' ≤ lo ∨ lo + n ≤ lo') :
    (s.setRegBits off lo n v).regBits off lo' n' = s.regBits off lo' n' := by
  rw [State.regBits, State.setRegBits, State.reg_setReg_same _ _ _ h, bits_setBits_other _ _ _ _ _ _ hn hd]
  rfl

/-- And every other register. -/
theorem State.reg_setRegBits_other {o : Nat} (h : o ≠ off) : (s.setRegBits off lo n v).reg o = s.reg o := s.reg_setReg_other off o _ h

theorem State.regBits_setRegBits_other {o : Nat} (lo' n' : Nat) (h : o ≠ off) : (s.setRegBits off lo n v).regBits o lo' n' = s.regBits o lo' n' := by
  rw [State.regBits, State.reg_setRegBits_other _ _ _ _ _ h, State.regBits]

/-- A write of a register keeps the file's canonical form. -/
theorem State.sorted_setReg (x : W64) (h : Table.sorted s.bar = true) : Table.sorted (s.setReg off x).bar = true := by
  unfold State.setReg
  dsimp only
  split
  · exact Table.risesFrom_drop _ _ h
  · exact Table.risesFrom_put _ _ h (Nat.zero_le _)

theorem State.sorted_setRegBits (h : Table.sorted s.bar = true) : Table.sorted (s.setRegBits off lo n v).bar = true := s.sorted_setReg off _ h

end

/-- A write that is accepted is what its register does (R50, R55). -/
theorem State.regWrite_accepted {s : State} {off : Nat} (f : State → State) (h : Claims.accepts s off) : s.regWrite s.ev.who off f = f s := by
  obtain ⟨hclaims, hok⟩ := h
  have hs : s.settleClaims = s := by simp [State.settleClaims, hclaims]
  simp only [State.regWrite, hs, hok]

end Sys2Proof.Machine
end

section
/-! ### Delivery, retry and timeout on the main line (R24-R26, R80) -/

namespace Sys2Proof.Machine

/-! ### The message sent first -/

/-- A message was sent no later than another: by its time, then by its number. -/
def sentNoLater (m k : Nat × Nat × LineMsg) : Prop := m.1 < k.1 ∨ (m.1 = k.1 ∧ m.2.1 ≤ k.2.1)

theorem sentNoLater_refl (m : Nat × Nat × LineMsg) : sentNoLater m m := Or.inr ⟨rfl, le_rfl⟩

theorem sentNoLater_trans {m k l : Nat × Nat × LineMsg} (h : sentNoLater m k) (h' : sentNoLater k l) : sentNoLater m l := by
  unfold sentNoLater at *
  omega

/-- One more message after a list: it is the first of an empty list, or where it was sent before the first one. -/
theorem firstMsg_concat_none {ms : List (Nat × Nat × LineMsg)} (m : Nat × Nat × LineMsg) (h : firstMsg ms = none) : firstMsg (ms ++ [m]) = some m := by
  unfold firstMsg at h ⊢
  rw [List.foldl_append, h]
  rfl

theorem firstMsg_concat_some {ms : List (Nat × Nat × LineMsg)} {k : Nat × Nat × LineMsg} (m : Nat × Nat × LineMsg) (h : firstMsg ms = some k) :
    firstMsg (ms ++ [m]) = if m.1 < k.1 ∨ (m.1 = k.1 ∧ m.2.1 < k.2.1) then some m else some k := by
  unfold firstMsg at h ⊢
  rw [List.foldl_append, h]
  rfl

theorem firstMsg_eq_none {ms : List (Nat × Nat × LineMsg)} (h : firstMsg ms = none) : ms = [] := by
  induction ms using List.reverseRecOn with
  | nil => rfl
  | append_singleton ms x ih =>
    cases hf : firstMsg ms with
    | none => rw [firstMsg_concat_none x hf] at h; cases h
    | some k => rw [firstMsg_concat_some x hf] at h; split at h <;> cases h

/-- The first message is one of the list, and none of the list was sent before it (R25). -/
theorem firstMsg_spec {ms : List (Nat × Nat × LineMsg)} {m : Nat × Nat × LineMsg} (h : firstMsg ms = some m) : m ∈ ms ∧ ∀ k ∈ ms, sentNoLater m k := by
  induction ms using List.reverseRecOn generalizing m with
  | nil => cases h
  | append_singleton ms x ih =>
    cases hf : firstMsg ms with
    | none =>
      rw [firstMsg_concat_none x hf] at h
      cases h
      simpa [firstMsg_eq_none hf] using sentNoLater_refl x
    | some k =>
      obtain ⟨hk, hall⟩ := ih hf
      rw [firstMsg_concat_some x hf] at h
      split at h
      · next hlt =>
        cases h
        have hxk : sentNoLater x k := hlt.imp id (fun h => ⟨h.1, h.2.le⟩)
        refine ⟨by simp, fun l hl => ?_⟩
        rcases List.mem_append.1 hl with hl | hl
        · exact sentNoLater_trans hxk (hall l hl)
        · rw [List.mem_singleton.1 hl]; exact sentNoLater_refl x
      · next hge =>
        cases h
        refine ⟨List.mem_append_left _ hk, fun l hl => ?_⟩
        rcases List.mem_append.1 hl with hl | hl
        · exact hall l hl
        · rw [List.mem_singleton.1 hl]
          unfold sentNoLater
          omega

/-! ### A message delivered -/

/-- MAIN_LINE_MESSAGE by what the line holds (R25, R26). -/
theorem execMainLineMessage_retried {s : State} (h : s.ev.ok = false) : exec .mainLineMessage s = .next s := by
  show execMainLineMessage s = _
  simp [execMainLineMessage, h]

theorem execMainLineMessage_empty {s : State} (h : s.lineNext s.ev.x s.ev.y s.ev.z = none) : exec .mainLineMessage s = .next s := by
  show execMainLineMessage s = _
  simp [execMainLineMessage, h]

theorem execMainLineMessage_delivered {s : State} {m : Nat × Nat × LineMsg} (hok : s.ev.ok = true) (h : s.lineNext s.ev.x s.ev.y s.ev.z = some m) :
    exec .mainLineMessage s = .next (s.lineArrives s.ev.x s.ev.y m.2.2) := by
  show execMainLineMessage s = _
  simp [execMainLineMessage, h, hok]

theorem State.lineArrives_window {s : State} {x y id : Nat} {o : Outbound} (h : Table.find s.outbound id = some o) : s.lineArrives x y (.window id) = s.windowArrives id o := by
  simp only [State.lineArrives, h]

/-- A message of a collective job is taken by its port whatever its window does (R286). -/
theorem State.windowArrives_ether {s : State} {id : Nat} {o : Outbound} (h : o.ether = true) :
    s.windowArrives id o = { s with outbound := Table.put s.outbound id { o with deliv := true, sent := s.time } } := by
  simp only [State.windowArrives, h, if_true]

/-- A request to a window that is not in transition goes on, or ends where the window is cut (R44). -/
theorem State.windowArrives_settled {s : State} {id n : Nat} {o : Outbound} (he : o.ether = false) (hp : s.place o.pa = .link n) (ht : s.inTransition n = false) :
    s.windowArrives id o = if s.linkCut n o.pa then s.outFail id o fLINKDOWN
      else { s with outbound := Table.put s.outbound id { o with deliv := true, sent := s.time, mark := (s.log (linkLog (s.portGroup n o.pa) o.pa)).tail } } := by
  simp only [State.windowArrives, he, hp, ht, Bool.false_and, Bool.false_eq_true, if_false]

/-- One to a window in transition is held while the queue has room, unless it is a posted write to a group that drains (R44). -/
theorem State.windowArrives_held {s : State} {id n : Nat} {o : Outbound} (he : o.ether = false) (hp : s.place o.pa = .link n) (ht : s.inTransition n = true)
    (hd : o.posted = false ∨ s.groupState (o.group.getD 0) ≠ 2) (hc : s.linkCut n o.pa = false) (hf : s.holdFull o.pa = false) :
    s.windowArrives id o = s.hold (s.transitionGroup n) id { o with deliv := true } := by
  have hgo : (o.posted && decide (s.groupState (o.group.getD 0) = 2)) = false := by
    rcases hd with h | h <;> simp [h]
  simp only [State.windowArrives, he, hp, ht, hc, hf, Bool.true_and, hgo, Bool.false_eq_true, if_false, if_true]

/-! ### A message or a reply given up -/

/-- MAIN_LINE_TIMEOUT of a message on its way, and of a reply (R26, R80). -/
theorem execMainLineTimeout_message {s : State} {m : Nat × Nat × LineMsg} (hz : s.ev.z ≠ 1) (h : s.lineNext s.ev.x s.ev.y s.ev.z = some m) : exec .mainLineTimeout s =
    .next (if 80000 ≤ s.time - m.1 then (s.lineLost s.ev.x m.2.2).event none 1 5 0xFFFF s.ev.y 0 0 else s) := by
  show execMainLineTimeout s = _
  simp only [execMainLineTimeout, hz, if_false, h, decide_eq_true_eq]

theorem execMainLineTimeout_empty {s : State} (hz : s.ev.z ≠ 1) (h : s.lineNext s.ev.x s.ev.y s.ev.z = none) : exec .mainLineTimeout s = .next s := by
  show execMainLineTimeout s = _
  simp only [execMainLineTimeout, hz, if_false, h]

theorem execMainLineTimeout_reply {s : State} {m : Nat × LineMsg} (hz : s.ev.z = 1) (h : (s.lineServed s.ev.x s.ev.y)[s.ev.val.toNat]? = some m) : exec .mainLineTimeout s =
    .next (if 80000 ≤ s.time - m.1 then (s.replyLost s.ev.x m.2).event none 1 5 0xFFFF s.ev.y 0 0 else s) := by
  show execMainLineTimeout s = _
  simp only [execMainLineTimeout, hz, if_true, h, decide_eq_true_eq]

section
variable {s : State} {x id : Nat}

/-- What the sender of each message has of its loss (R26, R80). -/
theorem State.lineLost_record {r : Rec} {pos : Nat} (h : (s.log x).recs.find? (fun r => decide (r.pos = pos)) = some r) : s.lineLost x (.record pos) = s.dropRec x r 5 := by
  simp only [State.lineLost, h]

theorem State.replyLost_record {r : Rec} {pos : Nat} (h : (s.log x).recs.find? (fun r => decide (r.pos = pos)) = some r) :
    s.replyLost x (.record pos) = (s.foldRec x r).recFails x r 5 := by
  simp only [State.replyLost, h]

theorem State.lineLost_access {h : HomeOp} (hf : Table.find s.homeOps id = some h) : s.lineLost x (.access id) =
    ({ s with homeOps := Table.drop s.homeOps id }).modPend h.core h.slot h.pend
      (fun q => h.elems.foldl (fun (q : Pend) (y : Elem × Nat) => q.answer y.1 0 (some fMLTIMEOUT) none) q) := by
  simp only [State.lineLost, hf]

theorem State.lineLost_query {q : Query} (h : Table.find s.queries id = some q) : s.lineLost x (.query id) = s.failQuery id q fMLTIMEOUT := by
  simp only [State.lineLost, h]

theorem State.lineLost_window {o : Outbound} (h : Table.find s.outbound id = some o) : s.lineLost x (.window id) = s.outFail id o fMLTIMEOUT := by
  simp only [State.lineLost, h]

theorem State.lineLost_inbound {w : Inbound} (h : Table.find s.inbound id = some w) : s.lineLost x (.inbound id) =
    ({ s with inbound := Table.drop s.inbound id, sent := s.sent ++ [.answer id false []] } : State).logRefusal w.master w.acc.addr := by
  simp only [State.lineLost, h]

theorem State.lineLost_contribution {c : Contrib} {j : Job} (h : Table.find s.contribs id = some c) (hj : Table.find s.jobs c.job = some j) (hs : j.status = 0) :
    s.lineLost x (.contribution id) = ({ s with contribs := Table.drop s.contribs id } : State).jobFault c.job j fMLTIMEOUT := by
  simp only [State.lineLost, h, hj, hs, if_true]

/-- A message that the main line has given up says so at every address of its home. -/
theorem State.gaveUp_of_mem {owner a : Nat} {m : Far} (hm : m ∈ s.far) (ho : m.owner = owner) (hl : m.len = 0) (hc : m.code ≠ 0) (hh : homeOf m.pa = homeOf a)
    (ha : isStack a = true) : s.gaveUp owner a = true := by
  simp only [State.gaveUp, ha, Bool.true_and, List.any_eq_true]
  exact ⟨m, hm, by simp [ho, hl, hc, hh]⟩

end

end Sys2Proof.Machine

namespace Sys2Proof.Proofs

open Sys2Proof.Machine

/-- Settles O44: the order of delivery by `firstMsg_spec`, the rest case by case over the messages. -/
theorem mainLine : Obligations.MainLine := by
  unfold Obligations.MainLine
  refine ⟨fun s x y z m h => firstMsg_spec h, fun s => ⟨execMainLineMessage_retried, execMainLineMessage_empty, fun m => execMainLineMessage_delivered⟩, ?_,
    fun s m => execMainLineTimeout_message, fun s => execMainLineTimeout_empty, fun s m => execMainLineTimeout_reply, ?_⟩
  · intro s x y pos id
    refine ⟨rfl, rfl, rfl, fun o ho => ⟨State.lineArrives_window ho, State.windowArrives_ether, fun n he hp ht => ?_, fun n => State.windowArrives_held⟩, rfl, fun _ _ => rfl, rfl⟩
    rw [State.windowArrives_settled he hp ht]
    exact ⟨fun hc => by rw [if_pos hc], fun hc => by simp only [hc, Bool.false_eq_true, if_false]⟩
  · intro s x
    exact ⟨fun r pos h => ⟨State.lineLost_record h, State.replyLost_record h⟩, fun h id => State.lineLost_access, fun _ _ => rfl, fun q id => State.lineLost_query,
      fun o id => State.lineLost_window, fun w id => State.lineLost_inbound, fun _ _ => rfl, fun c j id => State.lineLost_contribution, fun owner a m => State.gaveUp_of_mem⟩

end Sys2Proof.Proofs
end

section
/-! ### Queues: enable, doorbells, replies, entry fetch (R93-R95, R110, R164) -/

namespace Sys2Proof.Machine

/-! ### The control word (R93, R94) -/

/-- A control word stored while its queue is disabled: the fields that R93 lets a write change. -/
def State.queueStored (s : State) (q : Nat) (v : W64) : State :=
  s.setReg (queueOff q 8) ((s.reg (queueOff q 8) &&& ~~~ 0x7FF001F7F1F#64) ||| (v &&& 0x7FF001F7F1F#64))

/-- Whether a control word describes a valid queue (R94). -/
def State.queueValid (s : State) (v : W64) : Prop :=
  bits v 0 5 ≤ 23 ∧ 4 ≤ bits v 16 5 ∧ bits v 16 5 ≤ 16 ∧ bits v 8 7 ≤ 64 ∧ s.pctlState (bits v 8 7) ≠ 0

section
variable {s : State} {q : Nat} {v : W64}

/-- A field of the stored word is the one written. -/
theorem State.queueStored_regBits (hs : Table.sorted s.bar = true) (lo n : Nat) (hm : ∀ i < n, (0x7FF001F7F1F#64).getLsbD (lo + i) = true) :
    (s.queueStored q v).regBits (queueOff q 8) lo n = bits v lo n := by
  rw [State.regBits, State.queueStored, State.reg_setReg_same _ _ _ hs, bits_masked _ _ _ _ _ hm]

/-- The state of the slot that it names is as before. -/
theorem State.queueStored_pctlState {p : Nat} (_ : p < 128) : (s.queueStored q v).pctlState p = s.pctlState p := by
  have hne : slotOff p 0 ≠ queueOff q 8 := by unfold slotOff queueOff; omega
  rw [State.pctlState, State.slotReg, State.queueStored, State.reg_setReg_other _ _ _ _ hne, State.pctlState, State.slotReg]

theorem State.queueStored_valid (hs : Table.sorted s.bar = true) :
    ((s.queueStored q v).regBits (queueOff q 8) 0 5 ≤ 23 ∧ 4 ≤ (s.queueStored q v).regBits (queueOff q 8) 16 5 ∧ (s.queueStored q v).regBits (queueOff q 8) 16 5 ≤ 16 ∧
      (s.queueStored q v).regBits (queueOff q 8) 8 7 ≤ 64 ∧ (s.queueStored q v).pctlState ((s.queueStored q v).regBits (queueOff q 8) 8 7) ≠ 0) ↔ s.queueValid v := by
  rw [State.queueStored_regBits hs 0 5 (by decide), State.queueStored_regBits hs 16 5 (by decide),
    State.queueStored_regBits hs 8 7 (by decide), State.queueStored_pctlState (bits_lt v 8 7)]
  rfl

/-- EN written to a disabled queue (R94). -/
theorem State.queueControl_enable (hs : Table.sorted s.bar = true) (hoff : s.regBits (queueOff q 8) 63 1 = 0) (hv : v.getLsbD 63 = true) :
    (s.queueValid v → s.queueControl q v = ((s.queueStored q v).queueErr q 0).setRegBits (queueOff q 8) 63 1 1) ∧
    (¬ s.queueValid v → s.queueControl q v = (s.queueStored q v).queueErr q 4) := by
  have hen : (s.reg (queueOff q 8)).getLsbD 63 = false := bits_one_eq_zero.1 hoff
  have hval := State.queueStored_valid (q := q) (v := v) hs
  unfold State.queueControl
  simp only [hen, hv, Bool.false_eq_true, if_false, Bool.not_true]
  exact ⟨fun h => if_pos (hval.2 h), fun h => if_neg (fun hc => h (hval.1 hc))⟩

/-- EN cleared, with no other field changed (R93, R94). -/
theorem State.queueControl_disable (hon : s.regBits (queueOff q 8) 63 1 = 1) (hv : v.getLsbD 63 = false) (hsame : v &&& 0x7FF001F7F1F = s.reg (queueOff q 8) &&& 0x7FF001F7F1F) :
    s.queueControl q v = s.setRegBits (queueOff q 8) 63 1 0 := by
  have hen : (s.reg (queueOff q 8)).getLsbD 63 = true := bits_one_eq_one.1 hon
  unfold State.queueControl
  simp only [hen, hv, hsame, if_true, ne_eq, not_true, if_false, Bool.false_eq_true]

theorem execQueueEnable_accepted (hx : s.ev.x = q) (hq : q < 4096) (ha : Claims.accepts s (queueOff q 8)) (hv : s.ev.val.getLsbD 63 = true) :
    exec .queueEnable s = .next (s.queueControl q s.ev.val) := by
  show execQueueEnable s = _
  subst hx
  simp only [execQueueEnable, Nat.not_le.2 hq, hv, Bool.not_true, Bool.false_eq_true, or_self, if_false, State.regWrite_accepted _ ha]

theorem execQueueDisable_accepted (hx : s.ev.x = q) (hq : q < 4096) (ha : Claims.accepts s (queueOff q 8)) (hv : s.ev.val.getLsbD 63 = false) :
    exec .queueDisable s = .next (s.queueControl q s.ev.val) := by
  show execQueueDisable s = _
  subst hx
  simp only [execQueueDisable, Nat.not_le.2 hq, hv, Bool.false_eq_true, or_self, if_false, State.regWrite_accepted _ ha]

end

/-! ### Doorbells (R95, R110) -/

section
variable {s : State} {q : Nat}

/-- A doorbell of no queue, or one behind BAR4 writes of its master, does nothing. -/
theorem State.atDoorbell_waits (f : Nat → State) (h : s.pageQueue s.ev.x s.ev.y = none ∨ s.behindWrite true s.ev.x s.nextId = true) : s.atDoorbell f = s := by
  unfold State.atDoorbell
  rcases h with h | h
  · rw [h]
  · split
    · rfl
    · rw [if_pos h]

/-- Any other acts on its queue. -/
theorem State.atDoorbell_acts (f : Nat → State) (hq : s.pageQueue s.ev.x s.ev.y = some q) (hb : s.behindWrite true s.ev.x s.nextId = false) : s.atDoorbell f = f q := by
  simp only [State.atDoorbell, hq, hb, Bool.false_eq_true, if_false]

theorem doorbells_wait (h : s.pageQueue s.ev.x s.ev.y = none ∨ s.behindWrite true s.ev.x s.nextId = true) :
    exec .doorbellTail s = .next s ∧ exec .doorbellStail s = .next s ∧ exec .doorbellReplyValue s = .next s ∧ exec .doorbellReplyCommit s = .next s := by
  refine ⟨?_, ?_, ?_, ?_⟩
  · show execDoorbellTail s = _
    rw [execDoorbellTail, State.atDoorbell_waits _ h]
  · show execDoorbellStail s = _
    rw [execDoorbellStail, State.atDoorbell_waits _ h]
  · show execDoorbellReplyValue s = _
    rw [execDoorbellReplyValue, State.atDoorbell_waits _ h]
  · show execDoorbellReplyCommit s = _
    rw [execDoorbellReplyCommit, State.atDoorbell_waits _ h]

/-- A register write leaves the queues, the time and the logs, which a doorbell notes. -/
theorem State.queue_setRegBits (off lo n v : Nat) : (s.setRegBits off lo n v).queue q = s.queue q := by simp only [State.queue, State.setRegBits, State.setReg]
theorem State.clock_setRegBits (off lo n v : Nat) : (s.setRegBits off lo n v).clock = s.clock := by simp only [State.clock, State.setRegBits, State.setReg]
theorem State.inboundTails_setRegBits (off lo n v : Nat) : (s.setRegBits off lo n v).inboundTails = s.inboundTails := by
  simp only [State.inboundTails, State.log, State.setRegBits, State.setReg]
theorem State.ev_setRegBits (off lo n v : Nat) : (s.setRegBits off lo n v).ev = s.ev := by simp only [State.setRegBits, State.setReg]

/-- Whether a TAIL is accepted (R95): it lies in the ring, as counted from HEAD and from the TAIL before it. -/
def State.tailFits (s : State) (q v : Nat) : Prop := v < 2 ^ 32 ∧ (v + 2 ^ 32 - s.qHead q) % 2 ^ 32 ≤ s.qSize q ∧ (v + 2 ^ 32 - s.qTail q) % 2 ^ 32 ≤ s.qSize q

theorem execDoorbellTail_fits (hq : s.pageQueue s.ev.x s.ev.y = some q) (hb : s.behindWrite true s.ev.x s.nextId = false) (h : s.tailFits q s.ev.val.toNat) : exec .doorbellTail s =
    .next ((s.setRegBits (queueOff q 0x10) 32 32 s.ev.val.toNat).setQueue q
      { s.queue q with accepts := (s.queue q).accepts ++ [(s.ev.val.toNat, s.clock, s.ev.x, s.inboundTails)], stuck := false }) := by
  show execDoorbellTail s = _
  unfold execDoorbellTail
  rw [State.atDoorbell_acts _ hq hb]
  unfold State.tailFits at h
  dsimp only
  rw [if_pos h, State.queue_setRegBits, State.clock_setRegBits, State.inboundTails_setRegBits, State.ev_setRegBits]

theorem execDoorbellTail_refused (hq : s.pageQueue s.ev.x s.ev.y = some q) (hb : s.behindWrite true s.ev.x s.nextId = false) (h : ¬ s.tailFits q s.ev.val.toNat) :
    exec .doorbellTail s = .next (s.queueErr q 1) := by
  show execDoorbellTail s = _
  unfold execDoorbellTail
  rw [State.atDoorbell_acts _ hq hb]
  unfold State.tailFits at h
  simp only [h, if_false]

theorem execDoorbellStail_acts (hq : s.pageQueue s.ev.x s.ev.y = some q) (hb : s.behindWrite true s.ev.x s.nextId = false) : exec .doorbellStail s =
    .next (if (s.ev.val.toNat % 2 ^ 32 + 2 ^ 32 - s.regBits (queueOff q 0x28) 32 32) % 2 ^ 32 ≤ (s.regBits (queueOff q 0x28) 0 32 + 2 ^ 32 - s.regBits (queueOff q 0x28) 32 32) % 2 ^ 32
      then s.setRegBits (queueOff q 0x28) 32 32 (s.ev.val.toNat % 2 ^ 32) else s.queueErr q 1) := by
  show execDoorbellStail s = _
  rw [execDoorbellStail, State.atDoorbell_acts _ hq hb]

theorem execDoorbellReplyValue_acts (hq : s.pageQueue s.ev.x s.ev.y = some q) (hb : s.behindWrite true s.ev.x s.nextId = false) :
    exec .doorbellReplyValue s = .next (s.setQueue q { s.queue q with staged := s.ev.val }) := by
  show execDoorbellReplyValue s = _
  rw [execDoorbellReplyValue, State.atDoorbell_acts _ hq hb]

/-- A commit finds the train parked on its call (R110). -/
theorem execDoorbellReplyCommit_resident {e : Nat × Train} (hq : s.pageQueue s.ev.x s.ev.y = some q) (hb : s.behindWrite true s.ev.x s.nextId = false)
    (h : s.trains.find? (fun (e : Nat × Train) => s.parkedOn q (s.ev.val.toNat % 2 ^ 32) e.2) = some e) : exec .doorbellReplyCommit s = .next (s.applyReply e.1 (s.queue q).staged) := by
  show execDoorbellReplyCommit s = _
  unfold execDoorbellReplyCommit
  rw [State.atDoorbell_acts _ hq hb]
  simp only [h]

/-- Else the record of a saved one (R164), or none. -/
theorem execDoorbellReplyCommit_saved {e : Nat × Train} (hq : s.pageQueue s.ev.x s.ev.y = some q) (hb : s.behindWrite true s.ev.x s.nextId = false)
    (h : s.trains.find? (fun (e : Nat × Train) => s.parkedOn q (s.ev.val.toNat % 2 ^ 32) e.2) = none)
    (hs : s.saved.find? (fun (e : Nat × Train) => s.parkedOn q (s.ev.val.toNat % 2 ^ 32) e.2 && !e.2.staged) = some e) :
    exec .doorbellReplyCommit s = .next (s.stageReply e.1 e.2 (s.queue q).staged) := by
  show execDoorbellReplyCommit s = _
  unfold execDoorbellReplyCommit
  rw [State.atDoorbell_acts _ hq hb]
  simp only [h, hs]

theorem execDoorbellReplyCommit_none (hq : s.pageQueue s.ev.x s.ev.y = some q) (hb : s.behindWrite true s.ev.x s.nextId = false)
    (h : s.trains.find? (fun (e : Nat × Train) => s.parkedOn q (s.ev.val.toNat % 2 ^ 32) e.2) = none)
    (hs : s.saved.find? (fun (e : Nat × Train) => s.parkedOn q (s.ev.val.toNat % 2 ^ 32) e.2 && !e.2.staged) = none) :
    exec .doorbellReplyCommit s = .next (s.queueErr q 1) := by
  show execDoorbellReplyCommit s = _
  unfold execDoorbellReplyCommit
  rw [State.atDoorbell_acts _ hq hb]
  simp only [h, hs]

/-- The reply of a trap lands in S1 (R164). -/
theorem State.applyReply_trap {key : Nat} {t : Train} {c : Call} (v : W64) (ht : Table.find s.trains key = some t) (hc : t.call = some c) (hf : c.fault = false) :
    s.applyReply key v = { s with trains := Table.put s.trains key { t.setS 1 v with call := none } } := by
  simp [State.applyReply, ht, hc, hf]

end

/-! ### Fetching (R95) -/

/-- Where the entry at a queue's HEAD lies. -/
def State.entryAt (s : State) (q : Nat) : Nat := s.regBits (queueOff q 0) 7 45 * 128 + s.qHead q % s.qSize q * 128

/-- A queue whose fetch has failed: ERR 3, and no more fetches. -/
def State.fetchFailed (s : State) (q : Nat) : State := ((s.dropTrips (queueOwner q)).queueErr q 3).setQueue q { s.queue q with stuck := true }

section
variable {s : State} {q : Nat} {x : Nat × Nat × Nat × List (Nat × Nat)}

/-- ENTRY_FETCH of an entry that can be fetched. -/
theorem execEntryFetch_eq (hq : s.ev.x = q) (hf : s.fetchable q = true) (hx : s.headAccept q = some x) : exec .entryFetch s = .next (
    if !s.doorbellFolded x then s
    else if !s.fotRange (s.qSlot q) (s.entryAt q) 128 || s.gaveUp (queueOwner q) (s.entryAt q) then s.fetchFailed q
    else if s.homeWaits (s.entryAt q) || s.away (queueOwner q) (s.entryAt q) then s.sendTo (queueOwner q) (s.entryAt q)
    else if s.anyPoison (s.entryAt q) 128 then s.fetchFailed q
    else ((s.dropTrips (queueOwner q)).setRegBits (queueOff q 0x10) 0 32 ((s.qHead q + 1) % 2 ^ 32)).setQueue q
      { s.queue q with
        head := some { bytes := s.readBytes (s.entryAt q) 128, accepted := x.2.1 }
        accepts := (s.queue q).accepts.filter (fun y => after32 y.1 ((s.qHead q + 1) % 2 ^ 32)) }) := by
  show execEntryFetch s = _
  subst hq
  simp only [execEntryFetch, hf, hx, Bool.not_true, Bool.false_eq_true, if_false]
  rfl

/-- What makes an entry fetchable. -/
theorem State.fetchable_of (hen : s.regBits (queueOff q 8) 63 1 = 1) (hne : s.qHead q ≠ s.qTail q) (hh : (s.queue q).head = none) (hst : (s.queue q).stuck = false)
    (hfw : s.regBits fwfailOff 2 1 = 0) (hr : s.owner.recovery = false) : s.fetchable q = true := by
  simp [State.fetchable, hen, hne, hh, hst, hfw, hr]

theorem State.queue_setQueue (s : State) (q : Nat) (k : Queue) : (s.setQueue q k).queue q = k := by
  simp [State.queue, State.setQueue]

/-! The outcomes of a fetch, in the order in which it looks: the writes before the doorbell, the entry's frames and the message, its home, its poison. -/

variable (hq : s.ev.x = q) (hf : s.fetchable q = true) (hx : s.headAccept q = some x)
include hq hf hx

theorem execEntryFetch_early (hd : s.doorbellFolded x = false) : exec .entryFetch s = .next s := by
  rw [execEntryFetch_eq hq hf hx, hd]
  rfl

theorem execEntryFetch_fails (hd : s.doorbellFolded x = true) (h : s.fotRange (s.qSlot q) (s.entryAt q) 128 = false ∨ s.gaveUp (queueOwner q) (s.entryAt q) = true) :
    exec .entryFetch s = .next (s.fetchFailed q) := by
  have hbad : (!s.fotRange (s.qSlot q) (s.entryAt q) 128 || s.gaveUp (queueOwner q) (s.entryAt q)) = true := by
    rcases h with h | h
    · rw [h]; rfl
    · rw [h]; exact Bool.or_true _
  rw [execEntryFetch_eq hq hf hx, hd, if_neg (by decide), if_pos hbad]

variable (hd : s.doorbellFolded x = true) (hfot : s.fotRange (s.qSlot q) (s.entryAt q) 128 = true) (hgave : s.gaveUp (queueOwner q) (s.entryAt q) = false)
include hd hfot hgave

theorem execEntryFetch_away (h : s.homeWaits (s.entryAt q) = true ∨ s.away (queueOwner q) (s.entryAt q) = true) :
    exec .entryFetch s = .next (s.sendTo (queueOwner q) (s.entryAt q)) := by
  rw [execEntryFetch_eq hq hf hx, hd, hfot, hgave, if_neg (by decide), if_neg (by decide), if_pos ((Bool.or_eq_true _ _).mpr h)]

variable (hw : s.homeWaits (s.entryAt q) = false) (haw : s.away (queueOwner q) (s.entryAt q) = false)
include hw haw

theorem execEntryFetch_poisoned (hp : s.anyPoison (s.entryAt q) 128 = true) : exec .entryFetch s = .next (s.fetchFailed q) := by
  rw [execEntryFetch_eq hq hf hx, hd, hfot, hgave, hw, haw, if_neg (by decide), if_neg (by decide), if_neg (by decide), if_pos hp]

theorem execEntryFetch_fetches (hp : s.anyPoison (s.entryAt q) 128 = false) :
    exec .entryFetch s = .next (((s.dropTrips (queueOwner q)).setRegBits (queueOff q 0x10) 0 32 ((s.qHead q + 1) % 2 ^ 32)).setQueue q
      { s.queue q with
        head := some { bytes := s.readBytes (s.entryAt q) 128, accepted := x.2.1 }
        accepts := (s.queue q).accepts.filter (fun y => after32 y.1 ((s.qHead q + 1) % 2 ^ 32)) }) := by
  rw [execEntryFetch_eq hq hf hx, hd, hfot, hgave, hw, haw, hp, if_neg (by decide), if_neg (by decide), if_neg (by decide), if_neg (by decide)]

end

end Sys2Proof.Machine

namespace Sys2Proof.Proofs

open Sys2Proof.Machine

/-- Settles O47: the control word's cases by `State.queueControl_enable`, the doorbells through `State.atDoorbell`, the fetch by `execEntryFetch_eq`. -/
theorem doorbells : Obligations.Doorbells := by
  unfold Obligations.Doorbells
  refine ⟨?_, ?_, fun s => doorbells_wait, ?_, ?_, fun s key t c v ht hc hf => State.applyReply_trap v ht hc hf, ?_⟩
  · rintro s q hx hq ha hs hoff hv u rfl
    rw [execQueueEnable_accepted hx hq ha hv]
    obtain ⟨hgood, hbad⟩ := State.queueControl_enable hs hoff hv
    exact ⟨fun h => congrArg _ (hgood h), fun h => congrArg _ (hbad h)⟩
  · intro s q hx hq ha hon hv hsame
    rw [execQueueDisable_accepted hx hq ha hv, State.queueControl_disable hon hv hsame]
  · rintro s q v hq hb rfl
    exact ⟨execDoorbellTail_fits hq hb, execDoorbellTail_refused hq hb⟩
  · intro s q hq hb
    refine ⟨execDoorbellReplyValue_acts hq hb, fun e => execDoorbellReplyCommit_resident hq hb, fun hnone => ?_, ?_⟩
    · rintro o rfl
      exact ⟨fun e => execDoorbellReplyCommit_saved hq hb hnone, execDoorbellReplyCommit_none hq hb hnone⟩
    · rintro v old head rfl rfl rfl
      exact execDoorbellStail_acts hq hb
  · rintro s q w a x hq rfl hen hne hh hst hfw hr hx ha
    obtain rfl : a = s.entryAt q := ha
    have hf := State.fetchable_of hen hne hh hst hfw hr
    refine ⟨execEntryFetch_early hq hf hx, execEntryFetch_fails hq hf hx, fun hd hfot hgave =>
      ⟨execEntryFetch_away hq hf hx hd hfot hgave, execEntryFetch_poisoned hq hf hx hd hfot hgave, fun hw haw hp => ?_⟩⟩
    exact ⟨_, execEntryFetch_fetches hq hf hx hd hfot hgave hw haw hp, congrArg Queue.head (State.queue_setQueue _ _ _), rfl, rfl⟩

end Sys2Proof.Proofs
end

section
/-! SUPPORT. What the commands of a matrix program leave: the pair after a command is counted and its stage taken, folds over tables, and the stops of a command (R274, R275). -/

set_option Elab.async false

namespace Sys2Proof.Machine

/-! ### Folds over tables -/

/-- A table after a run of writes reads `w` at a key when every write there gives `w` and either one is made or the table read `w` before. -/
theorem Table.find_foldl_put {α β : Type} (f : β → Nat) (g : β → α) (key : Nat) (w : Option α) (l : List β) (m : Table α)
    (hw : ∀ c ∈ l, f c = key → some (g c) = w) (h : Table.find m key = w ∨ ∃ c ∈ l, f c = key) :
    Table.find (l.foldl (fun m c => Table.put m (f c) (g c)) m) key = w := by
  induction l generalizing m with
  | nil => simpa using h
  | cons c cs ih =>
    refine ih _ (fun d hd => hw d (List.mem_cons_of_mem _ hd)) ?_
    by_cases hc : f c = key
    · subst hc
      exact .inl ((Table.find_put_same m _ _).trans (hw c List.mem_cons_self rfl))
    · rw [Table.find_put_other _ _ _ _ (Ne.symm hc)]
      simpa [hc] using h

/-- One write keeps a sparse table sorted. -/
theorem Sparse.sorted_set {α : Type} [DecidableEq α] (d : α) (m : Sparse α) (key : Nat) (v : α) (h : Table.sorted m = true) :
    Table.sorted (Sparse.set d m key v) = true := by
  unfold Sparse.set
  split
  · exact Table.risesFrom_drop m key h
  · exact Table.risesFrom_put m v h (Nat.zero_le _)

/-- A sparse table after a run of writes reads `w` at a key when every write there gives `w` and either one is made or the table read `w` before. -/
theorem Sparse.get_foldl_set {α β : Type} [DecidableEq α] (d : α) (f : β → Nat) (g : β → α) (key : Nat) (w : α) (l : List β) (m : Sparse α)
    (hm : Table.sorted m = true) (hw : ∀ c ∈ l, f c = key → g c = w) (h : Sparse.get d m key = w ∨ ∃ c ∈ l, f c = key) :
    Sparse.get d (l.foldl (fun m c => Sparse.set d m (f c) (g c)) m) key = w := by
  induction l generalizing m with
  | nil => simpa using h
  | cons c cs ih =>
    refine ih _ (Sparse.sorted_set d m _ _ hm) (fun e he => hw e (List.mem_cons_of_mem _ he)) ?_
    by_cases hc : f c = key
    · subst hc
      exact .inl ((Sparse.get_set_same d m _ _ hm).trans (hw c List.mem_cons_self rfl))
    · rw [Sparse.get_set_other d m _ _ _ (Ne.symm hc)]
      simpa [hc] using h

/-- A table of which the entries with a key that fails a test are removed. -/
theorem Table.find_filter_key {α : Type} (m : Table α) (p : Nat → Bool) (key : Nat) :
    Table.find (m.filter (fun e => p e.1)) key = if p key then Table.find m key else none := by
  induction m with
  | nil => simp
  | cons e es ih =>
    obtain ⟨k, v⟩ := e
    rw [List.filter_cons]
    by_cases hp : p k = true
    · rw [if_pos hp]
      by_cases hk : k = key
      · simp [Table.find, ← hk, hp]
      · simp [Table.find, hk, ih]
    · rw [if_neg hp, ih]
      by_cases hk : k = key
      · simp [← hk, hp]
      · simp [Table.find, hk]

/-! ### The pair of a program -/

theorem State.pairOf_setPair_same (s : State) (l : Nat) (k : Pair) : (s.setPair l k).pairOf l = k := by
  simp [State.pairOf, State.setPair]

/-- A change of the running program is a change of the pair's programs only. -/
theorem State.pairOf_modProg (s : State) (l : Nat) (f : MxProg → MxProg) :
    (s.modProg l f).pairOf l = { s.pairOf l with progs := (s.pairOf l).progs.map (fun m => if m.active then f m else m) } :=
  State.pairOf_setPair_same s l _

@[simp] theorem State.modProg_cores (s : State) (l : Nat) (f : MxProg → MxProg) : (s.modProg l f).cores = s.cores := State.setPair_cores _ _ _
@[simp] theorem State.modProg_tasks (s : State) (l : Nat) (f : MxProg → MxProg) : (s.modProg l f).tasks = s.tasks := State.setPair_tasks _ _ _
@[simp] theorem State.modProg_mem (s : State) (l : Nat) (f : MxProg → MxProg) : (s.modProg l f).mem = s.mem := State.setPair_mem _ _ _
@[simp] theorem State.modProg_trains (s : State) (l : Nat) (f : MxProg → MxProg) : (s.modProg l f).trains = s.trains := State.setPair_trains _ _ _

/-- A stage taken leaves memory and the trains as they were. -/
theorem State.mxTook_mem (s : State) (x : MxCtx) (q : MxReq) (r i : Nat) : (s.mxTook x q r i).mem = s.mem := State.modProg_mem _ _ _
theorem State.mxTook_trains (s : State) (x : MxCtx) (q : MxReq) (r i : Nat) : (s.mxTook x q r i).trains = s.trains := State.modProg_trains _ _ _

theorem State.pairOf_mxDone (s : State) (x : MxCtx) (q : MxReq) : ∃ ps, (s.mxDone x q).pairOf x.leader = { s.pairOf x.leader with progs := ps } :=
  ⟨_, State.pairOf_modProg _ _ _⟩

theorem State.pairOf_mxTook (s : State) (x : MxCtx) (q : MxReq) (r i : Nat) : ∃ ps, (s.mxTook x q r i).pairOf x.leader = { s.pairOf x.leader with progs := ps } :=
  ⟨_, State.pairOf_modProg _ _ _⟩

/-! ### The stops of a command (R274, R275) -/

section
variable {s : State} {x : MxCtx} {q : MxCtx → MxReq} (eff : MxCtx → List Byte → State → State) (hx : s.mx = some x) (hh : s.mxHeld x = false)
include hx hh

/-- A command logs first what the MDRAIN before it has left. -/
theorem State.mxGo_rest (hr : x.m.rest ≠ []) : s.mxGo q eff = .next (s.drainRest x.leader x.m x.m.rest) := by
  unfold State.mxGo
  simp [hx, hh, hr]

/-- Operands outside their limits stop the program with CMD. -/
theorem State.mxGo_limits (hr : x.m.rest = []) (hg : (q x).good = false) : s.mxGo q eff = .next (s.modProg x.leader (fun m => m.stop 6 0)) := by
  unfold State.mxGo
  simp [hx, hh, hr, hg]

/-- A command of no ring that waits changes nothing. -/
theorem State.mxGo_waits (hr : x.m.rest = []) (hg : (q x).good = true) (hq : (q x).ring = none) (hw : (q x).waits = true) : s.mxGo q eff = .next s := by
  unfold State.mxGo
  simp [hx, hh, hr, hg, hq, hw]

/-- A command of no ring whose walk the main line has lost stops the program with a fault. -/
theorem State.mxGo_lost (hr : x.m.rest = []) (hg : (q x).good = true) (hq : (q x).ring = none) (hw : (q x).waits = false) (hl : s.mxLost x (q x) = true) :
    s.mxGo q eff = .next ((s.dropTrips (programOwner x.leader)).mxFault x fMLTIMEOUT) := by
  unfold State.mxGo
  simp [hx, hh, hr, hg, hq, hw, hl]

/-- A command of no ring waits on a walk that another die serves. -/
theorem State.mxGo_stops {a : Nat} (hr : x.m.rest = []) (hg : (q x).good = true) (hq : (q x).ring = none) (hw : (q x).waits = false) (hl : s.mxLost x (q x) = false)
    (ha : s.mxStops x (q x) = some a) : s.mxGo q eff = .next (s.askFar (programOwner x.leader) a 0) := by
  unfold State.mxGo
  simp [hx, hh, hr, hg, hq, hw, hl, ha]

/-- A command of no ring past the program's bound stops it with OVERRUN. -/
theorem State.mxGo_overrun (hr : x.m.rest = []) (hg : (q x).good = true) (hq : (q x).ring = none) (hw : (q x).waits = false) (hl : s.mxLost x (q x) = false)
    (ha : s.mxStops x (q x) = none) (hb : x.m.bound < x.m.used + (q x).cost) : s.mxGo q eff = .next (s.mxOverrun x) := by
  unfold State.mxGo
  simp [hx, hh, hr, hg, hq, hw, hl, ha, State.mxSpend, Nat.not_le.mpr hb]

/-- A command of a ring, by what it finds at the ring's next stage, when that is not full. -/
theorem State.mxGo_stageAt {r : Nat} (hr : x.m.rest = []) (hg : (q x).good = true) (hq : (q x).ring = some r) (u : State)
    (hu : u = s.modProg x.leader (fun m =>
      { m with cm := Sparse.set 0 m.cm r (m.closedMask r ((s.scratch x.leader x.m.task).readLe (rgCtl (x.m.ring r) + 8 * m.nextStage r (x.m.ring r)) 4)) })) :
    (stageAt (s.scratch x.leader x.m.task) x.m r (x.m.ring r) = .waits → s.mxGo q eff = .next u) ∧
    (stageAt (s.scratch x.leader x.m.task) x.m r (x.m.ring r) = .error → s.mxGo q eff = .next (u.modProg x.leader (fun m => m.stop 3 0))) ∧
    (stageAt (s.scratch x.leader x.m.task) x.m r (x.m.ring r) = .closed → s.mxGo q eff = .next (u.modProg x.leader MxProg.endOfStream)) ∧
    (stageAt (s.scratch x.leader x.m.task) x.m r (x.m.ring r) = .bad → s.mxGo q eff = .next (u.mxPoison x)) := by
  subst hu
  unfold MxProg.ring State.mxGo
  refine ⟨?_, ?_, ?_, ?_⟩ <;> intro hs <;> simp [hx, hh, hr, hg, hq, hs]

end

/-- Every command runs by the order of R274. -/
theorem exec_mxOps {op : (MxFields → Instr) × (MxFields → MxCtx → MxReq)} (h : op ∈ Claims.mxOps) (f : MxFields) :
    ∃ eff, ∀ s : State, exec (op.1 f) s = s.mxGo (op.2 f) eff := by
  simp only [Claims.mxOps, List.mem_cons, List.not_mem_nil, or_false] at h
  rcases h with rfl | rfl | rfl | rfl | rfl | rfl | rfl
  exacts [⟨_, execMldb.eq_1 f⟩, ⟨_, execMstrm.eq_1 f⟩, ⟨_, execMzero.eq_1 f⟩, ⟨_, execMdrain.eq_1 f⟩, ⟨_, execMloop.eq_1 f⟩, ⟨_, execMrdv.eq_1 f⟩, ⟨_, execMend.eq_1 f⟩]

/-! ### The effects of the commands (R265, R267, R273, R274, R276) -/

/-- MLDB loads its columns of the B banks from the stage it consumes, and nothing else of the pair but its program changes. -/
theorem execMldb_stage (s : State) (x : MxCtx) (f : MxFields) (i : Nat) (h : s.mxReady x (mldbReq f x)) (hs : s.mxStage x (mldbReq f x) f.a.toNat i) :
    ∃ t, exec (.mldb f) s = .next t ∧ t.cores = (s.mxTook x (mldbReq f x) f.a.toNat i).cores ∧ t.tasks = (s.mxTook x (mldbReq f x) f.a.toNat i).tasks ∧
      t.mem = s.mem ∧ t.trains = s.trains ∧
      (t.pairOf x.leader).acc = (s.pairOf x.leader).acc ∧
      (∀ k < f.y.toNat, Table.find (t.pairOf x.leader).bank (f.x.toNat + k) =
        some (bankColumn (fmtB x.m.fmt) (slice (s.mxData x (mldbReq f x) f.a.toNat i) (chunkBytes (fmtB x.m.fmt) * k) (chunkBytes (fmtB x.m.fmt)))).1) ∧
      (∀ n, (n < f.x.toNat ∨ f.x.toNat + f.y.toNat ≤ n) → Table.find (t.pairOf x.leader).bank n = Table.find (s.pairOf x.leader).bank n) := by
  obtain ⟨ps, hp⟩ := s.pairOf_mxTook x (mldbReq f x) f.a.toNat i
  refine ⟨_, (execMldb.eq_1 f s).trans (State.mxGo_stage s x (mldbReq f) _ _ i h hs), ?_, ?_, ?_, ?_, ?_, ?_, ?_⟩
  all_goals simp only [State.mxFlags, State.modProg_cores, State.modProg_tasks, State.modProg_mem, State.modProg_trains, State.setPair_cores, State.setPair_tasks, State.setPair_mem,
    State.setPair_trains, State.mxTook_mem, State.mxTook_trains, State.pairOf_modProg, State.pairOf_setPair_same, hp, List.foldl_map]
  · intro k hk
    exact Table.find_foldl_put _ _ _ _ _ _ (fun c _ hc => by rw [Nat.add_left_cancel hc]) (.inr ⟨k, List.mem_range.mpr hk, rfl⟩)
  · intro n hn
    exact Table.find_foldl_put _ _ _ _ _ _ (fun c hc hk => absurd (List.mem_range.mp hc) (by omega)) (.inl rfl)

/-- The place of an accumulator names its row and its pair column. -/
theorem accPlace_inj {r r' c c' : Nat} (hc : c < 512) (hc' : c' < 512) (h : 512 * r + c = 512 * r' + c') : r = r' ∧ c = c' := by omega

/-- MSTRM adds its chunks' sums to the accumulators of its rows and active columns, and nothing else of the pair but its program changes. -/
theorem execMstrm_stage (s : State) (x : MxCtx) (f : MxFields) (i : Nat) (h : s.mxReady x (mstrmReq f x)) (hs : s.mxStage x (mstrmReq f x) f.a.toNat i)
    (hnc : x.m.nc ≤ 512) (hacc : Table.sorted (s.pairOf x.leader).acc = true) :
    ∃ t, exec (.mstrm f) s = .next t ∧ t.cores = (s.mxTook x (mstrmReq f x) f.a.toNat i).cores ∧ t.tasks = (s.mxTook x (mstrmReq f x) f.a.toNat i).tasks ∧
      t.mem = s.mem ∧ t.trains = s.trains ∧
      (t.pairOf x.leader).bank = (s.pairOf x.leader).bank ∧
      (∀ j n, j < f.y.toNat → n < x.m.nc → Claims.accAt (t.pairOf x.leader) (f.x.toNat + j) n =
        BitVec.ofNat 32 (accumulate (Claims.accAt (s.pairOf x.leader) (f.x.toNat + j) n)
          (chunkSum (Claims.chunkAt (fmtA x.m.fmt) (s.mxData x (mstrmReq f x) f.a.toNat i) j) ((s.pairOf x.leader).column (bankK x.m.fmt) n))).1) ∧
      (∀ j n, n < 512 → (j < f.x.toNat ∨ f.x.toNat + f.y.toNat ≤ j ∨ x.m.nc ≤ n) → Claims.accAt (t.pairOf x.leader) j n = Claims.accAt (s.pairOf x.leader) j n) := by
  obtain ⟨ps, hp⟩ := s.pairOf_mxTook x (mstrmReq f x) f.a.toNat i
  refine ⟨_, (execMstrm.eq_1 f s).trans (State.mxGo_stage s x (mstrmReq f) _ _ i h hs), ?_, ?_, ?_, ?_, ?_, ?_, ?_⟩
  all_goals simp only [State.mxFlags, State.modProg_cores, State.modProg_tasks, State.modProg_mem, State.modProg_trains, State.setPair_cores, State.setPair_tasks, State.setPair_mem,
    State.setPair_trains, State.mxTook_mem, State.mxTook_trains, State.pairOf_modProg, State.pairOf_setPair_same, hp, Claims.accAt]
  · intro j n hj hn
    refine Sparse.get_foldl_set _ _ _ _ _ _ _ hacc ?_ (.inr ?_)
    · intro o ho hk
      simp only [List.mem_flatMap, List.mem_map, List.mem_range, exists_exists_and_eq_and] at ho
      obtain ⟨j', hj', c, hc, rfl⟩ := ho
      obtain ⟨hr, rfl⟩ := accPlace_inj (by omega) (by omega) hk
      obtain rfl := Nat.add_left_cancel hr
      rfl
    · simp only [List.mem_flatMap, List.mem_map, List.mem_range, exists_exists_and_eq_and]
      exact ⟨_, ⟨j, hj, n, hn, rfl⟩, rfl⟩
  · intro j n hn hj
    refine Sparse.get_foldl_set _ _ _ _ _ _ _ hacc ?_ (.inl rfl)
    intro o ho hk
    simp only [List.mem_flatMap, List.mem_map, List.mem_range, exists_exists_and_eq_and] at ho
    obtain ⟨j', hj', c, hc, rfl⟩ := ho
    obtain ⟨hr, rfl⟩ := accPlace_inj (by omega) hn hk
    omega

/-- MZERO clears the accumulators of its rows and active columns, and nothing else of the pair but its program changes. -/
theorem execMzero_ready (s : State) (x : MxCtx) (f : MxFields) (h : s.mxReady x (mzeroReq f x)) :
    ∃ t, exec (.mzero f) s = .next t ∧ t.cores = s.cores ∧ t.tasks = (s.mxDone x (mzeroReq f x)).tasks ∧ t.mem = s.mem ∧ t.trains = s.trains ∧
      (t.pairOf x.leader).bank = (s.pairOf x.leader).bank ∧ (t.pairOf x.leader).progs = ((s.mxDone x (mzeroReq f x)).pairOf x.leader).progs ∧
      (∀ j n, n < 512 → Claims.accAt (t.pairOf x.leader) j n =
        if f.x.toNat ≤ j ∧ j < f.x.toNat + f.y.toNat ∧ n < x.m.nc then 0 else Claims.accAt (s.pairOf x.leader) j n) := by
  obtain ⟨ps, hp⟩ := s.pairOf_mxDone x (mzeroReq f x)
  refine ⟨_, (execMzero.eq_1 f s).trans (State.mxGo_ready s x (mzeroReq f) _ h rfl), rfl, rfl, rfl, rfl, ?_, ?_, ?_⟩
  all_goals simp only [State.pairOf_setPair_same, hp]
  intro j n hn
  have hrow : (512 * j + n) / 512 = j := by omega
  have hcol : (512 * j + n) % 512 = n := by omega
  unfold Claims.accAt Sparse.get
  rw [Table.find_filter_key _ (fun k => !(decide (f.x.toNat ≤ k / 512) && decide (k / 512 < f.x.toNat + f.y.toNat) && decide (k % 512 < x.m.nc))), hrow, hcol]
  by_cases hin : f.x.toNat ≤ j ∧ j < f.x.toNat + f.y.toNat ∧ n < x.m.nc
  · simp [hin]
  · rw [if_neg hin, if_pos]
    simp only [Bool.not_eq_true', Bool.and_eq_false_iff, decide_eq_false_iff_not]
    omega

/-- The rows an MDRAIN forms depend on the accumulators of the pair alone. -/
theorem drainRows_progs (x : MxCtx) (p : Pair) (ps : List MxProg) (d : List Byte) (r0 m : Nat) (data : List Byte) :
    drainRows x { p with progs := ps } d r0 m data = drainRows x p d r0 m data := rfl

/-- MDRAIN with no residual ring stores the rows it forms. -/
theorem execMdrain_ready (s : State) (x : MxCtx) (f : MxFields) (d : List Byte) (rows : List (Nat × List Byte × Nat)) (hd : d = x.m.drains[f.a.toNat]?.getD [])
    (h : s.mxReady x (mdrainReq f x)) (hr : x.m.residual f = none) (hrows : rows = drainRows x (s.pairOf x.leader) d f.x.toNat f.y.toNat []) :
    exec (.mdrain f) s = .next (((s.mxDone x (mdrainReq f x)).mxFlags x.leader (rows.foldl (fun g r => g ||| r.2.2) 0)).drainTo x d (drainBytes d rows)) := by
  obtain ⟨ps, hp⟩ := s.pairOf_mxDone x (mdrainReq f x)
  subst hd hrows
  refine ((execMdrain.eq_1 f s).trans (State.mxGo_ready s x (mdrainReq f) _ h hr)).trans ?_
  simp only [hp, drainRows_progs]

/-- MDRAIN with a residual ring stores the rows it forms with the stage it consumes. -/
theorem execMdrain_stage (s : State) (x : MxCtx) (f : MxFields) (d : List Byte) (r i : Nat) (rows : List (Nat × List Byte × Nat)) (hd : d = x.m.drains[f.a.toNat]?.getD [])
    (h : s.mxReady x (mdrainReq f x)) (hs : s.mxStage x (mdrainReq f x) r i)
    (hrows : rows = drainRows x (s.pairOf x.leader) d f.x.toNat f.y.toNat (s.mxData x (mdrainReq f x) r i)) :
    exec (.mdrain f) s = .next (((s.mxTook x (mdrainReq f x) r i).mxFlags x.leader (rows.foldl (fun g r => g ||| r.2.2) 0)).drainTo x d (drainBytes d rows)) := by
  obtain ⟨ps, hp⟩ := s.pairOf_mxTook x (mdrainReq f x) r i
  subst hd hrows
  refine ((execMdrain.eq_1 f s).trans (State.mxGo_stage s x (mdrainReq f) _ r i h hs)).trans ?_
  simp only [hp, drainRows_progs]

/-! ### Loops (R274) -/

/-- An endless loop jumps and leaves its counter. -/
theorem MxProg.loop_endless (m : MxProg) (at_ t : Nat) (h : m.open_.length < 4) : (m.loop at_ t 0).pc = t ∧ (m.loop at_ t 0).loops = m.loops := by
  simp [MxProg.loop, Nat.not_le.mpr h]

/-- A loop with turns left jumps and counts. -/
theorem MxProg.loop_jumps (m : MxProg) (at_ t n : Nat) (h : m.open_.length < 4) (hw : Table.sorted m.loops = true) (hn : n ≠ 0) (hc : Sparse.get 0 m.loops at_ + 1 < n) :
    (m.loop at_ t n).pc = t ∧ Sparse.get 0 (m.loop at_ t n).loops at_ = Sparse.get 0 m.loops at_ + 1 := by
  simp [MxProg.loop, Nat.not_le.mpr h, hn, hc, Sparse.get_set_same 0 m.loops at_ _ hw]

/-- A loop at its last turn falls through, its counter reset. -/
theorem MxProg.loop_falls (m : MxProg) (at_ t n : Nat) (hw : Table.sorted m.loops = true) (hn : n ≠ 0) (hc : n ≤ Sparse.get 0 m.loops at_ + 1) :
    (m.loop at_ t n).pc = m.pc ∧ Sparse.get 0 (m.loop at_ t n).loops at_ = 0 := by
  simp [MxProg.loop, hn, Nat.not_lt.mpr hc, Sparse.get_set_same 0 m.loops at_ _ hw]

end Sys2Proof.Machine

namespace Sys2Proof.Machine
open Sys2Proof.Claims

/-- Settles O54: each command runs by `State.mxGo`, whose outcome in each of the cases of R274 and R275 is a lemma of its own. -/
theorem matrixCommands : Obligations.MatrixCommands := by
  refine ⟨⟨?_, ?_, ?_, ?_⟩, ?_, ?_, ?_, ?_, ?_⟩
  · rintro s x f q i rfl h hs
    exact execMldb_stage s x f i h hs
  · rintro s x f q i rfl h hs hnc hacc
    exact execMstrm_stage s x f i h hs hnc hacc
  · rintro s x f q rfl h
    exact execMzero_ready s x f h
  · rintro s x f q d rfl hd h
    exact ⟨fun hr rows hrows => execMdrain_ready s x f d rows hd h hr hrows, fun r i _ hs rows hrows => execMdrain_stage s x f d r i rows hd h hs hrows⟩
  · rintro s x f q rfl h
    exact (execMloop.eq_1 f s).trans (State.mxGo_ready s x (mloopReq f) _ h rfl)
  · rintro s x f q rfl
    exact ⟨fun h => (execMrdv.eq_1 f s).trans (State.mxGo_ready s x (mrdvReq f) _ h rfl), fun hx hh hr hg hw => (execMrdv.eq_1 f s).trans (State.mxGo_waits _ hx hh hr hg rfl hw)⟩
  · rintro s x f q rfl h
    exact (execMend.eq_1 f s).trans (State.mxGo_ready s x (mendReq f) _ h rfl)
  · rintro op hop s x f q rfl hx hh
    obtain ⟨eff, he⟩ := exec_mxOps hop f
    simp only [he]
    refine ⟨State.mxGo_rest eff hx hh, fun hr => ⟨State.mxGo_limits eff hx hh hr, fun hg hq hw => ⟨State.mxGo_lost eff hx hh hr hg hq hw, ?_, ?_⟩, ?_⟩⟩
    · exact fun a => State.mxGo_stops eff hx hh hr hg hq hw
    · exact State.mxGo_overrun eff hx hh hr hg hq hw
    · exact fun r u hg hq hu => State.mxGo_stageAt eff hx hh hr hg hq u hu
  · intro m at_ t n ho hl
    have hw := Sparse.sorted_of_wf hl
    refine ⟨?_, MxProg.loop_jumps m at_ t n ho hw, MxProg.loop_falls m at_ t n hw⟩
    rintro rfl
    exact MxProg.loop_endless m at_ t ho

end Sys2Proof.Machine
end

section
/-! ### Dies, service levels, the SRAM rail, reset (R29-R31, R62, R89, R90) -/

set_option Elab.async false

namespace Sys2Proof.Machine

/-! ### What leaves a register as it is -/

/-- From `s` to `t` the register `o` reads the same, and the register file keeps its canonical form. -/
structure RegKept (o : Nat) (s t : State) : Prop where
  sorted : Table.sorted s.bar = true → Table.sorted t.bar = true
  reg : t.reg o = s.reg o

namespace RegKept

variable {o : Nat} {s t u : State}

theorem of_bar (h : t.bar = s.bar) : RegKept o s t := ⟨fun hs => h ▸ hs, by unfold State.reg; rw [h]⟩

theorem refl (s : State) : RegKept o s s := of_bar rfl

theorem trans (h : RegKept o s t) (h' : RegKept o t u) : RegKept o s u := ⟨fun hs => h'.sorted (h.sorted hs), h'.reg.trans h.reg⟩

theorem regBits (h : RegKept o s t) (lo n : Nat) : t.regBits o lo n = s.regBits o lo n := by rw [State.regBits, h.reg, State.regBits]

theorem foldl {β : Type} {f : State → β → State} {xs : List β} (hf : ∀ u, ∀ x ∈ xs, RegKept o u (f u x)) (s : State) : RegKept o s (xs.foldl f s) :=
  List.foldlRecOn xs f (refl s) (fun u hu x hx => hu.trans (hf u x hx))

theorem setReg (s : State) {off : Nat} (v : W64) (h : o ≠ off) : RegKept o s (s.setReg off v) := ⟨s.sorted_setReg off v, s.reg_setReg_other off o v h⟩

theorem setRegBits (s : State) {off : Nat} (lo n v : Nat) (h : o ≠ off) : RegKept o s (s.setRegBits off lo n v) := setReg s _ h

theorem deviceNow (bs : List Byte) (s : State) (a : Nat) : RegKept o s (s.deviceNow a bs) := by
  induction bs generalizing s a with
  | nil => exact refl s
  | cons b bs ih =>
    rw [State.deviceNow]
    refine trans ?_ (ih _ _)
    exact of_bar rfl

theorem deviceWrite (s : State) (a : Nat) (bs : List Byte) : RegKept o s (s.deviceWrite a bs) := by
  unfold State.deviceWrite
  refine foldl (fun u x _ => ?_) s
  split
  · exact of_bar rfl
  · exact deviceNow _ _ _

theorem addNow (s : State) (pa v : Nat) : RegKept o s (s.addNow pa v) := deviceNow _ _ _

theorem flushPosts (s : State) : RegKept o s s.flushPosts := by
  unfold State.flushPosts
  refine trans (t := { s with posts := s.posts.filter (fun x => s.homeShut x.pa) }) (of_bar rfl) (foldl (fun u x _ => ?_) _)
  split
  · exact addNow _ _ _
  · exact deviceNow _ _ _

/-! Below the counters and the rings, the events of the device change no register. -/

theorem count (s : State) (i k n : Nat) (h : o < 0x1801000) : RegKept o s (s.count i k n) := by
  refine setReg s _ ?_
  unfold counterOff
  split_ifs <;> omega

theorem ringWrite (s : State) (p : Nat) (bs : List Byte) (h : o < 0x1801000) : RegKept o s (s.ringWrite p bs) := by
  have hoff : ∀ n, o ≠ ringOff p n := fun n => by unfold ringOff; omega
  unfold State.ringWrite
  extract_lets
  split
  · exact (deviceWrite _ _ _).trans (setRegBits _ _ _ _ (hoff _))
  · exact setRegBits _ _ _ _ (hoff _)

theorem event (s : State) (attr : Option Nat) (cls seg master unit pa : Nat) (mask : W32) (h : o < 0x1801000) : RegKept o s (s.event attr cls seg master unit pa mask) := by
  unfold State.event
  refine trans ?_ (ringWrite _ _ _ h)
  split
  · cases attr
    · exact count _ _ _ _ h
    · exact count _ _ _ _ h
  · exact refl s

theorem evictOne (vs : List (Nat × SLine)) (s : State) (h : o < 0x1801000) : RegKept o s (s.evictOne vs).2 := by
  induction vs generalizing s with
  | nil => exact refl s
  | cons v vs ih =>
    unfold State.evictOne
    split
    · exact refl s
    · split
      · exact ih s
      · split
        · exact of_bar rfl
        · exact (event _ _ _ _ _ _ _ _ h).trans (ih _)

theorem requota (s : State) (sl : Nat) (old new : W64) (h : o < 0x1801000) : RegKept o s (s.requota sl old new) := by
  unfold State.requota
  refine foldl (fun u x _ => ?_) s
  exact (foldl (fun w y _ => evictOne [y] w h) u).trans (of_bar rfl)

/-- The ways that a die's slices lend change the quotas, which lie below the rails. -/
theorem lendWays (s : State) {d : Nat} (hd : d < 8) (h : 0x424000 ≤ o) (h' : o < 0x1801000) : RegKept o s (s.lendWays d) := by
  unfold State.lendWays
  refine foldl (fun u i hi => ?_) s
  have hoff : o ≠ squotaOff (256 * d + i) := by
    have := List.mem_range.mp hi
    unfold squotaOff
    omega
  dsimp only
  split
  · exact refl u
  · exact ((requota _ _ _ _ h').trans (setReg _ _ hoff)).trans (of_bar rfl)

end RegKept

/-! ### Service levels (R30, R61, R62) -/

/-- LEVEL alone changes. -/
theorem State.relevel_beside (s : State) (lo n : Nat) (hs : Table.sorted s.bar = true) (h : 2 ≤ lo) : s.relevel.regBits svcstatOff lo n = s.regBits svcstatOff lo n := by
  unfold State.relevel
  extract_lets
  split
  · rfl
  · exact s.regBits_setRegBits_beside _ _ _ _ _ _ hs (by decide) (.inr h)

/-- Before full service, LEVEL says whether every die that is not retired is usable, or none is. -/
theorem State.level_relevel (s : State) (hs : Table.sorted s.bar = true) (h : s.level ≠ 2) :
    s.relevel.level = if s.regBits svcstatOff 24 8 ||| s.regBits svcstatOff 8 8 = 0xFF then 2 else if s.regBits svcstatOff 24 8 = 0 then 0 else 1 := by
  unfold State.relevel
  extract_lets
  rw [if_neg h, State.level, State.regBits_setRegBits_same _ _ _ _ _ hs (by decide)]
  split_ifs <;> rfl

/-- A number is what it shares with a mask and what it does not. -/
theorem and_add_ldiff (v u : Nat) : (v &&& u) + Nat.ldiff v u = v := by
  induction v using Nat.binaryRec generalizing u with
  | zero => simp [Nat.ldiff]
  | bit a m ih =>
    have hm := ih u.div2
    rw [← Nat.bit_bodd_div2 u, Nat.land_bit, Nat.ldiff_bit]
    cases a <;> cases u.bodd <;> simp only [Nat.bit_val, Bool.and_true, Bool.and_false, Bool.not_true, Bool.not_false, Bool.toNat_true, Bool.toNat_false] <;> omega

/-- What is left of a number without the bits of a mask. -/
theorem testBit_sub_and (v u i : Nat) : (v - (v &&& u)).testBit i = (v.testBit i && !u.testBit i) := by
  have h : v - (v &&& u) = Nat.ldiff v u := by
    have := and_add_ldiff v u
    omega
  rw [h, Nat.testBit_ldiff]

/-! ### Training and retirement (R30, R62) -/

theorem State.regBits_setDie (s : State) (d o lo n : Nat) (k : Die) : (s.setDie d k).regBits o lo n = s.regBits o lo n := rfl

section
variable (s : State) {d : Nat} (hx : s.ev.x = d) (hd : d < 8) (hr : s.owner.recovery = false)
include hx hd hr

/-- A failed training sets DIEFAIL. -/
theorem execDieTraining_fails (hok : s.ev.ok = false) :
    exec .dieTrainingComplete s = .next ((s.setDie d { s.die d with failed := true }).setRegBits svcstatOff (16 + d) 1 1) := by
  show execDieTrainingComplete s = _
  subst hx
  simp [execDieTrainingComplete, hok, hr, Nat.not_le.mpr hd]

/-- The stack's training makes a die usable that has trained itself, has not failed and is not retired. -/
theorem execDieTraining_usable (hok : s.ev.ok = true) (hy : s.ev.yes = true) (hdie : (s.die d).dieOk = true) (hf : (s.die d).failed = false) (hw : s.regBits fwfailOff 3 1 = 0)
    (hn : s.regBits svcstatOff (8 + d) 1 = 0) : exec .dieTrainingComplete s = .next ((s.setDie d { s.die d with stackOk := true }).setRegBits svcstatOff (24 + d) 1 1).relevel := by
  show execDieTrainingComplete s = _
  subst hx
  simp [execDieTrainingComplete, hok, hr, hy, hdie, hf, State.regBits_setDie, hw, hn, Nat.not_le.mpr hd]

/-- A die whose other half has not trained yet is not usable yet. -/
theorem execDieTraining_stack (hok : s.ev.ok = true) (hy : s.ev.yes = true) (hdie : (s.die d).dieOk = false) :
    exec .dieTrainingComplete s = .next (s.setDie d { s.die d with stackOk := true }) := by
  show execDieTrainingComplete s = _
  subst hx
  simp [execDieTrainingComplete, hok, hr, hy, hdie, Nat.not_le.mpr hd]

theorem execDieTraining_die (hok : s.ev.ok = true) (hy : s.ev.yes = false) (hstack : (s.die d).stackOk = false) :
    exec .dieTrainingComplete s = .next (s.setDie d { s.die d with dieOk := true }) := by
  show execDieTrainingComplete s = _
  subst hx
  simp [execDieTrainingComplete, hok, hr, hy, hstack, Nat.not_le.mpr hd]

end

/-- The link groups of a retired die OFF. -/
def State.groupsOff (s : State) (d : Nat) : State :=
  ((s.setRegBits (lgstatOff (2 * d)) 16 3 0).setRegBits (lgstatOff (2 * d)) 8 2 0).setRegBits (lgstatOff (2 * d + 1)) 16 3 0 |>.setRegBits (lgstatOff (2 * d + 1)) 8 2 0

/-- SVCSTAT with the dies retired that are written and not usable. -/
def State.retired (s : State) : State := s.setRegBits svcstatOff 8 8 (bits s.ev.val 8 8 - (bits s.ev.val 8 8 &&& s.regBits svcstatOff 24 8))

/-- DIERET_WRITE by these two. -/
theorem execDieretWrite_accepted (s : State) (ha : Claims.accepts s svcstatOff) (hl : s.level ≠ 2) :
    exec .dieretWrite s = .next (((List.range 8).filter (fun d => s.retired.regBits svcstatOff (8 + d) 1 = 1)).foldl State.groupsOff s.retired).relevel := by
  show execDieretWrite s = _
  unfold execDieretWrite
  rw [State.regWrite_accepted _ ha, if_neg hl]
  rfl

theorem RegKept.groupsOff (s : State) (d : Nat) : RegKept svcstatOff s (s.groupsOff d) := by
  have hoff : ∀ g, svcstatOff ≠ lgstatOff g := fun g => by unfold svcstatOff lgstatOff; omega
  exact ((setRegBits s _ _ _ (hoff _)).trans (setRegBits _ _ _ _ (hoff _))).trans ((setRegBits _ _ _ _ (hoff _)).trans (setRegBits _ _ _ _ (hoff _)))

/-- The bit of a die in DIERET after the write. -/
theorem State.retired_bit (s : State) {d : Nat} (hd : d < 8) (hs : Table.sorted s.bar = true) :
    s.retired.regBits svcstatOff (8 + d) 1 = 1 ↔ s.ev.val.getLsbD (8 + d) = true ∧ s.usable d = false := by
  have hplace : 8 ≤ 8 + d ∧ 8 + d < 8 + 8 := by omega
  rw [State.regBits, bits_one_eq_one, State.retired, State.setRegBits, State.reg_setReg_same _ _ _ hs, getLsbD_setBits _ _ _ _ _ (by decide), if_pos hplace, Nat.add_sub_cancel_left,
    testBit_sub_and, testBit_bits, State.regBits, testBit_bits, State.usable]
  simp [hd]

/-- DIERET before full service retires the dies written that are not usable. -/
theorem execDieretWrite_retires (s : State) (hs : Table.sorted s.bar = true) (ha : Claims.accepts s svcstatOff) (hl : s.level ≠ 2) : ∃ t, exec .dieretWrite s = .next t ∧
    (∀ d, d < 8 → (t.regBits svcstatOff (8 + d) 1 = 1 ↔ s.ev.val.getLsbD (8 + d) = true ∧ s.usable d = false)) ∧ t.regBits svcstatOff 24 8 = s.regBits svcstatOff 24 8 := by
  have hu : Table.sorted s.retired.bar = true := s.sorted_setRegBits _ _ _ _ hs
  have hk : RegKept svcstatOff s.retired _ := RegKept.foldl (fun u d _ => RegKept.groupsOff u d) (xs := (List.range 8).filter (fun d => s.retired.regBits svcstatOff (8 + d) 1 = 1)) s.retired
  refine ⟨_, execDieretWrite_accepted s ha hl, fun d hd => ?_, ?_⟩
  · rw [State.relevel_beside _ _ _ (hk.sorted hu) (by omega), hk.regBits, s.retired_bit hd hs]
  · rw [State.relevel_beside _ _ _ (hk.sorted hu) (by decide), hk.regBits]
    exact s.regBits_setRegBits_beside _ _ _ _ _ _ hs (by decide) (by decide)

/-! ### Thermal events (R29) -/

theorem execThermalEvent_stops (s : State) {d : Nat} (hx : s.ev.x = d) (hd : d < 8) : exec .thermalEvent s =
    .next ((s.tasksOnDie d).foldl (fun s k => s.unwind k 12 0) { s.setDie d { s.die d with stopped := true } with sent := s.sent ++ [.thermal d (s.regBits ownstatOff 0 2)] }) := by
  show execThermalEvent s = _
  subst hx
  unfold execThermalEvent
  dsimp only
  rw [if_neg (Nat.not_le.mpr hd)]
  rfl

theorem execThermalEventClear_resumes (s : State) {d : Nat} (hx : s.ev.x = d) (hd : d < 8) : exec .thermalEventClear s =
    .next (if s.isOwner s.ev.who = true ∧ s.ev.y ≤ 95 then s.setDie d { s.die d with stopped := false } else s) := by
  show execThermalEventClear s = _
  subst hx
  simp [execThermalEventClear, hd]

/-! ### The SRAM rail (R89, R90) -/

/-- A rail's register lies above the quotas and below the counters. -/
theorem RegKept.lendWays_rail (s : State) {d : Nat} (hd : d < 8) : RegKept (sramrailOff d) s (s.lendWays d) :=
  RegKept.lendWays s hd (by unfold sramrailOff; omega) (by unfold sramrailOff; omega)

/-- The new setpoint of a die's rail, and BUSY. -/
def State.railSet (s : State) (d : Nat) : State := (s.setRegBits (sramrailOff d) 0 16 (bits s.ev.val 0 16)).setRegBits (sramrailOff d) 34 1 1

theorem State.sorted_railSet (s : State) (d : Nat) (hs : Table.sorted s.bar = true) : Table.sorted (s.railSet d).bar = true :=
  State.sorted_setRegBits _ _ _ _ _ (s.sorted_setRegBits _ _ _ _ hs)

section
variable (s : State) (d : Nat) (hs : Table.sorted s.bar = true)
include hs

theorem State.railSet_setpoint : (s.railSet d).regBits (sramrailOff d) 0 16 = bits s.ev.val 0 16 := by
  rw [State.railSet, State.regBits_setRegBits_beside _ _ _ _ _ _ _ (s.sorted_setRegBits _ _ _ _ hs) (by decide) (by decide), State.regBits_setRegBits_same _ _ _ _ _ hs (by decide),
    Nat.mod_eq_of_lt (bits_lt _ _ _)]

theorem State.railSet_busy : (s.railSet d).regBits (sramrailOff d) 34 1 = 1 :=
  State.regBits_setRegBits_same _ _ _ _ _ (s.sorted_setRegBits _ _ _ _ hs) (by decide)

/-- The fields between the two stay. -/
theorem State.railSet_between (lo n : Nat) (h : 16 ≤ lo ∧ lo + n ≤ 34) : (s.railSet d).regBits (sramrailOff d) lo n = s.regBits (sramrailOff d) lo n := by
  rw [State.railSet, State.regBits_setRegBits_beside _ _ _ _ _ _ _ (s.sorted_setRegBits _ _ _ _ hs) (by decide) (.inl h.2),
    State.regBits_setRegBits_beside _ _ _ _ _ _ _ hs (by decide) (.inr h.1)]

end

/-- SETMV_WRITE by the rail's mode and the setpoint's side of the threshold. -/
theorem execSetmvWrite_accepted (s : State) {d : Nat} (hx : s.ev.x = d) (hd : d < 8) (ha : Claims.accepts s (sramrailOff d)) (hb : s.regBits (sramrailOff d) 34 1 = 0) :
    exec .setmvWrite s = .next (
      if decide (bits s.ev.val 0 16 < s.regBits (sramrailOff d) 16 16) && s.regBits (sramrailOff d) 32 2 = 0 then ((s.railSet d).lendWays d).setRegBits (sramrailOff d) 32 2 1
      else if !decide (bits s.ev.val 0 16 < s.regBits (sramrailOff d) 16 16) && s.regBits (sramrailOff d) 32 2 = 2 then (s.railSet d).setRegBits (sramrailOff d) 32 2 1
      else s.railSet d) := by
  have hidle : ¬ s.regBits (sramrailOff d) 34 1 = 1 := by rw [hb]; decide
  show execSetmvWrite s = _
  subst hx
  unfold execSetmvWrite
  dsimp only
  rw [if_neg (Nat.not_le.mpr hd), State.regWrite_accepted _ ha, if_neg hidle]
  rfl

/-- What the write of a setpoint leaves in the rail's register, MODE aside, and MODE where it was 0. -/
theorem execSetmvWrite_rail (s : State) {d : Nat} (hs : Table.sorted s.bar = true) (hx : s.ev.x = d) (hd : d < 8) (ha : Claims.accepts s (sramrailOff d))
    (hb : s.regBits (sramrailOff d) 34 1 = 0) : ∃ t, exec .setmvWrite s = .next t ∧
    t.regBits (sramrailOff d) 0 16 = bits s.ev.val 0 16 ∧ t.regBits (sramrailOff d) 34 1 = 1 ∧ t.regBits (sramrailOff d) 16 16 = s.regBits (sramrailOff d) 16 16 ∧
    (s.regBits (sramrailOff d) 32 2 = 0 → bits s.ev.val 0 16 < s.regBits (sramrailOff d) 16 16 → t.regBits (sramrailOff d) 32 2 = 1) ∧
    (s.regBits (sramrailOff d) 32 2 = 0 → s.regBits (sramrailOff d) 16 16 ≤ bits s.ev.val 0 16 → t.regBits (sramrailOff d) 32 2 = 0) := by
  have hu := s.sorted_railSet d hs
  have hmid := s.railSet_between d hs 16 16 (by decide)
  have hmode := s.railSet_between d hs 32 2 (by decide)
  rw [execSetmvWrite_accepted s hx hd ha hb]
  refine ⟨_, rfl, ?_⟩
  split_ifs with hdown hup
  · have hk := RegKept.lendWays_rail (s.railSet d) hd
    have hbeside := fun lo n h => State.regBits_setRegBits_beside _ (sramrailOff d) 32 2 1 lo n (hk.sorted hu) (by decide) h
    simp only [Bool.and_eq_true, decide_eq_true_eq] at hdown
    obtain ⟨hlow, -⟩ := hdown
    refine ⟨?_, ?_, ?_, fun _ _ => ?_, fun _ h => absurd h (Nat.not_le.mpr hlow)⟩
    · rw [hbeside _ _ (by decide), hk.regBits, s.railSet_setpoint d hs]
    · rw [hbeside _ _ (by decide), hk.regBits, s.railSet_busy d hs]
    · rw [hbeside _ _ (by decide), hk.regBits, hmid]
    · exact State.regBits_setRegBits_same _ _ _ _ _ (hk.sorted hu) (by decide)
  · have hbeside := fun lo n h => State.regBits_setRegBits_beside _ (sramrailOff d) 32 2 1 lo n hu (by decide) h
    simp only [Bool.and_eq_true, decide_eq_true_eq] at hup
    obtain ⟨-, hted⟩ := hup
    refine ⟨?_, ?_, ?_, fun h => ?_, fun h => ?_⟩
    · rw [hbeside _ _ (by decide), s.railSet_setpoint d hs]
    · rw [hbeside _ _ (by decide), s.railSet_busy d hs]
    · rw [hbeside _ _ (by decide), hmid]
    · rw [hted] at h; cases h
    · rw [hted] at h; cases h
  · refine ⟨s.railSet_setpoint d hs, s.railSet_busy d hs, hmid, fun h hlow => ?_, fun h _ => hmode.trans h⟩
    exact absurd (by simp [h, hlow]) hdown

section
variable (s : State) {d : Nat} (hx : s.ev.x = d) (hd : d < 8) (hb : s.regBits (sramrailOff d) 34 1 = 1) (hs : Table.sorted s.bar = true)
include hx hd hb hs

/-- The end of a switch by MODE and by the setpoint's side of the threshold. -/
theorem execSramModeSwitchComplete_eq : exec .sramModeSwitchComplete s = .next (
    if s.regBits (sramrailOff d) 32 2 ≠ 1 then s.setRegBits (sramrailOff d) 34 1 0
    else if s.regBits (sramrailOff d) 0 16 < s.regBits (sramrailOff d) 16 16 then (((s.setRegBits (sramrailOff d) 34 1 0).lendWays d).setRegBits (sramrailOff d) 32 2 2).flushPosts
    else (((s.setRegBits (sramrailOff d) 34 1 0).returnWays d).setRegBits (sramrailOff d) 32 2 0).flushPosts) := by
  have hbeside := fun lo n h => State.regBits_setRegBits_beside s (sramrailOff d) 34 1 0 lo n hs (by decide) h
  have hgo : ¬ (8 ≤ d ∨ s.regBits (sramrailOff d) 34 1 = 0) := by omega
  show execSramModeSwitchComplete s = _
  subst hx
  unfold execSramModeSwitchComplete
  dsimp only
  rw [if_neg hgo, hbeside 32 2 (by decide), hbeside 0 16 (by decide), hbeside 16 16 (by decide)]

/-- A switch to DEC-TED ends with BUSY clear and MODE 2. -/
theorem execSramModeSwitchComplete_toTed (hm : s.regBits (sramrailOff d) 32 2 = 1) (hlow : s.regBits (sramrailOff d) 0 16 < s.regBits (sramrailOff d) 16 16) :
    ∃ t, exec .sramModeSwitchComplete s = .next t ∧ t.regBits (sramrailOff d) 34 1 = 0 ∧ t.regBits (sramrailOff d) 32 2 = 2 := by
  have hu : Table.sorted (s.setRegBits (sramrailOff d) 34 1 0).bar = true := s.sorted_setRegBits _ _ _ _ hs
  have hk := RegKept.lendWays_rail (s.setRegBits (sramrailOff d) 34 1 0) hd
  rw [execSramModeSwitchComplete_eq s hx hd hb hs, if_neg (not_not.mpr hm), if_pos hlow]
  refine ⟨_, rfl, ?_, ?_⟩
  · rw [(RegKept.flushPosts _).regBits, State.regBits_setRegBits_beside _ _ _ _ _ _ _ (hk.sorted hu) (by decide) (by decide), hk.regBits,
      State.regBits_setRegBits_same _ _ _ _ _ hs (by decide)]
    rfl
  · rw [(RegKept.flushPosts _).regBits, State.regBits_setRegBits_same _ _ _ _ _ (hk.sorted hu) (by decide)]
    rfl

end

/-- Settles O39: the steps of a die's training, retirement, heat and rail, each by what it writes in its register; the ways lent and the writes that land leave the rail's register as it is (`RegKept`). -/
theorem diesAndReset : Obligations.DiesAndReset := by
  refine ⟨fun s d hx hd hr => ?_, fun s hs hl => ?_, fun s hs ha hl => execDieretWrite_retires s hs ha hl, fun s d hx hd => execThermalEvent_stops s hx hd,
    fun s d hx hd => execThermalEventClear_resumes s hx hd, fun s d hs hx hd ha hb => execSetmvWrite_rail s hs hx hd ha hb, fun s d hx hd hb => ?_, fun s => rfl⟩
  · exact ⟨execDieTraining_fails s hx hd hr, execDieTraining_usable s hx hd hr, execDieTraining_stack s hx hd hr, execDieTraining_die s hx hd hr⟩
  · rw [s.level_relevel hs hl]
    exact ⟨fun h => if_pos h, fun h h' => by rw [if_neg (by rw [h, Nat.zero_or]; exact h'), if_pos h], fun h h' => by rw [if_neg h', if_neg h]⟩
  · refine ⟨fun hm hs => ?_, fun hm hlow hs => execSramModeSwitchComplete_toTed s hx hd hb hs hm hlow, fun hm hhigh hs => ?_⟩
    · rw [execSramModeSwitchComplete_eq s hx hd hb hs, if_pos (by rw [hm]; decide)]
    · rw [execSramModeSwitchComplete_eq s hx hd hb hs, if_neg (not_not.mpr hm), if_neg (Nat.not_lt.mpr hhigh)]

end Sys2Proof.Machine
end

section
/-! ### Page mapping (R446) -/

set_option Elab.async false

namespace Sys2Proof.Machine

/-- The train of the counterexample: in its handler, its scalar registers 0. -/
def mappingTrain : Train :=
  { placedTrain false with
    handler := some
      { portion := 0, s := [], v := [], k0 := 0, k1 := 0, exm := 0, fmt := 0, sig := 0, lineage := false, xflags := 0, lcb := 0, pc := 0, clauses := [], wait := .none, since := 0 } }

/-- The state of the counterexample: slot 0 maps VA page 0 by the level-0 entry at 0x50000, which is invalid; its pool at 0x80000 has 6 frames left, the last of them frame 7; and it notes the fill of a pin whose
number is 29: that pin's register is at 0x3E8 of the slot, where the pool's count lies too. -/
def mappingState : State :=
  let s := (State.reset.withTrain false).setTrain 0 0 mappingTrain
  let s := ((s.setReg (slotOff 0 0x3B0) 0x10001).setReg (slotOff 0 0x3E0) 0x80000).setReg (slotOff 0 0x3E8) 6
  let s := (((s.withBytes 0x10000 8 0x20001).withBytes 0x20000 8 0x30001).withBytes 0x30000 8 0x40001).withBytes 0x40000 8 0x50001
  { (s.withBytes 0x80014 4 7).setPslot 0 { filling := [29] } with agenda := [] }

/-- Its focus. -/
def mappingCur : Cur := { core := 0, slot := 0, p := 0, t := mappingTrain, o := { pc := 0 } }

/-- The entry at 0x50000 after a step that goes on. -/
def entryAfter : Out → Option Nat
  | .next t => some (t.readLe 0x50000 8)
  | _ => none

theorem cur_mappingState : mappingState.cur = some mappingCur := rfl

/-- MAPPG issues there. -/
theorem ready_mappingState : mappingState.ready mappingCur (Claims.mappgNeeds 7 1 2) := by
  refine ⟨cur_mappingState, ?_, ?_, ?_, ?_, ?_⟩ <;> decide +kernel

/-- It waits for no home, and its walk is not lost. -/
theorem reaches_mappingState :
    mappingState.mappgStall mappingCur (mappingCur.t.getS 1) (mappingCur.t.getS 2) = .no ∧ mappingState.mappgLost mappingCur (mappingCur.t.getS 1) (mappingCur.t.getS 2) = false := by
  decide +kernel

/-- The walk finds the entry at 0x50000, which is invalid, and whose home takes accesses. -/
theorem entry_mappingState :
    mappingState.leafEntry (mappingCur.pslot mappingState) (mappingCur.t.getS 1).toNat = .entry 0x50000 ∧ (BitVec.ofNat 64 (mappingState.readLe 0x50000 8)).getLsbD 0 = false ∧
      mappingState.homeShut 0x50000 = false := by
  decide +kernel

/-- The pool's last entry names frame 7, which slot 0 holds. -/
theorem pool_mappingState :
    mappingState.regBits (slotOff (mappingCur.pslot mappingState) 0x3E8) 0 32 = 5 + 1 ∧ 0x80014 = bits (mappingState.slotReg (mappingCur.pslot mappingState) 0x3E0) 2 50 * 4 + 4 * 5 ∧
      7 = mappingState.readLe 0x80014 4 % 2 ^ 24 ∧ mappingState.poisoned 0x80014 = false ∧ mappingState.usable (dieOf (7 * 65536)) = true ∧
      mappingState.fotOk (mappingState.ownid (mappingCur.pslot mappingState)) (7 * 65536) = true ∧ Memory.wf mappingState.mem = true := by
  decide +kernel

/-- The entry still reads 0 after the step: its write is among the writes that wait. -/
theorem entryAfter_mappingState : entryAfter (exec (.mappg 7 1 2) mappingState) = some 0 := by decide +kernel

/-- Refutes O21: MAPPG counts the frame off the pool before it writes the entry. Where the pin that slot 0 fills has the number 29, its register is the pool's count, whose 5 then names the entry's frame: the
entry's home shuts between the two, and the entry's write waits there (R70), so the entry still reads 0 after a MAPPG that returns 0. -/
theorem not_pageMapping : ¬ Obligations.PageMapping := by
  rintro ⟨h, -, -⟩
  obtain ⟨hstall, hlost⟩ := reaches_mappingState
  obtain ⟨hleaf, hinvalid, hopen⟩ := entry_mappingState
  obtain ⟨hcount, hat, hframe, hclean, husable, hfot, hwf⟩ := pool_mappingState
  obtain ⟨-, -, hwalk⟩ := h mappingState mappingCur 7 1 2 ready_mappingState rfl (by decide +kernel) hstall hlost
  obtain ⟨-, -, hentry⟩ := hwalk (by decide) (by decide)
  obtain ⟨-, -, htake⟩ := hentry 0x50000 hleaf
  obtain ⟨-, hmap, -⟩ := htake 5 0x80014 7 hinvalid hcount hat hframe
  obtain ⟨t, hexec, -, -, hread, -⟩ := hmap (by decide) (by decide +kernel) hclean husable hfot hwf hopen
  have hafter := entryAfter_mappingState
  rw [hexec] at hafter
  rw [entryAfter, hread] at hafter
  exact absurd hafter (by decide)

end Sys2Proof.Machine
end

section
/-! ### Page migration (R202-R206) -/

set_option Elab.async false

namespace Sys2Proof.Machine

/-- A die 0 that still has line 0 to pull from frame 0, whose die is not usable; the leaf lies at the start of frame 4, and slot 0 notes the fill of a pin whose number is 40866: that pin's register is at 0x450010,
where ERR of the die's migration lies too. -/
def pullingState : State :=
  { State.reset with
    slots := [(0, { filling := [40866] })]
    dies := [(0, { (Die.fresh 0) with pulling := [0], source := 0, leaf := 0x40000 })] }

/-- The failed pull's ERR 4 is written. -/
def pullingFailed : State := (pullingState.setRegBits (migOff 0 0x10) 0 8 4).setRegBits (migOff 0 0x10) 63 1 0

/-- The register of the pin being filled is the migration's status. -/
theorem pin_is_migStatus : slotOff 0 (0x300 + 8 * 40866) = migOff 0 0x10 := by decide

/-- The home of the leaf takes accesses before the pull fails, and none once ERR 4 reads as the frame of that pin. -/
theorem homeShut_pullingState : pullingState.homeShut 0x40000 = false := by decide +kernel
theorem homeShut_pullingFailed : pullingFailed.homeShut 0x40000 = true := by decide +kernel

/-- The die's source is gone. -/
theorem sourceGone_pullingState : pullingState.sourceGone 0 = true := by decide +kernel

/-- So LOST is not in the leaf: the byte still reads 0. -/
theorem leaf_after_pullingFailed : Memory.read (pullingFailed.deviceWrite 0x40000 [Memory.read pullingState.mem 0x40000 ||| 0x10]).mem 0x40000 = 0 := by decide +kernel

/-- Refutes O43: the failed pull writes ERR 4 before it sets LOST in the leaf. Where the pin that slot 0 fills has the number 40866, its register is that ERR, whose 4 then names the leaf's frame: the leaf's home
shuts between the two writes, and the write of LOST waits there (R70), so the leaf's byte keeps its value at the event. -/
theorem not_migration : ¬ Obligations.Migration := by
  rintro ⟨-, -, -, -, -, -, -, h, -⟩
  obtain ⟨-, -, -, -, hleaf, -⟩ := h pullingState pullingFailed _ 0 0 0 0x40000 [] rfl (by decide) rfl sourceGone_pullingState rfl rfl rfl rfl rfl homeShut_pullingState
    (fun _ he => absurd he List.not_mem_nil) (fun _ he => absurd he List.not_mem_nil) (fun _ he => absurd he List.not_mem_nil) (fun _ he => absurd he List.not_mem_nil) rfl rfl
  have hread := leaf_after_pullingFailed
  exact absurd (hleaf.symm.trans hread) (by decide +kernel)

end Sys2Proof.Machine
end

section
/-! ### What holds at reset (R31, R55, R208, R217) -/

set_option Elab.async false

namespace Sys2Proof.Machine

/-- At reset every register reads its reset value. -/
theorem State.reset_reg (off : Nat) : State.reset.reg off = barReset off := rfl

/-- At reset a partition slot's control word is that of a FREE slot, but for slot 0's, which is RUNNING (R63, R65). -/
theorem State.reset_pctl (p : Nat) (h : p ≤ 64) : State.reset.slotReg p 0 = if p = 0 then 0x400000000002 else 0x400000000000 := by
  rw [State.slotReg, State.reset_reg, slotOff, barReset, if_neg (by omega), if_neg (by unfold apsizeOff vfapsizeOff; omega), if_neg (by unfold certOff; omega), if_pos (by omega),
    slotReset, if_pos (by omega), show (0x400000 + 0x400 * p + 0 - 0x400000) / 0x400 = p by omega]

/-- At reset no group is up: its status word is 0 (Table 2-4). -/
theorem State.reset_groupState (g : Nat) (h : g < 16) : State.reset.groupState g = 0 := by
  rw [State.groupState, State.regBits, State.reset_reg]
  revert g
  decide

/-- At reset no die is usable: SVCSTAT is 0 (R30). -/
theorem State.reset_usable (d : Nat) : State.reset.usable d = false := by
  have h : State.reset.reg svcstatOff = 0 := by decide
  rw [State.usable, h]
  exact BitVec.getLsbD_zero

/-- Settles O60: every map is empty, so every register, byte and stamp reads its reset value. -/
theorem resetHolds : Obligations.ResetHolds := by
  refine ⟨rfl, rfl, rfl, rfl, rfl, rfl, rfl, State.reset_groupState, ?_, fun p hp hp' => ?_, fun d _ => State.reset_usable d, fun l => ⟨rfl, rfl⟩, fun a => ⟨rfl, rfl⟩, fun a => rfl⟩
  · rw [State.pctlState, State.reset_pctl 0 (by decide)]
    decide
  · rw [State.pctlState, State.reset_pctl p hp', if_neg (by omega)]
    decide

end Sys2Proof.Machine
end

section
/-! ### The package controller's register writes (R39, R48-R50, R55, R59, R60, R76) -/

set_option Elab.async false

namespace Sys2Proof.Machine

/-! ### The verdict on a write -/

/-- Whether a VF's view does not hold a register: neither among those that it may write, nor in the link block of a VF that is there (R39, R50). -/
def State.hidesFrom (s : State) (w : Master) (off : Nat) : Bool := decide (masterCode w = 0) && !s.vfMay (masterId w) off && !(linkBlock off && s.vfOn (masterId w))

/-- Whether a write that its view and the access table let through is refused as not the owner's, or as a VF's in the link block (R39, R55). -/
def State.refusesFrom (s : State) (w : Master) (off : Nat) : Bool := if masterCode w = 0 then linkBlock off else ownerOnly off && !s.isOwner w

section
variable {s : State} {w : Master} {off : Nat}

theorem State.writeVerdict_ignored (h : off % 8 ≠ 0 ∨ inBlock off = false ∨ otherBank w off = true ∨ (hostOnly off = true ∧ w ≠ .host) ∨ s.hidesFrom w off = true ∨
    (s.owner.recovery = true ∧ 0x30000 ≤ off)) : s.writeVerdict w off = .ignored := by
  refine if_pos ?_
  unfold State.hidesFrom at h
  rcases h with h | h | h | ⟨h, hw⟩ | h | ⟨h, hlo⟩
  · simp [h]
  · simp [h]
  · simp [h]
  · simp [h, hw]
  · simp only [h, Bool.or_true, Bool.true_or]
  · simp [h, hlo]

section
variable (ha : off % 8 = 0) (hb : inBlock off = true) (ho : otherBank w off = false) (hh : hostOnly off = false ∨ w = .host) (hv : s.hidesFrom w off = false)
  (hr : s.owner.recovery = false ∨ off < 0x30000)
include ha hb ho hh hv hr

/-- A write that is not ignored is judged by the access table and by the owner's rights (R55, R76). -/
theorem State.writeVerdict_judged : s.writeVerdict w off = if !s.accessOk 8 (masterId w) 2 off then .table else if s.refusesFrom w off then .notOwner else .ok := by
  have hhost : (hostOnly off && decide (w ≠ .host)) = false := by
    rcases hh with h | h <;> simp [h]
  have hrec : (s.owner.recovery && decide (0x30000 ≤ off)) = false := by
    rcases hr with h | h
    · simp [h]
    · simp [Nat.not_le.mpr h]
  unfold State.hidesFrom at hv
  have hpass : (off % 8 ≠ 0 || !inBlock off || otherBank w off || decide (masterCode w = 0) && !s.vfMay (masterId w) off && !(linkBlock off && s.vfOn (masterId w)) ||
      hostOnly off && decide (w ≠ .host) || s.owner.recovery && decide (0x30000 ≤ off)) = false := by
    simp only [ha, hb, ho, hv, hhost, hrec, ne_eq, not_true, decide_false, Bool.not_true, Bool.or_false]
  unfold State.writeVerdict State.refusesFrom
  extract_lets vf
  rw [hpass, if_neg Bool.false_ne_true]
  simp only [vf, decide_eq_true_eq]

theorem State.writeVerdict_table (ht : s.accessOk 8 (masterId w) 2 off = false) : s.writeVerdict w off = .table := by
  rw [State.writeVerdict_judged ha hb ho hh hv hr, ht]
  rfl

theorem State.writeVerdict_notOwner (ht : s.accessOk 8 (masterId w) 2 off = true) (hf : s.refusesFrom w off = true) : s.writeVerdict w off = .notOwner := by
  rw [State.writeVerdict_judged ha hb ho hh hv hr, ht, hf]
  rfl

theorem State.writeVerdict_ok (ht : s.accessOk 8 (masterId w) 2 off = true) (hf : s.refusesFrom w off = false) : s.writeVerdict w off = .ok := by
  rw [State.writeVerdict_judged ha hb ho hh hv hr, ht, hf]
  rfl

end
end

/-! ### REGISTER_WRITE by its verdict -/

section
variable {s : State} {w : Master} {off : Nat} (f : State → State) (hclaims : s.owner.claims = [])
include hclaims

/-- With no claim left to judge, a register write is what its verdict says. -/
theorem State.settleClaims_none : s.settleClaims = s := by
  rw [State.settleClaims, hclaims]
  rfl

theorem State.regWrite_ignored (h : s.writeVerdict w off = .ignored) : s.regWrite w off f = s := by simp only [State.regWrite, State.settleClaims_none hclaims, h]

theorem State.regWrite_table (h : s.writeVerdict w off = .table) : s.regWrite w off f = s.event none 0x20 8 (masterId w) 0 0 0 := by
  simp only [State.regWrite, State.settleClaims_none hclaims, h]

theorem State.regWrite_notOwner (h : s.writeVerdict w off = .notOwner) : s.regWrite w off f = s.refuseWrite w off := by
  simp only [State.regWrite, State.settleClaims_none hclaims, h]

theorem State.regWrite_ok (h : s.writeVerdict w off = .ok) : s.regWrite w off f = f s := by simp only [State.regWrite, State.settleClaims_none hclaims, h]

end

/-- REGISTER_WRITE: a register that has no step of its own is stored. -/
theorem execRegisterWrite_eq {s : State} {w : Master} {off : Nat} (hw : s.ev.who = w) (ho : ownOff w s.ev.x = off) : exec .registerWrite s =
    .next (s.regWrite w off (fun t => if ownStep off || isRequest off t.ev.val then t else t.storeReg t.ev.who off t.ev.val)) := by
  subst hw ho
  rfl

/-! ### What an event and a refusal leave unchanged -/

/-- A write of the device changes memory, its stamps and the writes that wait. -/
theorem State.deviceNow_frame (bs : List Byte) (s : State) (a : Nat) : ∃ m st, s.deviceNow a bs = { s with mem := m, stamps := st } := by
  induction bs generalizing s a with
  | nil => exact ⟨s.mem, s.stamps, rfl⟩
  | cons b bs ih =>
    obtain ⟨m, st, h⟩ := ih { s with mem := Memory.write s.mem a b, stamps := Sparse.set (0, 0) s.stamps a (max s.clock ((s.stampOf a).1 + 1), 0) } (a + 1)
    exact ⟨m, st, h⟩

theorem State.deviceWrite_frame (s : State) (a : Nat) (bs : List Byte) : ∃ m st ps, s.deviceWrite a bs = { s with mem := m, stamps := st, posts := ps } := by
  unfold State.deviceWrite
  refine List.foldlRecOn (motive := fun (t : State) => ∃ m st ps, t = { s with mem := m, stamps := st, posts := ps }) _ _ ⟨s.mem, s.stamps, s.posts, rfl⟩ ?_
  rintro t ⟨m, st, ps, rfl⟩ x -
  split
  · exact ⟨_, _, _, rfl⟩
  · obtain ⟨m', st', h⟩ := State.deviceNow_frame x.2 { s with mem := m, stamps := st, posts := ps } x.1
    exact ⟨m', st', ps, h⟩

/-- An event changes registers too: its counter, and those of its ring. -/
theorem State.ringWrite_frame (s : State) (p : Nat) (bs : List Byte) : ∃ m st ps b, s.ringWrite p bs = { s with mem := m, stamps := st, posts := ps, bar := b } := by
  unfold State.ringWrite
  extract_lets
  split
  · next base size head tail a h =>
    obtain ⟨m, st, ps, h⟩ := s.deviceWrite_frame a bs
    rw [h]
    exact ⟨_, _, _, _, rfl⟩
  · exact ⟨s.mem, s.stamps, s.posts, _, rfl⟩

theorem State.event_frame (s : State) (attr : Option Nat) (cls seg master unit pa : Nat) (mask : W32) :
    ∃ m st ps b, s.event attr cls seg master unit pa mask = { s with mem := m, stamps := st, posts := ps, bar := b } := by
  unfold State.event
  extract_lets n u
  have hu : ∃ b, u = { s with bar := b } := by
    unfold u
    split
    · cases attr <;> exact ⟨_, rfl⟩
    · exact ⟨s.bar, rfl⟩
  obtain ⟨b, hu⟩ := hu
  obtain ⟨m, st, ps, b', h⟩ := u.ringWrite_frame (attr.getD 0) (eventBytes u.clock cls seg master unit pa mask)
  exact ⟨m, st, ps, b', by rw [h, hu]⟩

/-- Of the registers, a ring changes its LOST and its HEAD. -/
theorem RegKept.ringWrite_beside {o : Nat} (s : State) (p : Nat) (bs : List Byte) (hl : o ≠ ringOff p 16) (hh : o ≠ ringOff p 24) : RegKept o s (s.ringWrite p bs) := by
  unfold State.ringWrite
  extract_lets
  split
  · exact (RegKept.deviceWrite _ _ _).trans (RegKept.setRegBits _ _ _ _ hh)
  · exact RegKept.setRegBits _ _ _ _ hl

/-- An event of the classes above 6 counts nowhere else (R91). -/
theorem RegKept.event_beside {o : Nat} (s : State) (attr : Option Nat) (cls seg master unit pa : Nat) (mask : W32) (hc : 6 < cls) (hl : o ≠ ringOff (attr.getD 0) 16)
    (hh : o ≠ ringOff (attr.getD 0) 24) : RegKept o s (s.event attr cls seg master unit pa mask) := by
  unfold State.event
  extract_lets n u
  have hu : u = s := if_neg (Nat.not_le.mpr hc)
  rw [hu]
  exact RegKept.ringWrite_beside s _ _ hl hh

/-- OWNSTAT with a refused write counted and recorded (R55). -/
def State.noteRefused (s : State) (w : Master) (off : Nat) : State :=
  (s.setRegBits ownstatOff 16 16 (min 0xFFFF (s.regBits ownstatOff 16 16 + 1))).setRegBits ownstatOff 32 32 (masterCode w * 2 ^ 30 + off % 2 ^ 26)

theorem State.refuseWrite_eq (s : State) (w : Master) (off : Nat) : s.refuseWrite w off = (s.noteRefused w off).event none 0x21 8 (masterId w) 0 0 0 := rfl

/-- Of the registers that are not the event ring's, a refusal changes OWNSTAT alone. -/
theorem State.reg_refuseWrite (s : State) (w : Master) (off : Nat) {o : Nat} (hl : o ≠ ringOff 0 16) (hh : o ≠ ringOff 0 24) : (s.refuseWrite w off).reg o = (s.noteRefused w off).reg o := by
  rw [State.refuseWrite_eq]
  exact (RegKept.event_beside _ none 0x21 8 _ 0 0 0 (by decide) hl hh).reg

theorem State.regBits_refuseWrite (s : State) (w : Master) (off lo n : Nat) : (s.refuseWrite w off).regBits ownstatOff lo n = (s.noteRefused w off).regBits ownstatOff lo n := by
  rw [State.regBits, State.reg_refuseWrite _ _ _ (by decide) (by decide), State.regBits]

theorem State.reg_noteRefused (s : State) (w : Master) (off : Nat) {o : Nat} (h : o ≠ ownstatOff) : (s.noteRefused w off).reg o = s.reg o := by
  rw [State.noteRefused, State.reg_setRegBits_other _ _ _ _ _ h, State.reg_setRegBits_other _ _ _ _ _ h]

section
variable (s : State) (w : Master) (off : Nat) (hs : Table.sorted s.bar = true)
include hs

/-- NOWNCNT saturates. -/
theorem State.noteRefused_count : (s.noteRefused w off).regBits ownstatOff 16 16 = min 0xFFFF (s.regBits ownstatOff 16 16 + 1) := by
  have hfits : min 0xFFFF (s.regBits ownstatOff 16 16 + 1) < 2 ^ 16 := (Nat.min_le_left _ _).trans_lt (by decide)
  rw [State.noteRefused, State.regBits_setRegBits_beside _ _ _ _ _ _ _ (s.sorted_setRegBits _ _ _ _ hs) (by decide) (by decide), State.regBits_setRegBits_same _ _ _ _ _ hs (by decide),
    Nat.mod_eq_of_lt hfits]

/-- OWNLAST holds the master and the offset. -/
theorem State.noteRefused_last : (s.noteRefused w off).regBits ownstatOff 32 32 = masterCode w * 2 ^ 30 + off % 2 ^ 26 := by
  have hcode : masterCode w ≤ 3 := by cases w <;> simp [masterCode]
  rw [State.noteRefused, State.regBits_setRegBits_same _ _ _ _ _ (s.sorted_setRegBits _ _ _ _ hs) (by decide), Nat.mod_eq_of_lt (by omega)]

/-- The owner, the pending handoff and the claim errors stay. -/
theorem State.noteRefused_low : (s.noteRefused w off).regBits ownstatOff 0 16 = s.regBits ownstatOff 0 16 := by
  rw [State.noteRefused, State.regBits_setRegBits_beside _ _ _ _ _ _ _ (s.sorted_setRegBits _ _ _ _ hs) (by decide) (by decide),
    State.regBits_setRegBits_beside _ _ _ _ _ _ _ hs (by decide) (by decide)]

end

/-- A field set in a register changes the register file alone. -/
theorem State.setRegBits_frame (s : State) (off lo n v : Nat) : ∃ b, s.setRegBits off lo n v = { s with bar := b } := ⟨_, rfl⟩

theorem State.noteRefused_frame (s : State) (w : Master) (off : Nat) : ∃ b, s.noteRefused w off = { s with bar := b } := by
  obtain ⟨b, hb⟩ := s.setRegBits_frame ownstatOff 16 16 (min 0xFFFF (s.regBits ownstatOff 16 16 + 1))
  obtain ⟨b', hb'⟩ := State.setRegBits_frame { s with bar := b } ownstatOff 32 32 (masterCode w * 2 ^ 30 + off % 2 ^ 26)
  exact ⟨b', by rw [State.noteRefused, hb, hb']⟩

/-- What a refused write leaves (R55). -/
theorem State.refuseWrite_frame (s : State) (w : Master) (off : Nat) :
    (s.refuseWrite w off).tasks = s.tasks ∧ (s.refuseWrite w off).trains = s.trains ∧ (s.refuseWrite w off).owner = s.owner ∧ (s.refuseWrite w off).fot = s.fot ∧ (s.refuseWrite w off).cores = s.cores := by
  obtain ⟨m, st, ps, b, h⟩ := (s.noteRefused w off).event_frame none 0x21 8 (masterId w) 0 0 0
  obtain ⟨b', h'⟩ := s.noteRefused_frame w off
  rw [State.refuseWrite_eq, h, h']
  exact ⟨rfl, rfl, rfl, rfl, rfl⟩

/-! ### Stores (R9, R48, R49) -/

section
variable (s : State) (w : Master) {off : Nat} (v : W64)

/-- A register that is not special takes a plain write. -/
theorem State.storeReg_plain (h : ¬ Claims.specialStore off) : s.storeReg w off v = s.plainWrite off v := by
  unfold Claims.specialStore at h
  unfold State.storeReg
  rw [if_neg (by omega), if_neg (by omega), if_neg (by omega), if_neg (by unfold numVfsOff; omega), if_neg (by unfold apsizeOff vfapsizeOff; omega), if_neg (by unfold apbaseOff; omega),
    if_neg (by omega), if_neg (by omega), if_neg (by omega), if_neg (by omega)]

/-- NumVFs takes 0 to 64 (R48). -/
theorem State.storeReg_numVfs : s.storeReg w numVfsOff v = if 64 < v.toNat % 128 then s else s.plainWrite numVfsOff v := by
  have hfield : bits v 0 7 = v.toNat % 128 := by simp [bits]
  rw [← hfield]
  rfl

/-- A size that is not offered is not stored (R49). -/
theorem State.resizeAperture_refused (h : v.toNat % 64 < 30 ∨ (if off = apsizeOff then 40 else 36) < v.toNat % 64) : s.resizeAperture off v = s := by
  have hfield : bits v 0 6 = v.toNat % 64 := by simp [bits]
  rw [← hfield] at h
  exact if_pos h

end

end Sys2Proof.Machine

namespace Sys2Proof.Proofs
open Sys2Proof.Machine

/-- Settles O37: a write by its verdict (`State.writeVerdict_judged`), a refusal by what it leaves in OWNSTAT, a store by its register's rule. -/
theorem packageController : Obligations.PackageController := by
  refine ⟨fun s w off hidden refused hclaims hw ho hh hf => ?_, fun s n off h => ?_, fun s w off hs => ?_, fun s w off v => ?_⟩
  · obtain rfl : hidden = s.hidesFrom w off := hh
    obtain rfl : refused = s.refusesFrom w off := hf
    rw [execRegisterWrite_eq hw ho]
    refine ⟨fun h => ?_, fun ha hb hbank hhost hview hrec => ⟨fun ht => ?_, fun ht hno => ?_, fun ht hyes => ?_⟩⟩
    · rw [State.regWrite_ignored _ hclaims (State.writeVerdict_ignored h)]
    · rw [State.regWrite_table _ hclaims (State.writeVerdict_table ha hb hbank hhost hview hrec ht)]
    · rw [State.regWrite_notOwner _ hclaims (State.writeVerdict_notOwner ha hb hbank hhost hview hrec ht hno)]
    · rw [State.regWrite_ok _ hclaims (State.writeVerdict_ok ha hb hbank hhost hview hrec ht hyes), hw]
      exact ⟨fun hstep hreq => by rw [hstep, hreq]; rfl, fun h => by rw [if_pos ((Bool.or_eq_true _ _).mpr h)]⟩
  · obtain ⟨hon, -⟩ := (Bool.and_eq_true _ _).mp h
    simp only [State.vfOn, Bool.and_eq_true, decide_eq_true_eq, Bool.not_eq_true'] at hon
    obtain ⟨⟨hlo, hhi⟩, hrec⟩ := hon
    exact ⟨hrec, hlo, hhi⟩
  · obtain ⟨htasks, htrains, howner, hfot, hcores⟩ := s.refuseWrite_frame w off
    simp only [State.regBits_refuseWrite]
    exact ⟨s.noteRefused_count w off hs, s.noteRefused_last w off hs, s.noteRefused_low w off hs,
      fun o ho hl hh => (s.reg_refuseWrite w off hl hh).trans (s.reg_noteRefused w off ho), htasks, htrains, howner, hfot, hcores⟩
  · refine ⟨s.storeReg_plain w v, ?_, ?_, ?_⟩
    · rintro rfl
      exact s.storeReg_numVfs w v
    · rintro rfl h
      exact s.resizeAperture_refused v h
    · rintro rfl h
      exact s.resizeAperture_refused v h

end Sys2Proof.Proofs
end

section
/-! ### Traffic across the links and the host link (R33, R46-R54, R85, R223, R415, R418, R460) -/

set_option Elab.async false

namespace Sys2Proof.Machine

/-! ### An inbound request served at its home (R33, R46, R51, R85) -/

section
variable {u : State} {id m p : Nat} {host : Bool} {a : Access}

/-- A size that the personality lacks. -/
theorem State.serveInbound_size (h : sizeOffered host a = false) : u.serveInbound id host m p a = u.answer id false [] := by
  unfold State.serveInbound
  rw [if_pos (by rw [h]; rfl)]

/-- A frame that fails a check. -/
theorem State.serveInbound_refused {f : Nat} (h : sizeOffered host a = true) (hf : u.inboundFails m p a = some f) : u.serveInbound id host m p a =
    if host && a.kind = .write then u.logRefusal m (max a.addr (f * 65536)) else (u.logRefusal m (max a.addr (f * 65536))).answer id false [] := by
  simp only [State.serveInbound, h, hf, Bool.not_true, Bool.false_eq_true, if_false]

section
variable (h : sizeOffered host a = true) (hf : u.inboundFails m p a = none)
include h hf

theorem State.serveInbound_write (hk : a.kind = .write) : u.serveInbound id host m p a = if host then u.inboundWrite m p a else (u.inboundWrite m p a).answer id true [] := by
  simp only [State.serveInbound, h, hf, hk, Bool.not_true, Bool.false_eq_true, if_false]

/-- The lines that a read touches, back in stack memory where they lay spilled (R200). -/
def State.readLines (u : State) (a : Access) : State := (List.range ((a.addr + max 1 a.len + 255) / 256 - a.addr / 256)).foldl (fun s i => s.lineBack (a.addr / 256 + i)) u

theorem State.serveInbound_read (hk : a.kind = .read) (hp : u.poisonIn a.addr a.len = none) :
    u.serveInbound id host m p a = (u.readLines a).answer id true ((u.readLines a).readBytes a.addr a.len) := by
  simp only [State.serveInbound, h, hf, hk, hp, Bool.not_true, Bool.false_eq_true, if_false]
  rfl

theorem State.serveInbound_poisoned {g : Nat} (hk : a.kind = .read) (hp : u.poisonIn a.addr a.len = some g) :
    u.serveInbound id host m p a = { u.inboundPoison m g with sent := (u.inboundPoison m g).sent ++ [.poisoned id] } := by
  simp only [State.serveInbound, h, hf, hk, hp, Bool.not_true, Bool.false_eq_true, if_false]

/-- An atomic: one that the port lacks or that is not aligned, one on a poisoned granule, one performed (R33, R34, R223). -/
theorem State.serveInbound_atomic {op : Nat} (hk : a.kind = .atomic op) : u.serveInbound id host m p a =
    if !atomicOffered host op a.data.length || decide (a.addr % a.data.length ≠ 0) then u.answer id false []
    else if u.poisoned a.addr then (u.inboundPoison m a.addr).answer id false []
    else ((u.atomicAt (inboundLog (dieOf a.addr)) op a.data.length a.addr (leNat a.data) (leNat a.compare)).1.answer id true
      (leBytes a.data.length (u.atomicAt (inboundLog (dieOf a.addr)) op a.data.length a.addr (leNat a.data) (leNat a.compare)).2.1)).pokeWatch := by
  simp only [State.serveInbound, h, hf, hk, Bool.not_true, Bool.false_eq_true, if_false]

end

/-- What serving an inbound request gives, in the words of the obligations. -/
theorem State.inboundServed_serveInbound : Claims.inboundServed u id host m p a (.next (u.serveInbound id host m p a)) := by
  refine ⟨fun h => congrArg _ (State.serveInbound_size h), fun h f hf => ?_, fun h hf => ⟨fun hk => ?_, fun hk hp => ?_, fun hk g v hp hv => ?_, fun op n hk hn => ?_⟩⟩
  · rw [State.serveInbound_refused h hf]
    refine ⟨fun hh hk => by simp [hh, hk], fun hno => ?_⟩
    rcases hno with hh | hk
    · simp [hh]
    · simp [hk]
  · rw [State.serveInbound_write h hf hk]
  · rintro v rfl
    rw [State.serveInbound_read h hf hk hp]
    rfl
  · rw [State.serveInbound_poisoned h hf hk hp, hv]
  · subst hn
    rw [State.serveInbound_atomic h hf hk]
    refine ⟨fun hbad => ?_, fun ho ha hp => ?_, fun ho ha hp r hr => ?_⟩
    · rw [if_pos (by simpa using hbad)]
    · rw [if_neg (by simp [ho, ha]), if_pos hp]
    · rw [if_neg (by simp [ho, ha]), if_neg (by simp [hp]), hr]

end

/-! ### A request that arrives, and one that gets its turn (R24, R46, R51, R460) -/

section
variable (s : State) (group : Option Nat) (m p : Nat) (a : Access) (now free : Bool)

/-- The request kept until its home answers. -/
def State.keepInbound : State :=
  { s with
    nextId := s.nextId + 1
    inbound := Table.put s.inbound s.nextId { group := group, master := m, slot := p, acc := a, at_ := s.time, free := free && decide (a.kind = .write) } }

theorem State.inboundArrives_eq : s.inboundArrives group m p a now free =
    if now && inboundHere group false a && !s.inboundWaits group.isNone m a && !s.behindWrite group.isNone m s.nextId then State.serveInbound { s with nextId := s.nextId + 1 } s.nextId group.isNone m p a
    else s.keepInbound group m p a free := rfl

end

/-- A request of a link waits for no write of a function. -/
theorem State.behindWrite_link (s : State) (m id : Nat) : s.behindWrite false m id = false := rfl

/-- A host access waits for the earlier writes of its function that are kept and not relaxed (R460). -/
theorem State.behindWrite_iff (s : State) (m id : Nat) :
    s.behindWrite true m id = true ↔ ∃ e ∈ s.inbound, e.1 < id ∧ e.2.group = none ∧ e.2.master = m ∧ e.2.free = false ∧ e.2.acc.kind = .write := by
  simp [State.behindWrite, and_assoc]

section
variable {s : State} {g m : Nat} (hx : s.ev.x = g) (hg : g < 16) (hz : s.ev.z = 0) (hst : s.groupState g = 1 ∨ s.groupState g = 2)
include hx hg hz hst

/-- LINK_INBOUND_REQUEST by the group's personality: only UALink carries requests into the package (R46). -/
theorem execLinkInboundRequest_eq : exec .linkInboundRequest s = .next (
    if s.groupPers g ≠ 2 then ({ s with nextId := s.nextId + 1 } : State).answer s.nextId false []
    else s.inboundArrives (some g) (96 + 2 * g + s.ev.y % 2) (s.ev.val.toNat % 65) s.ev.access s.ev.ok false) := by
  show execLinkInboundRequest s = _
  subst hx
  have hup : ¬ (16 ≤ s.ev.x ∨ s.groupState s.ev.x ≠ 1 ∧ s.groupState s.ev.x ≠ 2) := by omega
  simp only [execLinkInboundRequest, hz, ne_eq, not_true, if_false]
  rw [if_neg hup]

end

section
variable {s : State} {n : Nat} (hx : s.ev.x = n) (hz : s.ev.z = 0)
include hx hz

/-- BAR4_ACCESS of a function that is not there, or past its aperture (R49). -/
theorem execBar4Access_outside (h : (n ≠ 0 ∧ s.vfOn n = false) ∨ 2 ^ s.apSize n < s.ev.access.addr + accessSize s.ev.access) : exec .bar4Access s = .next s := by
  show execBar4Access s = _
  subst hx
  simp only [execBar4Access, hz, ne_eq, not_true, if_false]
  rw [if_pos (by simpa using h)]

/-- Any other arrives. -/
theorem execBar4Access_inside (hon : n = 0 ∨ s.vfOn n = true) (h : s.ev.access.addr + accessSize s.ev.access ≤ 2 ^ s.apSize n) : exec .bar4Access s =
    .next (s.inboundArrives none n n { s.ev.access with addr := s.apBase n + s.ev.access.addr } s.ev.ok s.ev.yes) := by
  show execBar4Access s = _
  subst hx
  have hin : ¬ ((s.ev.x ≠ 0 ∧ (!s.vfOn s.ev.x) = true) ∨ 2 ^ s.apSize s.ev.x < s.ev.access.addr + accessSize s.ev.access) := by
    rintro (⟨hne, hoff⟩ | hlt)
    · rcases hon with h0 | hv
      · exact hne h0
      · simp [hv] at hoff
    · omega
  simp only [execBar4Access, hz, ne_eq, not_true, if_false]
  rw [if_neg hin]

end

/-- Both steps give a waiting request its turn. -/
theorem execInbound_turn {s : State} {id : Nat} (hz : s.ev.z = id + 1) : exec .linkInboundRequest s = .next (s.inboundTurn id) ∧ exec .bar4Access s = .next (s.inboundTurn id) := by
  have hne : s.ev.z ≠ 0 := by omega
  have hid : s.ev.z - 1 = id := by omega
  constructor
  · show execLinkInboundRequest s = _
    simp only [execLinkInboundRequest, hne, ne_eq, not_false_eq_true, if_true, hid]
  · show execBar4Access s = _
    simp only [execBar4Access, hne, ne_eq, not_false_eq_true, if_true, hid]

/-- A turn serves a request that nothing holds. -/
theorem State.inboundTurn_served {s : State} {id : Nat} {w : Inbound} (hf : Table.find s.inbound id = some w) (hw : s.inboundWaits w.group.isNone w.master w.acc = false)
    (hb : s.behindWrite w.group.isNone w.master id = false) (hh : inboundHere w.group w.deliv w.acc = true) :
    s.inboundTurn id = State.serveInbound { s with inbound := Table.drop s.inbound id } id w.group.isNone w.master w.slot w.acc := by
  simp only [State.inboundTurn, hf, hw, hb, hh, Bool.not_true, Bool.or_self, Bool.false_eq_true, if_false]

/-- A refusal logged leaves the event under way. -/
theorem State.logRefusal_ev (s : State) (m pa : Nat) : (s.logRefusal m pa).ev = s.ev := by
  obtain ⟨_, _, _, _, h⟩ := s.event_frame (if isStack pa then s.slotOfFrame pa else none) 0x20 8 m 0 (pa / 32 * 32) 0
  rw [State.logRefusal, h]

/-- INBOUND_HOME_TIMEOUT before and after its millisecond (R46). -/
theorem execInboundHomeTimeout_eq {s : State} {w : Inbound} (hf : Table.find s.inbound s.ev.x = some w) : exec .inboundHomeTimeout s = .next (
    if s.time - w.at_ < 8 * 1000000 then s
    else if w.group.isNone && decide (w.acc.kind = .write) then State.logRefusal { s with inbound := Table.drop s.inbound s.ev.x } w.master w.acc.addr
    else (State.logRefusal { s with inbound := Table.drop s.inbound s.ev.x } w.master w.acc.addr).answer s.ev.x false []) := by
  show execInboundHomeTimeout s = _
  simp only [execInboundHomeTimeout, hf, State.logRefusal_ev]

/-! ### Answers to requests (R47, R53, R54) -/

section
variable {s : State} {o : Outbound} (hf : Table.find s.outbound s.ev.x = some o)
include hf

/-- OUTBOUND_COMPLETION of a request under way, once what its line's order puts before it is done. -/
theorem execOutboundCompletion_eq : exec .outboundCompletion s =
    .next (if !o.out || s.lineBefore o then s else if s.ev.ok then s.outDone s.ev.x o s.ev.bytes else s.outFail s.ev.x o fLINKERR) := by
  show execOutboundCompletion s = _
  simp only [execOutboundCompletion, hf]

theorem execOutboundTimeout_eq : exec .outboundTimeout s = .next (if !o.out || decide (s.time - o.sent < 8 * 1000000) then s else s.outFail s.ev.x o fLINKTIMEOUT) := by
  show execOutboundTimeout s = _
  simp only [execOutboundTimeout, hf]

end

section
variable {s : State} {id : Nat} {o : Outbound}

/-- The zero-length read of a release ends every one of its log and window up to it (R53). -/
theorem State.outDone_release {log pos p tr tk stc : Nat} (h : o.reply = .releaseRead log pos p tr tk stc) (bs : List Byte) :
    s.outDone id o bs = (s.readsUpTo id log o.win).foldl (fun s e => s.readEnds log none e) { s with outbound := Table.drop s.outbound id } := by
  simp only [State.outDone, h]

theorem State.outFail_release {log pos p tr tk stc : Nat} (h : o.reply = .releaseRead log pos p tr tk stc) (code : Nat) :
    s.outFail id o code = (s.readsUpTo id log o.win).foldl (fun s e => s.readEnds log (some code) e) { s with outbound := Table.drop s.outbound id } := by
  simp only [State.outFail, h, OutFor.base]

/-- An element takes its bytes, or the code (R47, R54). -/
theorem State.outDone_element {core slot pend lane j : Nat} (h : o.reply = .element core slot pend lane j) (bs : List Byte) :
    s.outDone id o bs = State.modPend { s with outbound := Table.drop s.outbound id } core slot pend (fun q => q.answerFrom lane j o.len bs) := by
  simp only [State.outDone, h]

theorem State.outFail_element {core slot pend lane j : Nat} (h : o.reply = .element core slot pend lane j) (code : Nat) :
    s.outFail id o code = State.modPend { s with outbound := Table.drop s.outbound id } core slot pend (fun q => q.answerAt lane j 0 (some code)) := by
  simp only [State.outFail, h, OutFor.base]

/-- An atomic's line leaves its core, and its element takes the answer (R223, R415, R418). -/
theorem State.outDone_atomic {core slot pend lane j key : Nat} (h : o.reply = .atomic core slot pend lane j key) (bs : List Byte) :
    s.outDone id o bs = State.atomicBack { s with outbound := Table.drop s.outbound id } o core slot pend lane j key (leNat (bs.take o.len)) := by
  simp only [State.outDone, h]

theorem State.outFail_atomic {core slot pend lane j key : Nat} (h : o.reply = .atomic core slot pend lane j key) (code : Nat) :
    s.outFail id o code = State.modPend { s with outbound := Table.drop s.outbound id } core slot pend (fun q => q.answerAt lane j 0 (some code)) := by
  simp only [State.outFail, h, OutFor.base]

theorem State.atomicBack_none (h : o.atom = none) (core slot pend lane j key m : Nat) :
    s.atomicBack o core slot pend lane j key m = (s.atomicLine core key).modPend core slot pend (fun q => q.answerAt lane j m none) := by
  simp only [State.atomicBack, h, State.atomicDone]

theorem State.atomicBack_some {a size v c : Nat} {b : OutFor} (h : o.atom = some (a, size, v, c, b)) (core slot pend lane j key m : Nat) : s.atomicBack o core slot pend lane j key m =
    (s.atomicFlags o.reply (atomicNew a (8 * size) m v c).2).atomicDone core slot pend lane j key (atomicAnswer a m (atomicNew a (8 * size) m v c).1) := by
  simp only [State.atomicBack, h]

/-- A sector's fill arrives with the core's own records over it, or fails (R192, R218). -/
theorem State.outDone_sector {core key : Nat} {stash : Bool} (h : o.reply = .sector core key stash) (bs : List Byte) :
    s.outDone id o bs = (State.fillArrives { s with outbound := Table.drop s.outbound id } core key stash
      (State.overlaid { s with outbound := Table.drop s.outbound id } core key { data := padTo 128 bs, pa := o.pa, pois := 0 })).2 := by
  simp only [State.outDone, h]

theorem State.outFail_sector {core key : Nat} {stash : Bool} (h : o.reply = .sector core key stash) (code : Nat) :
    s.outFail id o code = State.fillFails { s with outbound := Table.drop s.outbound id } core key stash code := by
  simp only [State.outFail, h, OutFor.base]

end

/-- A request of the element's own size brings the element's bytes. -/
theorem Pend.answerFrom_whole (q : Pend) (lane j : Nat) (bs : List Byte) : q.answerFrom lane j q.size bs = q.answerAt lane j (leNat (bs.take q.size)) none := by
  simp only [Pend.answerFrom, Pend.answerAt, if_true, List.drop_zero]

/-- One of a whole granule brings them at the element's place in it (R33). -/
theorem Pend.answerFrom_granule (q : Pend) {lane j : Nat} (bs : List Byte) (hs : q.size ≠ 32) {e : Elem}
    (he : q.missing.find? (fun e => decide (e.lane = lane) && decide (e.j = j)) = some e) :
    q.answerFrom lane j 32 bs = q.answer e (leNat ((bs.drop (e.va.getD 0 % 32)).take q.size)) none none := by
  simp only [Pend.answerFrom, he, Ne.symm hs, if_false]

/-! ### Host windows (R52) -/

/-- HWD_WRITE that is accepted: an enabled descriptor that is not valid is disabled again, and the status bit set. -/
theorem execHwdWrite_accepted {s : State} {n h : Nat} (hx : s.ev.x = n) (hn : n < 64) (hh : s.ev.y % 2 = h) (ha : Claims.accepts s (hwdOff n h)) {u : State}
    (hu : u = s.setReg (hwdOff n h) (s.ev.val &&& (if h = 0 then 0xFFFFFFFFFFFFFFFD else 0xFFFFFFFFFFFFF))) :
    exec .hwdWrite s = .next (if u.hwd n 0 1 = 1 ∧ (!u.hwdOk n) = true then (u.setRegBits (hwdOff n 0) 0 1 0).setRegBits hwdStatusOff 0 1 1 else u) := by
  show execHwdWrite s = _
  subst hx hh hu
  simp only [execHwdWrite, Nat.not_le.mpr hn, if_false, State.regWrite_accepted _ ha]

end Sys2Proof.Machine

namespace Sys2Proof.Proofs
open Sys2Proof.Machine

/-- Settles O41: a request served by `State.inboundServed_serveInbound`, an answer by what its requester takes (`State.outDone`, `State.outFail`), each case a lemma of its own. -/
theorem linkTraffic : Obligations.LinkTraffic := by
  refine ⟨?_, ?_, ?_, ?_, ?_, ?_, ?_⟩
  · intro s g hx hg hz hst m p a u hm hp ha hu
    subst hm hp ha hu
    rw [execLinkInboundRequest_eq hx hg hz hst]
    refine ⟨fun h => by rw [if_pos h], fun h hok hhere hwaits => ?_, fun h hkept => ?_⟩
    · rw [if_neg (not_not.mpr h), State.inboundArrives_eq, if_pos (by simp [hok, hhere, hwaits, State.behindWrite_link])]
      exact State.inboundServed_serveInbound
    · rw [if_neg (not_not.mpr h), State.inboundArrives_eq, if_neg]
      · rfl
      · rcases hkept with h | h | h <;> simp [h]
  · intro s n hx hz
    refine ⟨execBar4Access_outside hx hz, fun hon hin a u ha hu => ?_, fun id m => s.behindWrite_iff m id⟩
    subst ha hu
    rw [execBar4Access_inside hx hz hon hin, State.inboundArrives_eq]
    refine ⟨fun hok hwaits hbehind => ?_, fun hkept => ?_⟩
    · rw [if_pos (by simp [hok, hwaits, hbehind, inboundHere])]
      exact State.inboundServed_serveInbound
    · rw [if_neg]
      · rfl
      · rcases hkept with h | h | h <;> simp [h]
  · rintro s id w hz hf host rfl hwaits hbehind hhere
    obtain ⟨hlink, hbar⟩ := execInbound_turn hz
    rw [hlink, hbar, State.inboundTurn_served hf hwaits hbehind hhere]
    exact ⟨State.inboundServed_serveInbound, rfl⟩
  · rintro s u w hf rfl
    rw [execInboundHomeTimeout_eq hf]
    exact ⟨fun h => by rw [if_pos h], fun h => by rw [if_neg (Nat.not_lt.mpr h)]; simp only [Bool.and_eq_true, decide_eq_true_eq]⟩
  · rintro s u o hf rfl
    rw [execOutboundCompletion_eq hf, execOutboundTimeout_eq hf]
    refine ⟨fun h => by simp [h], fun h => ⟨fun hb => by simp [hb], fun hok hb => by simp [h, hb, hok], fun ht => ?_, fun ht => ?_, fun hok hb => by simp [h, hb, hok]⟩⟩
    · simp [h, Nat.not_lt.mpr ht]
    · simp [ht]
  · rintro s u id o rfl
    refine ⟨?_, ?_, ?_, ?_, ?_⟩
    · rintro log pos p tr tk stc h xs rfl
      exact ⟨State.outDone_release h, State.outFail_release h⟩
    · intro core slot pend lane j h
      exact ⟨State.outDone_element h, State.outFail_element h⟩
    · intro core slot pend lane j key h
      refine ⟨fun hnone bs => ?_, fun a size v c b r m hsome bs hm hr => ?_, State.outFail_atomic h⟩
      · rw [State.outDone_atomic h, State.atomicBack_none hnone]
      · rw [State.outDone_atomic h, State.atomicBack_some hsome, ← hm, ← hr]
    · intro q lane j bs _ _
      exact ⟨q.answerFrom_whole lane j bs, fun hs e he => q.answerFrom_granule bs hs he⟩
    · intro core key stash h
      exact ⟨State.outDone_sector h, State.outFail_sector h⟩
  · intro s n h hx hn hh ha u hu
    rw [execHwdWrite_accepted hx hn hh ha hu]
    refine ⟨fun hen hbad => by rw [if_pos ⟨hen, by rw [hbad]; rfl⟩], fun hgood => ?_⟩
    rw [if_neg]
    rintro ⟨hen, hbad⟩
    rcases hgood with h0 | hok
    · omega
    · simp [hok] at hbad

end Sys2Proof.Proofs
end

section
/-! ### Jobs: their steps, and the end of a job (R105, R106, R230, R281, R282, R286, R287) -/

set_option Elab.async false

namespace Sys2Proof.Machine

/-! ### The steps of a job by what the job is -/

section
variable {s : State} {id : Nat} {j : Job} (hx : s.ev.x = id) (hj : Table.find s.jobs id = some j)
include hx hj

theorem execJobStart_eq : exec .jobStart s = .next (
    if !s.jobMay id j then s
    else if j.coll then State.collSend { s with jobs := Table.put s.jobs id { j with started := true, startAt := s.clock } } id { j with started := true, startAt := s.clock }
    else { s with jobs := Table.put s.jobs id { j with started := true, startAt := s.clock } }) := by
  show execJobStart s = _
  subst hx
  simp only [execJobStart, hj]

/-- A chunk of a copy whose engine works and whose source has folded is completed once it has been moved, and else moved. -/
theorem execCopyChunkComplete_eq (hcoll : j.coll = false) (hok : j.status = 0) (hgo : j.started = true) (hc : s.ev.y < j.chunkCount) (hnew : j.done.contains s.ev.y = false)
    (hdie : s.dieWorks (j.yard / 24) = true) (hsrc : s.sourceFolded j = true) : exec .copyChunkComplete s = .next (
    if j.moved.any (fun m => decide (m.1 = s.ev.y)) then (if s.chunkFolded j s.ev.y then s.chunkDone id j s.ev.y else s.jobReads j)
    else if s.stepCut j then s else s.moveChunk id j s.ev.y) := by
  show execCopyChunkComplete s = _
  subst hx
  have hin : ¬ j.chunkCount ≤ s.ev.y := Nat.not_le.mpr hc
  simp only [execCopyChunkComplete, hj, hcoll, hok, hgo, hnew, hdie, hsrc, hin, ne_eq, not_true, decide_false, Bool.not_true, Bool.or_self, Bool.false_eq_true, if_false]

theorem execJobComplete_eq : exec .jobComplete s = .next (
    if j.status ≠ 0 then s.endJob id j
    else if j.coll then s.collStep id j
    else if s.stepCut j && j.chunksDone then s.cutStep id j
    else if !j.started || !(List.range j.chunkCount).all j.done.contains then s
    else if j.step.isSome then s.endStep id j
    else s.endJob id j) := by
  show execJobComplete s = _
  subst hx
  simp only [execJobComplete, hj]

theorem execCollectiveDeadline_passed (hcoll : j.coll = true) (hgo : j.started = true) (hok : j.status = 0) (ht : j.startAt + le j.desc 0x30 8 ≤ s.clock)
    (hr : j.moved.any (fun m => decide (m.1 = coN j.desc)) = false) : exec .collectiveDeadline s = .next ((s.dropFeet j).endJob id { j with status := 11 }) := by
  show execCollectiveDeadline s = _
  subst hx
  have hlate : ¬ s.clock < j.startAt + le j.desc 0x30 8 := Nat.not_lt.mpr ht
  simp only [execCollectiveDeadline, hj, hcoll, hgo, hok, hlate, hr, ne_eq, not_true, decide_false, Bool.not_true, Bool.or_self, Bool.false_eq_true, if_false]

/-! A contribution of another member. -/

theorem execCollectiveContribution_held (hrun : s.collRuns j = false) : exec .collectiveContribution s = .next s := by
  show execCollectiveContribution s = _
  subst hx
  simp only [execCollectiveContribution, hj, hrun, Bool.not_false, Bool.true_or, if_true]

section
variable (hr : s.ev.y < coN j.desc) (hne : s.ev.y ≠ coRank j.desc)
include hr hne

variable (hrun : s.collRuns j = true)
include hrun

theorem execCollectiveContribution_placed (hm : j.moved.any (fun m => decide (m.1 = s.ev.y)) = true) :
    exec .collectiveContribution s = .next ((s.jobReads j).collPlace id j s.ev.y [] false) := by
  show execCollectiveContribution s = _
  subst hx
  simp only [execCollectiveContribution, hj, hrun, Nat.not_le.mpr hr, hne, hm, decide_false, Bool.not_true, Bool.or_self, Bool.false_eq_true, if_false, if_true]

variable (hm : j.moved.any (fun m => decide (m.1 = s.ev.y)) = false)
include hm

theorem execCollectiveContribution_outside (hz : s.ev.z = 0) : exec .collectiveContribution s =
    .next (if j.near.any (fun ns => !ns.contains s.ev.y) then s.collPlace id j s.ev.y s.ev.bytes s.ev.yes else s) := by
  show execCollectiveContribution s = _
  subst hx
  simp only [execCollectiveContribution, hj, hrun, Nat.not_le.mpr hr, hne, hm, hz, decide_false, Bool.not_true, Bool.or_self, Bool.false_eq_true, if_false, if_true]

theorem execCollectiveContribution_near {n : Nat} {c : Contrib} (hz : s.ev.z = n + 1) (hc : Table.find s.contribs n = some c) : exec .collectiveContribution s =
    .next (if c.fits j s.ev.y then s.takeContrib id j n c else s) := by
  show execCollectiveContribution s = _
  subst hx
  have hnz : ¬ s.ev.z = 0 := by omega
  have hn : s.ev.z - 1 = n := by omega
  simp only [execCollectiveContribution, hj, hrun, Nat.not_le.mpr hr, hne, hm, hnz, hn, hc, decide_false, Bool.not_true, Bool.or_self, Bool.false_eq_true, if_false]

end
end

/-! ### A chunk complete (R230, R282) -/

section
variable {s : State} {id : Nat} {j : Job} {c : Nat} {core : Nat}

theorem State.chunkDone_card (h : j.core = none) : s.chunkDone id j c = { s with jobs := Table.put s.jobs id { j with done := j.done ++ [c] } } := by
  simp only [State.chunkDone, h]

theorem State.chunkDone_step (h : j.core = some core) (hs : j.step.isSome = true) :
    s.chunkDone id j c = State.dropFeet { s with jobs := Table.put s.jobs id { j with done := j.done ++ [c] } } j := by
  simp only [State.chunkDone, h, hs, if_true]

/-- A train's own copy sets the chunk's bit in its bitmap. -/
theorem State.chunkDone_bit (h : j.core = some core) (hs : j.step = none) {u : State} (hu : u = State.dropFeet { s with jobs := Table.put s.jobs id { j with done := j.done ++ [c] } } j) :
    s.chunkDone id j c = u.setScratch core j.task ((u.scratch core j.task).write (j.pad + c / 8) [(u.scratch core j.task).read (j.pad + c / 8) ||| BitVec.ofNat 8 (2 ^ (c % 8))]) := by
  subst hu
  simp only [State.chunkDone, h, hs, Option.isSome_none, Bool.false_eq_true, if_false]

end

/-! ### Invalidation where no record and no fill is left (R191, R218, R230) -/

/-- With no log, a core has no records of its own. -/
theorem State.ownRecs_nil {s : State} (h : s.logs = []) (core key pa : Nat) : s.ownRecs core key pa = [] := by
  simp [State.ownRecs, State.log, h, Log.inSector]

/-- Then an invalidation asks for nothing again: lines go, and nothing else is done. -/
theorem State.invalidate_bare {s : State} {core : Nat} (sel : Nat → Bool) (hf : (s.core core).fills = []) (hl : s.logs = []) : s.invalidate core sel =
    s.setCore core { s.core core with
      view := (s.core core).view.filter (fun e => !sel e.1), stash := (s.core core).stash.filter (fun e => !sel e.1)
      stashUse := (s.core core).stashUse.filter (fun n => !sel (2 * n)) } := by
  simp only [State.invalidate, hf, State.ownRecs_nil hl, List.filter_nil, List.any_nil, Bool.false_eq_true, if_false, List.map_id_fun', id_eq, List.isEmpty_nil, Bool.and_self, Bool.not_true,
    Bool.and_false, List.filter_false, List.foldl_nil]

/-- The lines of a job's destinations leave its core's view. -/
theorem State.dropFeet_bare {s : State} {j : Job} {core : Nat} (hc : j.core = some core) (hf : (s.core core).fills = []) (hl : s.logs = []) :
    ((s.dropFeet j).core core).view = (s.core core).view.filter (fun e => !(decide (keySlot e.1 = j.slot) &&
      j.feet.any (fun f => f.2.2.2 && decide (f.2.2.1 = 0) && decide (f.1 < keyVa e.1 / 256 * 256 + 256) && decide (keyVa e.1 / 256 * 256 < f.2.1)))) ∧ (s.dropFeet j).mem = s.mem := by
  simp only [State.dropFeet, hc]
  rw [State.invalidate_bare _ hf hl]
  exact ⟨congrArg Core.view (State.core_setCore _ _ _), rfl⟩

/-! ### The end of a train's own job (R106, R107, R120, R440) -/

/-- Flags are delivered to a train, or to its task's record. -/
theorem State.flagTrain_frame (s : State) (core slot index task : Nat) (x : W32) : ∃ ts ks, s.flagTrain core slot index task x = { s with trains := ts, tasks := ks } := by
  unfold State.flagTrain
  split
  · split
    · exact ⟨_, s.tasks, rfl⟩
    · exact ⟨s.trains, _, rfl⟩
  · exact ⟨s.trains, _, rfl⟩

/-- Of the task, they change its flags at most. -/
theorem State.task_flagTrain {s : State} {task : Nat} {k : Task} (core slot index : Nat) (x : W32) (h : s.task task = some k) :
    ∃ y, (s.flagTrain core slot index task x).task task = some { k with xflags := y } := by
  have hmod : (s.modTask task (fun k => { k with xflags := k.xflags ||| x })).task task = some { k with xflags := k.xflags ||| x } := by rw [State.task_modTask, h]; rfl
  unfold State.flagTrain
  split
  · split
    · exact ⟨k.xflags, h⟩
    · exact ⟨_, hmod⟩
  · exact ⟨_, hmod⟩

/-- The job gone, its reservation spent and its flags delivered. -/
def State.jobSpent (s : State) (id c : Nat) (j : Job) : State :=
  let s := ((s.dropJob id).spendRsv j.task j.cost).modTask j.task (fun k => { k with outstanding := k.outstanding - 1 })
  if j.oobz then s.flagTrain c j.trainSlot j.trainIndex j.task xOOBZ else s

section
variable {s : State} {id c : Nat} {j : Job}

theorem State.jobSpent_frame : ∃ ts ks, s.jobSpent id c j = { s.dropJob id with trains := ts, tasks := ks } := by
  unfold State.jobSpent
  extract_lets u
  split
  · obtain ⟨ts, ks, h⟩ := u.flagTrain_frame c j.trainSlot j.trainIndex j.task xOOBZ
    exact ⟨ts, ks, h⟩
  · exact ⟨s.trains, _, rfl⟩

theorem State.task_jobSpent {k : Task} (hk : s.task j.task = some k) :
    ∃ y, (s.jobSpent id c j).task j.task = some { k with rsv := k.rsv - j.cost, spent := k.spent + j.cost, outstanding := k.outstanding - 1, xflags := y } := by
  have hdrop : (s.dropJob id).task j.task = some k := hk
  have hu : (((s.dropJob id).spendRsv j.task j.cost).modTask j.task (fun k => { k with outstanding := k.outstanding - 1 })).task j.task =
      some { k with rsv := k.rsv - j.cost, spent := k.spent + j.cost, outstanding := k.outstanding - 1 } := by
    rw [State.task_modTask, State.spendRsv, State.task_modTask, hdrop]
    rfl
  unfold State.jobSpent
  extract_lets u
  split
  · exact State.task_flagTrain _ _ _ _ hu
  · exact ⟨k.xflags, hu⟩

/-- A card's job ends by its record (R106, R107). -/
theorem State.endJob_card (h : j.queue.isSome = true ∨ j.node.isSome = true) : s.endJob id j = s.endCard id j := by
  rw [State.endJob, if_pos ((Bool.or_eq_true _ _).mpr h)]

/-- A train's own job ends by its word, where it writes one. -/
theorem State.endJob_own (hq : j.queue = none) (hn : j.node = none) (hs : j.step = none) (hc : j.core = some c) : s.endJob id j =
    if j.coll && decide (j.status ≠ 4) then (s.jobSpent id c j).padWrite c j.task j.pad (leBytes 8 (collWord j.status)) else s.jobSpent id c j := by
  simp only [State.endJob, hq, hn, hs, hc, Option.isSome_none, Bool.or_self, Bool.false_eq_true, if_false]
  rfl

/-- A pad that has not been saved is written in place (R156, R439). -/
theorem State.padImage_eq_none {task : Nat} : s.padImage c task = none ↔ Table.find (s.core c).aside task = none := by
  unfold State.padImage
  extract_lets k
  split <;> simp_all [k]

theorem State.padWrite_inPlace {task : Nat} (off : Nat) (bs : List Byte) (h : s.padImage c task = none) : s.padWrite c task off bs = s.setScratch c task ((s.scratch c task).write off bs) := by
  simp only [State.padWrite, h]

theorem State.scratch_setScratch {task : Nat} (x : Scratch) : (s.setScratch c task x).scratch c task = x := by
  simp only [State.scratch, State.setScratch, State.core_setCore, Table.find_put_same, Option.getD_some]

/-- A scratchpad and its saved image are parts of the core. -/
theorem State.scratch_congr {t : State} (task : Nat) (h : t.cores = s.cores) : t.scratch c task = s.scratch c task := by
  simp only [State.scratch, State.core, h]

theorem State.padImage_congr {t : State} {task : Nat} (h : t.cores = s.cores) (hs : s.padImage c task = none) : t.padImage c task = none := by
  rw [State.padImage_eq_none] at hs ⊢
  rw [← hs]
  simp only [State.core, h]

theorem State.endJob_leaves {k : Task} (hjobs : Table.sorted s.jobs = true) (hq : j.queue = none) (hn : j.node = none) (hs : j.step = none) (hc : j.core = some c)
    (hk : s.task j.task = some k) (hpad : s.padImage c j.task = none) :
    Table.find (s.endJob id j).jobs id = none ∧ (s.endJob id j).mem = s.mem ∧
    (∃ k', (s.endJob id j).task j.task = some k' ∧ k'.rsv = k.rsv - j.cost ∧ k'.spent = k.spent + j.cost ∧ k'.outstanding = k.outstanding - 1) ∧
    ((j.coll = false ∨ j.status = 4) → (s.endJob id j).scratch c j.task = s.scratch c j.task) ∧
    (j.coll = true → j.status ≠ 4 → (s.endJob id j).scratch c j.task = (s.scratch c j.task).write j.pad (leBytes 8 (collWord j.status))) := by
  obtain ⟨y, htask⟩ := State.task_jobSpent (id := id) (c := c) hk
  obtain ⟨ts, ks, hu⟩ := State.jobSpent_frame (s := s) (id := id) (c := c) (j := j)
  have hcores : (s.jobSpent id c j).cores = s.cores := by rw [hu]; rfl
  have hmem : (s.jobSpent id c j).mem = s.mem := by rw [hu]; rfl
  have hgone : Table.find (s.jobSpent id c j).jobs id = none := by rw [hu]; exact Table.find_drop_same _ _ hjobs
  have hscratch := State.scratch_congr (c := c) j.task hcores
  rw [State.endJob_own hq hn hs hc]
  by_cases hword : (j.coll && decide (j.status ≠ 4)) = true
  · rw [if_pos hword, State.padWrite_inPlace _ _ (State.padImage_congr hcores hpad)]
    simp only [Bool.and_eq_true, decide_eq_true_eq] at hword
    obtain ⟨hcoll, hst⟩ := hword
    refine ⟨hgone, hmem, ⟨_, htask, rfl, rfl, rfl⟩, fun h => ?_, fun _ _ => by rw [State.scratch_setScratch, hscratch]⟩
    rcases h with h | h
    · rw [hcoll] at h; cases h
    · exact absurd h hst
  · rw [if_neg hword]
    refine ⟨hgone, hmem, ⟨_, htask, rfl, rfl, rfl⟩, fun _ => hscratch, fun h h' => ?_⟩
    simp [h, h'] at hword

end

/-! ### Copy steps (R278, R279) -/

section
variable {s : State} {id l : Nat} {j : Job} {r pid i : Nat} {close : Bool} (hjobs : Table.sorted s.jobs = true) (hstep : j.step = some (l, r, pid, close, i))
include hjobs hstep

theorem State.cutStep_leaves : Table.find (s.cutStep id j).jobs id = none ∧ (s.cutStep id j).mem = s.mem ∧ (s.cutStep id j).logs = s.logs ∧
    ((s.cutStep id j).pairOf l).progs = (s.pairOf l).progs.map (fun m => if m.active then { m with copyJob := none } else m) := by
  simp only [State.cutStep, hstep]
  exact ⟨Table.find_drop_same _ _ hjobs, rfl, rfl, congrArg Pair.progs (State.pairOf_modProg _ _ _)⟩

end

/-- A program of a copy step complete: the step counts as done, and its producer's next fill is one on. -/
def MxProg.stepDone (m : MxProg) (oobz : Bool) (r pid : Nat) : MxProg :=
  { m with
    xflags := if oobz then m.xflags ||| xOOBZ else m.xflags
    copyDone := m.copyDone + 1
    copyJob := none
    filled := Sparse.set 0 m.filled (16 * r + pid) (Sparse.get 0 m.filled (16 * r + pid) + 1) }

/-- The pad of a copy step complete: its producer has arrived on its stage, and closes on the following one (R272, R279). -/
def Scratch.stepDone (x : Scratch) (ring : List Byte) (i pid : Nat) (close : Bool) : Scratch :=
  if close then (x.setBit (rgCtl ring + 8 * i) pid).setBit (rgCtl ring + 8 * ((i + 1) % max 1 (rgStages ring))) (16 + pid) else x.setBit (rgCtl ring + 8 * i) pid

section
variable {s : State} {id l : Nat} {j : Job} {r pid i : Nat} {close : Bool} (hstep : j.step = some (l, r, pid, close, i))
include hstep

theorem State.endStep_eq : s.endStep id j =
    ((s.dropJob id).setScratch l j.task ((s.scratch l j.task).stepDone (((s.running l).bind (fun m => m.rings[r]?)).getD []) i pid close)).modProg l (fun m => m.stepDone j.oobz r pid) := by
  have hkeep : ∀ m : MxProg, ({ m with xflags := m.xflags ||| xOOBZ } : MxProg).active = m.active := fun _ => rfl
  simp only [State.endStep, hstep]
  cases j.oobz
  · rfl
  · simp only [if_true]
    rw [State.modProg_setScratch, State.modProg_modProg _ _ _ _ hkeep]
    rfl

theorem State.endStep_leaves (hjobs : Table.sorted s.jobs = true) {ring : List Byte} (hring : ring = ((s.running l).bind (fun m => m.rings[r]?)).getD []) :
    Table.find (s.endStep id j).jobs id = none ∧ (s.endStep id j).mem = s.mem ∧ (s.endStep id j).logs = s.logs ∧
      (s.endStep id j).scratch l j.task = (s.scratch l j.task).stepDone ring i pid close ∧
      ((s.endStep id j).pairOf l).progs = (s.pairOf l).progs.map (fun m => if m.active then m.stepDone j.oobz r pid else m) := by
  rw [State.endStep_eq hstep, ← hring]
  refine ⟨Table.find_drop_same _ _ hjobs, rfl, rfl, ?_, congrArg Pair.progs (State.pairOf_modProg _ _ _)⟩
  exact (State.scratch_congr _ (State.modProg_cores _ _ _)).trans (State.scratch_setScratch _)

end

end Sys2Proof.Machine
end

section
/-! ### Copy steps, programs collected, MXFORK and continuations (R128, R269, R278, R283, R437, R438) -/

set_option Elab.async false

namespace Sys2Proof.Machine

/-! ### Programs -/

theorem execCopyStep_begins {s : State} {l : Nat} {m : MxProg} (hx : s.ev.x = l) (hm : s.running l = some m) (hl : m.loaded = true) (hj : m.copyJob = none) (hn : m.copyDone < m.copyN)
    (he : (m.ended && decide (m.status ≠ 0)) = false) (hh : s.mxHeld { leader := l, pair := s.pairOf l, m := m } = false) : exec .copyStep s = .next (s.beginStep l m) := by
  show execCopyStep s = _
  subst hx
  simp only [execCopyStep, hm, hl, hj, Nat.not_le.mpr hn, he, hh, Option.isSome_none, Bool.not_true, decide_false, Bool.or_self, Bool.false_eq_true, if_false]

section
variable {s : State} {l : Nat} {m : MxProg} {k : Task}

/-- The task's account where a program of it has been collected. -/
def Task.collected (k : Task) (n : Nat) : Task :=
  if k.state = .unwinding then { k with rsv := k.rsv - n, spent := k.spent + n, outstanding := k.outstanding - 1 } else { k with rsv := k.rsv - n, alw := k.alw + n, outstanding := k.outstanding - 1 }

/-- A pair's only program collected leaves the pair with none, and its task with the bound that it did not use. -/
theorem State.collect_only (hp : (s.pairOf l).progs = [m]) (hk : s.task m.task = some k) :
    ((s.collect l m).pairOf l).progs = [] ∧ ∃ y, (s.collect l m).task m.task = some { k.collected (m.bound - m.used) with xflags := y } := by
  have hprogs : ((s.setPair l { s.pairOf l with progs := (s.pairOf l).progs.filter (fun x => decide (x.seq ≠ m.seq)) }).pairOf l).progs = [] := by
    rw [State.pairOf_setPair_same, hp]
    simp
  have htask : (s.setPair l { s.pairOf l with progs := (s.pairOf l).progs.filter (fun x => decide (x.seq ≠ m.seq)) }).task m.task = some k := hk
  simp only [State.collect]
  generalize s.setPair l { s.pairOf l with progs := (s.pairOf l).progs.filter (fun x => decide (x.seq ≠ m.seq)) } = u at hprogs htask
  rw [htask]
  generalize hv : State.modTask _ m.task _ = v
  have hvp : v.pairs = u.pairs := by
    rw [← hv]
    by_cases h : k.state = .unwinding <;> simp only [Option.any_some, h, decide_true, decide_false, if_true, if_false, Bool.false_eq_true] <;> rfl
  have hvt : v.task m.task = some (k.collected (m.bound - m.used)) := by
    rw [← hv]
    by_cases h : k.state = .unwinding <;>
      simp only [Option.any_some, h, decide_true, decide_false, if_true, if_false, Bool.false_eq_true, State.task_modTask, State.spendRsv, State.refund, htask, Option.map_some, Task.collected]
  obtain ⟨ts, ks, hf⟩ := v.flagTrain_frame l m.trainSlot m.trainIndex m.task m.xflags
  refine ⟨?_, State.task_flagTrain _ _ _ _ hvt⟩
  rw [hf, ← hprogs]
  simp only [State.pairOf, hvp]

theorem execProgramAutoCollect_collects (hx : s.ev.x = l) (hp : (s.pairOf l).progs = [m]) (hm : m.active = false) (hk : s.task m.task = some k) (hl : k.live = 0) :
    exec .programAutoCollect s = .next (s.collect l m) := by
  show execProgramAutoCollect s = _
  subst hx
  simp [execProgramAutoCollect, hp, hm, hk, hl]

end

/-! ### MXFORK -/

section
variable {s : State} {o : Portion} {a : BitVec 6} (ho : (s.train s.ev.x s.ev.y).bind (fun t => t.portion s.ev.z) = some o) (hw : o.wait = .mxfork a)
include ho hw

/-- A waiting MXFORK issues once its pair is free. -/
theorem execMxforkAccept_free (hr : s.running s.ev.x = none) :
    exec .mxforkAccept s = exec (.mxfork a) ({ s with focus := { core := s.ev.x, slot := s.ev.y, portion := s.ev.z } }.modPortion (fun o => { o with wait := .none })) := by
  show execMxforkAccept s = execMxfork a _
  simp only [execMxforkAccept, ho, hw, hr, Option.isSome_none, Bool.false_eq_true, if_false]

theorem execMxforkAccept_busy (hr : (s.running s.ev.x).isSome = true) : exec .mxforkAccept s = .next s := by
  show execMxforkAccept s = _
  simp only [execMxforkAccept, ho, hw, hr, if_true]

end

/-- The needs of an MXFORK that nothing holds, whose header declares the bound `n`. -/
def forkNeeds (a : BitVec 6) (n : Nat) : SReq := { op := 0x34, extra := n, sregs := [a.toNat], clauses := true, boundary := true }

section
variable {u : State} {c : Cur} {a : BitVec 6} {bs : List Byte} (heven : c.core % 2 = 0) (hA : fmtA c.o.fmt ≠ 0) (hB : fmtB c.o.fmt ≠ 0)
  (hread : u.headerRead c (c.t.getS a.toNat).toNat = some (.ok bs))

include heven hA hB in
theorem forkIllegal_eq_false : forkIllegal c = false := by
  have hodd : ¬ c.core % 2 = 1 := by omega
  simp only [forkIllegal, hodd, hA, hB, decide_false, Bool.or_self]

include hread in
theorem State.forkHeader_eq : u.forkHeader c a = some bs := by
  simp only [State.forkHeader, hread]

variable (hlevel : u.level ≠ 1) (hsize : u.resizes c.core c.t.task = false) (hfree : u.running c.core = none) (hready : u.ready c (forkNeeds a (mxBound bs))) (hagain : c.o.again = .no)

include heven hA hB hread hlevel hsize hfree hready hagain

/-- It waits for nothing, and needs what `forkNeeds` says. -/
theorem forkReq_eq : forkReq u a c = forkNeeds a (mxBound bs) := by
  obtain ⟨-, -, -, -, hbreach, hpay⟩ := hready
  have hmain : c.t.handler.isSome = false := by simpa [SReq.breach, forkNeeds] using hbreach
  have hcan : u.canPay c.t.task (1 + mxBound bs) = true := by simpa [Cur.need, hmain, hagain, forkNeeds] using hpay
  have hill := forkIllegal_eq_false heven hA hB
  have hstall : forkStall u a c = .no := by
    simp only [forkStall, hill, hread, hlevel, hcan, hsize, hfree, Option.isSome_none, decide_false, Bool.false_and, Bool.not_true, Bool.or_self, Bool.false_eq_true, if_false]
  simp only [forkReq, hstall, hill, hread, State.forkHeader_eq hread, Option.map_some, Option.getD_some, Bool.false_eq_true, if_false, forkNeeds]

/-- Its program is then accepted. -/
theorem execMxfork_accepts : exec (.mxfork a) u = .next ((u.leaves c (forkNeeds a (mxBound bs)) keep keep).forkAccept c a bs) := by
  have hq := forkReq_eq heven hA hB hread hlevel hsize hfree hready hagain
  show execMxfork a u = _
  unfold execMxfork
  rw [State.scalarGo_ready u c (forkReq u a) forkIllegal _ _ (hq ▸ hready) (forkIllegal_eq_false heven hA hB) (by simp [hread, hlevel])]
  simp only [State.forkHeader_eq hread, hq]

end

/-- The program that an MXFORK leaves, the last of its pair's. -/
theorem State.forkAccept_progs (s : State) (c : Cur) (a : BitVec 6) (bs : List Byte) : ∃ m, ((s.forkAccept c a bs).pairOf c.core).progs = (s.pairOf c.core).progs ++ [m] ∧
    m.task = c.t.task ∧ m.va = (c.t.getS a.toNat).toNat ∧ m.fmt = c.o.fmt ∧ m.bound = mxBound bs ∧ m.ended = false := by
  unfold State.forkAccept
  extract_lets u v m p
  exact ⟨m, congrArg Pair.progs (State.pairOf_setPair_same v c.core { p with progs := p.progs ++ [m] }), rfl, rfl, rfl, rfl, rfl⟩

theorem State.forkAccept_mem (s : State) (c : Cur) (a : BitVec 6) (bs : List Byte) : (s.forkAccept c a bs).mem = s.mem := by
  simp only [State.forkAccept, State.setPair_mem, State.modTask_mem, State.reserve, State.dropFar]

/-! ### Continuations -/

theorem execContinuationFire_starts {s : State} {c i : Nat} {x : Cont} {k : Task} (hc : s.ev.x = c) (hi : s.ev.y = i) (hx : (s.core c).conts[i]? = some x) (hk : s.task x.task = some k)
    (hr : x.ready = true) (hh : k.held = true) (hs : k.issues = true) (hp : s.pctlState k.slot = 2) (hf : s.roomFor c k = true) : exec .continuationFire s = .next (
      ((s.setCore c { s.core c with conts := (s.core c).conts.eraseIdx i }).setTask x.task { k with outstanding := k.outstanding - 1, live := k.live + 1 }).addTrain c
        (fun id mark => { startingTrain k x.task x.index id mark x.arg (BitVec.ofNat 64 x.index) 0 x.b x.entry k.lcb with member := false })) := by
  show execContinuationFire s = _
  subst hc hi
  simp only [execContinuationFire, hx, hk, hr, hh, hs, hp, hf, ne_eq, not_true, decide_false, Bool.not_true, Bool.or_self, Bool.false_eq_true, if_false]

/-- Which slot a new train takes lies with the trains and the device's choice. -/
theorem State.freeTrainSlot_congr {s t : State} (c : Nat) (ht : t.trains = s.trains) (hf : t.fresh = s.fresh) : t.freeTrainSlot c = s.freeTrainSlot c := by
  simp only [State.freeTrainSlot, State.train, ht, hf]

/-- The slot that a new train takes is empty. -/
theorem State.train_freeTrainSlot {s : State} {c n : Nat} (h : s.freeTrainSlot c = some n) : s.train c n = none := by
  simpa using List.find?_some h

/-- A new train changes the trains and the counters only. -/
theorem State.addTrain_frame (s : State) (c : Nat) (f : Nat → Nat → Train) : ∃ ts n m, s.addTrain c f = { s with trains := ts, nextId := n, fresh := m } := by
  unfold State.addTrain
  split
  · exact ⟨s.trains, s.nextId, s.fresh, rfl⟩
  · exact ⟨_, _, _, rfl⟩

/-- It stands in its slot. -/
theorem State.train_addTrain {s : State} {c n : Nat} (f : Nat → Nat → Train) (h : s.freeTrainSlot c = some n) : (s.addTrain c f).train c n = some (f s.nextId (s.log c).tail) := by
  simp only [State.addTrain, h]
  exact State.train_setTrain _ _ _ _

theorem startingTrain_getS_one (k : Task) (t index id mark : Nat) (s1 s2 s3 : W64) (b : Sparse (BitVec 256)) (entry lcb : W64) : (startingTrain k t index id mark s1 s2 s3 b entry lcb).getS 1 = s1 := by
  show Sparse.get 0 (Sparse.set 0 (Sparse.set 0 (Sparse.set 0 [] 1 s1) 2 s2) 3 s3) 1 = s1
  rw [Sparse.get_set_other _ _ _ _ _ (by decide), Sparse.get_set_other _ _ _ _ _ (by decide), Sparse.get_set_same _ _ _ _ rfl]

end Sys2Proof.Machine
end

section
/-! ### Chunks moved, and collectives (R43, R85, R281, R286) -/

set_option Elab.async false

namespace Sys2Proof.Machine

/-! ### The reads of a job -/

section
variable {s : State} {id : Nat} {j : Job} {rs : List (Nat × ERead)}

theorem State.readsWait_fault {code : Nat} (h : firstFault rs = some code) (hd : firstDenied rs = none) : s.readsWait id j rs = some (s.jobFault id j code) := by
  simp only [State.readsWait, h, hd, Option.elim_none]

theorem State.readsWait_denied {code pa : Nat} (h : firstFault rs = some code) (hd : firstDenied rs = some pa) :
    s.readsWait id j rs = some ((s.logDenied 128 j.yard pa).jobFault id j code) := by
  simp only [State.readsWait, h, hd, Option.elim_some]

theorem State.readsWait_far (h : firstFault rs = none) (hf : farReads rs ≠ []) : s.readsWait id j rs = some ((farReads rs).foldl (fun s f => s.askFar (jobOwner id) f.1 f.2) s) := by
  have hne : (farReads rs).isEmpty = false := by simpa using hf
  simp only [State.readsWait, h, hne, Bool.false_eq_true, if_false]

/-- Reads that have all been made hold a job no longer. -/
theorem State.readsWait_none (h : firstFault rs = none) (hf : farReads rs = []) : s.readsWait id j rs = none := by
  simp only [State.readsWait, h, hf, List.isEmpty_nil, if_true]

/-- A read that has been made is no fault and goes nowhere. -/
theorem State.readsWait_ok (v : Nat) (g : Option Nat) : s.readsWait id j [(0, .ok v g)] = none := State.readsWait_none rfl rfl

end

/-! ### A chunk moved (R281) -/

section
variable {s u : State} {id : Nat} {j : Job} {c : Nat} {rs ws : List (Nat × ERead)} (hu : Claims.chunkReads s id j c = (u, rs, ws))
include hu

theorem State.moveChunk_waits {v : State} (h : u.readsWait id j (rs ++ ws) = some v) : s.moveChunk id j c = v := by
  cases hu
  simp only [State.moveChunk, h]

/-- With its reads made, a chunk is put where it goes; which granules were poisoned and what was out of bounds the job notes. -/
theorem State.moveChunk_moves (h : u.readsWait id j (rs ++ ws) = none) :
    ∃ p b, s.moveChunk id j c = (u.dropTrips (jobOwner id)).putChunk id { j with poisoned := p, oobz := b } c (Claims.chunkWrites j rs) := by
  cases hu
  simp only [State.moveChunk, h]
  exact ⟨_, _, rfl⟩

end

/-- A chunk in the scratchpad is written in place. -/
theorem State.putChunk_pad {s : State} {id : Nat} {j : Job} {c core : Nat} {ws : List (Nat × Nat × Bool)} (hp : j.toPad = true) (hc : j.core = some core) {v : State}
    (hv : v = s.setScratch core j.task ((s.scratch core j.task).fill (loE j.desc) ws)) : s.putChunk id j c ws = { v with jobs := Table.put v.jobs id { j with moved := j.moved ++ [(c, 0)] } } := by
  subst hv
  simp only [State.putChunk, hp, hc, if_true, Option.getD_some]

/-! ### Writes that all have their addresses -/

section
variable {α β γ δ ε : Type} {f : α → Except ε β}

/-- Among writes that all have an address none is found to fail. -/
theorem findSome?_map_ok {ws : List α} {ok : List (δ × β)} {E : α × Except ε β → Option γ} (hok : ws.map f = ok.map (fun x => Except.ok x.2)) (hE : ∀ a x, E (a, .ok x) = none) :
    (ws.map (fun w => (w, f w))).findSome? E = none := by
  rw [List.findSome?_eq_none_iff]
  intro p hp
  obtain ⟨w, hw, rfl⟩ := List.mem_map.mp hp
  have hf : f w ∈ ok.map (fun x => (Except.ok x.2 : Except ε β)) := hok ▸ List.mem_map_of_mem hw
  obtain ⟨x, -, hx⟩ := List.mem_map.mp hf
  rw [← hx, hE]

/-- They are the elements at those addresses. -/
theorem filterMap_map_ok {e : α → δ} {F : α × Except ε β → Option (δ × β)} (hF : ∀ a x, F (a, .ok x) = some (e a, x)) {ws : List α} {ok : List (δ × β)}
    (hok : ws.map f = ok.map (fun x => Except.ok x.2)) (he : ok.map Prod.fst = ws.map e) : (ws.map (fun w => (w, f w))).filterMap F = ok := by
  induction ws generalizing ok with
  | nil =>
    have : ok = [] := by simpa using he
    subst this
    rfl
  | cons w ws ih =>
    cases ok with
    | nil => simp at he
    | cons x ok =>
      obtain ⟨hx, hok⟩ := List.cons.inj hok
      obtain ⟨he, hes⟩ := List.cons.inj he
      rw [List.map_cons, List.filterMap_cons, hx, hF, ih hok hes, ← he]

end

/-- Where job `j` writes `ws`: every write has its address, and `ok` holds the elements with them. -/
def State.placesChunk (s : State) (j : Job) (ws : List (Nat × Nat × Bool)) (ok : List (Elem × Nat)) : Prop :=
  ws.map (fun w => s.writeTarget j.eng j.slot (if j.counted.isSome then 4 else 0) w.1) = ok.map (fun x => Except.ok x.2) ∧ ok.map Prod.fst = ws.map (fun w => ({ lane := 0, j := 0, va := some w.1, val := w.2.1 } : Elem))

/-- A chunk in global memory is written as records of the engine's log. -/
theorem State.putChunk_log {s v : State} {id : Nat} {j : Job} {c : Nat} {ws : List (Nat × Nat × Bool)} {ok : List (Elem × Nat)} (hp : j.toPad = false) (hok : s.placesChunk j ws ok)
    (hv : v = s.engineRecs (copyLog j.yard) j.slot j.task j.counted (id + 1) ((ws.filter (fun w => w.2.2)).map (fun w => w.1 / 32)) (piecesOf (loE j.desc) ok)) :
    s.putChunk id j c ws = { v with jobs := Table.put v.jobs id { j with moved := j.moved ++ [(c, (v.log (copyLog j.yard)).tail)] } } := by
  subst hv
  obtain ⟨hok, hel⟩ := hok
  simp only [State.putChunk, hp, Bool.false_eq_true, if_false]
  rw [findSome?_map_ok hok (fun _ _ => rfl), filterMap_map_ok (fun _ _ => rfl) hok hel]

/-- Bytes that a collective writes, where each has its address. -/
theorem State.collWrite_log {s u w : State} {id va mark : Nat} {j : Job} {bs : List Byte} {bad : List Bool} {ok : List (Elem × Nat)}
    (hu : u = s.cachePages j.eng (jobOwner id) j.slot .write (pagesOf va bs.length))
    (hok : bs.zipIdx.map (fun b => u.writeTarget j.eng j.slot 0 (va + b.2)) = ok.map (fun x => Except.ok x.2))
    (hel : ok.map Prod.fst = bs.zipIdx.map (fun b => ({ lane := 0, j := 0, va := some (va + b.2), val := b.1.toNat } : Elem)))
    (hw : w = u.engineRecs (copyLog j.yard) j.slot j.task none (id + 1) (((bad.zipIdx.filter Prod.fst).map (fun b => (va + b.2) / 32)).eraseDups) (piecesOf 1 ok)) :
    s.collWrite id j va mark bs bad = { w with jobs := Table.put w.jobs id { j with moved := j.moved.filter (fun m => decide (m.1 ≠ mark)) ++ [(mark, (w.log (copyLog j.yard)).tail)] } } := by
  subst hu hw
  simp only [State.collWrite]
  rw [findSome?_map_ok hok (fun _ _ => rfl), filterMap_map_ok (fun _ _ => rfl) hok hel]

/-! ### A collective's steps -/

section
variable {s : State} {id : Nat} {j : Job}

theorem State.collStep_held (h : s.collRuns j = false) : s.collStep id j = s := by
  simp only [State.collStep, h, Bool.not_false, if_true]

/-- A collective that runs sends its own, writes its result, and ends. -/
theorem State.collStep_runs (h : s.collRuns j = true) : s.collStep id j =
    if !j.sentOwn then s.collSend id j
    else if j.moved.any (fun m => decide (m.1 = coN j.desc)) then (if s.chunkFolded j (coN j.desc) then (s.dropFeet j).endJob id j else s.jobReads j)
    else if (coNeeds j.desc).all (fun r => j.done.contains r && s.chunkFolded j r) then s.collResult id j
    else s.jobReads j := by
  simp only [State.collStep, h, Bool.not_true, Bool.false_eq_true, if_false]

variable {r : Nat} {bs : List Byte} {pois : Bool}

theorem State.collPlace_missized (hm : j.moved.any (fun m => decide (m.1 = r)) = false) (hl : bs.length ≠ coBytes j.desc) : s.collPlace id j r bs pois = s := by
  simp only [State.collPlace, hm, hl, Bool.false_eq_true, if_false]

/-- A contribution placed whose bit cannot be set yet, or is set. -/
theorem State.collPlace_waits (hm : j.moved.any (fun m => decide (m.1 = r)) = true) (h : s.chunkFolded j r = false ∨ j.done.contains r = true) : s.collPlace id j r bs pois = s := by
  have hno : (s.chunkFolded j r && !j.done.contains r) = false := by
    rcases h with h | h <;> simp only [h, Bool.false_and, Bool.not_true, Bool.and_false]
  simp only [State.collPlace, hm, hno, if_true, Bool.false_eq_true, if_false]

theorem State.collPlace_places {u : State} {a : Nat} (hm : j.moved.any (fun m => decide (m.1 = r)) = false) (hl : bs.length = coBytes j.desc) (ha : a = coLand j.desc + 128 + r * coBytes j.desc)
    (hu : u = s.cachePages j.eng (jobOwner id) j.slot .write (pagesOf a bs.length)) (hw : u.readsWait id j (u.walksFor id j (pagesOf a bs.length)) = none) :
    s.collPlace id j r bs pois = (u.dropTrips (jobOwner id)).collWrite id j a r bs (List.replicate bs.length pois) := by
  subst ha hu
  simp only [State.collPlace, hm, hl, Bool.false_eq_true, if_false, if_true] at hw ⊢
  simp only [hw]

theorem State.collPlace_sets {u : State} {a v : Nat} {g : Option Nat} (hm : j.moved.any (fun m => decide (m.1 = r)) = true) (hf : s.chunkFolded j r = true) (hd : j.done.contains r = false)
    (ha : a = coLand j.desc + r / 8) (hu : u = s.cachePages j.eng (jobOwner id) j.slot .read [a]) (hr : u.readGlobal id j a 1 = .ok v g) :
    s.collPlace id j r bs pois = (u.dropTrips (jobOwner id)).collWrite id { j with done := j.done ++ [r] } a r
      [BitVec.ofNat 8 ((j.done ++ [r]).foldl (fun v q => if q / 8 = r / 8 then v ||| 2 ^ (q % 8) else v) v)] [] := by
  subst ha hu
  simp only [State.collPlace, hm, hf, hd, hr, State.readsWait_ok, Bool.not_false, Bool.and_self, if_true]

end

/-- A contribution fits a job as rank `c.rank` if it has arrived at the job's engine, for the job's own rank, with the job's size. -/
theorem Contrib.fits_iff (j : Job) (c : Contrib) : c.fits j c.rank = true ↔ c.deliv = true ∧ c.yard = j.yard ∧ c.member = coRank j.desc ∧ c.data.length = coBytes j.desc := by
  simp [Contrib.fits, and_assoc]

end Sys2Proof.Machine
end

section
/-! ### Jobs, programs and continuations settled (R43, R105, R106, R128, R278, R279, R281-R283, R286, R287, R437, R438) -/

set_option Elab.async false

namespace Sys2Proof.Machine

/-- What a program that is collected returns to its task, or spends for it. -/
theorem Task.collected_accounts (k : Task) {n : Nat} (h : n ≤ k.rsv) : (k.collected n).rsv + n = k.rsv ∧ (k.collected n).outstanding = k.outstanding - 1 ∧
    (k.state ≠ .unwinding → (k.collected n).alw = k.alw + n ∧ (k.collected n).spent = k.spent) ∧ (k.state = .unwinding → (k.collected n).alw = k.alw ∧ (k.collected n).spent = k.spent + n) := by
  unfold Task.collected
  by_cases hu : k.state = .unwinding
  · rw [if_pos hu]
    exact ⟨Nat.sub_add_cancel h, rfl, fun hn => absurd hu hn, fun _ => ⟨rfl, rfl⟩⟩
  · rw [if_neg hu]
    exact ⟨Nat.sub_add_cancel h, rfl, fun _ => ⟨rfl, rfl⟩, fun hn => absurd hn hu⟩

/-- A train that is started on a core of a task: what it finds there, where the core has a free slot. -/
theorem State.addTrain_starts (s : State) (c : Nat) (f : Nat → Nat → Train) : s.freeTrainSlot c = none ∨
    ∃ n tr, s.train c n = none ∧ (s.addTrain c f).train c n = some tr ∧ tr = f s.nextId (s.log c).tail := by
  cases h : s.freeTrainSlot c with
  | none => exact .inl rfl
  | some n => exact .inr ⟨n, _, State.train_freeTrainSlot h, State.train_addTrain f h, rfl⟩

theorem continuationFire_leaves {s : State} {c i : Nat} {x : Cont} {k : Task} (hc : s.ev.x = c) (hi : s.ev.y = i) (hx : (s.core c).conts[i]? = some x) (hk : s.task x.task = some k)
    (hr : x.ready = true) (hh : k.held = true) (hs : k.issues = true) (hp : s.pctlState k.slot = 2) (hf : s.roomFor c k = true) :
    ∃ t k', exec .continuationFire s = .next t ∧ (t.core c).conts = (s.core c).conts.eraseIdx i ∧ t.task x.task = some k' ∧ k'.outstanding = k.outstanding - 1 ∧ k'.live = k.live + 1 ∧ t.mem = s.mem ∧
      (s.freeTrainSlot c = none ∨ ∃ n tr, s.train c n = none ∧ t.train c n = some tr ∧ tr.task = x.task ∧ tr.member = false ∧ tr.getS 1 = x.arg ∧ tr.portions = [(0, { pc := x.entry })] ∧ tr.lcb = k.lcb ∧ tr.b = x.b) := by
  have hrun := execContinuationFire_starts hc hi hx hk hr hh hs hp hf
  generalize hu : (s.setCore c { s.core c with conts := (s.core c).conts.eraseIdx i }).setTask x.task { k with outstanding := k.outstanding - 1, live := k.live + 1 } = u at hrun
  generalize hg : (fun id mark => { startingTrain k x.task x.index id mark x.arg (BitVec.ofNat 64 x.index) 0 x.b x.entry k.lcb with member := false } : Nat → Nat → Train) = f at hrun
  have hcore : (u.core c).conts = (s.core c).conts.eraseIdx i := by rw [← hu]; exact congrArg Core.conts (State.core_setCore _ _ _)
  have htask : u.task x.task = some { k with outstanding := k.outstanding - 1, live := k.live + 1 } := by rw [← hu]; exact State.task_setTask _ _ _
  have hslot : u.freeTrainSlot c = s.freeTrainSlot c := State.freeTrainSlot_congr c (by rw [← hu]; rfl) (by rw [← hu]; rfl)
  have hmem : u.mem = s.mem := by rw [← hu]; rfl
  have htrain : ∀ n, u.train c n = s.train c n := fun n => by rw [← hu]; rfl
  obtain ⟨ts, n, m, hframe⟩ := u.addTrain_frame c f
  refine ⟨_, _, hrun, by rw [hframe]; exact hcore, by rw [hframe]; exact htask, rfl, rfl, by rw [hframe]; exact hmem, ?_⟩
  rcases u.addTrain_starts c f with h | ⟨n, tr, hfree, htr, hstart⟩
  · exact .inl (hslot ▸ h)
  · subst hg
    rw [hstart] at htr
    exact .inr ⟨n, _, htrain n ▸ hfree, htr, rfl, rfl,
      startingTrain_getS_one k x.task x.index u.nextId (u.log c).tail x.arg (BitVec.ofNat 64 x.index) 0 x.b x.entry k.lcb, rfl, rfl, rfl⟩

/-- A chunk in the scratchpad, once moved. -/
theorem State.moveChunk_pad {s u : State} {id : Nat} {j : Job} {c core : Nat} {rs ws : List (Nat × ERead)} (hu : Claims.chunkReads s id j c = (u, rs, ws)) (hf : firstFault (rs ++ ws) = none)
    (hr : farReads (rs ++ ws) = []) (hp : j.toPad = true) (hc : j.core = some core) : ∃ k, Table.find (s.moveChunk id j c).jobs id = some k ∧ k.moved = j.moved ++ [(c, 0)] ∧ k.done = j.done ∧
      (s.moveChunk id j c).scratch core j.task = (u.scratch core j.task).fill (loE j.desc) (Claims.chunkWrites j rs) ∧ (s.moveChunk id j c).mem = u.mem ∧ (s.moveChunk id j c).logs = u.logs := by
  obtain ⟨p, b, hmove⟩ := State.moveChunk_moves hu (State.readsWait_none hf hr)
  rw [hmove, State.putChunk_pad (j := { j with poisoned := p, oobz := b }) hp hc rfl]
  exact ⟨_, Table.find_put_same _ _ _, rfl, rfl, State.scratch_setScratch _, rfl, rfl⟩

/-- A chunk in global memory, once moved. -/
theorem State.moveChunk_log {s u v : State} {id : Nat} {j : Job} {c : Nat} {rs ws : List (Nat × ERead)} {ok : List (Elem × Nat)} (hu : Claims.chunkReads s id j c = (u, rs, ws))
    (hf : firstFault (rs ++ ws) = none) (hr : farReads (rs ++ ws) = []) (hp : j.toPad = false) (hv : v = u.dropTrips (jobOwner id)) (hok : v.placesChunk j (Claims.chunkWrites j rs) ok) :
    ∃ k w, w = v.engineRecs (copyLog j.yard) j.slot j.task j.counted (id + 1) (((Claims.chunkWrites j rs).filter (fun w => w.2.2)).map (fun w => w.1 / 32)) (piecesOf (loE j.desc) ok) ∧
      Table.find (s.moveChunk id j c).jobs id = some k ∧ k.moved = j.moved ++ [(c, (w.log (copyLog j.yard)).tail)] ∧ k.done = j.done ∧ (s.moveChunk id j c).logs = w.logs ∧ (s.moveChunk id j c).mem = w.mem := by
  subst hv
  obtain ⟨p, b, hmove⟩ := State.moveChunk_moves hu (State.readsWait_none hf hr)
  rw [hmove, State.putChunk_log (j := { j with poisoned := p, oobz := b }) hp hok rfl]
  exact ⟨_, _, rfl, Table.find_put_same _ _ _, rfl, rfl, rfl, rfl⟩

/-- An MXFORK that waited, once its pair is free. -/
theorem mxforkAccept_queues {s u : State} {o : Portion} {a : BitVec 6} {c : Cur} {bs : List Byte} (ho : (s.train s.ev.x s.ev.y).bind (fun t => t.portion s.ev.z) = some o) (hw : o.wait = .mxfork a)
    (hr : s.running s.ev.x = none) (hu : u = { s with focus := { core := s.ev.x, slot := s.ev.y, portion := s.ev.z } }.modPortion (fun o => { o with wait := .none })) (hc : c.core = s.ev.x)
    (heven : c.core % 2 = 0) (hA : fmtA c.o.fmt ≠ 0) (hB : fmtB c.o.fmt ≠ 0) (hlevel : u.level ≠ 1) (hsize : u.resizes c.core c.t.task = false)
    (hread : u.headerRead c (c.t.getS a.toNat).toNat = some (.ok bs)) (hready : u.ready c (forkNeeds a (mxBound bs))) (hagain : c.o.again = .no) :
    ∃ t m, exec .mxforkAccept s = .next t ∧ (t.pairOf c.core).progs = (s.pairOf c.core).progs ++ [m] ∧ m.task = c.t.task ∧ m.va = (c.t.getS a.toNat).toNat ∧ m.fmt = c.o.fmt ∧
      m.bound = mxBound bs ∧ m.ended = false ∧ t.mem = s.mem := by
  have hpairs : u.pairs = s.pairs := by rw [hu]; rfl
  have hmem : u.mem = s.mem := by rw [hu]; rfl
  have hpair : u.pairOf c.core = s.pairOf c.core := by simp only [State.pairOf, hpairs]
  have hfree : u.running c.core = none := by rw [State.running, hpair, hc]; exact hr
  have hrun := execMxfork_accepts heven hA hB hread hlevel hsize hfree hready hagain
  generalize hv : u.leaves c (forkNeeds a (mxBound bs)) keep keep = v at hrun
  have hvmem : v.mem = s.mem := by rw [← hv]; exact hmem
  have hvpair : v.pairOf c.core = s.pairOf c.core := by rw [← hv]; exact hpair
  obtain ⟨m, hprogs, htask, hva, hfmt, hbound, hend⟩ := v.forkAccept_progs c a bs
  rw [hvpair] at hprogs
  refine ⟨v.forkAccept c a bs, m, ?_, hprogs, htask, hva, hfmt, hbound, hend, (v.forkAccept_mem c a bs).trans hvmem⟩
  rw [execMxforkAccept_free ho hw hr, ← hu, hrun]

/-- A program that ended after its task's trains, collected. -/
theorem programAutoCollect_returns {s : State} {l : Nat} {m : MxProg} {k : Task} (hx : s.ev.x = l) (hp : (s.pairOf l).progs = [m]) (hm : m.active = false) (hk : s.task m.task = some k) (hl : k.live = 0)
    (hr : m.bound - m.used ≤ k.rsv) :
    ∃ t k', exec .programAutoCollect s = .next t ∧ (t.pairOf l).progs = [] ∧ t.task m.task = some k' ∧ k'.rsv + (m.bound - m.used) = k.rsv ∧ k'.outstanding = k.outstanding - 1 ∧
      (k.state ≠ .unwinding → k'.alw = k.alw + (m.bound - m.used) ∧ k'.spent = k.spent) ∧ (k.state = .unwinding → k'.alw = k.alw ∧ k'.spent = k.spent + (m.bound - m.used)) := by
  obtain ⟨hprogs, y, htask⟩ := State.collect_only hp hk
  obtain ⟨hrsv, hout, hback, hspent⟩ := k.collected_accounts hr
  exact ⟨_, _, execProgramAutoCollect_collects hx hp hm hk hl, hprogs, htask, hrsv, hout, hback, hspent⟩

end Sys2Proof.Machine

namespace Sys2Proof.Proofs

open Sys2Proof.Machine

/-- Settles O49: each step of a job, a program or a continuation by the lemma that says what it does, and the effects they call on by their equations. -/
theorem jobsAndPrograms : Obligations.JobsAndPrograms := by
  unfold Obligations.JobsAndPrograms
  refine ⟨fun s id j hx hj => ⟨fun hm hc => ?startCopy, fun hm hc i hi => ?startCollective, fun hm => ?startHeld, fun hc hok hgo hn hnew hd hs => ⟨fun hm => ?chunkMoved, fun hm hcut => ?chunkMoves⟩, fun h => ?endFailed, fun h hc => ?goesOn, fun h hc hcut hd => ?cutStep,
      fun h hc hgo hcut hall => ⟨fun hst => ?endCopy, fun hst => ?endStep⟩, fun r hr hlt hne => ⟨fun hrun => ?memberHeld, fun hrun hm => ?memberPlaced, fun hrun hm => ⟨fun hz => ?memberOutside, fun n c hz hc => ?memberNear⟩⟩, ?deadline⟩,
    fun s l m hx hm hl hj hn he hh => execCopyStep_begins hx hm hl hj hn he hh,
    fun s l m k hx hp hm hk hl _ hr => programAutoCollect_returns hx hp hm hk hl hr,
    fun s o a ho hw => ⟨execMxforkAccept_free ho hw, execMxforkAccept_busy ho hw⟩,
    fun s u o a c bs q ho hw hr hu hc heven hA hB hlevel hsize hread hq hready hagain => mxforkAccept_queues ho hw hr hu hc heven hA hB hlevel hsize hread (by subst hq; exact hready) hagain,
    fun s c i x k hc hi hx hk hr hh hs hp hf => continuationFire_leaves hc hi hx hk hr hh hs hp hf,
    fun s u id j c rs ws hu => ⟨fun code hf hd => State.moveChunk_waits hu (State.readsWait_fault hf hd), fun code pa hf hd => State.moveChunk_waits hu (State.readsWait_denied hf hd),
      fun hf hr => State.moveChunk_waits hu (State.readsWait_far hf hr), fun hf hr hp core hc => State.moveChunk_pad hu hf hr hp hc,
      fun hf hr hp ok v hv hok hel => State.moveChunk_log hu hf hr hp hv ⟨hok, hel⟩⟩,
    fun s u id j c hu => ⟨fun h => ?chunkCard, fun core h => ⟨fun hs => ?chunkStep, fun hs x hx => ?chunkBit⟩⟩,
    fun s j core hc hf hl => State.dropFeet_bare hc hf hl,
    fun s id c j k hjobs hq hn hs hc hk hpad => State.endJob_leaves hjobs hq hn hs hc hk hpad,
    fun s id j h => State.endJob_card h,
    fun s id l j r pid i close hjobs hst => ⟨State.cutStep_leaves hjobs hst, fun ring pad hring hpad => ?stepLeaves⟩,
    fun s id j => ⟨State.collStep_held, fun hrun => ⟨fun ho => ?collSends, fun ho hm => ?collEnds, fun ho hm => ?collResult⟩⟩,
    fun s id r j bs pois a => ⟨State.collPlace_missized, State.collPlace_waits, fun u hm hl ha hu hw => State.collPlace_places hm hl ha hu hw,
      fun u v g hm hf hd ha hu hr => State.collPlace_sets hm hf hd ha hu hr⟩,
    fun s u w id va mark j bs bad ok hu hok hel hw => ?collWrite,
    fun s id y r j bs pois => ⟨_, Table.find_put_same _ _ _, rfl, rfl, rfl, rfl, rfl, rfl⟩,
    fun j c => Contrib.fits_iff j c,
    fun bs cs => ⟨fun h => ?copied, fun h => ?rootCopied, fun h => ?reduced⟩⟩
  case startCopy => rw [execJobStart_eq hx hj, hm, hc]; rfl
  case startCollective => subst hi; rw [execJobStart_eq hx hj, hm, hc]; rfl
  case startHeld => rw [execJobStart_eq hx hj, hm]; rfl
  case chunkMoved => rw [execCopyChunkComplete_eq hx hj hc hok hgo hn hnew hd hs, if_pos hm]
  case chunkMoves => rw [execCopyChunkComplete_eq hx hj hc hok hgo hn hnew hd hs, hm, hcut]; rfl
  case endFailed => rw [execJobComplete_eq hx hj, if_pos h]
  case goesOn => rw [execJobComplete_eq hx hj, if_neg (not_not.mpr h), if_pos hc]
  case cutStep => rw [execJobComplete_eq hx hj, if_neg (not_not.mpr h), hc, hcut, hd]; rfl
  case endCopy => rw [execJobComplete_eq hx hj, if_neg (not_not.mpr h), hc, hcut, hgo, hall, hst]; rfl
  case endStep => rw [execJobComplete_eq hx hj, if_neg (not_not.mpr h), hc, hcut, hgo, hall, hst]; rfl
  case memberHeld => exact execCollectiveContribution_held hx hj hrun
  case memberPlaced => subst hr; exact execCollectiveContribution_placed hx hj hlt hne hrun hm
  case memberOutside => subst hr; exact execCollectiveContribution_outside hx hj hlt hne hrun hm hz
  case memberNear => subst hr; exact execCollectiveContribution_near hx hj hlt hne hrun hm hz hc
  case deadline => exact fun hc hgo hok ht hr => execCollectiveDeadline_passed hx hj hc hgo hok ht hr
  case chunkCard => subst hu; exact State.chunkDone_card h
  case chunkStep => subst hu; exact State.chunkDone_step h hs
  case chunkBit => subst hx; exact State.chunkDone_bit h hs (hu ▸ rfl)
  case stepLeaves => subst hpad; exact State.endStep_leaves hst hjobs hring
  case collSends => rw [State.collStep_runs hrun, ho]; rfl
  case collEnds => rw [State.collStep_runs hrun, ho, hm]; rfl
  case collResult => rw [State.collStep_runs hrun, ho, hm]; rfl
  case collWrite => rw [State.collWrite_log hu hok hel hw]; exact ⟨rfl, rfl, Table.find_put_same _ _ _⟩
  case copied => simp only [coValue, h, if_true]
  case rootCopied => simp only [coValue, h, if_true]; rfl
  case reduced => simp only [coValue, h, if_true]; rfl

end Sys2Proof.Proofs
end

section
/-! ### The switch of a link group (R39-R43, R62) -/

set_option Elab.async false

namespace Sys2Proof.Machine

/-! ### Groups and their states -/

section
variable (s : State) (g : Nat)

@[simp] theorem State.group_setGroup (k : Group) : (s.setGroup g k).group g = k := by simp [State.group, State.setGroup]

theorem State.group_setGroup_other {x : Nat} (k : Group) (h : x ≠ g) : (s.setGroup g k).group x = s.group x := by simp [State.group, State.setGroup, Table.find_put_other _ _ _ _ h]

theorem State.regBits_setGroup (k : Group) (o lo n : Nat) : (s.setGroup g k).regBits o lo n = s.regBits o lo n := by
  simp only [State.regBits, State.reg, State.setGroup_bar]

/-- A register's field is no part of the groups or of the active windows. -/
theorem State.group_setRegBits (off lo n v x : Nat) : (s.setRegBits off lo n v).group x = s.group x := by
  simp only [State.setRegBits, State.setReg, State.group]

theorem State.lwdAct_setRegBits (off lo n v : Nat) : (s.setRegBits off lo n v).lwdAct = s.lwdAct := by
  simp only [State.setRegBits, State.setReg]

theorem State.time_setReg (off : Nat) (v : W64) : (s.setReg off v).time = s.time := by
  simp only [State.setReg]

theorem State.time_setRegBits (off lo n v : Nat) : (s.setRegBits off lo n v).time = s.time := State.time_setReg s _ _

@[simp] theorem State.group_enterGroup (st : Nat) : (s.enterGroup g st).group g = { s.group g with since := s.time } := State.group_setGroup _ g _

theorem State.groupState_enterGroup {st : Nat} (hs : Table.sorted s.bar = true) (h : st < 8) : (s.enterGroup g st).groupState g = st := by
  rw [State.groupState, State.enterGroup, State.regBits_setGroup, State.regBits_setRegBits_same _ _ _ _ _ hs (by decide)]
  exact Nat.mod_eq_of_lt h

/-- The fields of LGSTAT beside its state stay where a group enters a state. -/
theorem State.regBits_enterGroup_beside (st lo n : Nat) (hs : Table.sorted s.bar = true) (h : lo + n ≤ 16 ∨ 19 ≤ lo) : (s.enterGroup g st).regBits (lgstatOff g) lo n = s.regBits (lgstatOff g) lo n := by
  rw [State.enterGroup, State.regBits_setGroup, State.regBits_setRegBits_beside _ _ _ _ _ _ _ hs (by decide) h]

/-- The first error of a sequence is noted and shown (R42). -/
theorem State.groupErr_first {e : Nat} (h : (s.group g).err = 0) : s.groupErr g e = (s.setGroup g { s.group g with err := e }).setRegBits (lgstatOff g) 24 8 e := if_pos h

theorem State.groupErr_later {e : Nat} (h : (s.group g).err ≠ 0) : s.groupErr g e = s := if_neg h

end

/-! ### LGCTL_GO (R39-R41) -/

/-- What an accepted GO makes of a group. -/
def State.goGroup (s : State) (g : Nat) : State :=
  let u := (s.setReg (lgctlOff g) (s.ev.val &&& 0x302)).setRegBits (lgstatOff g) 24 8 0
  u.setGroup g { u.group g with target := bits s.ev.val 8 2, remapOnly := s.ev.val.getLsbD 1, began := u.time, quiesced := decide (s.groupState g = 1), err := 0, named := [] }

theorem State.goGroup_frame (s : State) (g : Nat) : ∃ b gs, s.goGroup g = { s with bar := b, groups := gs } := by
  obtain ⟨b, h⟩ := (s.setReg (lgctlOff g) (s.ev.val &&& 0x302)).setRegBits_frame (lgstatOff g) 24 8 0
  simp only [State.goGroup, h]
  exact ⟨_, _, rfl⟩

theorem State.group_goGroup (s : State) (g : Nat) : ((s.goGroup g).group g).target = bits s.ev.val 8 2 ∧ ((s.goGroup g).group g).remapOnly = s.ev.val.getLsbD 1 ∧
    ((s.goGroup g).group g).quiesced = decide (s.groupState g = 1) ∧ ((s.goGroup g).group g).began = s.time := by
  simp only [State.goGroup, State.group_setGroup, State.time_setRegBits, State.time_setReg, and_self]

theorem State.sorted_goGroup (s : State) (g : Nat) (hs : Table.sorted s.bar = true) : Table.sorted (s.goGroup g).bar = true := by
  simp only [State.goGroup, State.setGroup_bar]
  exact State.sorted_setRegBits _ _ _ _ _ (State.sorted_setReg _ _ _ hs)

/-- The group as its switch starts. -/
theorem State.goGroup_switches {s : State} {g st : Nat} (hs : Table.sorted s.bar = true) (hst : st < 8) {t : State} (ht : t = (s.goGroup g).enterGroup g st) : t.groupState g = st ∧
    (t.group g).target = bits s.ev.val 8 2 ∧ (t.group g).remapOnly = s.ev.val.getLsbD 1 ∧ (t.group g).quiesced = decide (s.groupState g = 1) ∧ (t.group g).began = s.time ∧ (t.group g).since = s.time ∧
    t.outbound = s.outbound ∧ t.lwdAct = s.lwdAct ∧ t.mem = s.mem := by
  subst ht
  obtain ⟨htarget, hrmo, hquiesced, hbegan⟩ := s.group_goGroup g
  have hstate := State.groupState_enterGroup (s.goGroup g) g (s.sorted_goGroup g hs) hst
  rw [State.group_enterGroup]
  refine ⟨hstate, htarget, hrmo, hquiesced, hbegan, ?_⟩
  obtain ⟨b, gs, h⟩ := s.goGroup_frame g
  obtain ⟨b', h'⟩ := (s.goGroup g).setRegBits_frame (lgstatOff g) 16 3 st
  rw [State.enterGroup, h', h]
  exact ⟨rfl, rfl, rfl, rfl⟩

section
variable {s : State} {g : Nat} (hx : s.ev.x = g) (hg : g < 16) (ha : Claims.accepts s (lgctlOff g)) (hgo : s.ev.val.getLsbD 0 = true)
include hx hg ha hgo

theorem execLgctlGo_eq : exec .lgctlGo s = .next (
    if s.groupState g ≠ 0 ∧ s.groupState g ≠ 1 then s.setRegBits (lgstatOff g) 24 8 1
    else if (!s.ev.val.getLsbD 1) = true ∧ bits s.ev.val 8 2 = s.groupPers g then s.setRegBits (lgstatOff g) 24 8 2
    else (s.goGroup g).enterGroup g (if s.groupState g = 1 then 2 else if bits s.ev.val 8 2 ≠ 0 then 4 else 5)) := by
  show execLgctlGo s = _
  subst hx
  simp only [execLgctlGo, Nat.not_le.mpr hg, if_false, State.regWrite_accepted _ ha, hgo, Bool.not_true, Bool.false_eq_true, State.goGroup]

/-- A GO write to an idle group that changes something starts its switch. -/
theorem execLgctlGo_starts (hi : s.groupState g = 0 ∨ s.groupState g = 1) (hn : s.ev.val.getLsbD 1 = true ∨ bits s.ev.val 8 2 ≠ s.groupPers g) :
    exec .lgctlGo s = .next ((s.goGroup g).enterGroup g (if s.groupState g = 1 then 2 else if bits s.ev.val 8 2 ≠ 0 then 4 else 5)) := by
  have hidle : ¬ (s.groupState g ≠ 0 ∧ s.groupState g ≠ 1) := by omega
  have hnew : ¬ ((!s.ev.val.getLsbD 1) = true ∧ bits s.ev.val 8 2 = s.groupPers g) := by
    rintro ⟨h, h'⟩
    rcases hn with hn | hn
    · rw [hn] at h; cases h
    · exact hn h'
  rw [execLgctlGo_eq hx hg ha hgo, if_neg hidle, if_neg hnew]

end

/-! ### QUIESCING, FENCED and RETRAIN (R41-R43, R62) -/

section
variable {s : State} {g : Nat} (hx : s.ev.x = g)
include hx

theorem execDrainComplete_drained (hs : s.groupState g = 2) (hu : s.unanswered g = []) (hin : ∀ e ∈ s.inbound, e.2.group ≠ some g) : exec .drainComplete s = .next (s.enterGroup g 3) := by
  show execDrainComplete s = _
  subst hx
  have hall : s.inbound.all (fun e => decide (e.2.group ≠ some s.ev.x)) = true := by simpa using fun a b h => hin (a, b) h
  simp only [execDrainComplete, hs, hu, hall, List.isEmpty_nil, and_self, if_true]

theorem execDrainComplete_waits (h : s.unanswered g ≠ [] ∨ ∃ e ∈ s.inbound, e.2.group = some g) : exec .drainComplete s = .next s := by
  show execDrainComplete s = _
  subst hx
  refine congrArg Host.Outcome.next (if_neg ?_)
  rintro ⟨-, hu, hall⟩
  rcases h with h | ⟨e, he, hgr⟩
  · exact h (List.isEmpty_iff.mp hu)
  · simpa [hgr] using List.all_eq_true.mp hall e he

theorem execQuiesceTimeout_late (hs : s.groupState g = 2) {xs : List (Nat × Outbound)} (hxs : xs = (s.unanswered g).filter (fun e => !e.2.posted)) (hne : xs ≠ []) (ht : 8 * 500000 ≤ s.time - (s.group g).since)
    {u : State} (hu : u = xs.foldl (fun s e => s.outFail e.1 e.2 fLINKTIMEOUT) s) : exec .quiesceTimeout s = .next ((if xs.any (fun e => !e.2.ether) then u.groupErr g 4 else u).enterGroup g 3) := by
  show execQuiesceTimeout s = _
  subst hx hxs hu
  have hsome : (!((s.unanswered s.ev.x).filter (fun e => !e.2.posted)).isEmpty) = true := by simpa using hne
  simp only [execQuiesceTimeout, hs, ht, hsome, and_self, if_true]

theorem execQuiesceTimeout_waits {xs : List (Nat × Outbound)} (hxs : xs = (s.unanswered g).filter (fun e => !e.2.posted)) (h : xs = [] ∨ s.time - (s.group g).since < 8 * 500000) :
    exec .quiesceTimeout s = .next s := by
  show execQuiesceTimeout s = _
  subst hx hxs
  rcases h with h | h
  · simp only [execQuiesceTimeout, h, List.isEmpty_nil, Bool.not_true, Bool.false_eq_true, and_false, if_false]
  · simp only [execQuiesceTimeout, Nat.not_le.mpr h, false_and, and_false, if_false]

/-- With no record at its port that waits to be sent, a fenced group goes on as it stands. -/
theorem execFenceComplete_clear (hs : s.groupState g = 3) (hfar : ∀ i, i < 4 → ∀ r ∈ (s.log (1736 + 4 * g + i)).recs, r.far = true) :
    exec .fenceComplete s = .next (s.enterGroup g (if (s.group g).remapOnly = true ∨ (s.group g).target = 0 then 5 else 4)) := by
  show execFenceComplete s = _
  subst hx
  have hnone : ∀ i, i < 4 → (s.log (1736 + 4 * s.ev.x + i)).recs.filter (fun r => !r.far) = [] := fun i hi => by
    simpa using hfar i hi
  simp only [execFenceComplete, hs, ne_eq, not_true, if_false, List.foldl_cons, List.foldl_nil, hnone 0 (by decide), hnone 1 (by decide), hnone 2 (by decide), hnone 3 (by decide), Bool.or_eq_true,
    decide_eq_true_eq]

theorem execRetrainComplete_trained (hs : s.groupState g = 4) (hd : s.regBits svcstatOff (8 + g / 2) 1 = 0) :
    exec .retrainComplete s = .next ((s.setRegBits (lgstatOff g) 8 2 (s.group g).target).enterGroup g 5) := by
  show execRetrainComplete s = _
  subst hx
  exact congrArg Host.Outcome.next (if_pos ⟨hs, hd⟩)

theorem execRetrainTimeout_fails (hsort : Table.sorted s.bar = true) (hs : s.groupState g = 4) (ht : 8 * 1300000 ≤ s.time - (s.group g).since) (he : (s.group g).err = 0) :
    ∃ t, exec .retrainTimeout s = .next t ∧ t.groupState g = 5 ∧ t.groupPers g = 0 ∧ t.regBits (lgstatOff g) 24 8 = 3 ∧ (t.group g).target = 0 := by
  have hrun : exec .retrainTimeout s = .next (State.enterGroup (State.setGroup ((s.groupErr g 3).setRegBits (lgstatOff g) 8 2 0) g { ((s.groupErr g 3).setRegBits (lgstatOff g) 8 2 0).group g with target := 0 }) g 5) := by
    show execRetrainTimeout s = _
    subst hx
    simp only [execRetrainTimeout, hs, ht, and_self, if_true]
  rw [s.groupErr_first g he] at hrun
  generalize hu : (s.setGroup g { s.group g with err := 3 }).setRegBits (lgstatOff g) 24 8 3 = u at hrun
  have hus : Table.sorted u.bar = true := hu ▸ State.sorted_setRegBits _ _ _ _ _ hsort
  have herr : u.regBits (lgstatOff g) 24 8 = 3 := hu ▸ State.regBits_setRegBits_same _ _ _ _ _ hsort (by decide)
  have hvs : Table.sorted (u.setRegBits (lgstatOff g) 8 2 0).bar = true := State.sorted_setRegBits _ _ _ _ _ hus
  generalize hw : (u.setRegBits (lgstatOff g) 8 2 0).setGroup g _ = w at hrun
  have hws : Table.sorted w.bar = true := hw ▸ hvs
  refine ⟨_, hrun, State.groupState_enterGroup _ _ hws (by decide), ?_, ?_, by rw [State.group_enterGroup, ← hw, State.group_setGroup]⟩
  · rw [State.groupPers, State.regBits_enterGroup_beside _ g 5 8 2 hws (.inl (by decide)), ← hw, State.regBits_setGroup, State.regBits_setRegBits_same _ _ _ _ _ hus (by decide), Nat.zero_mod]
  · rw [State.regBits_enterGroup_beside _ g 5 24 8 hws (.inr (by decide)), ← hw, State.regBits_setGroup, State.regBits_setRegBits_beside _ _ _ _ _ _ _ hus (by decide) (.inr (by decide)), herr]

end
end Sys2Proof.Machine
end

section
/-! ### REMAP: windows installed, held requests sent again (R37, R44, R45) -/

set_option Elab.async false

namespace Sys2Proof.Machine

/-! ### Requests for sectors -/

/-- A request for a sector, which carries no atomic. -/
def Outbound.asksSector (o : Outbound) : Prop := (∃ core key stash, o.reply = .sector core key stash) ∧ o.aop = none

/-- The requests `ids` are sent, no two of them the same, and each one for a sector. -/
def State.sectorsOut (s : State) (ids : List Nat) : Prop := ids.Nodup ∧ ∀ id ∈ ids, id < s.nextId ∧ ∃ o, Table.find s.outbound id = some o ∧ o.asksSector

/-- What sending requests for sectors leaves of the device: its registers, the active windows, and of its groups what their sequences do; what group `g` holds are requests for sectors. -/
structure Asks (g : Nat) (s t : State) : Prop where
  bar : t.bar = s.bar
  act : t.lwdAct = s.lwdAct
  target : ∀ x, (t.group x).target = (s.group x).target
  err : ∀ x, (t.group x).err = (s.group x).err
  held : s.sectorsOut (s.group g).hold → t.sectorsOut (t.group g).hold

/-- Requests stay requests for sectors where only the counter of identifiers rises. -/
theorem State.sectorsOut_mono {s t : State} {ids : List Nat} (hn : s.nextId ≤ t.nextId) (ho : t.outbound = s.outbound) (h : s.sectorsOut ids) : t.sectorsOut ids := by
  obtain ⟨hd, h⟩ := h
  refine ⟨hd, fun id hid => ?_⟩
  obtain ⟨hlt, o, hf, hs⟩ := h id hid
  exact ⟨hlt.trans_le hn, o, by rw [ho, hf], hs⟩

/-- One more request under the next identifier leaves them. -/
theorem State.sectorsOut_put {s t : State} {ids : List Nat} {o : Outbound} (hn : t.nextId = s.nextId + 1) (ho : t.outbound = Table.put s.outbound s.nextId o) (h : s.sectorsOut ids) :
    t.sectorsOut ids := by
  obtain ⟨hd, h⟩ := h
  refine ⟨hd, fun id hid => ?_⟩
  obtain ⟨hlt, p, hf, hs⟩ := h id hid
  exact ⟨by omega, p, by rw [ho, Table.find_put_other _ _ _ _ hlt.ne, hf], hs⟩

/-- And may be one of them, if it asks for a sector. -/
theorem State.sectorsOut_append {s t : State} {ids : List Nat} {o : Outbound} (hn : t.nextId = s.nextId + 1) (ho : t.outbound = Table.put s.outbound s.nextId o) (hs : o.asksSector)
    (h : s.sectorsOut ids) : t.sectorsOut (ids ++ [s.nextId]) := by
  obtain ⟨hd, hout⟩ := State.sectorsOut_put hn ho h
  have hnew : s.nextId ∉ ids := fun hid => (h.2 _ hid).1.ne rfl
  refine ⟨hd.append (List.nodup_singleton _) (by simpa using hnew), fun id hid => ?_⟩
  rcases List.mem_append.mp hid with hid | hid
  · exact hout id hid
  · rw [List.mem_singleton.mp hid]
    exact ⟨by omega, o, by rw [ho, Table.find_put_same], hs⟩

/-- One that has been taken out leaves the others. -/
theorem State.sectorsOut_drop {s : State} {id : Nat} {ids : List Nat} (h : s.sectorsOut (id :: ids)) : State.sectorsOut { s with outbound := Table.drop s.outbound id } ids := by
  obtain ⟨hd, h⟩ := h
  obtain ⟨hnew, hd⟩ := List.nodup_cons.mp hd
  refine ⟨hd, fun x hx => ?_⟩
  obtain ⟨hlt, o, hf, hs⟩ := h x (List.mem_cons_of_mem _ hx)
  have hne : x ≠ id := fun he => hnew (he ▸ hx)
  exact ⟨hlt, o, (Table.find_drop_other _ _ _ hne).trans hf, hs⟩

/-- What a change of a group leaves of it, it leaves of every group. -/
theorem State.setGroup_field {β : Type} {s : State} {x y : Nat} {k : Group} (f : Group → β) (h : f k = f (s.group x)) : f ((s.setGroup x k).group y) = f (s.group y) := by
  by_cases hy : y = x
  · subst hy
    rw [State.group_setGroup, h]
  · rw [State.group_setGroup_other _ _ _ hy]

namespace Asks

variable {g : Nat} {s t u : State}

theorem trans (h : Asks g s t) (h' : Asks g t u) : Asks g s u :=
  ⟨h'.bar.trans h.bar, h'.act.trans h.act, fun x => (h'.target x).trans (h.target x), fun x => (h'.err x).trans (h.err x), fun hs => h'.held (h.held hs)⟩

/-- Where registers, windows, groups and requests are the same. -/
theorem of_eq (hb : t.bar = s.bar) (ha : t.lwdAct = s.lwdAct) (hg : t.groups = s.groups) (hn : s.nextId ≤ t.nextId) (ho : t.outbound = s.outbound) : Asks g s t := by
  have hgroup : ∀ x, t.group x = s.group x := fun x => by simp only [State.group, hg]
  exact ⟨hb, ha, fun x => by rw [hgroup], fun x => by rw [hgroup], fun h => by rw [hgroup]; exact State.sectorsOut_mono hn ho h⟩

theorem refl (s : State) : Asks g s s := of_eq rfl rfl rfl (Nat.le_refl _) rfl

theorem foldl {β : Type} {f : State → β → State} (hf : ∀ u x, Asks g u (f u x)) (xs : List β) (s : State) : Asks g s (xs.foldl f s) :=
  List.foldlRecOn xs f (refl s) (fun u hu x _ => hu.trans (hf u x))

/-- A request for a sector sent under the next identifier. -/
theorem sent {o : Outbound} (s : State) : Asks g s { s with nextId := s.nextId + 1, outbound := Table.put s.outbound s.nextId o } :=
  ⟨rfl, rfl, fun _ => rfl, fun _ => rfl, fun h => State.sectorsOut_put rfl rfl h⟩

/-- A request for a sector held by some group. -/
theorem hold {o : Outbound} (x : Nat) (ho : o.asksSector) (s : State) : Asks g s ({ s with nextId := s.nextId + 1 }.hold x s.nextId o) := by
  have hgroup : ∀ y, ({ s with nextId := s.nextId + 1 }.hold x s.nextId o).group y = (s.setGroup x { s.group x with hold := (s.group x).hold ++ [s.nextId] }).group y := fun _ => rfl
  refine ⟨rfl, rfl, fun y => (congrArg Group.target (hgroup y)).trans (State.setGroup_field Group.target rfl), fun y => (congrArg Group.err (hgroup y)).trans (State.setGroup_field Group.err rfl), fun h => ?_⟩
  rw [hgroup]
  by_cases hx : g = x
  · subst hx
    rw [State.group_setGroup]
    exact State.sectorsOut_append (o := { o with group := some g, held := true }) rfl rfl ho h
  · rw [State.group_setGroup_other _ _ _ hx]
    exact State.sectorsOut_put (o := { o with group := some x, held := true }) rfl rfl h

theorem request (s : State) (src pa len : Nat) (write : Bool) (data : List Byte) (core key : Nat) (stash pois : Bool) : Asks g s (s.request src pa len write none data (.sector core key stash) pois) := by
  unfold State.request
  extract_lets o
  have ho : o.asksSector := ⟨⟨core, key, stash, rfl⟩, rfl⟩
  split
  · split
    · exact hold _ ho s
    · exact sent s
  · exact sent s
  · exact sent s

theorem askSector (s : State) (core key pa : Nat) (stash keep : Bool) : Asks g s (s.askSector core key pa stash keep) := by
  unfold State.askSector
  dsimp only
  split
  · exact refl s
  · split
    · exact of_eq rfl rfl rfl (Nat.le_refl _) rfl
    · exact of_eq rfl rfl rfl (Nat.le_succ _) rfl

theorem sendSector (s : State) (core key pa : Nat) (stash : Bool) : Asks g s (s.sendSector core key pa stash) := by
  unfold State.sendSector
  split
  · exact refl s
  · exact request _ _ _ _ _ _ _ _ _ _

theorem wantSector (s : State) (core key pa : Nat) (stash keep : Bool) : Asks g s (s.wantSector core key pa stash keep) := by
  unfold State.wantSector
  dsimp only
  split
  · exact askSector _ _ _ _ _ _
  · exact (askSector _ _ _ _ _ _).trans (sendSector _ _ _ _ _)

theorem askAgain (s : State) (core : Nat) (view stash : List Nat) : Asks g s (s.askAgain core view stash) := by
  unfold State.askAgain
  extract_lets ask
  have hask : ∀ z u key, Asks g u (ask z u key) := by
    intro z u key
    simp only [ask]
    split
    · exact refl u
    · split
      · split
        · exact wantSector _ _ _ _ _ _
        · exact refl u
      · exact refl u
  exact (foldl (hask false) view s).trans (foldl (hask true) stash _)

/-- Copies of a range invalidated. -/
theorem dropRange (s : State) (lo hi : Nat) : Asks g s (s.dropRange lo hi) := by
  unfold State.dropRange
  extract_lets u inside
  have hu : Asks g s u := of_eq rfl rfl rfl (Nat.le_refl _) rfl
  refine hu.trans (foldl (fun v e => ?_) _ u)
  refine trans ?_ (askAgain _ _ _ _)
  exact of_eq rfl rfl rfl (Nat.le_refl _) rfl

/-- A descriptor noted with the other groups that it waits for. -/
theorem named (s : State) (x n : Nat) : Asks g s (s.setGroup x { s.group x with named := (s.group x).named ++ [n] }) :=
  ⟨rfl, rfl, fun _ => State.setGroup_field Group.target rfl, fun _ => State.setGroup_field Group.err rfl,
    fun h => by
      have hheld : ((s.setGroup x { s.group x with named := (s.group x).named ++ [n] }).group g).hold = (s.group g).hold := State.setGroup_field Group.hold rfl
      rw [hheld]
      exact State.sectorsOut_mono (Nat.le_refl _) rfl h⟩

end Asks

/-! ### Windows installed (R37, R45) -/

/-- The pending copy of a descriptor lies in its two registers. -/
theorem State.pendHalf_congr {s t : State} {n i : Nat} (h : ∀ x < 2, t.reg (lwdOff n x) = s.reg (lwdOff n x)) (hi : i < 2) : t.pendHalf n i = s.pendHalf n i := by
  unfold State.pendHalf State.lwp State.regBits
  rw [h _ hi, h 1 (by decide), h (4 / 64) (by decide)]

theorem State.lwdHalf_congr {s t : State} (h : t.lwdAct = s.lwdAct) (n i : Nat) : t.lwdHalf n i = s.lwdHalf n i := by
  simp only [State.lwdHalf, h]

/-- The active copies with descriptor `n` installed. -/
def State.installed (s : State) (n : Nat) : State := { s with lwdAct := Table.put (Table.put s.lwdAct (2 * n) (s.pendHalf n 0)) (2 * n + 1) (s.pendHalf n 1) }

theorem State.lwdHalf_installed (s : State) (n m : Nat) {i : Nat} (hi : i < 2) : (s.installed n).lwdHalf m i = if m = n then s.pendHalf m i else s.lwdHalf m i := by
  by_cases hm : m = n
  · subst hm
    rw [if_pos rfl]
    interval_cases i
    · rw [State.lwdHalf, State.installed, Table.find_put_other _ _ _ _ (by omega), Nat.add_zero, Table.find_put_same]
      rfl
    · rw [State.lwdHalf, State.installed, Table.find_put_same]
      rfl
  · rw [if_neg hm, State.lwdHalf, State.installed, Table.find_put_other _ _ _ _ (by omega), Table.find_put_other _ _ _ _ (by omega), State.lwdHalf]

/-- Beside that, an installation only asks for sectors. -/
theorem State.installWindow_asks (s : State) (g n : Nat) : ∃ u, u.lwdAct = s.lwdAct ∧ Asks g s u ∧ Asks g (u.installed n) (s.installWindow g n) := by
  unfold State.installWindow
  extract_lets old same others u v
  refine ⟨u, ?_, Asks.foldl (fun w x => Asks.named w x n) _ s, ?_⟩
  · exact List.foldlRecOn (motive := fun (w : State) => w.lwdAct = s.lwdAct) others _ rfl (fun w hw x _ => hw)
  · split
    · exact Asks.refl v
    · exact (Asks.dropRange v _ _).trans (Asks.dropRange _ _ _)

/-- The windows `ns` installed: their active copies are the pending ones, the others stay. -/
theorem State.installWindows_leave (g : Nat) (ns : List Nat) (s : State) : (ns.foldl (fun s n => s.installWindow g n) s).bar = s.bar ∧
    (∀ x, ((ns.foldl (fun s n => s.installWindow g n) s).group x).target = (s.group x).target ∧ ((ns.foldl (fun s n => s.installWindow g n) s).group x).err = (s.group x).err) ∧
    (s.sectorsOut (s.group g).hold → (ns.foldl (fun s n => s.installWindow g n) s).sectorsOut ((ns.foldl (fun s n => s.installWindow g n) s).group g).hold) ∧
    ∀ m i, i < 2 → (ns.foldl (fun s n => s.installWindow g n) s).lwdHalf m i = if m ∈ ns then s.pendHalf m i else s.lwdHalf m i := by
  induction ns generalizing s with
  | nil => exact ⟨rfl, fun _ => ⟨rfl, rfl⟩, id, fun m i _ => rfl⟩
  | cons n ns ih =>
    obtain ⟨u, -, hu, hv⟩ := s.installWindow_asks g n
    obtain ⟨hbar, hgroup, hheld, hact⟩ := ih (s.installWindow g n)
    have hbar' : (s.installWindow g n).bar = s.bar := hv.bar.trans hu.bar
    have hpend : ∀ t : State, t.bar = s.bar → ∀ m i, i < 2 → t.pendHalf m i = s.pendHalf m i := fun t ht m i hi => State.pendHalf_congr (fun _ _ => by simp only [State.reg, ht]) hi
    refine ⟨hbar.trans hbar', fun x => ⟨(hgroup x).1.trans ((hv.target x).trans (hu.target x)), (hgroup x).2.trans ((hv.err x).trans (hu.err x))⟩, fun h => hheld (hv.held (hu.held h)), fun m i hi => ?_⟩
    rw [List.foldl_cons, hact m i hi, hpend _ hbar' m i hi, State.lwdHalf_congr hv.act, State.lwdHalf_installed _ _ _ hi, hpend _ hu.bar m i hi, State.lwdHalf_congr hu.act]
    by_cases hm : m ∈ ns
    · rw [if_pos hm, if_pos (List.mem_cons_of_mem _ hm)]
    · rw [if_neg hm]
      by_cases hn : m = n
      · rw [if_pos hn, if_pos (by rw [hn]; exact List.mem_cons_self)]
      · rw [if_neg hn, if_neg (by simp [hm, hn])]

end Sys2Proof.Machine
end

section
/-! ### REMAP ends, and link groups settled (R37, R39-R45, R62) -/

set_option Elab.async false

namespace Sys2Proof.Machine

/-! ### Held requests for sectors sent again (R44) -/

/-- A request under the next identifier leaves those that are out. -/
theorem State.sectorsOut_request {s : State} {ids : List Nat} (src pa len : Nat) (write : Bool) (aop : Option Nat) (data : List Byte) (reply : OutFor) (pois : Bool) (h : s.sectorsOut ids) :
    (s.request src pa len write aop data reply pois).sectorsOut ids := by
  unfold State.request
  extract_lets o
  split
  · next n _ =>
    split
    · exact State.sectorsOut_put (o := { o with group := some (s.transitionGroup n), held := true }) rfl rfl h
    · exact State.sectorsOut_put rfl rfl h
  · exact State.sectorsOut_put rfl rfl h
  · exact State.sectorsOut_put rfl rfl h

section
variable {s : State} {id : Nat} {o : Outbound}

/-- A request for a sector carries no atomic. -/
theorem Outbound.atom_of_asksSector (h : o.asksSector) : o.atom = none := by
  obtain ⟨⟨core, key, stash, hr⟩, ha⟩ := h
  simp only [Outbound.atom, hr, ha]

/-- Sent again or failed, it leaves the registers, the active windows and the other requests. -/
theorem State.reissue_sector {bad ids : List Nat} (h : s.sectorsOut (id :: ids)) : (s.reissue bad id).bar = s.bar ∧ (s.reissue bad id).lwdAct = s.lwdAct ∧ (s.reissue bad id).sectorsOut ids := by
  have hrest := State.sectorsOut_drop h
  obtain ⟨-, o, hf, hs⟩ := h.2 id List.mem_cons_self
  have hatom := Outbound.atom_of_asksSector hs
  obtain ⟨⟨core, key, stash, hreply⟩, -⟩ := hs
  have hfail : ∀ code, (s.outFail id o code).bar = s.bar ∧ (s.outFail id o code).lwdAct = s.lwdAct ∧ (s.outFail id o code).sectorsOut ids := fun code => by
    rw [State.outFail_sector hreply code]
    exact ⟨rfl, rfl, State.sectorsOut_mono (Nat.le_refl _) rfl hrest⟩
  unfold State.reissue
  rw [hf]
  dsimp only
  split
  · split
    · exact hfail _
    · rw [hatom, hreply]
      have hask := Asks.request (g := 0) { s with outbound := Table.drop s.outbound id } o.src o.pa o.len o.write o.data core key stash o.pois
      exact ⟨hask.bar, hask.act, State.sectorsOut_request _ _ _ _ _ _ _ _ hrest⟩
  · exact hfail _

end

theorem State.reissues_leave {bad : List Nat} (ids : List Nat) {s : State} (h : s.sectorsOut ids) :
    (ids.foldl (fun s id => s.reissue bad id) s).bar = s.bar ∧ (ids.foldl (fun s id => s.reissue bad id) s).lwdAct = s.lwdAct := by
  induction ids generalizing s with
  | nil => exact ⟨rfl, rfl⟩
  | cons id ids ih =>
    obtain ⟨hbar, hact, hrest⟩ := State.reissue_sector (bad := bad) h
    obtain ⟨hbar', hact'⟩ := ih hrest
    exact ⟨hbar'.trans hbar, hact'.trans hact⟩

/-! ### The registers at the end of REMAP (R41, R42) -/

section
variable (s : State) (g : Nat)

/-- The group leaves REMAP for OFF or ACTIVE. -/
def State.remapState : State :=
  if (s.group g).target = 0 then (s.setRegBits (lgstatOff g) 8 2 0).setRegBits (lgstatOff g) 16 3 0 else s.setRegBits (lgstatOff g) 16 3 1

/-- DONE, and how long the sequence took. -/
def State.remapDone (n : Nat) : State := (s.setRegBits (lgstatOff g) 0 1 1).setRegBits (lgstatOff g) 32 32 n

/-- The error of the sequence stays in LGSTAT. -/
def State.remapErr (e : Nat) : State := if e = 0 then s else s.setRegBits (lgstatOff g) 24 8 e

/-- REMAP's end, before the requests that were held are sent again. -/
def State.remapEnds : State :=
  State.setGroup (((s.remapState g).remapDone g (((s.remapState g).time - (s.group g).began) / 8 / 1000)).remapErr g (s.group g).err) g { s.group g with hold := [], named := [], quiesced := false }

/-- All this changes registers and groups only. -/
theorem State.remapState_frame : ∃ b, s.remapState g = { s with bar := b } := by
  unfold State.remapState
  split
  · obtain ⟨b, h⟩ := s.setRegBits_frame (lgstatOff g) 8 2 0
    rw [h]
    exact State.setRegBits_frame _ _ _ _ _
  · exact s.setRegBits_frame _ _ _ _

theorem State.remapDone_frame (n : Nat) : ∃ b, s.remapDone g n = { s with bar := b } := by
  obtain ⟨b, h⟩ := s.setRegBits_frame (lgstatOff g) 0 1 1
  rw [State.remapDone, h]
  exact State.setRegBits_frame _ _ _ _ _

theorem State.remapErr_frame (e : Nat) : ∃ b, s.remapErr g e = { s with bar := b } := by
  unfold State.remapErr
  split
  · exact ⟨s.bar, rfl⟩
  · exact s.setRegBits_frame _ _ _ _

theorem State.remapEnds_frame : ∃ b gs, s.remapEnds g = { s with bar := b, groups := gs } := by
  unfold State.remapEnds
  generalize ((s.remapState g).time - (s.group g).began) / 8 / 1000 = n
  obtain ⟨b, h⟩ := s.remapState_frame g
  obtain ⟨b', h'⟩ := (s.remapState g).remapDone_frame g n
  obtain ⟨b'', h''⟩ := ((s.remapState g).remapDone g n).remapErr_frame g (s.group g).err
  rw [h'', h', h]
  exact ⟨_, _, rfl⟩

variable {s g}

theorem State.regBits_of_bar {t : State} (h : t.bar = s.bar) (o lo n : Nat) : t.regBits o lo n = s.regBits o lo n := by
  simp only [State.regBits, State.reg, h]

variable (hs : Table.sorted s.bar = true)
include hs

theorem State.remapState_leaves : Table.sorted (s.remapState g).bar = true ∧ (s.remapState g).regBits (lgstatOff g) 16 3 = (if (s.group g).target = 0 then 0 else 1) ∧
    (s.remapState g).regBits (lgstatOff g) 24 8 = s.regBits (lgstatOff g) 24 8 := by
  unfold State.remapState
  split
  · have hs' := State.sorted_setRegBits s (lgstatOff g) 8 2 0 hs
    exact ⟨State.sorted_setRegBits _ _ _ _ _ hs', State.regBits_setRegBits_same _ _ _ _ _ hs' (by decide),
      (State.regBits_setRegBits_beside _ _ _ _ _ _ _ hs' (by decide) (.inr (by decide))).trans (State.regBits_setRegBits_beside _ _ _ _ _ _ _ hs (by decide) (.inr (by decide)))⟩
  · exact ⟨State.sorted_setRegBits _ _ _ _ _ hs, State.regBits_setRegBits_same _ _ _ _ _ hs (by decide), State.regBits_setRegBits_beside _ _ _ _ _ _ _ hs (by decide) (.inr (by decide))⟩

theorem State.remapDone_leaves (n : Nat) : Table.sorted (s.remapDone g n).bar = true ∧ (s.remapDone g n).regBits (lgstatOff g) 0 1 = 1 ∧
    ∀ lo k, 1 ≤ lo → lo + k ≤ 32 → (s.remapDone g n).regBits (lgstatOff g) lo k = s.regBits (lgstatOff g) lo k := by
  have hs' := State.sorted_setRegBits s (lgstatOff g) 0 1 1 hs
  refine ⟨State.sorted_setRegBits _ _ _ _ _ hs', ?_, fun lo k hlo hk => ?_⟩
  · exact (State.regBits_setRegBits_beside _ _ _ _ _ _ _ hs' (by decide) (.inl (by decide))).trans (State.regBits_setRegBits_same _ _ _ _ _ hs (by decide))
  · exact (State.regBits_setRegBits_beside _ _ _ _ _ _ _ hs' (by decide) (.inl hk)).trans (State.regBits_setRegBits_beside _ _ _ _ _ _ _ hs (by decide) (.inr hlo))

theorem State.remapErr_leaves (e : Nat) : (s.remapErr g e).regBits (lgstatOff g) 24 8 = (if e = 0 then s.regBits (lgstatOff g) 24 8 else e % 256) ∧
    ∀ lo k, lo + k ≤ 24 → (s.remapErr g e).regBits (lgstatOff g) lo k = s.regBits (lgstatOff g) lo k := by
  unfold State.remapErr
  split
  · exact ⟨rfl, fun _ _ _ => rfl⟩
  · exact ⟨State.regBits_setRegBits_same _ _ _ _ _ hs (by decide), fun lo k h => State.regBits_setRegBits_beside _ _ _ _ _ _ _ hs (by decide) (.inl h)⟩

theorem State.remapEnds_leaves : (s.remapEnds g).groupState g = (if (s.group g).target = 0 then 0 else 1) ∧ (s.remapEnds g).regBits (lgstatOff g) 0 1 = 1 ∧
    (s.remapEnds g).regBits (lgstatOff g) 24 8 = (if (s.group g).err = 0 then s.regBits (lgstatOff g) 24 8 else (s.group g).err % 256) := by
  unfold State.remapEnds
  generalize ((s.remapState g).time - (s.group g).began) / 8 / 1000 = n
  obtain ⟨hs1, hstate, hold⟩ := State.remapState_leaves (g := g) hs
  obtain ⟨hs2, hdone, hbeside⟩ := State.remapDone_leaves (g := g) hs1 n
  obtain ⟨herr, hlow⟩ := State.remapErr_leaves (g := g) hs2 (s.group g).err
  refine ⟨?_, ?_, ?_⟩
  · rw [State.groupState, State.regBits_setGroup, hlow _ _ (by decide), hbeside _ _ (by decide) (by decide), hstate]
  · rw [State.regBits_setGroup, hlow _ _ (by decide), hdone]
  · rw [State.regBits_setGroup, herr, hbeside _ _ (by decide) (by decide), hold]

end

/-! ### REMAP (R41, R44, R45) -/

/-- Before the first installation: the error noted where some windows do not meet R37. -/
def State.remapJudged (s : State) (g : Nat) (ns good : List Nat) : State := if good.length = ns.length then s else s.groupErr g 5

/-- The state once every window that meets R37 is installed. -/
def State.remapInstalls (s : State) (g : Nat) (ns good : List Nat) : State := good.foldl (fun s n => s.installWindow g n) (s.remapJudged g ns good)

/-- REMAP's outcome: the requests that the group held are sent again. -/
def State.remapped (s : State) (g : Nat) (ns good : List Nat) : State :=
  ((s.remapInstalls g ns good).group g).hold.foldl (fun s id => s.reissue (ns.filter (fun n => !good.contains n)) id) ((s.remapInstalls g ns good).remapEnds g)

section
variable {s : State} {g : Nat} {ns good : List Nat} (hx : s.ev.x = g) (hst : s.groupState g = 5) (hns : ns = (List.range 256).filter (fun n => s.lwdNames n g))
  (hgood : good = s.goodWindows 257 (ns.filter (s.windowFits g)))
include hx hst hns hgood

theorem execRemap_waits (hb : good.any s.windowBusy = true) : exec .remap s = .next s := by
  show execRemap s = _
  subst hx hns hgood
  simp only [execRemap, hst, ne_eq, not_true, if_false, hb, if_true]

theorem execRemap_installs (hb : good.any s.windowBusy = false) : exec .remap s = .next (
    ((s.remapInstalls g ns good).group g).hold.foldl (fun s id => s.reissue (ns.filter (fun n => !good.contains n)) id) ((s.remapInstalls g ns good).remapEnds g)) := by
  show execRemap s = _
  subst hx hns hgood
  simp only [execRemap, hst, ne_eq, not_true, if_false, hb, Bool.false_eq_true]
  rfl

end

/-- The windows that REMAP installs are among those it looked at. -/
theorem State.mem_of_mem_goodWindows (s : State) {n fuel : Nat} {ns : List Nat} (h : n ∈ s.goodWindows fuel ns) : n ∈ ns := by
  induction fuel generalizing ns with
  | zero => simp [State.goodWindows] at h
  | succ fuel ih =>
    unfold State.goodWindows at h
    dsimp only at h
    split at h
    · exact h
    · exact (List.mem_filter.mp (ih h)).1

/-- An error noted leaves the windows and what the group holds. -/
theorem State.groupErr_beside (s : State) (g e : Nat) : (s.groupErr g e).lwdAct = s.lwdAct ∧ ((s.groupErr g e).group g).target = (s.group g).target ∧ ((s.groupErr g e).group g).hold = (s.group g).hold := by
  by_cases he : (s.group g).err = 0
  · rw [State.groupErr_first _ _ he, State.lwdAct_setRegBits, State.group_setRegBits, State.group_setGroup]
    exact ⟨rfl, rfl, rfl⟩
  · rw [State.groupErr_later _ _ he]
    exact ⟨rfl, rfl, rfl⟩

theorem State.pendHalf_groupErr (s : State) (g e : Nat) {n i : Nat} (hn : n < 256) (hi : i < 2) : (s.groupErr g e).pendHalf n i = s.pendHalf n i := by
  refine State.pendHalf_congr (fun x hx => ?_) hi
  have hoff : lwdOff n x ≠ lgstatOff g := by unfold lwdOff lgstatOff; omega
  by_cases he : (s.group g).err = 0
  · rw [State.groupErr_first _ _ he, State.reg_setRegBits_other _ _ _ _ _ hoff]
    simp only [State.reg, State.setGroup_bar]
  · rw [State.groupErr_later _ _ he]

/-- The first error of a sequence is the one that it ends with. -/
theorem State.groupErr_shows (s : State) (g : Nat) {e : Nat} (hs : Table.sorted s.bar = true) : Table.sorted (s.groupErr g e).bar = true ∧
    ((s.group g).err = 0 → ((s.groupErr g e).group g).err = e) ∧ ((s.group g).err ≠ 0 → ((s.groupErr g e).group g).err = (s.group g).err) := by
  by_cases he : (s.group g).err = 0
  · rw [State.groupErr_first _ _ he, State.group_setRegBits, State.group_setGroup]
    exact ⟨State.sorted_setRegBits _ _ _ _ _ hs, fun _ => rfl, fun h => absurd he h⟩
  · rw [State.groupErr_later _ _ he]
    exact ⟨hs, fun h => absurd h he, fun _ => rfl⟩

section
variable {s : State} {g : Nat} {ns good : List Nat} (hs : Table.sorted s.bar = true)

theorem State.remapJudged_beside : (s.remapJudged g ns good).lwdAct = s.lwdAct ∧ ((s.remapJudged g ns good).group g).target = (s.group g).target ∧
    ((s.remapJudged g ns good).group g).hold = (s.group g).hold ∧ ∀ n i, n < 256 → i < 2 → (s.remapJudged g ns good).pendHalf n i = s.pendHalf n i := by
  unfold State.remapJudged
  split
  · exact ⟨rfl, rfl, rfl, fun _ _ _ _ => rfl⟩
  · obtain ⟨hact, htarget, hhold⟩ := s.groupErr_beside g 5
    exact ⟨hact, htarget, hhold, fun n i hn hi => s.pendHalf_groupErr g 5 hn hi⟩

include hs in
/-- The error that it shows at its end. -/
theorem State.remapJudged_shows : Table.sorted (s.remapJudged g ns good).bar = true ∧
    (good.length ≠ ns.length → (s.group g).err = 0 → ((s.remapJudged g ns good).group g).err = 5) ∧ ((s.group g).err ≠ 0 → ((s.remapJudged g ns good).group g).err = (s.group g).err) ∧
    (good.length = ns.length → s.remapJudged g ns good = s) := by
  unfold State.remapJudged
  split
  · next h => exact ⟨hs, fun hne => absurd h hne, fun _ => rfl, fun _ => rfl⟩
  · next h =>
    obtain ⟨hsort, hfirst, hlater⟩ := s.groupErr_shows g (e := 5) hs
    exact ⟨hsort, fun _ he => hfirst he, hlater, fun he => absurd he h⟩

variable (hhold : (s.group g).hold = [])

include hs hhold in
/-- What REMAP leaves, read from the state in which every window is installed. -/
theorem State.remapped_reads : ∃ w : State, Table.sorted w.bar = true ∧ (s.remapped g ns good).bar = (w.remapEnds g).bar ∧ (s.remapped g ns good).lwdAct = w.lwdAct ∧ w.bar = (s.remapJudged g ns good).bar ∧
    (w.group g).target = (s.group g).target ∧ (w.group g).err = ((s.remapJudged g ns good).group g).err ∧
    ∀ m i, i < 2 → w.lwdHalf m i = if m ∈ good then (s.remapJudged g ns good).pendHalf m i else (s.remapJudged g ns good).lwdHalf m i := by
  obtain ⟨-, htarget, hkept, -⟩ := s.remapJudged_beside (g := g) (ns := ns) (good := good)
  obtain ⟨hsort, -⟩ := State.remapJudged_shows (g := g) (ns := ns) (good := good) hs
  obtain ⟨hbar, hgroup, hheld, hact⟩ := State.installWindows_leave g good (s.remapJudged g ns good)
  have hout : (s.remapJudged g ns good).sectorsOut ((s.remapJudged g ns good).group g).hold := by
    rw [hkept, hhold]
    exact ⟨List.nodup_nil, fun id h => absurd h List.not_mem_nil⟩
  have hends : ((s.remapInstalls g ns good).remapEnds g).sectorsOut ((s.remapInstalls g ns good).group g).hold := by
    obtain ⟨b, gs, h⟩ := (s.remapInstalls g ns good).remapEnds_frame g
    rw [h]
    exact State.sectorsOut_mono (Nat.le_refl _) rfl (hheld hout)
  obtain ⟨hbar', hact'⟩ := State.reissues_leave (bad := ns.filter (fun n => !good.contains n)) _ hends
  refine ⟨s.remapInstalls g ns good, hbar.symm ▸ hsort, hbar', hact'.trans ?_, hbar, (hgroup g).1.trans htarget, (hgroup g).2, hact⟩
  obtain ⟨b, gs, h⟩ := (s.remapInstalls g ns good).remapEnds_frame g
  rw [h]

include hs hhold in
theorem State.remapped_leaves (hgood : ∀ n ∈ good, n < 256) :
    (s.remapped g ns good).groupState g = (if (s.group g).target = 0 then 0 else 1) ∧ (s.remapped g ns good).regBits (lgstatOff g) 0 1 = 1 ∧
    (∀ n h, h < 2 → n ∈ good → (s.remapped g ns good).lwdHalf n h = s.pendHalf n h) ∧ (∀ n h, h < 2 → n ∉ good → (s.remapped g ns good).lwdHalf n h = s.lwdHalf n h) ∧
    (good.length ≠ ns.length → (s.group g).err = 0 → (s.remapped g ns good).regBits (lgstatOff g) 24 8 = 5) ∧
    ((s.group g).err ≠ 0 → (s.remapped g ns good).regBits (lgstatOff g) 24 8 = (s.group g).err % 256) ∧
    (good.length = ns.length → (s.group g).err = 0 → (s.remapped g ns good).regBits (lgstatOff g) 24 8 = s.regBits (lgstatOff g) 24 8) := by
  obtain ⟨hact, -, -, hpend⟩ := s.remapJudged_beside (g := g) (ns := ns) (good := good)
  obtain ⟨-, hwindow, hfirst, hnone⟩ := State.remapJudged_shows (g := g) (ns := ns) (good := good) hs
  obtain ⟨w, hsort, hbar, hwact, hwbar, htarget, herr, hhalf⟩ := State.remapped_reads (ns := ns) (good := good) hs hhold
  obtain ⟨hstate, hdone, hshown⟩ := State.remapEnds_leaves (g := g) hsort
  have hread := State.regBits_of_bar hbar (lgstatOff g)
  refine ⟨(hread 16 3).trans (hstate.trans (by rw [htarget])), (hread 0 1).trans hdone, fun n h hh hn => ?_, fun n h hh hn => ?_, fun hl he => ?_, fun he => ?_, fun hl he => ?_⟩
  · rw [State.lwdHalf_congr hwact, hhalf n h hh, if_pos hn, hpend n h (hgood n hn) hh]
  · rw [State.lwdHalf_congr hwact, hhalf n h hh, if_neg hn, State.lwdHalf_congr hact]
  · rw [hread, hshown, herr, hwindow hl he]
    rfl
  · rw [hread, hshown, herr, hfirst he, if_neg he]
  · rw [hread, hshown, herr, State.regBits_of_bar hwbar, hnone hl, if_pos he]

end

end Sys2Proof.Machine

namespace Sys2Proof.Proofs

open Sys2Proof.Machine

/-- Settles O40: each stage of the switch by the lemma that says what it does; REMAP's installations leave the registers and ask for sectors only, so its outcome is read from the state in which they are made. -/
theorem linkGroups : Obligations.LinkGroups := by
  unfold Obligations.LinkGroups
  refine ⟨fun s g hs hx hg ha hgo => ⟨fun h0 h1 => ?busy, fun hi hr hp => ?same, fun hi hn => ?starts⟩,
    fun s g hx hst => ⟨fun hu hin => execDrainComplete_drained hx hst hu hin, fun h => execDrainComplete_waits hx h,
      fun xs hxs => ⟨fun hne ht u hu => execQuiesceTimeout_late hx hst hxs hne ht hu, fun h => execQuiesceTimeout_waits hx hxs h⟩⟩,
    fun s g hx hst hfar => execFenceComplete_clear hx hst hfar,
    fun s g hx hst => ⟨fun hd => execRetrainComplete_trained hx hst hd, fun hs ht he => execRetrainTimeout_fails hx hs hst ht he⟩,
    fun s g ns good hs hx hg hst hns hgood => ⟨fun hb => execRemap_waits hx hst hns hgood hb, fun hb hh => ⟨_, execRemap_installs hx hst hns hgood hb, State.remapped_leaves hs hh fun n hn => ?good⟩⟩⟩
  case busy => rw [execLgctlGo_eq hx hg ha hgo, if_pos ⟨h0, h1⟩]
  case same =>
    have hidle : ¬ (s.groupState g ≠ 0 ∧ s.groupState g ≠ 1) := by omega
    rw [execLgctlGo_eq hx hg ha hgo, if_neg hidle, if_pos ⟨by rw [hr]; rfl, hp⟩]
  case starts => exact ⟨_, execLgctlGo_starts hx hg ha hgo hi hn, State.goGroup_switches hs (by split_ifs <;> decide) rfl⟩
  case good =>
    subst hns hgood
    exact List.mem_range.mp (List.mem_filter.mp (List.mem_filter.mp (State.mem_of_mem_goodWindows _ hn)).1).1

end Sys2Proof.Proofs
end

section
/-! ### Claims, the election, handoff, the loss of the owner's path (R56-R58) -/

namespace Sys2Proof.Machine

/-- What the package controller keeps beside the registers does not show in them. -/
@[simp] theorem State.regBits_owner (s : State) (o : Owner) (off lo n : Nat) : State.regBits { s with owner := o } off lo n = s.regBits off lo n := rfl

/-! ### CLAIMGO (R56) -/

section
variable {s : State} {w : Master}

/-- A complete claim of a vacant part waits, with its master's copy of CLAIMKEY, for the end of the interval. -/
theorem State.claim_complete (hw : Sparse.get 0 s.owner.written (masterCode w) = 15) (hvacant : s.regBits ownstatOff 0 2 = 0) :
    s.claim w = { s with owner := { s.owner with
      written := Sparse.set 0 s.owner.written (masterCode w) 0
      claims := s.owner.claims.filter (fun x => decide (x.1 ≠ masterCode w)) ++ [(masterCode w, Claims.keyOf s (masterCode w))]
      interval := s.interval100 } } :=
  if_neg (by simp [hw, hvacant])

/-- A claim that is incomplete, or that finds an owner, sets its master's CLERR. -/
theorem State.claim_refused (h : Sparse.get 0 s.owner.written (masterCode w) ≠ 15 ∨ s.regBits ownstatOff 0 2 ≠ 0) :
    s.claim w = State.setRegBits { s with owner := { s.owner with written := Sparse.set 0 s.owner.written (masterCode w) 0 } } ownstatOff (7 + masterCode w) 1 1 :=
  if_pos (by rcases h with h | h <;> simp [h])

end

/-- An accepted CLAIMGO of 1 is a claim of its master. -/
theorem execClaimgo_claims {s : State} (ha : Claims.accepts s claimgoOff) (hc : masterCode s.ev.who ≠ 0) (hv : s.ev.val = 1) : exec .claimgo s = .next (s.claim s.ev.who) := by
  show Host.Outcome.next (s.regWrite s.ev.who claimgoOff _) = _
  rw [State.regWrite_accepted _ ha, if_pos ⟨hv, hc⟩]

/-! ### The end of an arbitration interval (R56) -/

/-- CLERR set for the master of every claim of a list. -/
def State.refuseClaims (s : State) (cs : List (Nat × BitVec 256)) : State := cs.foldl (fun s x => s.setRegBits ownstatOff (7 + x.1) 1 1) s

theorem State.refuseClaims_cons (s : State) (x : Nat × BitVec 256) (cs : List (Nat × BitVec 256)) :
    s.refuseClaims (x :: cs) = (s.setRegBits ownstatOff (7 + x.1) 1 1).refuseClaims cs := rfl

theorem State.owner_refuseClaims (s : State) (cs : List (Nat × BitVec 256)) : (s.refuseClaims cs).owner = s.owner := by
  induction cs generalizing s with
  | nil => rfl
  | cons x cs ih => exact ih _

theorem State.sorted_refuseClaims {s : State} (cs : List (Nat × BitVec 256)) (hs : Table.sorted s.bar = true) : Table.sorted (s.refuseClaims cs).bar = true := by
  induction cs generalizing s with
  | nil => exact hs
  | cons x cs ih => exact ih (s.sorted_setRegBits _ _ _ _ hs)

section
variable {s : State} {cs : List (Nat × BitVec 256)} (hs : Table.sorted s.bar = true) (hcodes : ∀ x ∈ cs, x.1 ≤ 3)
include hs hcodes

/-- OWNER stays. -/
theorem State.refuseClaims_keeps_owner : (s.refuseClaims cs).regBits ownstatOff 0 2 = s.regBits ownstatOff 0 2 := by
  induction cs generalizing s with
  | nil => rfl
  | cons x cs ih =>
    obtain ⟨hx, hcs⟩ := List.forall_mem_cons.mp hcodes
    rw [State.refuseClaims_cons, ih (s.sorted_setRegBits _ _ _ _ hs) hcs, State.regBits_setRegBits_beside _ _ _ _ _ _ _ hs (by omega) (.inl (by omega))]

/-- CLERR reads 1 for the master of every claim of the list, and for one that had it set before. -/
theorem State.refuseClaims_clerr {c : Nat} (h : s.regBits ownstatOff (7 + c) 1 = 1 ∨ ∃ x ∈ cs, x.1 = c) : (s.refuseClaims cs).regBits ownstatOff (7 + c) 1 = 1 := by
  induction cs generalizing s with
  | nil => simpa [State.refuseClaims] using h
  | cons x cs ih =>
    obtain ⟨hx, hcs⟩ := List.forall_mem_cons.mp hcodes
    rw [State.refuseClaims_cons]
    refine ih (s.sorted_setRegBits _ _ _ _ hs) hcs ?_
    by_cases hxc : x.1 = c
    · subst hxc
      exact .inl (State.regBits_setRegBits_same _ _ _ _ _ hs (by omega))
    · rw [State.regBits_setRegBits_beside _ _ _ _ _ _ _ hs (by omega) (by omega)]
      simpa [hxc] using h

end

/-- The claims that lose to the master of code `c` set CLERR, and no claim waits. -/
def State.loses (s : State) (c : Nat) : State :=
  State.refuseClaims { s with owner := { s.owner with claims := [] } } (s.owner.claims.filter (fun x => decide (x.1 ≠ c)))

/-- As `State.elect` writes it. -/
theorem State.loses_eq_foldl (s : State) (c : Nat) : s.loses c =
    (s.owner.claims.filter (fun x => decide (x.1 ≠ c))).foldl (fun s x => s.setRegBits ownstatOff (7 + x.1) 1 1) { s with owner := { s.owner with claims := [] } } := rfl

theorem State.owner_loses (s : State) (c : Nat) : (s.loses c).owner = { s.owner with claims := [] } := State.owner_refuseClaims _ _

section
variable {s : State} {c : Nat} {key : BitVec 256} (hc : c ≤ 3) (hleast : ∀ x ∈ s.owner.claims, x = (c, key) ∨ (c < x.1 ∧ x.1 ≤ 3))

include hleast

/-- The claim of the least code is the one found. -/
theorem State.find_claim (hmem : (c, key) ∈ s.owner.claims) : s.owner.claims.find? (fun x => decide (x.1 = c)) = some (c, key) := by
  cases hfind : s.owner.claims.find? (fun x => decide (x.1 = c)) with
  | none => exact absurd (decide_eq_true rfl) (List.find?_eq_none.mp hfind _ hmem)
  | some y =>
    have hy : y.1 = c := by simpa using List.find?_some hfind
    rcases hleast y (List.mem_of_find?_eq_some hfind) with rfl | ⟨h, -⟩
    · rfl
    · omega

include hc

/-- And the least code is the one that wins. -/
theorem State.foldl_min_claims (hmem : (c, key) ∈ s.owner.claims) : (s.owner.claims.map Prod.fst).foldl min 4 = c := by
  have hmin : (s.owner.claims.map Prod.fst).min? = some c := by
    refine List.min?_eq_some_iff.mpr ⟨List.mem_map_of_mem hmem, fun b hb => ?_⟩
    obtain ⟨x, hx, rfl⟩ := List.mem_map.mp hb
    rcases hleast x hx with rfl | ⟨h, -⟩
    · exact Nat.le_refl _
    · exact Nat.le_of_lt h
  rw [List.foldl_min, hmin]
  exact Nat.min_eq_right (Nat.le_succ_of_le hc)

theorem State.loser_codes : ∀ x ∈ s.owner.claims.filter (fun x => decide (x.1 ≠ c)), x.1 ≤ 3 := by
  intro x hx
  rcases hleast x (List.mem_of_mem_filter hx) with rfl | ⟨-, h⟩
  · exact hc
  · exact h

variable (hs : Table.sorted s.bar = true)
include hs

theorem State.loses_keeps_owner : (s.loses c).regBits ownstatOff 0 2 = s.regBits ownstatOff 0 2 :=
  State.refuseClaims_keeps_owner (s := { s with owner := { s.owner with claims := [] } }) hs (State.loser_codes hc hleast)

theorem State.loses_clerr {x : Nat × BitVec 256} (hx : x ∈ s.owner.claims) (hne : x.1 ≠ c) : (s.loses c).regBits ownstatOff (7 + x.1) 1 = 1 :=
  State.refuseClaims_clerr (s := { s with owner := { s.owner with claims := [] } }) hs (State.loser_codes hc hleast) (.inr ⟨x, List.mem_filter.mpr ⟨hx, decide_eq_true hne⟩, rfl⟩)

variable (hmem : (c, key) ∈ s.owner.claims) (hvacant : s.regBits ownstatOff 0 2 = 0)
include hmem hvacant

/-- The election in a vacant part: the losers set CLERR, the master of the least code owns the part, and its key hash is kept. -/
theorem State.elect_vacant : s.elect = { (s.loses c).setRegBits ownstatOff 0 2 c with owner := { s.owner with claims := [], keyHash := key } } := by
  simp only [State.elect, State.foldl_min_claims hc hleast hmem, State.find_claim hleast hmem, State.regBits_owner, hvacant, if_pos,
    ← State.loses_eq_foldl, State.loses_keeps_owner hc hleast hs, State.owner_loses]

/-- What the election leaves: the owner, and CLERR of every other claim's master. -/
theorem State.elect_leaves : s.elect.regBits ownstatOff 0 2 = c ∧ s.elect.owner.keyHash = key ∧ s.elect.owner.claims = [] ∧
    (∀ x ∈ s.owner.claims, c < x.1 → s.elect.regBits ownstatOff (7 + x.1) 1 = 1) := by
  have hsorted : Table.sorted (s.loses c).bar = true := State.sorted_refuseClaims _ hs
  rw [State.elect_vacant hc hleast hs hmem hvacant]
  refine ⟨?_, rfl, rfl, fun x hx hlt => ?_⟩
  · rw [State.regBits_owner, State.regBits_setRegBits_same _ _ _ _ _ hsorted (by decide), Nat.mod_eq_of_lt (by omega)]
  · rw [State.regBits_owner, State.regBits_setRegBits_beside _ _ _ _ _ _ _ hsorted (by decide) (.inr (by omega)), State.loses_clerr hc hleast hs hx hlt.ne']

end

section
variable {s : State}

/-- ARBITRATION_INTERVAL_END within the interval of the claims. -/
theorem execArbitrationIntervalEnd_early (h : s.owner.interval = s.clock / 100) : exec .arbitrationIntervalEnd s = .next s :=
  congrArg Host.Outcome.next (if_pos (by simp [State.interval100, h]))

/-- And after it: the claims that wait are judged. -/
theorem execArbitrationIntervalEnd_elects (hsome : s.owner.claims ≠ []) (h : s.owner.interval ≠ s.clock / 100) : exec .arbitrationIntervalEnd s = .next s.elect :=
  congrArg Host.Outcome.next (if_neg (by simp [State.interval100, h, hsome]))

end

/-! ### Handoff (R57) -/

section
variable {s : State}

/-- A handoff no older than 100 ms stays. -/
theorem State.expireHandoff_young (h : s.time - s.owner.handoffAt ≤ 8 * 100000000) : s.expireHandoff = s := if_neg fun hold => absurd hold.2 (Nat.not_lt.mpr h)

section
variable (ha : Claims.accepts s handackOff) (hyoung : s.time - s.owner.handoffAt ≤ 8 * 100000000)
include ha hyoung

/-- HANDACK within the 100 ms, by the master that HANDOFF named. -/
theorem execHandack_named (hv : s.ev.val = 1) (hc : masterCode s.ev.who ≠ 0) (hpend : s.regBits ownstatOff 4 2 = masterCode s.ev.who) : exec .handack s =
    .next { (s.setRegBits ownstatOff 0 2 (masterCode s.ev.who)).setRegBits ownstatOff 4 2 0 with owner := { s.owner with keyHash := Claims.keyOf s (masterCode s.ev.who) } } := by
  show Host.Outcome.next (s.regWrite s.ev.who handackOff _) = _
  rw [State.regWrite_accepted _ ha]
  simp only [State.expireHandoff_young hyoung, hc, hpend, hv, ne_eq, not_true, or_self, if_false]
  rfl

/-- HANDACK by another master. -/
theorem execHandack_other (hpend : s.regBits ownstatOff 4 2 ≠ masterCode s.ev.who) : exec .handack s = .next (s.refuseWrite s.ev.who handackOff) := by
  show Host.Outcome.next (s.regWrite s.ev.who handackOff _) = _
  rw [State.regWrite_accepted _ ha]
  simp only [State.expireHandoff_young hyoung, hpend, ne_eq, not_false_eq_true, or_true, if_true]

end

/-- HANDOFF_TIMEOUT cancels a pending handoff older than 100 ms. -/
theorem execHandoffTimeout_pending (h : s.regBits ownstatOff 4 2 ≠ 0) :
    exec .handoffTimeout s = .next (if 8 * 100000000 < s.time - s.owner.handoffAt then s.setRegBits ownstatOff 4 2 0 else s) := by
  show Host.Outcome.next s.expireHandoff = _
  simp only [State.expireHandoff, h, ne_eq, not_false_eq_true, true_and]

end

end Sys2Proof.Machine

namespace Sys2Proof.Proofs

open Sys2Proof.Machine

/-- Settles O36: a claim by `State.claim_complete` and `State.claim_refused`, the election by `State.elect_leaves`, a handoff by its age and the master that accepts it. -/
theorem ownership : Obligations.Ownership := by
  unfold Obligations.Ownership
  refine ⟨fun s c ha hc hc0 hv => ?claims, fun s c key hs hmem _ hc hlate hvacant hleast => ?elects, fun s h => execArbitrationIntervalEnd_early h, fun s ha => ?handoff,
    fun s c ha hc hv => ?handack, fun s h => execHandoffTimeout_pending h, fun s => rfl⟩
  case claims =>
    subst hc
    have hnone := ha.1
    rw [execClaimgo_claims ha hc0 hv]
    refine ⟨fun hw hvacant => ⟨_, rfl, ?_⟩, fun h => ⟨_, rfl, ?_⟩⟩
    · rw [State.claim_complete hw hvacant, hnone]
      exact ⟨rfl, rfl, rfl, rfl⟩
    · rw [State.claim_refused h]
      exact ⟨rfl, hnone, rfl⟩
  case elects =>
    exact ⟨_, execArbitrationIntervalEnd_elects (List.ne_nil_of_mem hmem) hlate, State.elect_leaves hc hleast hs hmem hvacant⟩
  case handoff =>
    show Host.Outcome.next (s.regWrite s.ev.who handoffOff _) = _
    rw [State.regWrite_accepted _ ha]
  case handack =>
    subst hc
    exact ⟨fun hc0 hpend hyoung => execHandack_named ha hyoung hv hc0 hpend, fun _ hpend hyoung => execHandack_other ha hyoung hpend⟩

end Sys2Proof.Proofs
end

section
/-! ### Firmware stages and attestation (R59, R60) -/

namespace Sys2Proof.Machine

/-! ### ATTGO and the report (R60) -/

section
variable {s : State} {r : Nat} (hr : masterId s.ev.who = r) (ha : Claims.accepts s (attgoOff r))
include hr ha

/-- ATTGO of any other value than 1. -/
theorem execAttgo_other (hv : s.ev.val ≠ 1) : exec .attgo s = .next s := by
  subst hr
  show Host.Outcome.next (s.regWrite s.ev.who _ _) = _
  rw [State.regWrite_accepted _ ha, if_pos hv]

/-- ATTGO of 1 sets ATTBUSY, and queues a requester that neither waits nor has a report to read. -/
theorem execAttgo_one (hv : s.ev.val = 1) : exec .attgo s = .next (if s.owner.attQueue.contains r = true ∨ s.regBits (attdoneOff r) 0 1 = 1 then s.setRegBits (attdoneOff r) 1 1 1
    else { s.setRegBits (attdoneOff r) 1 1 1 with owner := { s.owner with attQueue := s.owner.attQueue ++ [r] } }) := by
  subst hr
  show Host.Outcome.next (s.regWrite s.ev.who _ _) = _
  rw [State.regWrite_accepted _ ha, if_neg (not_not_intro hv)]

end

/-- ATTESTATION_SIGNED for the requester that waits first. -/
theorem execAttestationSigned_first {s : State} {r : Nat} {q : List Nat} (hq : s.owner.attQueue = r :: q) (hx : s.ev.x = r) : exec .attestationSigned s =
    .next (State.setRegBits { s with owner := { s.owner with attQueue := q, reports := Table.put s.owner.reports r (s.reportBody r ++ Config.slhSign Config.pset (s.reportBody r)) } }
      (attdoneOff r) 0 2 1) := by
  subst hx
  show Host.Outcome.next (ite _ _ _) = _
  simp [hq]

/-! ### FIRMWARE_STAGE_VERIFY (R59) -/

section
variable {s : State} (hx : s.ev.x = 1 ∨ s.ev.x = 2 ∨ s.ev.x = 3)
include hx

/-- The image of a stage that is good. -/
theorem execFirmwareStageVerify_good (hg : imageGood s.ev.x s.ev.bytes = true) : exec .firmwareStageVerify s =
    .next { s with owner := { s.owner with stages := Table.put s.owner.stages s.ev.x (s.ev.bytes.take 0x80), recovery := s.owner.recovery && decide (s.ev.x ≠ 1) } } := by
  show Host.Outcome.next (ite _ _ _) = _
  rw [if_neg (by omega), if_pos hg]

/-- The image of a stage that is refused. -/
theorem execFirmwareStageVerify_bad (hb : imageGood s.ev.x s.ev.bytes = false) : exec .firmwareStageVerify s =
    .next (if s.ev.x = 1 then { s.noDies with owner := { s.owner with recovery := true } } else if s.ev.x = 3 then (s.setRegBits fwfailOff s.ev.x 1 1).noDies
      else s.setRegBits fwfailOff s.ev.x 1 1) := by
  show Host.Outcome.next (ite _ _ _) = _
  rw [if_neg (by omega), if_neg (by simp [hb])]

end

end Sys2Proof.Machine

namespace Sys2Proof.Proofs

open Sys2Proof.Machine

/-- Settles O38: ATTGO by its value and by whether its requester waits already, a firmware image by its verdict and its stage. -/
theorem firmwareAndAttestation : Obligations.FirmwareAndAttestation := by
  unfold Obligations.FirmwareAndAttestation
  refine ⟨fun s r hr ha => ⟨fun hv => execAttgo_other hr ha hv, fun hv hnew hread => ?queued, fun hv h => ?ignored⟩, fun s r q hq hx body hbody => ?signed,
    fun s hx => ⟨fun hg => execFirmwareStageVerify_good hx hg, fun hb => ?bad⟩⟩
  case queued => rw [execAttgo_one hr ha hv, if_neg (by simp [hnew, hread])]
  case ignored => rw [execAttgo_one hr ha hv, if_pos (by simpa using h)]
  case signed =>
    subst hbody
    exact execAttestationSigned_first hq hx
  case bad =>
    rw [execFirmwareStageVerify_bad hx hb]
    refine ⟨fun h => ?_, fun h => ?_, fun h => ?_⟩
    · rw [if_pos h]
      rfl
    · rw [h]
      rfl
    · rw [h]
      rfl

end Sys2Proof.Proofs
end

section
/-! ### A record that its frame's owner and the access table refuse (R46, R71, R72, R76) -/

set_option Elab.async false

namespace Sys2Proof.Proofs

open Sys2Proof.Machine

/-- A published record of copy engine 0 for the first frame of stack 0's FOT region, which the frame's owner and the access table both refuse (R71). -/
def regionRecord : Rec :=
  { pos := 0, slot := 1, mask := 1, gran := (2 ^ 37 - 0x200000) / 32, data := List.replicate 32 1, pa := some (2 ^ 37 - 0x200000), stamp := some 1 }

/-- Its log, die 0 being usable, at the turn of the record's fold. -/
def regionState : State :=
  { State.reset with
    logs := [(1536, { tail := 1, pub := 1, recs := [regionRecord], last := 1 })]
    bar := [(svcstatOff, 0x1000000)]
    ev := { x := 1536, y := 0 } }

/-- The events that slot 0's ring, which is not enabled, has lost after an outcome (R92). -/
def lostAfter : Out → Option Nat
  | .next t => some (t.regBits (ringOff 0 16) 32 32)
  | _ => none

theorem foldable_regionState : regionState.foldable 1536 regionRecord = true := by decide +kernel
theorem place_regionState : regionState.place (2 ^ 37 - 0x200000) = .stack := by decide +kernel
theorem fotOk_regionState : regionState.fotOk (regionState.ownid regionRecord.slot) (2 ^ 37 - 0x200000) = false := by decide +kernel

/-- The fold tells slot 0's ring of the refused access; the record's drop, which slot 1's ring is told of, does not. -/
theorem lostAfter_recordFold : lostAfter (exec .recordFold regionState) = some 1 := by decide +kernel
theorem lostAfter_dropRec : lostAfter (.next (regionState.dropRec 1536 regionRecord 1)) = some 0 := by decide +kernel

/-- Refutes O45: of a record that the frame's owner refuses the statement says that the fold does no more than drop it, whatever the access table says. The table is asked first, and a refusal by it is logged (R46, R76): a
copy engine's record for an FOT region, which both refuse, is logged in slot 0's ring before it is dropped. -/
theorem not_recordFolds : ¬ Obligations.RecordFolds := by
  rintro ⟨h, -⟩
  obtain ⟨hdrop, -⟩ := h regionState regionRecord (2 ^ 37 - 0x200000) (by decide +kernel) (by decide) foldable_regionState rfl place_regionState
  have hlost := congrArg lostAfter (hdrop fotOk_regionState)
  rw [lostAfter_recordFold] at hlost
  exact absurd (hlost.trans lostAfter_dropRec) (by decide)

end Sys2Proof.Proofs
end

section
/-! ### A sector filled while a link port still holds a record of it (R215, R218) -/

set_option Elab.async false

namespace Sys2Proof.Proofs

open Sys2Proof.Machine

/-- A record of core 0 that a link port has taken over: it stores 7 in the first byte of the link windows' space. -/
def portRecord : Rec := { pos := 0, slot := 0, mask := 1, gran := 2 ^ 48 / 32, data := 7 :: List.replicate 31 0, pa := some (2 ^ 48), stamp := some 1, deliv := true, origin := some (0, 0) }

/-- The port's log holds it; core 0's own log is empty. -/
def portState : State := { State.reset with logs := [(1736, { tail := 1, pub := 1, recs := [portRecord], last := 1 })] }

theorem filled_portState : ((portState.filled 0 (sectorKey 0 (2 ^ 48)) (2 ^ 48)).data)[0]? = some 7 := by decide +kernel
theorem readBytes_portState : (portState.readBytes (2 ^ 48) 128)[0]? = some 0 := by decide +kernel

/-- Refutes O46: the statement says that where the core's own log is empty a fill brings the folded bytes alone. The core's unfolded records are also those that a link port took over and the far home has not acknowledged
(R215, R218: `State.ownRecs`): with one of them in the port's log its byte lies over the folded one. -/
theorem not_homeService : ¬ Obligations.HomeService := by
  rintro ⟨-, hfill, -⟩
  obtain ⟨hdata, -⟩ := hfill portState 0 (sectorKey 0 (2 ^ 48)) (2 ^ 48) rfl
  have hbyte := filled_portState
  rw [hdata, readBytes_portState] at hbyte
  exact absurd hbyte (by decide)

end Sys2Proof.Proofs
end

section
/-! ### Dispatch of entries, graphs, job cards and nodes, and the slots' shares (R77, R96-R98, R102, R104, R105) -/

set_option Elab.async false

namespace Sys2Proof.Machine

/-! ### A launch record becomes a task (R96, R112-R114) -/

/-- Where a slot may have a new task the table has a free entry (R114). -/
theorem State.freeTask_of_taskRoom {s : State} {p : Nat} (h : s.taskRoom p = true) : ∃ id, s.freeTask = some id := by
  simp only [State.taskRoom, Bool.and_eq_true, Option.isSome_iff_exists] at h
  exact h.2

/-- The task that a new task's entry holds, and the state after it is entered. -/
def Task.entered (k : Task) (s : State) (id : Nat) : Task := { k with gen := ((s.task id).map Task.gen).getD 0 + 1 }
def State.enters (s : State) (id : Nat) (k : Task) : State :=
  let u := { s with fresh := s.fresh + 1 }
  (u.setTask id (k.entered s id)).setRegBits (slotOff k.slot 0x380) 32 17 (u.regBits (slotOff k.slot 0x380) 32 17 + 1)

theorem State.newTask_of_free {s : State} {k : Task} {id : Nat} (h : s.taskRoom k.slot = true) (hid : s.freeTask = some id) : s.newTask k = some (id, s.enters id k) := by
  unfold State.newTask
  rw [hid]
  dsimp only
  rw [h, if_neg (by decide)]
  simp only [State.enters, Task.entered]

theorem State.task_enters (s : State) (id : Nat) (k : Task) : (s.enters id k).task id = some (k.entered s id) := by
  simp only [State.enters, State.task, State.setRegBits, State.setReg, State.setTask, Table.find_put_same]

theorem State.queue_enters (s : State) (id : Nat) (k : Task) (q : Nat) : (s.enters id k).queue q = s.queue q := by
  simp only [State.enters, State.queue, State.setRegBits, State.setReg, State.setTask]

/-- The task of a launch record as its queue's head makes it. -/
def State.headTask (s : State) (q : Nat) (bs : List Byte) : Task :=
  { launchTask bs (s.qSlot q) 0 (s.qLevel q) q with msi := decide (le bs 1 1 / 2 % 2 = 1), ordered := decide (le bs 1 1 / 4 % 2 = 1) }

/-- A launch where the slot has room: the task is entered, and is what the queue is placing. -/
theorem State.launch_enters {s : State} {q : Nat} {bs : List Byte} (h : s.taskRoom (s.qSlot q) = true) :
    ∃ id, s.launch q bs = (s.enters id (s.headTask q bs)).setQueue q { s.queue q with dispatching := some id } := by
  obtain ⟨id, hid⟩ := State.freeTask_of_taskRoom h
  have hnew : s.newTask (s.headTask q bs) = some (id, s.enters id (s.headTask q bs)) := State.newTask_of_free h hid
  refine ⟨id, ?_⟩
  unfold State.launch
  unfold State.headTask at hnew ⊢
  rw [hnew]
  dsimp only
  rw [State.queue_enters]

/-! ### The head of a queue at its turn (R96, R98, R102, R104) -/

section
variable {s : State} {q : Nat} {e : QEntry}

/-- A launch record that is ready has room for its task (R114). -/
theorem State.taskRoom_of_headReady (hh : (s.queue q).head = some e) (hr : s.headReady q = true) (hk : le e.bytes 0 1 = 1) (hok : launchOk e.bytes = true) (hfits : launchFits e.bytes = true) :
    s.taskRoom (s.qSlot q) = true := by
  simp only [State.headReady, hh, hk, hok, hfits, if_true, Bool.and_self, Bool.not_true, Bool.false_or, Bool.and_eq_true] at hr
  exact hr.2

variable (hx : s.ev.x = q) (hh : (s.queue q).head = some e) (hr : s.headReady q = true) (ht : s.myTurn (s.qSlot q) (s.qLevel q) q = true)
include hx hh hr ht

/-- ENTRY_DISPATCH of the head, by its kind. -/
theorem execEntryDispatch_turn : exec .entryDispatch s = .next (
    if le e.bytes 0 1 = 1 then (if !launchOk e.bytes then s.reject q e.bytes 5 0 else if !launchFits e.bytes then s.reject q e.bytes 8 0 else s.launch q e.bytes)
    else if le e.bytes 0 1 = 2 then (if graphEntryOk e.bytes then s else s.reject q e.bytes 5 0)
    else if le e.bytes 0 1 = 3 then (if cardOk e.bytes then s else s.reject q e.bytes 5 0)
    else s.rejectUnknown q e.bytes) := by
  subst hx
  show execEntryDispatch s = _
  simp only [execEntryDispatch, hh, hr, ht, Bool.not_true, Bool.or_self, Bool.false_eq_true, if_false]

/-- A launch record that meets R98 and fits: its task is READY, holds its grant and awaits its placement. -/
theorem execEntryDispatch_launches (hk : le e.bytes 0 1 = 1) (hok : launchOk e.bytes = true) (hfits : launchFits e.bytes = true) :
    ∃ t id k, exec .entryDispatch s = .next t ∧ (t.queue q).dispatching = some id ∧ t.task id = some k ∧ k.held = true ∧ k.state = .ready ∧
      k.alw = launchGrant e.bytes ∧ k.slot = s.qSlot q ∧ k.root = true ∧ k.queue = q ∧ k.level = s.qLevel q ∧ (t.queue q).head = some e := by
  obtain ⟨id, hlaunch⟩ := State.launch_enters (bs := e.bytes) (State.taskRoom_of_headReady hh hr hk hok hfits)
  have hexec := execEntryDispatch_turn hx hh hr ht
  rw [if_pos hk, if_neg (by simp [hok]), if_neg (by simp [hfits]), hlaunch] at hexec
  refine ⟨_, id, (s.headTask q e.bytes).entered s id, hexec, by rw [State.queue_setQueue], ?_, rfl, rfl, rfl, rfl, rfl, rfl, rfl, ?_⟩
  · rw [State.task, State.setQueue_tasks]
    exact State.task_enters s id (s.headTask q e.bytes)
  · rw [State.queue_setQueue]
    exact hh

/-- GRAPH_VALIDATION of a graph launch whose header and nodes are read (R102). -/
theorem execGraphValidation_read {h body : List Byte} (hok : graphEntryOk e.bytes = true) (hhead : s.deviceRead (queueOwner q) (s.qSlot q) (le e.bytes 8 8) 64 = .ok h)
    (hlo : 1 ≤ le h 0 4) (hhi : le h 0 4 ≤ 4096) (hz : zeros h 4 60 = true) (hbody : s.deviceRead (queueOwner q) (s.qSlot q) (le e.bytes 8 8 + 64) (64 * le h 0 4) = .ok body) :
    exec .graphValidation s = .next (if (tableOf body 0 64 (le h 0 4)).all (nodeOk (le h 0 4)) && graphOk ((tableOf body 0 64 (le h 0 4)).map nodeOf)
      then s.startGraph q e.bytes ((tableOf body 0 64 (le h 0 4)).map nodeOf) else s.reject q e.bytes 6 0) := by
  subst hx
  have hcount : ¬ (le h 0 4 = 0 ∨ 4096 < le h 0 4 ∨ (!zeros h 4 60) = true) := by simp only [hz, Bool.not_true, Bool.false_eq_true, or_false]; omega
  show execGraphValidation s = _
  simp only [execGraphValidation, hh, hok, hr, ht, hhead, hbody, hcount, Bool.not_true, Bool.or_self, Bool.false_eq_true, if_false]

/-- JOB_CARD_ACCEPT of a card whose descriptor is read (R104, R105). -/
theorem execJobCardAccept_read {d : List Byte} (hok : cardOk e.bytes = true) (hd : s.cardRead (queueOwner q) (s.qSlot q) e.bytes = .ok d) :
    exec .jobCardAccept s = .next (if cardDescOk e.bytes d then (s.popHead q).acceptCard e.bytes d (s.qSlot q) q none else s.reject q e.bytes 5 0) := by
  subst hx
  show execJobCardAccept s = _
  simp only [execJobCardAccept, hh, hok, hr, ht, hd, Bool.not_true, Bool.or_self, Bool.false_eq_true, if_false]

end

/-! ### A ready node of a graph (R102, R103) -/

section
variable {s : State} {g n : Nat} {k : Task} {ns : List GNode} {x : GNode} {bs : List Byte}
variable (hg : s.ev.x = g) (hn : s.ev.y = n) (hk : s.task g = some k) (hns : Table.find s.graphs g = some ns) (hready : readyNode ns = some n) (hr : s.graphReady g = true)
variable (ht : s.myTurn k.slot k.level (4096 + g) = true) (hx : ns[n]? = some x) (hbs : s.deviceRead (taskOwner g) k.slot x.va 128 = .ok bs)
include hg hn hk hns hready hr ht hx hbs

theorem execGraphNodeDispatch_task (htyp : x.typ = 1) : exec .graphNodeDispatch s = .next (s.runTaskNode g n k bs) := by
  subst hg hn
  show execGraphNodeDispatch s = _
  simp only [execGraphNodeDispatch, hk, hns, hready, hr, ht, hx, hbs, htyp, ne_eq, not_true_eq_false, decide_false, Bool.not_true, Bool.or_self, Bool.false_eq_true, if_false, if_true]

theorem execGraphNodeDispatch_job {d : List Byte} (htyp : x.typ = 2) (hok : cardOk bs = true) (hd : s.cardRead (taskOwner g) k.slot bs = .ok d) :
    exec .graphNodeDispatch s = .next (s.runJobNode g n k bs d) := by
  subst hg hn
  show execGraphNodeDispatch s = _
  simp [execGraphNodeDispatch, hk, hns, hready, hr, ht, hx, hbs, htyp, hok, hd]

end

/-! ### The front-end share (R77) -/

/-- SLOT_TURN: the turn passes to the next slot, whose share grows where something of it awaits dispatch. -/
theorem execSlotTurn_passes {s u : State} {l p : Nat} (hx : s.ev.x = l) (hy : s.ev.y = p) (hl : l < 24) (ho : s.turnOver l = true) (hnext : s.nextSlot l = some p)
    (hu : u = { s with turns := Sparse.set 65 s.turns l p }) : exec .slotTurn s = .next (
      if (u.awaiting p l).isEmpty then u.setShare p l (min (u.share p l) 0) else u.setShare p l (u.share p l + (bits (u.slotReg p 0) 46 10 * 16384 : Nat))) := by
  subst hx hy hu
  show execSlotTurn s = _
  simp only [execSlotTurn, ho, hnext, Nat.not_le.mpr hl, ne_eq, not_true_eq_false, decide_false, Bool.not_true, Bool.or_self, Bool.false_eq_true, if_false]

/-- What is meant by a candidate's turn (R77, R97). -/
theorem State.myTurn_iff {s : State} {p l key : Nat} : s.myTurn p l key = true ↔
    (∀ m < l, ∀ q < 65, s.awaiting q m = []) ∧ s.turnOf l = p ∧ 0 < s.share p l ∧ oldest (s.awaiting p l) = some key := by
  simp only [State.myTurn, Bool.and_eq_true, List.all_eq_true, List.mem_range, List.isEmpty_iff, decide_eq_true_eq, beq_iff_eq, and_assoc]

theorem shareKey_slot (p : Nat) {l : Nat} (hl : l < 32) : shareKey p l / 32 = p := by unfold shareKey; omega
theorem shareKey_level (p : Nat) {l : Nat} (hl : l < 32) : shareKey p l % 32 = l := by unfold shareKey; omega

/-- A share reads back as it was set, within its bounds. -/
theorem State.share_setShare {s : State} {p l : Nat} (v : Int) (h : Table.sorted s.deficit = true) : (s.setShare p l v).share p l = max (-(2 ^ 40)) (min (2 ^ 40) v) :=
  Sparse.get_set_same 0 s.deficit _ _ h

/-- The shares charged for the core-cycles used (R77) leave the tasks as they were. -/
theorem State.charged_tasks (s : State) (us : List (Nat × Nat)) :
    (us.foldl (fun s e => s.setShare (e.1 / 32) (e.1 % 32) (s.share (e.1 / 32) (e.1 % 32) - e.2)) s).tasks = s.tasks :=
  foldl_keeps (fun u : State => u.tasks = s.tasks) _ us s rfl (fun _ _ h => h)

/-- DEFICIT_DECREMENT within an interval changes nothing. -/
theorem execDeficitDecrement_early {s : State} (h : s.interval = s.clock / 1000) : exec .deficitDecrement s = .next s := congrArg Host.Outcome.next (if_pos h)

/-- At the end of an interval it charges the core-cycles used in it. -/
theorem execDeficitDecrement_late {s : State} (h : s.interval ≠ s.clock / 1000) : exec .deficitDecrement s = .next
    { (s.used.foldl (fun s e => s.setShare (e.1 / 32) (e.1 % 32) (s.share (e.1 / 32) (e.1 % 32) - e.2)) s) with used := [], interval := s.clock / 1000 } :=
  congrArg Host.Outcome.next (if_neg h)

end Sys2Proof.Machine

namespace Sys2Proof.Proofs

open Sys2Proof.Machine

/-- Settles O48: the head of a queue by its kind and its checks, a node by its type, the shares by what a turn and an interval make of them. -/
theorem dispatch : Obligations.Dispatch := by
  unfold Obligations.Dispatch
  refine ⟨fun s q e hx hh hr ht => ?head, fun s g n k ns x bs hg hn hk hns hready hr ht hx hbs => ?node, fun s l p hx hy hl ho hnext u hu => ?turn,
    fun s p l key h => State.myTurn_iff.mp h, fun s => ⟨execDeficitDecrement_early, fun h => ?interval⟩⟩
  case head =>
    have hturn := execEntryDispatch_turn hx hh hr ht
    refine ⟨fun hk hbad => ?_, fun hk hok hbig => ?_, execEntryDispatch_launches hx hh hr ht, fun hk => ?_, fun hk hbad => ?_,
      fun h body hok hhead hlo hhi hz hbody imgs himgs => ?_, fun d hok hd => ?_⟩
    · rw [hturn, if_pos hk, if_pos (by simp [hbad])]
    · rw [hturn, if_pos hk, if_neg (by simp [hok]), if_pos (by simp [hbig])]
    · rw [hturn, if_neg (by omega), if_neg (by omega), if_neg (by omega)]
    · rw [hturn, if_neg (by omega), if_pos hk, if_neg (by simp [hbad])]
    · subst himgs
      have hgraph := execGraphValidation_read hx hh hr ht hok hhead hlo hhi hz hbody
      exact ⟨fun hbad => by rw [hgraph, hbad]; rfl, fun hgood => by rw [hgraph, if_pos hgood]⟩
    · have hcard := execJobCardAccept_read hx hh hr ht hok hd
      exact ⟨fun hbad => by rw [hcard, hbad]; rfl, fun hgood => by rw [hcard, if_pos hgood]⟩
  case node =>
    exact ⟨execGraphNodeDispatch_task hg hn hk hns hready hr ht hx hbs, fun d => execGraphNodeDispatch_job hg hn hk hns hready hr ht hx hbs⟩
  case turn =>
    have hturn := execSlotTurn_passes hx hy hl ho hnext hu
    exact ⟨fun h => by rw [hturn, if_neg (by simpa using h)], fun h => by rw [hturn, if_pos (by simpa using h)]⟩
  case interval =>
    refine ⟨_, execDeficitDecrement_late h, rfl, rfl, State.charged_tasks s s.used, fun p l n hused hl hs => ?_⟩
    rw [hused, List.foldl_cons, List.foldl_nil, shareKey_slot p hl, shareKey_level p hl]
    exact State.share_setShare _ hs

end Sys2Proof.Proofs
end

section
/-! ### What leaves the frame ownership table as it is (R71, R73) -/

set_option Elab.async false

namespace Sys2Proof.Machine

variable (s : State)

/-- A fold whose steps all leave the table leaves it. -/
theorem foldl_fot {β : Type} {f : State → β → State} (hf : ∀ u x, (f u x).fot = u.fot) (xs : List β) : (xs.foldl f s).fot = s.fot :=
  foldl_keeps (fun u : State => u.fot = s.fot) f xs s rfl (fun u x h => (hf u x).trans h)

/-- The state that comes with an answer, where the answer is known. -/
theorem fot_of_answer {s : State} {α : Type} {x : α × State} {a : α} {u : State} (h : x = (a, u)) (hx : x.2.fot = s.fot) : u.fot = s.fot := by
  rw [h] at hx
  exact hx

/-! ### Registers, writes of the device, events -/

@[simp] theorem State.setReg_fot (off : Nat) (v : W64) : (s.setReg off v).fot = s.fot := rfl
@[simp] theorem State.setRegBits_fot (off lo n v : Nat) : (s.setRegBits off lo n v).fot = s.fot := rfl

@[simp] theorem State.deviceNow_fot (a : Nat) (bs : List Byte) : (s.deviceNow a bs).fot = s.fot := by
  obtain ⟨m, st, h⟩ := s.deviceNow_frame bs a
  rw [h]

@[simp] theorem State.deviceWrite_fot (a : Nat) (bs : List Byte) : (s.deviceWrite a bs).fot = s.fot := by
  obtain ⟨m, st, ps, h⟩ := s.deviceWrite_frame a bs
  rw [h]

@[simp] theorem State.addAt_fot (pa v : Nat) : (s.addAt pa v).fot = s.fot := by
  unfold State.addAt State.addNow
  split <;> simp

@[simp] theorem State.flushPosts_fot : s.flushPosts.fot = s.fot := by
  unfold State.flushPosts
  refine foldl_fot _ (fun u x => ?_) _
  unfold State.addNow
  split <;> simp

@[simp] theorem State.event_fot (attr : Option Nat) (cls seg master unit pa : Nat) (mask : W32) : (s.event attr cls seg master unit pa mask).fot = s.fot := by
  obtain ⟨m, st, ps, b, h⟩ := s.event_frame attr cls seg master unit pa mask
  rw [h]

@[simp] theorem State.logDenied_fot (master unit pa : Nat) : (s.logDenied master unit pa).fot = s.fot := s.event_fot _ _ _ _ _ _ _
@[simp] theorem State.queueErr_fot (q code : Nat) : (s.queueErr q code).fot = s.fot := s.setRegBits_fot _ _ _ _

/-! ### Lines in the slices, and counted lines (R68, R198-R200) -/

@[simp] theorem State.putLines_fot (k : Nat) (xs : Table SLine) : (s.putLines k xs).fot = s.fot := rfl

@[simp] theorem State.leaveSlice_fot (line : Nat) : (s.leaveSlice line).fot = s.fot := by
  unfold State.leaveSlice
  dsimp only
  split <;> simp

@[simp] theorem State.evictFrame_fot (frame : Nat) : (s.evictFrame frame).fot = s.fot := by
  refine foldl_fot _ (fun u e => ?_) _
  rfl

@[simp] theorem State.evictOne_fot (vs : List (Nat × SLine)) : (s.evictOne vs).2.fot = s.fot := by
  induction vs generalizing s with
  | nil => rfl
  | cons v vs ih =>
    unfold State.evictOne
    split
    · rfl
    · split
      · exact ih s
      · split
        · rfl
        · simp [ih]

@[simp] theorem State.allot_fot (line : Nat) : (s.allot line).fot = s.fot := by
  unfold State.allot
  dsimp only
  split
  · rfl
  · split
    · rfl
    · split
      · rfl
      · have hv := fun vs => State.evictOne_fot { s with fresh := s.fresh + 1 } vs
        split
        · next h => exact (State.putLines_fot _ _ _).trans (fot_of_answer h (hv _))
        · next h => exact fot_of_answer h (hv _)

@[simp] theorem State.restoreLine_fot (line : Nat) (c : CLine) : (s.restoreLine line c).fot = s.fot := by
  unfold State.restoreLine
  dsimp only
  refine (foldl_fot _ (fun u i => ?_) _).trans (foldl_fot _ (fun u i => ?_) _)
  · split <;> rfl
  · rfl

@[simp] theorem State.dropLine_fot (line : Nat) : (s.dropLine line).fot = s.fot := by
  unfold State.dropLine
  split
  · rfl
  · dsimp only
    split
    · simp
    · split <;> simp

@[simp] theorem State.lineBack_fot (line : Nat) : (s.lineBack line).fot = s.fot := by
  unfold State.lineBack
  split
  · simp
  · split
    · simp
    · split <;> simp

@[simp] theorem State.clearCount_fot (pa : Nat) : (s.clearCount pa).fot = s.fot := by
  unfold State.clearCount
  dsimp only
  split <;> simp

@[simp] theorem State.declareLine_fot (pa : Nat) (r : Rec) : (s.declareLine pa r).fot = s.fot := by
  unfold State.declareLine
  dsimp only
  split
  · split
    · simp
    · split
      · split <;> simp
      · simp
  · simp

/-! ### Bytes folded at their home (R217) -/

@[simp] theorem State.foldByte_fot (a : Nat) (b : Byte) (st : Nat × Nat) : (s.foldByte a b st).fot = s.fot := by
  unfold State.foldByte
  split <;> rfl

@[simp] theorem State.foldBytes_fot (a : Nat) (bs : List Byte) (ms : List Bool) (st : Nat × Nat) : (s.foldBytes a bs ms st).fot = s.fot := by
  induction bs generalizing s a ms with
  | nil => rfl
  | cons b bs ih =>
    cases ms with
    | nil => rfl
    | cons m ms =>
      rw [State.foldBytes, ih]
      split <;> simp

@[simp] theorem State.foldGranule_fot (a : Nat) (data : List Byte) (mask : W32) (pois : Bool) (st : Nat × Nat) : (s.foldGranule a data mask pois st).fot = s.fot := by
  unfold State.foldGranule
  dsimp only
  split
  · simp
  · split <;> simp

/-! ### Translation, and requests to windows (R190, R31, R44) -/

@[simp] theorem State.translateAt_fot (eng : Option Nat) (p va : Nat) (r : Right) (pool : Bool) : (s.translateAt eng p va r pool).2.fot = s.fot := by
  unfold State.translateAt
  split
  · rfl
  · split
    · split <;> rfl
    · rfl
    · simp

@[simp] theorem State.translate_fot (core p va : Nat) (r : Right) (pool : Bool) : (s.translate core p va r pool).2.fot = s.fot := by
  unfold State.translate
  split
  · rfl
  · split
    · rfl
    · rfl
    · simp

@[simp] theorem State.hold_fot (g id : Nat) (o : Outbound) : (s.hold g id o).fot = s.fot := rfl
@[simp] theorem State.sendOut_fot (n : Nat) (o : Outbound) : (s.sendOut n o).fot = s.fot := rfl

@[simp] theorem State.request_fot (src pa len : Nat) (write : Bool) (aop : Option Nat) (data : List Byte) (reply : OutFor) (pois : Bool) :
    (s.request src pa len write aop data reply pois).fot = s.fot := by
  unfold State.request
  dsimp only
  split
  · split <;> rfl
  · rfl
  · rfl

@[simp] theorem State.atomicTo_fot (src pa size aop v c : Nat) (back : OutFor) : (s.atomicTo src pa size aop v c back).fot = s.fot := by
  unfold State.atomicTo
  split
  · split <;> simp
  · simp

@[simp] theorem State.sendAdd_fot (src pa v : Nat) (reply : OutFor) : (s.sendAdd src pa v reply).fot = s.fot := s.atomicTo_fot _ _ _ _ _ _ _

@[simp] theorem State.post_fot (pa : Nat) (data : List Byte) (pois : Bool) : (s.post pa data pois).fot = s.fot := by
  unfold State.post
  split <;> rfl

@[simp] theorem State.sendTo_fot (o a : Nat) : (s.sendTo o a).fot = s.fot := by
  obtain ⟨n, l, h⟩ := s.sendTo_frame o a
  rw [h]

/-! ### Completion records and signal words (R107) -/

@[simp] theorem State.noteFar_fot (owner pa n : Nat) (done : Bool) : (s.noteFar owner pa n done).fot = s.fot := rfl
@[simp] theorem State.dropTrips_fot (owner : Nat) : (s.dropTrips owner).fot = s.fot := rfl
@[simp] theorem State.dropFar_fot (owner : Nat) : (s.dropFar owner).fot = s.fot := rfl

@[simp] theorem State.deviceAddr_fot (p m right va : Nat) : (s.deviceAddr p m right va).2.2.fot = s.fot := by
  unfold State.deviceAddr
  split
  · rfl
  · have h := s.translateAt_fot none p va .write false
    split
    · next heq => exact fot_of_answer heq h
    · next heq =>
      have hu := fot_of_answer heq h
      dsimp only
      split
      · rw [State.logDenied_fot, hu]
      · exact hu

@[simp] theorem State.sendWrite_fot (owner pa : Nat) (bytes : List Byte) : (s.sendWrite owner pa bytes).fot = s.fot := by
  unfold State.sendWrite
  split
  · rfl
  · split <;> simp

theorem State.sysReach_fot (owner p m right n va : Nat) {go : State → Nat → Wrote × State} (hgo : ∀ u pa, (go u pa).2.fot = u.fot) :
    (s.sysReach owner p m right n va go).2.fot = s.fot := by
  unfold State.sysReach
  split
  · simp
  · split
    · simp
    · have h := s.deviceAddr_fot p m right va
      split
      · next heq => exact fot_of_answer (congrArg Prod.snd heq) h
      · next heq =>
        have hu := fot_of_answer (congrArg Prod.snd heq) h
        split
        · exact hu
        · split
          · exact hu
          · split
            · rw [State.sendTo_fot, hu]
            · split
              · exact hu
              · rw [hgo, hu]

@[simp] theorem State.sysWrite_fot (owner p m va : Nat) (bytes : List Byte) : (s.sysWrite owner p m va bytes).2.fot = s.fot := by
  refine s.sysReach_fot _ _ _ _ _ _ (fun u pa => ?_)
  split
  · simp
  · split <;> simp

@[simp] theorem State.signalAdd_fot (owner p m va : Nat) : (s.signalAdd owner p m va).2.fot = s.fot := by
  refine s.sysReach_fot _ _ _ _ _ _ (fun u pa => ?_)
  split
  · dsimp only
    split <;> simp
  · split <;> simp

@[simp] theorem State.raise_fot (p q : Nat) : (s.raise p q).fot = s.fot := by
  unfold State.raise
  dsimp only
  split <;> rfl

@[simp] theorem State.complFails_fot (c : Compl) (pa : Nat) : (s.complFails c pa).fot = s.fot := by
  unfold State.complFails
  dsimp only
  split <;> simp

@[simp] theorem State.writeCompletion_fot (c : Compl) (rec : List Byte) : (s.writeCompletion c rec).2.fot = s.fot := by
  have hrec : (if c.va = 0 then (Wrote.done, s) else s.sysWrite c.owner c.slot c.master c.va rec).2.fot = s.fot := by split <;> simp
  unfold State.writeCompletion
  extract_lets done
  have hdone : ∀ u, (done u).2.fot = u.fot := by
    intro u
    simp only [done]
    split <;> simp
  split
  · next heq => exact fot_of_answer heq hrec
  · next heq => rw [hdone, State.complFails_fot, fot_of_answer heq hrec]
  · next u heq =>
    have hu := fot_of_answer heq hrec
    have hsignal := u.signalAdd_fot c.owner c.slot c.master c.signal
    split
    · rw [hdone, hu]
    · split
      · next hadd => exact (fot_of_answer hadd hsignal).trans hu
      · next hadd => rw [hdone, State.complFails_fot, fot_of_answer hadd hsignal, hu]
      · next hadd => rw [hdone, fot_of_answer hadd hsignal, hu]

/-! ### Sectors asked for and invalidated (R191, R192, R218) -/

@[simp] theorem State.askSector_fot (core key pa : Nat) (stash keep : Bool) : (s.askSector core key pa stash keep).fot = s.fot := by
  unfold State.askSector
  dsimp only
  split
  · rfl
  · split <;> rfl

@[simp] theorem State.sendSector_fot (core key pa : Nat) (stash : Bool) : (s.sendSector core key pa stash).fot = s.fot := by
  unfold State.sendSector
  split <;> simp

@[simp] theorem State.wantSector_fot (core key pa : Nat) (stash keep : Bool) : (s.wantSector core key pa stash keep).fot = s.fot := by
  unfold State.wantSector
  dsimp only
  split <;> simp

@[simp] theorem State.invalidate_fot (core : Nat) (sel : Nat → Bool) : (s.invalidate core sel).fot = s.fot := by
  unfold State.invalidate
  dsimp only
  rw [foldl_fot _ (fun u e => u.wantSector_fot _ _ _ _ _), foldl_fot _ (fun u e => u.wantSector_fot _ _ _ _ _), foldl_fot _ (fun u f => u.sendSector_fot _ _ _ _)]
  rfl

@[simp] theorem State.voidRecs_fot (core : Nat) (sel : Rec → Bool) : (s.voidRecs core sel).fot = s.fot := by
  unfold State.voidRecs
  dsimp only
  rw [State.invalidate_fot]
  refine foldl_fot _ (fun u r => ?_) _
  split <;> simp

/-! ### Tasks unwound (R127, R128) -/

@[simp] theorem State.dropTickets_fot (key : Nat) : (s.dropTickets key).fot = s.fot := rfl

@[simp] theorem State.noteFreed_fot (p : Nat) : (s.noteFreed p).fot = s.fot := by
  unfold State.noteFreed
  split <;> rfl

@[simp] theorem State.advanceRoutes_fot (task : Nat) : (s.advanceRoutes task).fot = s.fot := by
  unfold State.advanceRoutes
  split <;> rfl

@[simp] theorem State.removeTrain_fot (key : Nat) : (s.removeTrain key).fot = s.fot := by
  unfold State.removeTrain
  split
  · rfl
  · simp

@[simp] theorem State.removeTrainsOf_fot (ts : List Nat) : (s.removeTrainsOf ts).fot = s.fot := by
  unfold State.removeTrainsOf
  dsimp only
  rw [foldl_fot _ (fun u c => u.voidRecs_fot _ _), foldl_fot _ (fun u k => u.removeTrain_fot _)]

@[simp] theorem State.cancelJobs_fot (ts : List Nat) : (s.cancelJobs ts).fot = s.fot := by
  unfold State.cancelJobs
  refine foldl_fot _ (fun u e => ?_) _
  rfl

@[simp] theorem State.cancelConts_fot (ts : List Nat) : (s.cancelConts ts).fot = s.fot := rfl

@[simp] theorem State.absorbSaved_fot (ts : List Nat) : (s.absorbSaved ts).fot = s.fot := by
  unfold State.absorbSaved
  refine foldl_fot _ (fun u e => ?_) _
  rfl

@[simp] theorem State.unwind_fot (t status code : Nat) : (s.unwind t status code).fot = s.fot := by
  unfold State.unwind
  split
  · rfl
  · split
    · rfl
    · simp

@[simp] theorem State.starve_fot (t : Nat) : (s.starve t).fot = s.fot := by
  unfold State.starve
  split
  · rfl
  · next k _ =>
    split
    · simp
    · dsimp only
      split
      · rfl
      · have h := (s.setTask t { k with state := .starved, expiry := s.clock + k.parkNs }).deviceAddr_fot k.slot 130 3 k.signalVa.toNat
        split
        · next heq => exact fot_of_answer (congrArg Prod.snd heq) h
        · next heq =>
          have hu := fot_of_answer (congrArg Prod.snd heq) h
          split
          · rw [State.sendAdd_fot, hu, State.setTask_fot]
          · split
            · exact hu
            · rw [State.addAt_fot, hu, State.setTask_fot]

/-! ### Faults taken (R153, R158-R163) -/

@[simp] theorem State.rewind_fot (key : Nat) : (s.rewind key).fot = s.fot := by
  unfold State.rewind
  split
  · rfl
  · simp

@[simp] theorem State.enterHandler_fot (key p : Nat) (fs : List LaneFault) : (s.enterHandler key p fs).fot = s.fot := by
  unfold State.enterHandler
  split
  · rfl
  · split <;> rfl

@[simp] theorem State.toHost_fot (key : Nat) (fs : List LaneFault) (scalar : Bool) : (s.toHost key fs scalar).fot = s.fot := rfl

@[simp] theorem State.countFaults_fot (p core : Nat) (fs : List LaneFault) : (s.countFaults p core fs).fot = s.fot := by
  unfold State.countFaults
  dsimp only
  split <;> split <;> simp

@[simp] theorem State.retry_fot (key code : Nat) (t : Train) : (s.retry key code t).fot = s.fot := by
  unfold State.retry
  split
  · rfl
  · split <;> simp

@[simp] theorem State.integrity_fot (key code seg pa : Nat) : (s.integrity key code seg pa).fot = s.fot := by
  unfold State.integrity
  split
  · rfl
  · dsimp only
    rw [State.retry_fot]
    split <;> simp

@[simp] theorem State.takeFault_fot (core slot p : Nat) (f : Trouble) : (s.takeFault core slot p f).fot = s.fot := by
  unfold State.takeFault
  dsimp only
  split
  · rfl
  · split
    · simp
    · split
      · simp
      · split
        · simp
        · split
          · simp
          · split <;> simp

/-! ### Jobs that fail (R47, R106, R107) -/

@[simp] theorem State.modProg_fot (l : Nat) (f : MxProg → MxProg) : (s.modProg l f).fot = s.fot := rfl
@[simp] theorem State.dropJob_fot (id : Nat) : (s.dropJob id).fot = s.fot := rfl
@[simp] theorem State.spendRsv_fot (t cost : Nat) : (s.spendRsv t cost).fot = s.fot := rfl
@[simp] theorem State.setScratch_fot (core task : Nat) (x : Scratch) : (s.setScratch core task x).fot = s.fot := rfl

@[simp] theorem State.dropFeet_fot (j : Job) : (s.dropFeet j).fot = s.fot := by
  unfold State.dropFeet
  split
  · rfl
  · simp

@[simp] theorem State.flagTrain_fot (core slot index task : Nat) (x : W32) : (s.flagTrain core slot index task x).fot = s.fot := by
  obtain ⟨ts, ks, h⟩ := s.flagTrain_frame core slot index task x
  rw [h]

@[simp] theorem State.padWrite_fot (c task off : Nat) (bs : List Byte) : (s.padWrite c task off bs).fot = s.fot := by
  unfold State.padWrite
  split
  · simp
  · split <;> simp

@[simp] theorem State.endCard_fot (id : Nat) (j : Job) : (s.endCard id j).fot = s.fot := by
  unfold State.endCard
  have h := s.writeCompletion_fot (s.jobCompl id j) (j.record id s.clock)
  split
  · next heq =>
    have hu := fot_of_answer heq h
    exact hu
  · next heq =>
    have hu := fot_of_answer heq h
    dsimp only
    split
    · simp [hu]
    · split <;> simp [hu]

@[simp] theorem State.endJob_fot (id : Nat) (j : Job) : (s.endJob id j).fot = s.fot := by
  unfold State.endJob
  split
  · simp
  · dsimp only
    split
    · split <;> split <;> simp
    · simp

@[simp] theorem State.failJob_fot (id : Nat) (j : Job) (status code : Nat) : (s.failJob id j status code).fot = s.fot := by
  unfold State.failJob
  split
  · simp
  · dsimp only
    split <;> simp

/-! ### Records folded or dropped (R217, R238) -/

@[simp] theorem State.takeRec_fot (log pos : Nat) : (s.takeRec log pos).fot = s.fot := rfl
@[simp] theorem State.acked_fot (log pos : Nat) : (s.acked log pos).fot = s.fot := rfl

@[simp] theorem State.dropReport_fot (log : Nat) (r : Rec) (reason : Nat) : (s.dropReport log r reason).fot = s.fot := by
  unfold State.dropReport
  dsimp only
  rw [State.event_fot]
  split
  · split
    · split <;> simp
    · simp
  · rfl

@[simp] theorem State.recFails_fot (log : Nat) (r : Rec) (reason : Nat) : (s.recFails log r reason).fot = s.fot := by
  unfold State.recFails
  dsimp only
  split
  · split
    · split <;> simp
    · simp
  · simp

@[simp] theorem State.dropRec_fot (log : Nat) (r : Rec) (reason : Nat) : (s.dropRec log r reason).fot = s.fot := by
  unfold State.dropRec
  simp

/-! ### Parked waiters (R191, R420) -/

@[simp] theorem State.pokeOne_fot (key p : Nat) : (s.pokeOne key p).fot = s.fot := by
  unfold State.pokeOne
  split
  · rfl
  · split
    · rfl
    · split
      · dsimp only
        split
        · split <;> simp
        · split <;> rfl
      · rfl

/-- What every waiter's own step leaves, a step for every waiter leaves. -/
theorem foldl_waiters_fot {f : State → Nat × Train → Nat × Portion → State} (hf : ∀ u e o, (f u e o).fot = u.fot) (ts : Table Train) :
    (ts.foldl (fun u e => e.2.portions.foldl (fun u o => f u e o) u) s).fot = s.fot :=
  foldl_fot s (fun u e => foldl_fot u (fun v o => hf v e o) e.2.portions) ts

@[simp] theorem State.pokeWatch_fot : s.pokeWatch.fot = s.fot := by
  unfold State.pokeWatch
  refine foldl_waiters_fot s (fun u e o => ?_) s.trains
  split <;> simp

@[simp] theorem State.watchAgain_fot (key p : Nat) : (s.watchAgain key p).fot = s.fot := by
  unfold State.watchAgain
  split
  · rfl
  · split
    · rfl
    · split
      · extract_lets ps x u fail
        have hu : u.fot = s.fot := s.translate_fot _ _ _ _ _
        have hfail : ∀ code, (fail code).fot = s.fot := by
          intro code
          simp only [fail]
          split <;> simp [hu]
        split
        · exact hfail _
        · split
          · exact hfail _
          · split
            · exact hfail _
            · simp [hu]
      · rfl

@[simp] theorem State.rewatch_fot (sel : Nat → Nat → Nat → Bool) : (s.rewatch sel).fot = s.fot := by
  unfold State.rewatch
  refine foldl_waiters_fot s (fun u e o => ?_) s.trains
  split
  · split <;> simp
  · rfl

/-! ### The steps of a change before and after the entry is written (R74) -/

@[simp] theorem State.foldStack_fot (log : Nat) (r : Rec) (pa : Nat) : (s.foldStack log r pa).fot = s.fot := by
  unfold State.foldStack
  split
  · simp
  · split
    · simp
    · dsimp only
      split <;> simp

@[simp] theorem State.foldReceived_fot (frame : Nat) : (s.foldReceived frame).fot = s.fot := by
  unfold State.foldReceived
  refine foldl_fot _ (fun u e => foldl_fot _ (fun v r => ?_) _) _
  split <;> simp

@[simp] theorem State.unpin_fot (p n : Nat) : (s.unpin p n).fot = s.fot := by
  unfold State.unpin State.pinFilled
  simp

@[simp] theorem State.unpinFrame_fot (f : Nat) : (s.unpinFrame f).fot = s.fot := by
  unfold State.unpinFrame
  refine foldl_fot _ (fun u p => foldl_fot _ (fun v n => ?_) _) _
  split <;> simp

@[simp] theorem State.zeroFrame_fot (f : Nat) : (s.zeroFrame f).fot = s.fot := rfl

@[simp] theorem State.dropFrame_fot (frame : Nat) : (s.dropFrame frame).fot = s.fot := by
  unfold State.dropFrame
  dsimp only
  rw [State.rewatch_fot]
  refine (foldl_fot _ (fun u e => ?_) _).trans (foldl_fot _ (fun u e => ?_) _)
  · rfl
  · rfl

end Sys2Proof.Machine
end

section
set_option Elab.async false

namespace Sys2Proof.Machine

/-! ### What a register write leaves, and what a slot's own notes read back -/

section
variable (s : State) (off lo n v : Nat)

@[simp] theorem State.setRegBits_mem : (s.setRegBits off lo n v).mem = s.mem := rfl
@[simp] theorem State.setRegBits_trains : (s.setRegBits off lo n v).trains = s.trains := rfl
@[simp] theorem State.setRegBits_tasks : (s.setRegBits off lo n v).tasks = s.tasks := rfl
@[simp] theorem State.setRegBits_cores : (s.setRegBits off lo n v).cores = s.cores := rfl
@[simp] theorem State.setRegBits_slots : (s.setRegBits off lo n v).slots = s.slots := rfl
@[simp] theorem State.plainWrite_cores (x : W64) : (s.plainWrite off x).cores = s.cores := rfl
@[simp] theorem State.plainWrite_mem (x : W64) : (s.plainWrite off x).mem = s.mem := rfl
@[simp] theorem State.plainWrite_fot (x : W64) : (s.plainWrite off x).fot = s.fot := rfl

@[simp] theorem State.pslot_setPslot (p : Nat) (k : PSlot) : (s.setPslot p k).pslot p = k := by simp [State.pslot, State.setPslot]
@[simp] theorem State.pslot_setRegBits (p : Nat) : (s.setRegBits off lo n v).pslot p = s.pslot p := by simp [State.pslot]
theorem State.regBits_setPslot (p : Nat) (k : PSlot) : (s.setPslot p k).regBits off lo n = s.regBits off lo n := by simp [State.regBits, State.reg]

/-- A field of which a plain write stores no bit and clears none stays (R9). -/
theorem State.regBits_plainWrite (x : W64) (hs : Table.sorted s.bar = true) (hn : lo + n ≤ 64) (hm : ∀ i < n, (writeMask off ||| w1cMask off).getLsbD (lo + i) = false) :
    (s.plainWrite off x).regBits off lo n = s.regBits off lo n := by
  refine bits_congr fun i hi => ?_
  have hbit := hm i hi
  rw [BitVec.getLsbD_or, Bool.or_eq_false_iff] at hbit
  rw [((Proofs.registerFields s off hs).2 x).1 (lo + i) (by omega), hbit.1, hbit.2]
  rfl

/-- A plain write keeps the register file's canonical form, and every other register. -/
theorem State.sorted_plainWrite (x : W64) (hs : Table.sorted s.bar = true) : Table.sorted (s.plainWrite off x).bar = true := s.sorted_setReg off _ hs
theorem State.reg_plainWrite_other {o : Nat} (x : W64) (h : o ≠ off) : (s.plainWrite off x).reg o = s.reg o := s.reg_setReg_other off o _ h

end

/-! ### Slot requests (R65, R149) -/

/-- No plain write of PCTL reaches its low bits, where STATE and ERR lie. -/
theorem pctl_masks : ∀ p < 65, ∀ i < 2, (writeMask (slotOff p 0) ||| w1cMask (slotOff p 0)).getLsbD (0 + i) = false := by decide +kernel

section
variable {s : State} {p : Nat}

theorem State.slotOpen_iff : s.slotOpen p = true ↔ s.pctlState p < 2 := decide_eq_true_iff
theorem State.slotOpen_eq_false : s.slotOpen p = false ↔ 2 ≤ s.pctlState p := by rw [State.slotOpen, decide_eq_false_iff_not, Nat.not_lt]

/-- OWNID and WGT of a slot that is not open stay. -/
theorem State.pctlFields_closed {v : W64} (h : 2 ≤ s.pctlState p) : s.pctlFields p v = s := by
  rw [State.pctlFields, State.slotOpen_eq_false.mpr h]
  rfl

/-- Storing OWNID and WGT leaves a slot in its state. -/
theorem State.pctlState_pctlFields (v : W64) (hp : p ≤ 64) (hs : Table.sorted s.bar = true) : (s.pctlFields p v).pctlState p = s.pctlState p := by
  unfold State.pctlFields
  split
  · exact State.regBits_plainWrite s (slotOff p 0) 0 2 _ hs (by decide) (pctl_masks p (by omega))
  · rfl

/-- A slot that STOP has made STOPPING. -/
def State.stopping (s : State) (p : Nat) : State :=
  let u := (s.pctlErr p 0).setRegBits (slotOff p 0) 0 2 3
  (u.setPslot p { u.pslot p with stopAt := u.time }).setTier p 1

/-- STOP leaves the slot STOPPING at the first tier since now, its trains, tasks and memory as they were. -/
theorem State.stopping_leaves (hs : Table.sorted s.bar = true) : (s.stopping p).pctlState p = 3 ∧ (s.stopping p).regBits (slotOff p 0) 12 4 = 0 ∧ ((s.stopping p).pslot p).stopAt = s.time ∧
    ((s.stopping p).pslot p).tier = 1 ∧ (s.stopping p).trains = s.trains ∧ (s.stopping p).tasks = s.tasks ∧ (s.stopping p).mem = s.mem := by
  have hother : slotOff p 0 ≠ slotOff p 0x390 := by unfold slotOff; omega
  have herr : Table.sorted (s.pctlErr p 0).bar = true := State.sorted_setRegBits _ _ _ _ _ hs
  have hreg : ∀ lo n, (s.stopping p).regBits (slotOff p 0) lo n = ((s.pctlErr p 0).setRegBits (slotOff p 0) 0 2 3).regBits (slotOff p 0) lo n := by
    intro lo n
    rw [State.stopping, State.setTier, State.regBits_setRegBits_other _ _ _ _ _ _ _ hother, State.regBits_setPslot, State.regBits_setPslot]
  refine ⟨?_, ?_, ?_, ?_, ?_, ?_, ?_⟩
  · exact (hreg 0 2).trans (State.regBits_setRegBits_same _ _ _ _ _ herr (by decide))
  · rw [hreg, State.regBits_setRegBits_beside _ _ _ _ _ _ _ herr (by decide) (by decide)]
    exact State.regBits_setRegBits_same _ _ _ _ _ hs (by decide)
  · simp [State.stopping, State.setTier, State.time_setRegBits, State.pctlErr]
  · simp [State.stopping, State.setTier]
  · simp [State.stopping, State.setTier, State.pctlErr]
  · simp [State.stopping, State.setTier, State.pctlErr]
  · simp [State.stopping, State.setTier, State.pctlErr]

variable (hx : s.ev.x = p) (hp : p ≤ 64) (ha : Claims.accepts s (slotOff p 0))
include hx hp ha

/-- PCTL_STOP of an accepted write. -/
theorem execPctlStop_accepted (hv : bits s.ev.val 8 2 = 1) : exec .pctlStop s = .next (
    if (s.pctlFields p s.ev.val).pctlState p ≠ 2 then (s.pctlFields p s.ev.val).pctlErr p 7 else (s.pctlFields p s.ev.val).stopping p) := by
  subst hx
  show execPctlStop s = _
  rw [execPctlStop, if_neg (by omega), State.regWrite_accepted _ ha]
  rfl

/-- PCTL_FREE of an accepted write. -/
theorem execPctlFree_accepted (hv : bits s.ev.val 8 2 = 3) {u : State} (hu : u = s.pctlFields p s.ev.val) : exec .pctlFree s = .next (
    if u.pctlState p ≠ 1 then u.pctlErr p 7 else if u.ownsFrames (u.ownid p) then u.pctlErr p 8 else ((u.pctlErr p 0).setRegBits (slotOff p 0) 0 2 0).clearBitmaps p) := by
  subst hx hu
  show execPctlFree s = _
  rw [execPctlFree, if_neg (by omega), State.regWrite_accepted _ ha]

section
variable (hv : bits s.ev.val 8 2 = 2)
include hv

/-- PCTL_RUN of a slot that is not open. -/
theorem execPctlRun_closed (h : 2 ≤ s.pctlState p) : exec .pctlRun s = .next (s.pctlErr p 7) := by
  subst hx
  show execPctlRun s = _
  rw [execPctlRun, if_neg (by omega), State.regWrite_accepted _ ha]
  dsimp only
  rw [State.pctlFields_closed h, State.slotOpen_eq_false.mpr h]
  rfl

variable {u : State} (hu : u = s.pctlFields p s.ev.val) (ho : u.slotOpen p = true)
include hu ho

/-- PCTL_RUN of an open slot whose checks do not all pass. -/
theorem execPctlRun_fails {e : Nat} {es : List Nat} (h : u.runErrs p = e :: es) : exec .pctlRun s = .next (u.pctlErr p e) := by
  subst hx hu
  show execPctlRun s = _
  rw [execPctlRun, if_neg (by omega), State.regWrite_accepted _ ha]
  dsimp only
  rw [ho, h]
  rfl

/-- PCTL_RUN of an open slot whose checks all pass. -/
theorem execPctlRun_passes (h : u.runErrs p = []) : exec .pctlRun s = .next (if u.restoreWaits p then u else ((u.pctlErr p 0).setRegBits (slotOff p 0) 0 2 2).restoreSlot p) := by
  subst hx hu
  show execPctlRun s = _
  rw [execPctlRun, if_neg (by omega), State.regWrite_accepted _ ha]
  dsimp only
  rw [ho, h]
  rfl

end

end

end Sys2Proof.Machine
end

section
set_option Elab.async false

namespace Sys2Proof.Machine

/-! ### What quotas and pins do with the lines (R67-R70, R90) -/

section
variable (s : State)

/-- Where no line is counted, lines leave their ways with nothing spilled (R200). -/
theorem State.evictOne_uncounted (h : s.counted = []) (x : Nat × SLine) : (s.evictOne [x]).2 = s := by
  simp [State.evictOne, h]

/-- A change of quotas then moves lines in the slices, and changes nothing else. -/
theorem State.requota_frame (sl : Nat) (old new : W64) (h : s.counted = []) : ∃ x, s.requota sl old new = { s with sets := x } := by
  unfold State.requota
  refine foldl_keeps (fun u : State => ∃ x, u = { s with sets := x }) _ _ s ⟨s.sets, rfl⟩ (fun u e hu => ?_)
  obtain ⟨x, rfl⟩ := hu
  dsimp only
  rw [foldl_keeps (fun u : State => u = { s with sets := x }) _ _ _ rfl (fun u y hu => by subst hu; exact State.evictOne_uncounted { s with sets := x } h y)]
  exact ⟨_, rfl⟩

/-- A frame's lines leave the slices, and nothing else changes. -/
theorem State.evictFrame_frame (frame : Nat) : ∃ x, s.evictFrame frame = { s with sets := x } := by
  unfold State.evictFrame
  refine foldl_keeps (fun u : State => ∃ x, u = { s with sets := x }) _ _ s ⟨s.sets, rfl⟩ (fun u e hu => ?_)
  obtain ⟨x, rfl⟩ := hu
  exact ⟨_, rfl⟩

/-- The writes that land change memory with its stamps, and are no longer waiting. -/
theorem State.flushPosts_frame : ∃ m st ps, s.flushPosts = { s with mem := m, stamps := st, posts := ps } := by
  unfold State.flushPosts
  refine foldl_keeps (fun u : State => ∃ m st ps, u = { s with mem := m, stamps := st, posts := ps }) _ _ _ ⟨s.mem, s.stamps, _, rfl⟩ (fun u x hu => ?_)
  obtain ⟨m, st, ps, rfl⟩ := hu
  have hnow : ∀ a bs, ∃ m' st' ps', State.deviceNow { s with mem := m, stamps := st, posts := ps } a bs = { s with mem := m', stamps := st', posts := ps' } := by
    intro a bs
    obtain ⟨m', st', hframe⟩ := State.deviceNow_frame bs { s with mem := m, stamps := st, posts := ps } a
    exact ⟨m', st', ps, hframe⟩
  split
  · exact hnow _ _
  · exact hnow _ _

theorem State.flushPosts_none (h : s.posts = []) : s.flushPosts = s := by
  obtain ⟨⟩ := s
  subst h
  rfl

variable (p n : Nat)

/-- A frame unpinned: what changes beside its slot's notes. -/
theorem State.unpin_frame : ∃ m st ps x, s.unpin p n = { s.pinFilled p n with mem := m, stamps := st, posts := ps, sets := x } := by
  obtain ⟨x, hx⟩ := (s.pinFilled p n).evictFrame_frame (bits (s.pin p n) 0 24)
  obtain ⟨m, st, ps, h⟩ := State.flushPosts_frame { s.pinFilled p n with sets := x }
  exact ⟨m, st, ps, x, by rw [State.unpin, hx, h]⟩

/-- With no write of the device waiting, only the slot's notes and the slices change. -/
theorem State.unpin_quiet (h : s.posts = []) : ∃ x ps, s.unpin p n = { s with sets := x, slots := ps } := by
  obtain ⟨x, hx⟩ := (s.pinFilled p n).evictFrame_frame (bits (s.pin p n) 0 24)
  refine ⟨x, (s.pinFilled p n).slots, ?_⟩
  rw [State.unpin, hx, State.flushPosts_none { s.pinFilled p n with sets := x } h]
  rfl

end

/-! ### Writes of a PIN register (R70) -/

section
variable (s : State) (p n : Nat)

/-- The offset of PINn. -/
def pinOff (p n : Nat) : Nat := slotOff p (0x300 + 8 * n)

/-- A slot's PINn with EN clear, naming a frame. -/
def State.pinNamed (f : Nat) : State := (s.setRegBits (pinOff p n) 63 1 0).setRegBits (pinOff p n) 0 24 f

theorem State.pin_bit (k : Nat) : (s.pin p n).getLsbD k = true ↔ s.regBits (pinOff p n) k 1 = 1 := bits_one_eq_one.symm
theorem State.pin_bit_clear (k : Nat) : (s.pin p n).getLsbD k = false ↔ s.regBits (pinOff p n) k 1 = 0 := bits_one_eq_zero.symm

section
variable {s} {p n} {f : Nat} (hs : Table.sorted s.bar = true)
include hs

theorem State.sorted_pinNamed : Table.sorted (s.pinNamed p n f).bar = true := State.sorted_setRegBits _ _ _ _ _ (State.sorted_setRegBits _ _ _ _ _ hs)
theorem State.pinNamed_clear : (s.pinNamed p n f).regBits (pinOff p n) 63 1 = 0 := by
  rw [State.pinNamed, State.regBits_setRegBits_beside _ _ _ _ _ _ _ (State.sorted_setRegBits _ _ _ _ _ hs) (by decide) (by decide)]
  exact State.regBits_setRegBits_same _ _ _ _ _ hs (by decide)
theorem State.pinNamed_names (hf : f < 2 ^ 24) : (s.pinNamed p n f).regBits (pinOff p n) 0 24 = f := by
  rw [State.pinNamed, State.regBits_setRegBits_same _ _ _ _ _ (State.sorted_setRegBits _ _ _ _ _ hs) (by decide), Nat.mod_eq_of_lt hf]

end

/-- A frame pinned: EN set, FAIL clear, the fill awaited; and one that cannot be, FAIL set. -/
def State.pinned (f : Nat) : State :=
  let u := s.pinNamed p n f
  ((u.setRegBits (pinOff p n) 63 1 1).setRegBits (pinOff p n) 62 1 0).setPslot p { u.pslot p with filling := (u.pslot p).filling ++ [n] }
def State.pinFails (f : Nat) : State := (s.pinNamed p n f).setRegBits (pinOff p n) 62 1 1

theorem State.pinned_leaves {f : Nat} (hs : Table.sorted s.bar = true) (hf : f < 2 ^ 24) : bits ((s.pinned p n f).pin p n) 0 24 = f ∧ ((s.pinned p n f).pin p n).getLsbD 63 = true ∧
    ((s.pinned p n f).pin p n).getLsbD 62 = false ∧ n ∈ ((s.pinned p n f).pslot p).filling := by
  have hnamed : Table.sorted (s.pinNamed p n f).bar = true := State.sorted_pinNamed hs
  have hset : Table.sorted ((s.pinNamed p n f).setRegBits (pinOff p n) 63 1 1).bar = true := State.sorted_setRegBits _ _ _ _ _ hnamed
  have hreg : ∀ lo k, (s.pinned p n f).regBits (pinOff p n) lo k = (((s.pinNamed p n f).setRegBits (pinOff p n) 63 1 1).setRegBits (pinOff p n) 62 1 0).regBits (pinOff p n) lo k :=
    fun lo k => State.regBits_setPslot _ _ _ _ _ _
  refine ⟨?_, (State.pin_bit _ _ _ _).mpr ?_, (State.pin_bit_clear _ _ _ _).mpr ?_, ?_⟩
  · refine (hreg 0 24).trans ?_
    rw [State.regBits_setRegBits_beside _ _ _ _ _ _ _ hset (by decide) (by decide), State.regBits_setRegBits_beside _ _ _ _ _ _ _ hnamed (by decide) (by decide), State.pinNamed_names hs hf]
  · rw [hreg, State.regBits_setRegBits_beside _ _ _ _ _ _ _ hset (by decide) (by decide)]
    exact State.regBits_setRegBits_same _ _ _ _ _ hnamed (by decide)
  · rw [hreg]
    exact State.regBits_setRegBits_same _ _ _ _ _ hset (by decide)
  · simp [State.pinned]

theorem State.pinFails_leaves {f : Nat} (hs : Table.sorted s.bar = true) (hf : f < 2 ^ 24) : bits ((s.pinFails p n f).pin p n) 0 24 = f ∧ ((s.pinFails p n f).pin p n).getLsbD 63 = false ∧
    ((s.pinFails p n f).pin p n).getLsbD 62 = true := by
  have hnamed : Table.sorted (s.pinNamed p n f).bar = true := State.sorted_pinNamed hs
  refine ⟨?_, (State.pin_bit_clear _ _ _ _).mpr ?_, (State.pin_bit _ _ _ _).mpr ?_⟩
  · show (s.pinFails p n f).regBits (pinOff p n) 0 24 = f
    rw [State.pinFails, State.regBits_setRegBits_beside _ _ _ _ _ _ _ hnamed (by decide) (by decide), State.pinNamed_names hs hf]
  · rw [State.pinFails, State.regBits_setRegBits_beside _ _ _ _ _ _ _ hnamed (by decide) (by decide), State.pinNamed_clear hs]
  · exact State.regBits_setRegBits_same _ _ _ _ _ hnamed (by decide)

/-- The state in which a clear PINn is written: its frame is unpinned first. -/
def State.pinFree : State := if (s.pin p n).getLsbD 63 then s.unpin p n else s

theorem State.pinFree_leaves : (s.pinFree p n).bar = s.bar ∧ ((s.pin p n).getLsbD 63 = true → n ∉ ((s.pinFree p n).pslot p).filling) ∧ (s.posts = [] → (s.pinFree p n).mem = s.mem) := by
  unfold State.pinFree
  split
  · obtain ⟨m, st, ps, x, h⟩ := s.unpin_frame p n
    refine ⟨by rw [h]; rfl, fun _ => ?_, fun hq => ?_⟩
    · have hslot : (s.unpin p n).pslot p = (s.pinFilled p n).pslot p := by rw [h]; rfl
      rw [hslot, State.pinFilled, State.pslot_setPslot]
      simp
    · obtain ⟨x, ps, h⟩ := s.unpin_quiet p n hq
      rw [h]
  · next h => exact ⟨rfl, fun hset => absurd hset h, fun _ => rfl⟩

variable (v : W64)

/-- A set PINn keeps its frame. -/
theorem State.pinWrite_set (hv : v.getLsbD 63 = true) (hset : (s.pin p n).getLsbD 63 = true) :
    s.pinWrite p n v = if bits v 0 24 = bits (s.pin p n) 0 24 then s else s.setRegBits (pinOff p n) 62 1 1 := by
  have hboth : (v.getLsbD 63 && (s.reg (slotOff p (0x300 + 8 * n))).getLsbD 63) = true := Bool.and_eq_true_iff.mpr ⟨hv, hset⟩
  unfold State.pinWrite
  dsimp only
  rw [if_pos hboth]
  rfl

/-- A clear one takes the frame, or fails. -/
theorem State.pinWrite_pins (hv : v.getLsbD 63 = true) (hclear : (s.pin p n).getLsbD 63 = false) :
    s.pinWrite p n v = if (s.pinNamed p n (bits v 0 24)).mayPin p (bits v 0 24) then s.pinned p n (bits v 0 24) else s.pinFails p n (bits v 0 24) := by
  have hold : (s.reg (slotOff p (0x300 + 8 * n))).getLsbD 63 = false := hclear
  unfold State.pinWrite
  dsimp only
  rw [hold, hv]
  rfl

/-- EN written clear. -/
theorem State.pinWrite_clears (hv : v.getLsbD 63 = false) : s.pinWrite p n v = (s.pinFree p n).pinNamed p n (bits v 0 24) := by
  unfold State.pinWrite
  dsimp only
  rw [hv]
  rfl

end

section
variable {s : State} {p n : Nat} (hx : s.ev.x = p) (hy : s.ev.y = n) (hp : p ≤ 64) (hn : n ≤ 15) (ha : Claims.accepts s (slotOff p (0x300 + 8 * n)))
include hx hy hp hn ha

theorem execPinSet_accepted (hv : s.ev.val.getLsbD 63 = true) : exec .pinSet s = .next (s.pinWrite p n s.ev.val) := by
  subst hx hy
  show execPinSet s = _
  rw [execPinSet, if_neg (by simp only [hv, Bool.not_true, Bool.false_eq_true, or_false]; omega), State.regWrite_accepted _ ha]

theorem execPinClear_accepted (hv : s.ev.val.getLsbD 63 = false) : exec .pinClear s = .next (s.pinWrite p n s.ev.val) := by
  subst hx hy
  show execPinClear s = _
  rw [execPinClear, if_neg (by simp only [hv, Bool.false_eq_true, or_false]; omega), State.regWrite_accepted _ ha]

/-- PIN_CLEAR leaves PINn clear, naming the frame written; a frame that it pinned awaits its fill no longer. -/
theorem execPinClear_leaves (hs : Table.sorted s.bar = true) (hv : s.ev.val.getLsbD 63 = false) : ∃ t, exec .pinClear s = .next t ∧ (t.pin p n).getLsbD 63 = false ∧
    bits (t.pin p n) 0 24 = bits s.ev.val 0 24 ∧ ((s.pin p n).getLsbD 63 = true → n ∉ (t.pslot p).filling) ∧ (s.posts = [] → t.mem = s.mem) := by
  obtain ⟨hbar, hfill, hmem⟩ := s.pinFree_leaves p n
  have hfree : Table.sorted (s.pinFree p n).bar = true := by rw [hbar]; exact hs
  refine ⟨_, execPinClear_accepted hx hy hp hn ha hv, ?_⟩
  rw [State.pinWrite_clears _ _ _ _ hv]
  refine ⟨(State.pin_bit_clear _ _ _ _).mpr (State.pinNamed_clear hfree), State.pinNamed_names hfree (bits_lt _ _ _), fun hset => ?_, fun hq => by rw [State.pinNamed, State.setRegBits_mem, State.setRegBits_mem]; exact hmem hq⟩
  rw [State.pinNamed, State.pslot_setRegBits, State.pslot_setRegBits]
  exact hfill hset

end

/-- SQUOTA_WRITE of an accepted write (R68, R90). -/
theorem execSquotaWrite_accepted {s : State} {n : Nat} (hx : s.ev.x = n) (hn : n < 2048) (ha : Claims.accepts s (squotaOff n)) : exec .squotaWrite s = .next (
    if s.quotaBad n s.ev.val then s.setRegBits partStatusOff 1 1 1
    else ((s.requota n (s.quota n) s.ev.val).setReg (squotaOff n) s.ev.val).setDie (n / 256) { s.die (n / 256) with lent := (s.die (n / 256)).lent.filter (fun e => decide (e.1 / 4 ≠ n)) }) := by
  subst hx
  show execSquotaWrite s = _
  unfold execSquotaWrite
  dsimp only
  rw [if_neg (by omega), State.regWrite_accepted _ ha]

end Sys2Proof.Machine
end

section
set_option Elab.async false

namespace Sys2Proof.Machine

/-! ### The checks of an ownership change (R73) -/

theorem pchOf_lt (pa : Nat) : pchOf pa < 64 := Nat.xor_lt_two_pow (n := 6) (Nat.mod_lt _ (by decide)) (Nat.mod_lt _ (by decide))
theorem dieOf_lt (pa : Nat) : dieOf pa < 8 := Nat.mod_lt _ (by decide)
theorem homeOf_lt (pa : Nat) : homeOf pa < 2048 := by
  have hbank : (pa / 2 ^ 8 % 4) ^^^ (pa / 2 ^ 10 % 4) < 2 ^ 2 := Nat.xor_lt_two_pow (Nat.mod_lt _ (by decide)) (Nat.mod_lt _ (by decide))
  have hch := pchOf_lt pa
  have hdie := dieOf_lt pa
  rw [homeOf]
  omega

theorem State.fotErr_lt (s : State) (first count new : Nat) : s.fotErr first count new < 2 ^ 8 := by
  unfold State.fotErr
  dsimp only
  split
  · decide
  split
  · decide
  split
  · decide
  split
  · decide
  split
  · decide
  split <;> decide

section
variable {s u : State} (h : ∀ o < 0x410400, u.reg o = s.reg o)
include h

/-- The bits of a slot's channel and slice maps lie below the registers of the ownership change. -/
theorem State.slotBit_same {p off i : Nat} (hp : p < 65) (hi : off + 8 * (i / 64) < 0x400) : u.slotBit p off i = s.slotBit p off i := by
  unfold State.slotBit State.slotReg
  rw [h _ (by unfold slotOff; omega)]

theorem State.usable_same (d : Nat) : u.usable d = s.usable d := by
  unfold State.usable
  rw [h _ (by decide)]

/-- The checks read the usable dies and the slots' registers alone. -/
theorem State.fotErr_same (first count new : Nat) : u.fotErr first count new = s.fotErr first count new := by
  have hslot : ∀ p ∈ List.range 65, ((decide (u.pctlState p = 1) || decide (u.pctlState p = 2)) && decide (u.ownid p = new)) =
      ((decide (s.pctlState p = 1) || decide (s.pctlState p = 2)) && decide (s.ownid p = new)) := by
    intro p hp
    have hlt := List.mem_range.mp hp
    have hreg : u.slotReg p 0 = s.slotReg p 0 := h _ (by unfold slotOff; omega)
    have hstate : u.pctlState p = s.pctlState p := by rw [State.pctlState, hreg, State.pctlState]
    have hid : u.ownid p = s.ownid p := by rw [State.ownid, hreg, State.ownid]
    rw [hstate, hid]
  unfold State.fotErr
  simp only [State.usable_same h, List.find?_congr hslot]
  congr 3
  split
  · rfl
  · next p hp =>
    have hlt : p < 65 := List.mem_range.mp (List.mem_of_find?_eq_some hp)
    have hchan : ∀ f, u.slotBit p 0x200 (dieOf (f * 65536) * 64 + pchOf (f * 65536)) = s.slotBit p 0x200 (dieOf (f * 65536) * 64 + pchOf (f * 65536)) := by
      intro f
      have hd := dieOf_lt (f * 65536)
      have hc := pchOf_lt (f * 65536)
      exact State.slotBit_same h hlt (by omega)
    have hslice : ∀ f, (List.range 4).any (fun i => !u.slotBit p 0x100 (frameSlice f + i)) = (List.range 4).any (fun i => !s.slotBit p 0x100 (frameSlice f + i)) := by
      intro f
      rw [Bool.eq_iff_iff, List.any_eq_true, List.any_eq_true]
      refine exists_congr fun i => and_congr_right fun hi => ?_
      have hh := homeOf_lt (f * 65536)
      have hi := List.mem_range.mp hi
      rw [State.slotBit_same h hlt (by unfold frameSlice; omega)]
    simp only [hchan, hslice]

end

/-! ### The ownership change begun (R73) -/

theorem State.plainWrite_ev (s : State) (off : Nat) (v : W64) : (s.plainWrite off v).ev = s.ev := rfl
theorem State.setRegBits_ev (s : State) (off lo n v : Nat) : (s.setRegBits off lo n v).ev = s.ev := rfl

section
variable {s : State} (ha : Claims.accepts s (fotOff 8))
include ha

theorem execFotGo_idle (hv : s.ev.val.getLsbD 63 = false) : exec .fotGo s = .next (s.plainWrite (fotOff 8) s.ev.val) := by
  show execFotGo s = _
  rw [execFotGo, State.regWrite_accepted _ ha]
  dsimp only
  rw [if_neg (by rw [hv]; simp), State.plainWrite_ev, hv]
  rfl

theorem execFotGo_busy (hv : s.ev.val.getLsbD 63 = true) (hb : s.regBits (fotOff 0x10) 63 1 = 1) : exec .fotGo s = .next (s.setRegBits (fotOff 0x10) 48 8 4) := by
  show execFotGo s = _
  rw [execFotGo, State.regWrite_accepted _ ha, hv, hb]
  rfl

end

/-- The range and the target of an ownership change, with the code that its checks give. -/
def State.fotChecked (s : State) (e : Nat) : State := (s.plainWrite (fotOff 8) s.ev.val).setRegBits (fotOff 0x10) 48 8 e
/-- The command that an ownership change runs. -/
def State.withFotCmd (s : State) (c : W64 × W64) : State := { s with fotCmd := c }
/-- The change under way: BUSY, no frame done, its command kept. -/
def State.fotStarts (s : State) : State := (((s.fotChecked 0).setRegBits (fotOff 0x10) 63 1 1).setRegBits (fotOff 0x10) 0 24 0).withFotCmd (s.reg (fotOff 0), s.ev.val)

section
variable (s : State) (c : W64 × W64)

@[simp] theorem State.withFotCmd_fot : (s.withFotCmd c).fot = s.fot := rfl
@[simp] theorem State.withFotCmd_mem : (s.withFotCmd c).mem = s.mem := rfl
@[simp] theorem State.withFotCmd_fotCmd : (s.withFotCmd c).fotCmd = c := rfl
@[simp] theorem State.withFotCmd_regBits (off lo n : Nat) : (s.withFotCmd c).regBits off lo n = s.regBits off lo n := rfl

end

section
variable {s : State} (hb : s.regBits (fotOff 0x10) 63 1 = 0)
include hb

theorem execFotGo_checked (ha : Claims.accepts s (fotOff 8)) (hv : s.ev.val.getLsbD 63 = true) {e : Nat} (he : e = s.fotErr (bits (s.reg (fotOff 0)) 0 24) (bits (s.reg (fotOff 0)) 24 24 + 1) (bits s.ev.val 0 8)) :
    exec .fotGo s = .next (if e ≠ 0 then s.fotChecked e else s.fotStarts) := by
  have hrange : (s.plainWrite (fotOff 8) s.ev.val).reg (fotOff 0) = s.reg (fotOff 0) := State.reg_plainWrite_other s _ _ (by decide)
  have hsame : ∀ o < 0x410400, (s.plainWrite (fotOff 8) s.ev.val).reg o = s.reg o := fun o ho => State.reg_plainWrite_other s _ _ (by unfold fotOff; omega)
  show execFotGo s = _
  rw [execFotGo, State.regWrite_accepted _ ha]
  dsimp only
  rw [if_neg (by rw [hb]; simp), State.plainWrite_ev, hv, Bool.not_true, if_neg Bool.false_ne_true, hrange, State.fotErr_same hsame, ← he]
  by_cases h0 : e = 0
  · rw [if_neg (not_not.mpr h0), if_neg (not_not.mpr h0), h0, State.setRegBits_ev (s.plainWrite (fotOff 8) s.ev.val), State.plainWrite_ev, State.fotStarts, State.fotChecked, State.withFotCmd]
  · rw [if_pos h0, if_pos h0, State.fotChecked]

theorem State.fotChecked_leaves (hs : Table.sorted s.bar = true) {e : Nat} (he : e < 2 ^ 8) :
    (s.fotChecked e).regBits (fotOff 0x10) 48 8 = e ∧ (s.fotChecked e).regBits (fotOff 0x10) 63 1 = 0 := by
  have hplain := State.sorted_plainWrite s (fotOff 8) s.ev.val hs
  refine ⟨?_, ?_⟩
  · rw [State.fotChecked, State.regBits_setRegBits_same _ _ _ _ _ hplain (by decide), Nat.mod_eq_of_lt he]
  · rw [State.fotChecked, State.regBits_setRegBits_beside _ _ _ _ _ _ _ hplain (by decide) (by decide), State.regBits, State.reg_plainWrite_other _ _ _ (by decide)]
    exact hb

omit hb in
theorem State.fotStarts_leaves (hs : Table.sorted s.bar = true) : s.fotStarts.regBits (fotOff 0x10) 48 8 = 0 ∧ s.fotStarts.regBits (fotOff 0x10) 63 1 = 1 ∧ s.fotStarts.regBits (fotOff 0x10) 0 24 = 0 := by
  have hchecked : Table.sorted (s.fotChecked 0).bar = true := State.sorted_setRegBits _ _ _ _ _ (State.sorted_plainWrite s _ _ hs)
  have hbusy : Table.sorted ((s.fotChecked 0).setRegBits (fotOff 0x10) 63 1 1).bar = true := State.sorted_setRegBits _ _ _ _ _ hchecked
  refine ⟨?_, ?_, ?_⟩
  · rw [State.fotStarts, State.withFotCmd_regBits, State.regBits_setRegBits_beside _ _ _ _ _ _ _ hbusy (by decide) (by decide), State.regBits_setRegBits_beside _ _ _ _ _ _ _ hchecked (by decide) (by decide),
      State.fotChecked, State.regBits_setRegBits_same _ _ _ _ _ (State.sorted_plainWrite s _ _ hs) (by decide)]
    rfl
  · rw [State.fotStarts, State.withFotCmd_regBits, State.regBits_setRegBits_beside _ _ _ _ _ _ _ hbusy (by decide) (by decide), State.regBits_setRegBits_same _ _ _ _ _ hchecked (by decide)]
    rfl
  · rw [State.fotStarts, State.withFotCmd_regBits, State.regBits_setRegBits_same _ _ _ _ _ hbusy (by decide)]
    rfl

end

theorem State.fotChecked_fot (s : State) (e : Nat) : (s.fotChecked e).fot = s.fot := by rw [State.fotChecked, State.setRegBits_fot, State.plainWrite_fot]
theorem State.fotChecked_mem (s : State) (e : Nat) : (s.fotChecked e).mem = s.mem := by rw [State.fotChecked, State.setRegBits_mem, State.plainWrite_mem]
theorem State.fotStarts_fot (s : State) : s.fotStarts.fot = s.fot := by rw [State.fotStarts, State.withFotCmd_fot, State.setRegBits_fot, State.setRegBits_fot, State.fotChecked_fot]
theorem State.fotStarts_mem (s : State) : s.fotStarts.mem = s.mem := by rw [State.fotStarts, State.withFotCmd_mem, State.setRegBits_mem, State.setRegBits_mem, State.fotChecked_mem]
theorem State.fotStarts_fotCmd (s : State) : s.fotStarts.fotCmd = (s.reg (fotOff 0), s.ev.val) := by rw [State.fotStarts, State.withFotCmd_fotCmd]

/-- An accepted GO, with the code of its checks: the table and memory stay (R73). -/
theorem execFotGo_leaves {s : State} (ha : Claims.accepts s (fotOff 8)) (hs : Table.sorted s.bar = true) (hv : s.ev.val.getLsbD 63 = true) (hb : s.regBits (fotOff 0x10) 63 1 = 0)
    {e : Nat} (he : e = s.fotErr (bits (s.reg (fotOff 0)) 0 24) (bits (s.reg (fotOff 0)) 24 24 + 1) (bits s.ev.val 0 8)) :
    ∃ t, exec .fotGo s = .next t ∧ t.fot = s.fot ∧ t.mem = s.mem ∧ t.regBits (fotOff 0x10) 48 8 = e ∧ (e ≠ 0 → t.regBits (fotOff 0x10) 63 1 = 0) ∧
      (e = 0 → t.regBits (fotOff 0x10) 63 1 = 1 ∧ t.regBits (fotOff 0x10) 0 24 = 0 ∧ t.fotCmd = (s.reg (fotOff 0), s.ev.val)) := by
  refine ⟨_, execFotGo_checked hb ha hv he, ?_⟩
  by_cases h0 : e = 0
  · obtain ⟨herr, hbusy, hdone⟩ := State.fotStarts_leaves hs
    rw [if_neg (not_not.mpr h0)]
    exact ⟨s.fotStarts_fot, s.fotStarts_mem, herr.trans h0.symm, fun h => absurd h0 h, fun _ => ⟨hbusy, hdone, s.fotStarts_fotCmd⟩⟩
  · obtain ⟨herr, hbusy⟩ := State.fotChecked_leaves hb hs (he ▸ s.fotErr_lt _ _ _)
    rw [if_pos h0]
    exact ⟨s.fotChecked_fot e, s.fotChecked_mem e, herr, fun _ => hbusy, fun h => absurd h h0⟩

/-! ### One frame changed (R74) -/

/-- The state in which a frame's entry is written: its records folded, its pins and its counted lines undone, its bytes cleared where asked. -/
def State.changeReady (s : State) (f : Nat) (scrub : Bool) : State :=
  let u := (s.foldReceived f).unpinFrame f
  let v := (u.counted.filter (fun e => decide (e.1 / 256 = f))).foldl (fun v e => v.dropLine e.1) u
  if scrub then v.zeroFrame f else v
/-- A frame's entry written. -/
def State.entryWritten (s : State) (f new : Nat) : State := { s with fot := Sparse.set 0 s.fot f (BitVec.ofNat 8 new) }

theorem State.changeFrame_eq (s : State) (f new : Nat) (scrub : Bool) : s.changeFrame f new scrub = ((s.changeReady f scrub).entryWritten f new).dropFrame f := rfl

@[simp] theorem State.changeReady_fot (s : State) (f : Nat) (scrub : Bool) : (s.changeReady f scrub).fot = s.fot := by
  have hlines : ((((s.foldReceived f).unpinFrame f).counted.filter (fun e => decide (e.1 / 256 = f))).foldl (fun v e => v.dropLine e.1) ((s.foldReceived f).unpinFrame f)).fot = s.fot := by
    rw [foldl_fot (β := Nat × CLine) _ (fun v e => v.dropLine_fot e.1), State.unpinFrame_fot, State.foldReceived_fot]
  unfold State.changeReady
  dsimp only
  split
  · rw [State.zeroFrame_fot, hlines]
  · exact hlines

theorem State.entryWritten_fot (s : State) (f new : Nat) : (s.entryWritten f new).fot = Sparse.set 0 s.fot f (BitVec.ofNat 8 new) := rfl

/-- The change writes the frame's entry, and no other. -/
theorem State.changeFrame_fot (s : State) (f new : Nat) (scrub : Bool) : (s.changeFrame f new scrub).fot = Sparse.set 0 s.fot f (BitVec.ofNat 8 new) := by
  rw [State.changeFrame_eq, State.dropFrame_fot, State.entryWritten_fot, State.changeReady_fot]

/-- The count of the frames done, and the end of the change with its last frame. -/
def State.frameCounted (s : State) (n last : Nat) : State :=
  let u := s.setRegBits (fotOff 0x10) 0 24 (n + 1)
  if n = last then u.setRegBits (fotOff 0x10) 63 1 0 else u

theorem State.frameCounted_fot (s : State) (n last : Nat) : (s.frameCounted n last).fot = s.fot := by
  unfold State.frameCounted
  dsimp only
  split
  · rw [State.setRegBits_fot, State.setRegBits_fot]
  · rw [State.setRegBits_fot]

/-- FOT_FRAME_CHANGE of a change under way. -/
theorem execFotFrameChange_busy {s : State} {n : Nat} (hb : s.regBits (fotOff 0x10) 63 1 = 1) (hn : n = s.regBits (fotOff 0x10) 0 24) : exec .fotFrameChange s =
    .next ((s.changeFrame (bits s.fotCmd.1 0 24 + n) (bits s.fotCmd.2 0 8) (s.fotCmd.2.getLsbD 8)).frameCounted n (bits s.fotCmd.1 24 24)).pokeWatch := by
  show execFotFrameChange s = _
  rw [execFotFrameChange, if_neg (by rw [hb]; decide), ← hn]
  rfl

theorem execFotFrameChange_leaves {s : State} {f : Nat} (hb : s.regBits (fotOff 0x10) 63 1 = 1) (hs : Table.sorted s.fot = true) (hf : f = bits s.fotCmd.1 0 24 + s.regBits (fotOff 0x10) 0 24) :
    ∃ t, exec .fotFrameChange s = .next t ∧ t.frameOwner f = bits s.fotCmd.2 0 8 ∧ ∀ g, g ≠ f → t.frameOwner g = s.frameOwner g := by
  obtain ⟨t, ht, hfot⟩ : ∃ t, exec .fotFrameChange s = .next t ∧ t.fot = Sparse.set 0 s.fot f (BitVec.ofNat 8 (bits s.fotCmd.2 0 8)) :=
    ⟨_, execFotFrameChange_busy hb rfl, by rw [State.pokeWatch_fot, State.frameCounted_fot, State.changeFrame_fot, hf]⟩
  refine ⟨t, ht, ?_, fun g hg => ?_⟩
  · rw [State.frameOwner, hfot, Sparse.get_set_same _ _ _ _ hs, BitVec.toNat_ofNat, Nat.mod_eq_of_lt (bits_lt _ _ _)]
  · rw [State.frameOwner, hfot, Sparse.get_set_other _ _ _ _ _ hg, State.frameOwner]

end Sys2Proof.Machine
end

section
set_option Elab.async false

namespace Sys2Proof.Machine

/-! ### What a change of a frame leaves in memory where nothing waits (R74) -/

section
variable (s : State) (f : Nat)

theorem State.foldReceived_none (h : s.logs = []) : s.foldReceived f = s := by
  unfold State.foldReceived
  rw [h]
  rfl

/-- With no write of the device waiting, unpinning changes the slices, the slots' notes and their registers. -/
theorem State.unpinFrame_quiet (h : s.posts = []) : ∃ x ps b, s.unpinFrame f = { s with sets := x, slots := ps, bar := b } := by
  unfold State.unpinFrame
  refine foldl_keeps (fun u : State => ∃ x ps b, u = { s with sets := x, slots := ps, bar := b }) _ _ s ⟨s.sets, s.slots, s.bar, rfl⟩ (fun u p hu => ?_)
  refine foldl_keeps (fun u : State => ∃ x ps b, u = { s with sets := x, slots := ps, bar := b }) _ _ u hu (fun u n hu => ?_)
  obtain ⟨x, ps, b, rfl⟩ := hu
  split
  · obtain ⟨x', ps', hunpin⟩ := State.unpin_quiet { s with sets := x, slots := ps, bar := b } p n h
    rw [hunpin]
    exact ⟨_, _, _, rfl⟩
  · exact ⟨_, _, _, rfl⟩

/-- No portion of a train waits on a watched address. -/
def State.unwatched : Prop := ∀ e ∈ s.trains, ∀ o ∈ e.2.portions, ∀ kind va pa n cond c d, o.2.wait ≠ .watch kind va pa n cond c d

/-- A fold whose steps all leave the state where they stand leaves it. -/
theorem foldl_idle {σ β : Type} {g : σ → β → σ} {xs : List β} (h : ∀ u, ∀ x ∈ xs, g u x = u) (u : σ) : xs.foldl g u = u :=
  (List.foldl_ext g (fun u _ => u) u h).trans (List.foldl_fixed' (fun _ => rfl) xs)

/-- Then none waits again. -/
theorem State.rewatch_unwatched (sel : Nat → Nat → Nat → Bool) (h : s.unwatched) : s.rewatch sel = s := by
  unfold State.rewatch
  refine foldl_idle (fun u e he => foldl_idle (fun v o ho => ?_) u) s
  split
  · next hwait => exact absurd hwait (h e he o ho _ _ _ _ _ _ _)
  · rfl

/-- A frame's translations, lines and addresses forgotten, every waiter on it watches again. -/
theorem State.dropFrame_rewatches : ∃ u sel, s.dropFrame f = State.rewatch u sel ∧ u.mem = s.mem ∧ u.trains = s.trains := by
  unfold State.dropFrame
  refine ⟨_, _, rfl, ?_⟩
  dsimp only
  refine foldl_keeps (fun u : State => u.mem = s.mem ∧ u.trains = s.trains) _ _ _ ?_ (fun u e h => h)
  exact foldl_keeps (fun u : State => u.mem = s.mem ∧ u.trains = s.trains) _ _ _ ⟨rfl, rfl⟩ (fun u e h => h)

theorem State.dropFrame_mem (h : s.unwatched) : (s.dropFrame f).mem = s.mem := by
  obtain ⟨u, sel, hdrop, hmem, htrains⟩ := s.dropFrame_rewatches f
  rw [hdrop, u.rewatch_unwatched sel (by rw [State.unwatched, htrains]; exact h), hmem]

/-- The memory and the trains as the frame's entry is written. -/
theorem State.changeReady_leaves (scrub : Bool) (hc : s.counted = []) (hl : s.logs = []) (hp : s.posts = []) :
    (s.changeReady f scrub).trains = s.trains ∧ (s.changeReady f scrub).mem = if scrub then s.mem.filter (fun e => decide (e.1 / 65536 ≠ f)) else s.mem := by
  obtain ⟨x, ps, b, h⟩ := s.unpinFrame_quiet f hp
  unfold State.changeReady
  rw [s.foldReceived_none f hl, h]
  dsimp only
  rw [hc]
  cases scrub <;> exact ⟨rfl, rfl⟩

theorem State.changeFrame_mem (new : Nat) (scrub : Bool) (hc : s.counted = []) (hl : s.logs = []) (hp : s.posts = []) (h : s.unwatched) :
    (s.changeFrame f new scrub).mem = if scrub then s.mem.filter (fun e => decide (e.1 / 65536 ≠ f)) else s.mem := by
  obtain ⟨htrains, hmem⟩ := s.changeReady_leaves f scrub hc hl hp
  have hwatch : ((s.changeReady f scrub).entryWritten f new).unwatched := by
    rw [State.unwatched, State.entryWritten, htrains]
    exact h
  rw [State.changeFrame_eq, State.dropFrame_mem _ f hwatch]
  exact hmem

/-- Cells of the frame removed read 0, every other cell stays. -/
theorem read_filter_frame (m : List Host.Cell) (a : Nat) : Memory.read (m.filter (fun e => decide (e.1 / 65536 ≠ f))) a = if a / 65536 = f then 0 else Memory.read m a := by
  have hfind := Table.find_filter_key m (fun k => decide (k / 65536 ≠ f)) a
  rw [Memory.read, Sparse.get, hfind, Memory.read, Sparse.get]
  by_cases h : a / 65536 = f
  · simp [h, Memory.default]
  · simp [h]

/-- Bytes of other frames stay, the changed frame's are cleared where asked. -/
theorem State.changeFrame_reads (new : Nat) (scrub : Bool) (hc : s.counted = []) (hl : s.logs = []) (hp : s.posts = []) (h : s.unwatched) :
    (∀ a, a / 65536 ≠ f → Memory.read (s.changeFrame f new scrub).mem a = Memory.read s.mem a) ∧
    ∀ a, a / 65536 = f → Memory.read (s.changeFrame f new scrub).mem a = if scrub then 0 else Memory.read s.mem a := by
  rw [State.changeFrame_mem s f new scrub hc hl hp h]
  cases scrub with
  | false => exact ⟨fun _ _ => rfl, fun _ _ => rfl⟩
  | true => exact ⟨fun a ha => by rw [if_pos rfl, read_filter_frame, if_neg ha], fun a ha => by rw [if_pos rfl, read_filter_frame, if_pos ha, if_pos rfl]⟩

end

/-! ### A mapping invalidated by the owner of a slot (R189, R191) -/

section
variable {s : State} {p : Nat} (hx : s.ev.x = p)
include hx

section
variable (hp : p ≤ 64) (ha : Claims.accepts s (slotOff p 0x3C0))
include hp ha

theorem execInvcmd_busy (hb : s.regBits (slotOff p 0x3C0) 62 1 = 1) : exec .invcmd s = .next s := by
  subst hx
  show execInvcmd s = _
  rw [execInvcmd]
  dsimp only
  rw [if_neg (by omega), State.regWrite_accepted _ ha, if_pos hb]

/-- The state of a slot whose INVCMD has begun. -/
def State.invalidating (s : State) (p : Nat) : State :=
  ((s.plainWrite (slotOff p 0x3C0) s.ev.val).setRegBits (slotOff p 0x3C0) 62 1 1).setPslot p
    { s.pslot p with inval := some (bits s.ev.val 16 41 * 65536, bits s.ev.val 57 2, masterId s.ev.who) }

theorem execInvcmd_begins (hb : s.regBits (slotOff p 0x3C0) 62 1 = 0) (hv : s.ev.val.getLsbD 63 = true) : exec .invcmd s = .next (s.invalidating p) := by
  subst hx
  show execInvcmd s = _
  rw [execInvcmd]
  dsimp only
  rw [if_neg (by omega), State.regWrite_accepted _ ha, if_neg (by rw [hb]; decide), State.plainWrite_ev, hv]
  rfl

omit hx hp ha in
theorem State.invalidating_leaves (hs : Table.sorted s.bar = true) : (s.invalidating p).regBits (slotOff p 0x3C0) 62 1 = 1 ∧
    ((s.invalidating p).pslot p).inval = some (bits s.ev.val 16 41 * 65536, bits s.ev.val 57 2, masterId s.ev.who) ∧ (s.invalidating p).cores = s.cores := by
  refine ⟨?_, by rw [State.invalidating, State.pslot_setPslot], by rw [State.invalidating, State.setPslot_cores, State.setRegBits_cores, State.plainWrite_cores]⟩
  rw [State.invalidating, State.regBits_setPslot, State.regBits_setRegBits_same _ _ _ _ _ (State.sorted_plainWrite s _ _ hs) (by decide)]
  rfl

end

variable {va sz m : Nat} (hi : (s.pslot p).inval = some (va, sz, m))
include hi

theorem execInvalidateComplete_pending : exec .invalidateComplete s = .next (
    if s.mappingIdle p va sz && s.writesFolded m then ((s.dropMapping p va sz).setPslot p { s.pslot p with inval := none }).setRegBits (slotOff p 0x3C0) 62 1 0 else s) := by
  subst hx
  show execInvalidateComplete s = _
  rw [execInvalidateComplete]
  dsimp only
  rw [hi]

end

end Sys2Proof.Machine
end

section
set_option Elab.async false

namespace Sys2Proof.Proofs

/-! ### Slots, quotas, pins, frames and mappings: the settled statement -/

open Machine

section
variable {s : State} {p : Nat} (hx : s.ev.x = p) (hp : p ≤ 64) (ha : Claims.accepts s (slotOff p 0)) (hs : Table.sorted s.bar = true)
include hx hp ha hs

/-- STOP (R65, R149). -/
theorem slotStops (hv : bits s.ev.val 8 2 = 1) :
    (s.pctlState p = 2 → ∃ t, exec .pctlStop s = .next t ∧ t.pctlState p = 3 ∧ t.regBits (slotOff p 0) 12 4 = 0 ∧ (t.pslot p).stopAt = s.time ∧ (t.pslot p).tier = 1 ∧
      t.trains = s.trains ∧ t.tasks = s.tasks ∧ t.mem = s.mem) ∧
    (s.pctlState p = 3 → exec .pctlStop s = .next (s.pctlErr p 7)) ∧ (s.slotOpen p = true → exec .pctlStop s = .next ((s.pctlFields p s.ev.val).pctlErr p 7)) := by
  have hstop := execPctlStop_accepted hx hp ha hv
  rw [State.pctlState_pctlFields _ hp hs] at hstop
  refine ⟨fun h => ?_, fun h => ?_, fun h => ?_⟩
  · rw [if_neg (by omega), State.pctlFields_closed (by omega)] at hstop
    exact ⟨_, hstop, State.stopping_leaves hs⟩
  · rwa [if_pos (by omega), State.pctlFields_closed (by omega)] at hstop
  · have hopen := State.slotOpen_iff.mp h
    rwa [if_pos (by omega)] at hstop

/-- RUN of an open slot (R65, R149). -/
theorem slotRuns (hv : bits s.ev.val 8 2 = 2) (h : s.slotOpen p = true) :
    ((s.pctlFields p s.ev.val).runErrs p = [] → (s.pctlFields p s.ev.val).restoreWaits p = true → exec .pctlRun s = .next (s.pctlFields p s.ev.val)) ∧
    ((s.pctlFields p s.ev.val).runErrs p = [] → (s.pctlFields p s.ev.val).restoreWaits p = false →
      exec .pctlRun s = .next ((((s.pctlFields p s.ev.val).pctlErr p 0).setRegBits (slotOff p 0) 0 2 2).restoreSlot p)) ∧
    ∀ e es, (s.pctlFields p s.ev.val).runErrs p = e :: es → exec .pctlRun s = .next ((s.pctlFields p s.ev.val).pctlErr p e) := by
  have hopen : (s.pctlFields p s.ev.val).slotOpen p = true := by
    rw [State.slotOpen_iff, State.pctlState_pctlFields _ hp hs]
    exact State.slotOpen_iff.mp h
  refine ⟨fun hnone hwait => ?_, fun hnone hwait => ?_, fun e es herr => execPctlRun_fails hx hp ha hv rfl hopen herr⟩
  · rw [execPctlRun_passes hx hp ha hv rfl hopen hnone, hwait]
    rfl
  · rw [execPctlRun_passes hx hp ha hv rfl hopen hnone, hwait]
    rfl

/-- FREE (R65). -/
theorem slotFrees (hv : bits s.ev.val 8 2 = 3) :
    (s.pctlState p = 1 → ∀ u, u = s.pctlFields p s.ev.val → (u.ownsFrames (u.ownid p) = true → exec .pctlFree s = .next (u.pctlErr p 8)) ∧
      (u.ownsFrames (u.ownid p) = false → exec .pctlFree s = .next (((u.pctlErr p 0).setRegBits (slotOff p 0) 0 2 0).clearBitmaps p))) ∧
    (s.pctlState p = 0 → exec .pctlFree s = .next ((s.pctlFields p s.ev.val).pctlErr p 7)) ∧ (2 ≤ s.pctlState p → exec .pctlFree s = .next (s.pctlErr p 7)) := by
  have hstate := State.pctlState_pctlFields s.ev.val hp hs
  refine ⟨fun h u hu => ?_, fun h => ?_, fun h => ?_⟩
  · have hone : u.pctlState p = 1 := by rw [hu, hstate, h]
    have hfree := execPctlFree_accepted hx hp ha hv hu
    rw [if_neg (not_not.mpr hone)] at hfree
    exact ⟨fun hown => by rw [hfree, if_pos hown], fun hown => by rw [hfree, if_neg (by rw [hown]; decide)]⟩
  · rw [execPctlFree_accepted hx hp ha hv rfl, if_pos (by rw [hstate]; omega)]
  · rw [execPctlFree_accepted hx hp ha hv rfl, if_pos (by rw [hstate]; omega), State.pctlFields_closed h]

end

/-- Writes of PINn with EN set and clear (R70). -/
theorem pinWrites {s : State} {p n : Nat} (hx : s.ev.x = p) (hy : s.ev.y = n) (hp : p ≤ 64) (hn : n ≤ 15) (ha : Claims.accepts s (slotOff p (0x300 + 8 * n))) (hs : Table.sorted s.bar = true)
    (hv : s.ev.val.getLsbD 63 = true) :
    ((s.pin p n).getLsbD 63 = true → exec .pinSet s = .next (if bits s.ev.val 0 24 = bits (s.pin p n) 0 24 then s else s.setRegBits (pinOff p n) 62 1 1)) ∧
    ((s.pin p n).getLsbD 63 = false → ∃ t, exec .pinSet s = .next t ∧ bits (t.pin p n) 0 24 = bits s.ev.val 0 24 ∧
      ((s.pinNamed p n (bits s.ev.val 0 24)).mayPin p (bits s.ev.val 0 24) = true → (t.pin p n).getLsbD 63 = true ∧ (t.pin p n).getLsbD 62 = false ∧ n ∈ (t.pslot p).filling) ∧
      ((s.pinNamed p n (bits s.ev.val 0 24)).mayPin p (bits s.ev.val 0 24) = false → (t.pin p n).getLsbD 63 = false ∧ (t.pin p n).getLsbD 62 = true)) := by
  have hset := execPinSet_accepted hx hy hp hn ha hv
  refine ⟨fun h => by rw [hset, State.pinWrite_set s p n _ hv h], fun h => ?_⟩
  rw [State.pinWrite_pins s p n _ hv h] at hset
  refine ⟨_, hset, ?_⟩
  by_cases hmay : (s.pinNamed p n (bits s.ev.val 0 24)).mayPin p (bits s.ev.val 0 24) = true
  · obtain ⟨hframe, hen, hfail, hfill⟩ := State.pinned_leaves s p n hs (bits_lt s.ev.val 0 24)
    rw [if_pos hmay]
    exact ⟨hframe, fun _ => ⟨hen, hfail, hfill⟩, fun hnot => absurd (hmay.symm.trans hnot) (by decide)⟩
  · obtain ⟨hframe, hen, hfail⟩ := State.pinFails_leaves s p n hs (bits_lt s.ev.val 0 24)
    rw [if_neg hmay]
    exact ⟨hframe, fun hyes => absurd hyes hmay, fun _ => ⟨hen, hfail⟩⟩

/-- Settles O42: each request by its guard and the registers that it writes; the frame table through the writes of a change, which leave it but for the frame's own entry. -/
theorem partitionControl : Obligations.PartitionControl := by
  unfold Obligations.PartitionControl
  refine ⟨fun s p hx hp ha hs => ⟨fun hv => (slotStops hx hp ha hs hv).1, fun hv => (slotStops hx hp ha hs hv).2.1, fun hv => (slotStops hx hp ha hs hv).2.2, fun hv h => slotRuns hx hp ha hs hv h,
    fun hv h => execPctlRun_closed hx hp ha hv (State.slotOpen_eq_false.mp h), fun hv => (slotFrees hx hp ha hs hv).1, fun hv => (slotFrees hx hp ha hs hv).2.1, fun hv => (slotFrees hx hp ha hs hv).2.2⟩,
    fun s n hx hn ha => ?quota, fun s n old new hc => ?requota, fun s p n hx hy hp hn ha hs => ?pin, fun s p n hx hy => ?filled, fun s ha hs => ?fotGo, fun s f hb hs hf => ?frame,
    fun s f new scrub hc hl hp _ h => ?bytes, fun s p hx hp ha hs => ?invcmd, fun s p va sz m hx hi => ?unused⟩
  case quota =>
    have hwrite := execSquotaWrite_accepted hx hn ha
    exact ⟨fun hbad => by rw [hwrite, if_pos hbad], fun hgood => by rw [hwrite, if_neg (by rw [hgood]; decide)]⟩
  case requota =>
    obtain ⟨x, h⟩ := s.requota_frame n old new hc
    rw [h]
    exact ⟨rfl, rfl, rfl⟩
  case pin =>
    exact ⟨fun hv => (pinWrites hx hy hp hn ha hs hv).1, fun hv => (pinWrites hx hy hp hn ha hs hv).2, fun hv => execPinClear_leaves hx hy hp hn ha hs hv⟩
  case filled =>
    subst hx hy
    rfl
  case fotGo => exact ⟨execFotGo_idle ha, execFotGo_busy ha, fun hv hb e he => execFotGo_leaves ha hs hv hb he⟩
  case frame => exact execFotFrameChange_leaves hb hs hf
  case bytes => exact s.changeFrame_reads f new scrub hc hl hp h
  case invcmd => exact ⟨execInvcmd_busy hx hp ha, fun hb hv => ⟨_, execInvcmd_begins hx hp ha hb hv, State.invalidating_leaves hs⟩⟩
  case unused =>
    have hpending := execInvalidateComplete_pending hx hi
    refine ⟨fun hidle hfolded => ?_, fun hwaits => ?_⟩
    · rw [hpending, hidle, hfolded]
      rfl
    · rw [hpending, if_neg (by obtain h | h := hwaits <;> simp [h])]

end Sys2Proof.Proofs
end

section
/-! ### The end of a task, what its parent is credited, and the record of a call (R106, R107, R109, R117, R121, R122, R124, R125, R129, R130, R161, R163) -/

set_option Elab.async false

namespace Sys2Proof.Machine

/-! ### A completion record is written beside the tasks and the trains (R107) -/

/-- The task table, the trains and the event of a turn are the same. -/
structure SameWork (s t : State) : Prop where
  tasks : t.tasks = s.tasks
  trains : t.trains = s.trains
  ev : t.ev = s.ev

namespace SameWork

variable {s t u : State}

theorem refl (s : State) : SameWork s s := ⟨rfl, rfl, rfl⟩

theorem trans (h : SameWork s t) (h' : SameWork t u) : SameWork s u := ⟨h'.tasks.trans h.tasks, h'.trains.trans h.trains, h'.ev.trans h.ev⟩

/-- The state that comes with an answer, where the answer is known. -/
theorem of_answer {α : Type} {x : α × State} {a : α} (hx : SameWork s x.2) (h : x = (a, u)) : SameWork s u := by
  rw [h] at hx
  exact hx

theorem task_eq (h : SameWork s t) (i : Nat) : t.task i = s.task i := by rw [State.task, State.task, h.tasks]

/-- A task changed in both states alike. -/
theorem modTask (h : SameWork s t) (i : Nat) (f : Task → Task) : SameWork (s.modTask i f) (t.modTask i f) := ⟨congrArg (Table.modify · i f) h.tasks, h.trains, h.ev⟩

theorem setTask (h : SameWork s t) (i : Nat) (k : Task) : SameWork (s.setTask i k) (t.setTask i k) := ⟨congrArg (Table.put · i k) h.tasks, h.trains, h.ev⟩

/-! Writes of the device, events. -/

theorem deviceNow (s : State) (a : Nat) (bs : List Byte) : SameWork s (s.deviceNow a bs) := by
  obtain ⟨m, st, h⟩ := State.deviceNow_frame bs s a
  rw [h]
  exact ⟨rfl, rfl, rfl⟩

theorem deviceWrite (s : State) (a : Nat) (bs : List Byte) : SameWork s (s.deviceWrite a bs) := by
  obtain ⟨m, st, ps, h⟩ := s.deviceWrite_frame a bs
  rw [h]
  exact ⟨rfl, rfl, rfl⟩

theorem addAt (s : State) (pa v : Nat) : SameWork s (s.addAt pa v) := by
  unfold State.addAt
  split
  · exact ⟨rfl, rfl, rfl⟩
  · exact deviceNow _ _ _

theorem event (s : State) (attr : Option Nat) (cls seg master unit pa : Nat) (mask : W32) : SameWork s (s.event attr cls seg master unit pa mask) := by
  obtain ⟨m, st, ps, b, h⟩ := s.event_frame attr cls seg master unit pa mask
  rw [h]
  exact ⟨rfl, rfl, rfl⟩

theorem setRegBits (s : State) (off lo n v : Nat) : SameWork s (s.setRegBits off lo n v) := ⟨rfl, rfl, rfl⟩

theorem queueErr (s : State) (q code : Nat) : SameWork s (s.queueErr q code) := setRegBits _ _ _ _ _

/-! Addresses and requests to windows. -/

/-- An engine's translation caches a leaf or reports a poisoned entry (R190). -/
theorem translateAt (s : State) (eng : Option Nat) (p va : Nat) (r : Right) (pool : Bool) : SameWork s (s.translateAt eng p va r pool).2 := by
  unfold State.translateAt
  split
  · exact refl s
  · split
    · split <;> exact ⟨rfl, rfl, rfl⟩
    · exact refl s
    · dsimp only
      exact event _ _ _ _ _ _ _ _

theorem deviceAddr (s : State) (p m right va : Nat) : SameWork s (s.deviceAddr p m right va).2.2 := by
  have hx := translateAt s none p va .write false
  unfold State.deviceAddr
  split
  · exact refl s
  · split
    · next heq => exact of_answer hx heq
    · next heq =>
      have hu := of_answer hx heq
      dsimp only
      split
      · exact hu.trans (event _ _ _ _ _ _ _ _)
      · exact hu

theorem sendTo (s : State) (owner a : Nat) : SameWork s (s.sendTo owner a) := by
  obtain ⟨n, l, h⟩ := s.sendTo_frame owner a
  rw [h]
  exact ⟨rfl, rfl, rfl⟩

theorem request (s : State) (src pa len : Nat) (write : Bool) (aop : Option Nat) (data : List Byte) (reply : OutFor) (pois : Bool) :
    SameWork s (s.request src pa len write aop data reply pois) := by
  unfold State.request
  dsimp only
  split
  · split <;> exact ⟨rfl, rfl, rfl⟩
  · exact ⟨rfl, rfl, rfl⟩
  · exact ⟨rfl, rfl, rfl⟩

theorem sendAdd (s : State) (src pa v : Nat) (reply : OutFor) : SameWork s (s.sendAdd src pa v reply) := by
  unfold State.sendAdd State.atomicTo
  split
  · split <;> exact request _ _ _ _ _ _ _ _ _
  · exact request _ _ _ _ _ _ _ _ _

theorem post (s : State) (pa : Nat) (data : List Byte) (pois : Bool) : SameWork s (s.post pa data pois) := by
  unfold State.post
  split <;> exact ⟨rfl, rfl, rfl⟩

theorem noteFar (s : State) (owner pa n : Nat) (done : Bool) : SameWork s (s.noteFar owner pa n done) := ⟨rfl, rfl, rfl⟩

theorem dropFar (s : State) (owner : Nat) : SameWork s (s.dropFar owner) := ⟨rfl, rfl, rfl⟩

theorem sendWrite (s : State) (owner pa : Nat) (bytes : List Byte) : SameWork s (s.sendWrite owner pa bytes) := by
  unfold State.sendWrite
  split
  · exact refl s
  · split
    · exact ((post _ _ _ _).trans (request _ _ _ _ _ _ _ _ _)).trans (noteFar _ _ _ _ _)
    · exact (request _ _ _ _ _ _ _ _ _).trans (noteFar _ _ _ _ _)

/-! The record and its signal word. -/

/-- An agent's write on its way to its place: what is done there decides. -/
theorem sysReach (s : State) (owner p m right n va : Nat) {go : State → Nat → Wrote × State} (hgo : ∀ u pa, SameWork u (go u pa).2) :
    SameWork s (s.sysReach owner p m right n va go).2 := by
  have haddr := deviceAddr s p m right va
  unfold State.sysReach
  split
  · exact ⟨rfl, rfl, rfl⟩
  · split
    · exact sendTo _ _ _
    · split
      · next heq => exact of_answer haddr (congrArg Prod.snd heq)
      · next heq =>
        have hu := of_answer haddr (congrArg Prod.snd heq)
        split
        · exact hu
        · split
          · exact hu
          · split
            · exact hu.trans (sendTo _ _ _)
            · split
              · exact hu
              · exact hu.trans (hgo _ _)

theorem sysWrite (s : State) (owner p m va : Nat) (bytes : List Byte) : SameWork s (s.sysWrite owner p m va bytes).2 := by
  refine sysReach s _ _ _ _ _ _ fun u pa => ?_
  split
  · exact sendWrite _ _ _ _
  · split
    · exact refl u
    · exact (deviceWrite _ _ _).trans (noteFar _ _ _ _ _)

theorem signalAdd (s : State) (owner p m va : Nat) : SameWork s (s.signalAdd owner p m va).2 := by
  refine sysReach s _ _ _ _ _ _ fun u pa => ?_
  split
  · dsimp only
    split
    · exact refl u
    · exact (sendAdd _ _ _ _ _).trans (noteFar _ _ _ _ _)
  · split
    · exact refl u
    · exact addAt _ _ _

theorem raise (s : State) (p q : Nat) : SameWork s (s.raise p q) := by
  unfold State.raise
  dsimp only
  split <;> exact ⟨rfl, rfl, rfl⟩

theorem complFails (s : State) (c : Compl) (pa : Nat) : SameWork s (s.complFails c pa) := by
  unfold State.complFails
  dsimp only
  split
  · exact (event _ _ _ _ _ _ _ _).trans (queueErr _ _ _)
  · exact event _ _ _ _ _ _ _ _

theorem writeCompletion (s : State) (c : Compl) (rec : List Byte) : SameWork s (s.writeCompletion c rec).2 := by
  have hrec : SameWork s (if c.va = 0 then (Wrote.done, s) else s.sysWrite c.owner c.slot c.master c.va rec).2 := by
    split
    · exact refl s
    · exact sysWrite _ _ _ _ _ _
  unfold State.writeCompletion
  extract_lets done
  have hdone : ∀ u, SameWork u (done u).2 := by
    intro u
    simp only [done]
    split
    · exact (raise _ _ _).trans (dropFar _ _)
    · exact dropFar _ _
  split
  · next heq => exact of_answer hrec heq
  · next heq => exact ((of_answer hrec heq).trans (complFails _ _ _)).trans (hdone _)
  · next u heq =>
    have hu := of_answer hrec heq
    have hsignal := signalAdd u c.owner c.slot c.master c.signal
    split
    · exact hu.trans (hdone _)
    · split
      · next hadd => exact hu.trans (of_answer hsignal hadd)
      · next hadd => exact ((hu.trans (of_answer hsignal hadd)).trans (complFails _ _ _)).trans (hdone _)
      · next hadd => exact (hu.trans (of_answer hsignal hadd)).trans (hdone _)

theorem freeScratch (s : State) (t : Nat) : SameWork s (s.freeScratch t) := ⟨rfl, rfl, rfl⟩

theorem noteFreed (s : State) (p : Nat) : SameWork s (s.noteFreed p) := by
  unfold State.noteFreed
  split <;> exact ⟨rfl, rfl, rfl⟩

end SameWork

/-- Which entry carries a TASKID is told by that entry alone (R112). -/
theorem State.holder_of_task {s u : State} {id q : Nat} (h : s.holder id = some q) (ht : u.task q = s.task q) : u.holder id = some q := by
  have hq : q = id % 65536 := by
    unfold State.holder at h
    split at h
    · split at h
      · exact (Option.some.inj h).symm
      · cases h
    · cases h
  subst hq
  rw [← h, State.holder, ht, State.holder]

/-! ### A parent's credit (R122, R125, R429) -/

theorem Task.credit_leaves (k : Task) (au : Nat) : (k.credit au).alw = k.alw + au ∧ (k.credit au).rsv = k.rsv ∧ (k.state = .starved → (k.credit au).state = .running) := by
  unfold Task.credit
  split
  · exact ⟨rfl, rfl, fun _ => rfl⟩
  · next h => exact ⟨rfl, rfl, fun h' => absurd h' h⟩

/-- A child's DONE moves its remainder and what it spent to its parent, and its state word to the done list. -/
theorem Task.childDone_leaves (k : Task) (alw spent id status : Nat) (x : W32) (dead : Nat) :
    (k.childDone alw spent id status x dead).alw = k.alw + alw ∧ (k.childDone alw spent id status x dead).spent = k.spent + spent ∧
    (k.childDone alw spent id status x dead).rsv = k.rsv ∧ (k.childDone alw spent id status x dead).children = k.children - 1 ∧
    (id, status) ∈ (k.childDone alw spent id status x dead).doneList ∧ (k.state = .starved → (k.childDone alw spent id status x dead).state = .running) := by
  obtain ⟨halw, hrsv, hstate⟩ := k.credit_leaves alw
  exact ⟨halw, rfl, hrsv, rfl, List.mem_append_right _ (List.mem_singleton.mpr rfl), hstate⟩

/-! ### A task that is not done, and one that is (R122) -/

theorem execTaskClose_eq {s : State} {t : Nat} (hx : s.ev.x = t) : exec .taskClose s = .next (s.closeTask t) := by
  subst hx
  rfl

/-- Only a root task is an entry of a queue. -/
theorem State.leaveHead_child {s : State} {t : Nat} {k : Task} (h : k.root = false) : s.leaveHead t k = s := by
  simp only [State.leaveHead, h, Bool.false_and, Bool.false_eq_true, if_false]

theorem State.dropCounted_none {s : State} {t : Nat} {k : Task} (h : s.counted = []) : s.dropCounted t k = s := by
  simp only [State.dropCounted, h, List.filter_nil, List.foldl_nil, List.any_nil, Bool.false_eq_true, if_false]

section
variable {s : State} {t : Nat} {k : Task} (hk : s.task t = some k)
include hk

theorem State.closeTask_busy (h : s.spentOut t k = false) : s.closeTask t = s := by
  unfold State.closeTask
  simp only [hk, h, Bool.not_false, Bool.or_true, if_true]

/-- A task of kind 1 has no graph whose outcome its record tells. -/
theorem State.closeTask_closes (hheld : k.held = true) (hopen : k.closing = false) (hrun : k.state = .running ∨ k.state = .waiting) (hspent : s.spentOut t k = true)
    (hgraph : Table.find s.graphs t = none) (hkind : k.kind = 1) : s.closeTask t = (s.setTask t { k with state := .waiting, closing := true, failedNode := 0 }).publishOf t := by
  have hruns : (decide (k.state = .running) || decide (k.state = .waiting)) = true := by simpa using hrun
  unfold State.closeTask
  simp only [hk, hheld, hopen, hruns, hspent, hgraph, hkind, Bool.not_true, Bool.or_self, Bool.false_eq_true, if_false, Option.getD_none]
  rfl

/-! ### A task that closes (R107, R122) -/

section
variable (hx : s.ev.x = t) (hheld : k.held = true) (hclosing : k.closing = true)
include hx hheld hclosing

/-- Its records that have not folded are published first. -/
theorem execCompletionRecordWritten_unfolded (h : s.recordsFolded t = false) : exec .completionRecordWritten s = .next (s.publishOf t) := by
  show execCompletionRecordWritten s = _
  subst hx
  simp only [execCompletionRecordWritten, hk, hheld, hclosing, h, Bool.not_true, Bool.true_or, Bool.or_self, Bool.false_eq_true, if_false, Bool.not_false, if_true]

/-- With its records folded it is finished, and the JOINs look again. -/
theorem execCompletionRecordWritten_folded (h : s.recordsFolded t = true) :
    exec .completionRecordWritten s = .next { ((s.leaveHead t k).finishTask t).pokeJoins with graphs := Table.drop ((s.leaveHead t k).finishTask t).pokeJoins.graphs t } := by
  show execCompletionRecordWritten s = _
  subst hx
  simp only [execCompletionRecordWritten, hk, hheld, hclosing, h, Bool.not_true, Bool.true_or, Bool.or_self, Bool.false_eq_true, if_false]

end

/-- A child whose record is written and that declared no line: its entry is freed, and its parent hears of it (R122). -/
theorem State.finishTask_child {q : Nat} (hroot : k.root = false) (hnode : k.node = none) (hlines : s.counted = [])
    (hrec : (s.writeCompletion (k.compl t) (k.record t s.clock)).1 = true) (hparent : s.holder k.parent = some q) (hne : q ≠ t) :
    SameWork ((s.setTask t k.freed).modTask q (fun x => x.childDone k.alw k.spent (k.id t) k.status k.xflags k.dead)) (s.finishTask t) := by
  have hwritten := SameWork.writeCompletion s (k.compl t) (k.record t s.clock)
  unfold State.finishTask
  simp only [hk, State.dropCounted_none hlines, hroot, hnode, Bool.false_and, Bool.false_eq_true, if_false]
  split
  · next h => simp [h] at hrec
  · next w h =>
    have hfreed : ∀ lo n v, SameWork (s.setTask t k.freed) ((((w.freeScratch t).setTask t k.freed).setRegBits (slotOff k.slot 0x380) lo n v).noteFreed k.slot) := fun lo n v =>
      ((((hwritten.of_answer h).trans (SameWork.freeScratch w t)).setTask t k.freed).trans (SameWork.setRegBits _ (slotOff k.slot 0x380) lo n v)).trans (SameWork.noteFreed _ _)
    have hparents : ∀ z, SameWork (s.setTask t k.freed) z → z.holder k.parent = some q := fun z hz =>
      State.holder_of_task hparent (by rw [hz.task_eq, State.task_setTask_other _ _ _ _ hne])
    rw [hparents _ (hfreed _ _ _)]
    exact (hfreed _ _ _).modTask q _

end

/-! ### JOINs that look again (R122, R430) -/

theorem State.pokeJoins_noJoin {s : State} (h : ∀ e ∈ s.trains, ∀ o ∈ e.2.portions, (∀ i d, o.2.wait ≠ .join i d) ∧ ∀ d b, o.2.wait ≠ .joinAny d b) : s.pokeJoins = s := by
  unfold State.pokeJoins
  refine List.foldlRecOn (motive := fun u => u = s) _ _ rfl fun u hu e he => ?_
  refine List.foldlRecOn (motive := fun u => u = s) _ _ hu fun u hu o ho => ?_
  obtain ⟨hjoin, hany⟩ := h e he o ho
  split
  · next hwait => exact absurd hwait (hjoin _ _)
  · next hwait => exact absurd hwait (hany _ _)
  · exact hu

/-- With one train, which has one portion, which waits in a JOIN, that JOIN looks. -/
theorem State.pokeJoins_one {s : State} {c n p id d : Nat} {t : Train} {o : Portion} (hn : n < 32) (ht : s.trains = [(trainKey c n, t)]) (hp : t.portions = [(p, o)])
    (hw : o.wait = .join id d) : s.pokeJoins = s.endJoin c n p id d t := by
  have hcore : trainKey c n / 32 = c := by unfold trainKey; omega
  have hslot : trainKey c n % 32 = n := by unfold trainKey; omega
  have htrain : s.train c n = some t := by simp [State.train, ht, Table.find]
  simp only [State.pokeJoins, ht, List.foldl_cons, List.foldl_nil, hp, hcore, hslot, htrain, hw]

/-! ### Limits that run out (R124, R125, R161) -/

theorem execParkLimitExpiry_eq {s : State} {t : Nat} {k : Task} (hx : s.ev.x = t) (hk : s.task t = some k) (hheld : k.held = true) (hstarved : k.state = .starved) :
    exec .parkLimitExpiry s = .next (if k.expiry ≤ s.clock then s.unwind t 2 0 else s) := by
  show execParkLimitExpiry s = _
  subst hx
  simp only [execParkLimitExpiry, hk, hheld, hstarved, decide_true, Bool.true_and, decide_eq_true_eq]

theorem execHandlerTimeout_eq {s : State} {t : Train} {h : Handler} (ht : s.train s.ev.x s.ev.y = some t) (hh : t.handler = some h) :
    exec .handlerTimeout s = .next (if 1000000 < cyclesSince s.time h.since then s.unwind t.task 4 fDOUBLEFLT else s) := by
  show execHandlerTimeout s = _
  simp only [execHandlerTimeout, ht, hh]

/-! ### A write that parked waiters see leaves the event of the turn (R158-R163, R420) -/

section
variable (s : State)

/-- A fold whose steps all leave the event leaves it. -/
theorem foldl_ev {β : Type} {f : State → β → State} (hf : ∀ u x, (f u x).ev = u.ev) (xs : List β) : (xs.foldl f s).ev = s.ev :=
  foldl_keeps (fun u : State => u.ev = s.ev) f xs s rfl (fun u x h => (hf u x).trans h)

@[simp] theorem State.event_ev (attr : Option Nat) (cls seg master unit pa : Nat) (mask : W32) : (s.event attr cls seg master unit pa mask).ev = s.ev := (SameWork.event s _ _ _ _ _ _ _).ev
@[simp] theorem State.noteFreed_ev (p : Nat) : (s.noteFreed p).ev = s.ev := (SameWork.noteFreed s p).ev

/-! Records voided, and the sectors asked for again. -/

@[simp] theorem State.askSector_ev (core key pa : Nat) (stash keep : Bool) : (s.askSector core key pa stash keep).ev = s.ev := by
  unfold State.askSector
  dsimp only
  split
  · rfl
  · split <;> rfl

@[simp] theorem State.sendSector_ev (core key pa : Nat) (stash : Bool) : (s.sendSector core key pa stash).ev = s.ev := by
  unfold State.sendSector
  split
  · rfl
  · exact (SameWork.request s _ _ _ _ _ _ _ _).ev

@[simp] theorem State.wantSector_ev (core key pa : Nat) (stash keep : Bool) : (s.wantSector core key pa stash keep).ev = s.ev := by
  unfold State.wantSector
  dsimp only
  split <;> simp

@[simp] theorem State.invalidate_ev (core : Nat) (sel : Nat → Bool) : (s.invalidate core sel).ev = s.ev := by
  unfold State.invalidate
  dsimp only
  rw [foldl_ev _ (fun u e => u.wantSector_ev _ _ _ _ _), foldl_ev _ (fun u e => u.wantSector_ev _ _ _ _ _), foldl_ev _ (fun u f => u.sendSector_ev _ _ _ _)]
  rfl

@[simp] theorem State.voidRecs_ev (core : Nat) (sel : Rec → Bool) : (s.voidRecs core sel).ev = s.ev := by
  unfold State.voidRecs
  dsimp only
  rw [State.invalidate_ev]
  refine foldl_ev _ (fun u r => ?_) _
  split
  · exact (SameWork.deviceWrite u _ _).ev
  · rfl

/-! Tasks unwound. -/

@[simp] theorem State.removeTrain_ev (key : Nat) : (s.removeTrain key).ev = s.ev := by
  have hroutes : ∀ (u : State) (task : Nat), (u.advanceRoutes task).ev = u.ev := by
    intro u task
    unfold State.advanceRoutes
    split <;> rfl
  unfold State.removeTrain
  split
  · rfl
  · dsimp only
    rw [hroutes, State.noteFreed_ev]
    rfl

@[simp] theorem State.removeTrainsOf_ev (ts : List Nat) : (s.removeTrainsOf ts).ev = s.ev := by
  unfold State.removeTrainsOf
  dsimp only
  rw [foldl_ev _ (fun u c => u.voidRecs_ev _ _), foldl_ev _ (fun u k => u.removeTrain_ev _)]

@[simp] theorem State.cancelJobs_ev (ts : List Nat) : (s.cancelJobs ts).ev = s.ev := by
  unfold State.cancelJobs
  refine foldl_ev s (fun u e => ?_) _
  rfl

@[simp] theorem State.absorbSaved_ev (ts : List Nat) : (s.absorbSaved ts).ev = s.ev := by
  unfold State.absorbSaved
  refine foldl_ev s (fun u e => ?_) _
  rfl

@[simp] theorem State.unwind_ev (t status code : Nat) : (s.unwind t status code).ev = s.ev := by
  unfold State.unwind
  split
  · rfl
  · split
    · rfl
    · dsimp only
      rw [State.absorbSaved_ev, State.removeTrainsOf_ev, State.cancelJobs_ev]
      rfl

@[simp] theorem State.starve_ev (t : Nat) : (s.starve t).ev = s.ev := by
  unfold State.starve
  split
  · rfl
  · next k _ =>
    split
    · exact s.unwind_ev t 2 0
    · dsimp only
      split
      · rfl
      · have h := SameWork.deviceAddr (s.setTask t { k with state := .starved, expiry := s.clock + k.parkNs }) k.slot 130 3 k.signalVa.toNat
        split
        · next heq => exact (h.of_answer (congrArg Prod.snd heq)).ev
        · next heq =>
          have hu := h.of_answer (congrArg Prod.snd heq)
          split
          · exact (hu.trans (SameWork.sendAdd _ _ _ _ _)).ev
          · split
            · exact hu.ev
            · exact (hu.trans (SameWork.addAt _ _ _)).ev

/-! Faults taken. -/

@[simp] theorem State.rewind_ev (key : Nat) : (s.rewind key).ev = s.ev := by
  unfold State.rewind
  split
  · rfl
  · exact State.voidRecs_ev _ _ _

@[simp] theorem State.enterHandler_ev (key p : Nat) (fs : List LaneFault) : (s.enterHandler key p fs).ev = s.ev := by
  unfold State.enterHandler
  split
  · rfl
  · split <;> rfl

@[simp] theorem State.countFaults_ev (p core : Nat) (fs : List LaneFault) : (s.countFaults p core fs).ev = s.ev := by
  unfold State.countFaults
  dsimp only
  split <;> split <;> simp

@[simp] theorem State.retry_ev (key code : Nat) (t : Train) : (s.retry key code t).ev = s.ev := by
  unfold State.retry
  split
  · rfl
  · split <;> simp

@[simp] theorem State.integrity_ev (key code seg pa : Nat) : (s.integrity key code seg pa).ev = s.ev := by
  unfold State.integrity
  split
  · rfl
  · dsimp only
    rw [State.retry_ev]
    split <;> simp

@[simp] theorem State.takeFault_ev (core slot p : Nat) (f : Trouble) : (s.takeFault core slot p f).ev = s.ev := by
  unfold State.takeFault
  dsimp only
  split
  · rfl
  · split
    · simp
    · split
      · simp
      · split
        · simp
        · split
          · simp
          · split
            · simp
            · exact State.countFaults_ev _ _ _ _

/-! Waiters that look. -/

@[simp] theorem State.pokeOne_ev (key p : Nat) : (s.pokeOne key p).ev = s.ev := by
  unfold State.pokeOne
  split
  · rfl
  · split
    · rfl
    · split
      · dsimp only
        split
        · split <;> simp
        · split <;> rfl
      · rfl

@[simp] theorem State.pokeWatch_ev : s.pokeWatch.ev = s.ev := by
  unfold State.pokeWatch
  refine foldl_ev s (fun u e => foldl_ev u (fun v o => ?_) e.2.portions) s.trains
  split <;> simp

/-- A train record is written, or nothing is (R163). -/
@[simp] theorem State.faultRecord_ev (core slot : Nat) (t : Train) (id : Nat) : (s.faultRecord core slot t id).ev = s.ev := by
  unfold State.faultRecord
  dsimp only
  split
  · exact (SameWork.deviceWrite s _ _).ev
  · rfl

end

/-! ### The record of a call (R109, R163) -/

section
variable {s : State} {t : Train} {c : Call} {k : Task} {q a : Nat} (ht : s.train s.ev.x s.ev.y = some t) (hc : t.call = some c) (hseq : c.seq = none) (hk : s.task t.task = some k)
  (hq : q = k.queue)
include ht hc hseq hk hq

theorem execSyscallRecordWrite_full (hfull : s.regBits (queueOff q 0x20) 0 16 < (s.regBits (queueOff q 0x28) 0 32 + 2 ^ 32 - s.regBits (queueOff q 0x28) 32 32) % 2 ^ 32) :
    exec .syscallRecordWrite s = .next s := by
  show execSyscallRecordWrite s = _
  subst hq
  simp only [execSyscallRecordWrite, ht, hc, hk, hseq, hfull, Option.isSome_none, Bool.false_eq_true, if_false, if_true]

section
variable (hroom : (s.regBits (queueOff q 0x28) 0 32 + 2 ^ 32 - s.regBits (queueOff q 0x28) 32 32) % 2 ^ 32 ≤ s.regBits (queueOff q 0x20) 0 16)
  (ha : a = s.regBits (queueOff q 0x18) 6 46 * 64 + 64 * (s.regBits (queueOff q 0x28) 0 32 % (s.regBits (queueOff q 0x20) 0 16 + 1)))
include hroom ha

theorem execSyscallRecordWrite_refused (hf : s.fotRange (s.regBits (queueOff q 8) 8 7) a 64 = false) : exec .syscallRecordWrite s = .next (s.unwind t.task 4 fOWNERSHIP) := by
  show execSyscallRecordWrite s = _
  subst hq ha
  simp only [execSyscallRecordWrite, ht, hc, hk, hseq, Nat.not_lt.mpr hroom, hf, Option.isSome_none, Bool.false_eq_true, if_false, Bool.not_false, if_true]

theorem execSyscallRecordWrite_written (hf : s.fotRange (s.regBits (queueOff q 8) 8 7) a 64 = true) {u : State}
    (hu : u = (s.deviceWrite a (t.callBytes c (s.regBits (queueOff q 0x28) 0 32) (k.id t.task) s.ev.x s.ev.y)).pokeWatch) :
    exec .syscallRecordWrite s = .next (((u.setRegBits (queueOff q 0x28) 0 32 (s.regBits (queueOff q 0x28) 0 32 + 1)).faultRecord s.ev.x s.ev.y t (k.id t.task)).setTrain s.ev.x s.ev.y
      { t with call := some { c with seq := some (s.regBits (queueOff q 0x28) 0 32) } }) := by
  have hev : u.ev = s.ev := by rw [hu, State.pokeWatch_ev, (SameWork.deviceWrite s _ _).ev]
  show execSyscallRecordWrite s = _
  subst hq ha
  simp only [execSyscallRecordWrite, ht, hc, hk, hseq, Nat.not_lt.mpr hroom, hf, Option.isSome_none, Bool.not_true, Bool.false_eq_true, if_false, ← hu, State.faultRecord_ev, State.setRegBits_ev, hev]

end
end

/-! ### Charges and reservations (R117, R120, R121) -/

section
variable {s : State} {t n : Nat} {k : Task} (hk : s.task t = some k)
include hk

theorem State.task_charge : (s.charge t n).task t = some { k with alw := k.alw - n, spent := k.spent + n } := by rw [State.charge, State.task_modTask, hk]; rfl
theorem State.task_reserve : (s.reserve t n).task t = some { k with alw := k.alw - n, rsv := k.rsv + n } := by rw [State.reserve, State.task_modTask, hk]; rfl
theorem State.task_spendRsv : (s.spendRsv t n).task t = some { k with rsv := k.rsv - n, spent := k.spent + n } := by rw [State.spendRsv, State.task_modTask, hk]; rfl
theorem State.task_refund : (s.refund t n).task t = some { k with rsv := k.rsv - n, alw := k.alw + n } := by rw [State.refund, State.task_modTask, hk]; rfl

end

end Sys2Proof.Machine
end

section
set_option Elab.async false

namespace Sys2Proof.Proofs

/-! ### The end of a task: the settled statement -/

open Machine

/-- What a task's close adds to its parent is what it takes from its own entry (R122). -/
theorem completionCreditsParent {s : State} {t q : Nat} {k p : Task} (hx : s.ev.x = t) (hk : s.task t = some k) (hheld : k.held = true) (hclosing : k.closing = true)
    (hfolded : s.recordsFolded t = true) (hroot : k.root = false) (hnode : k.node = none) (hlines : s.counted = []) (hrec : (s.writeCompletion (k.compl t) (k.record t s.clock)).1 = true)
    (hjoins : ∀ e ∈ s.trains, ∀ o ∈ e.2.portions, (∀ i d, o.2.wait ≠ .join i d) ∧ ∀ d b, o.2.wait ≠ .joinAny d b) (hparent : s.holder k.parent = some q) (hne : q ≠ t) (hp : s.task q = some p) :
    ∃ u, exec .completionRecordWritten s = .next u ∧ u.task t = some k.freed ∧ u.task q = some (p.childDone k.alw k.spent (k.id t) k.status k.xflags k.dead) := by
  have hdone := State.finishTask_child hk hroot hnode hlines hrec hparent hne
  have hpoke : (s.finishTask t).pokeJoins = s.finishTask t := State.pokeJoins_noJoin (by rw [hdone.trains]; exact hjoins)
  have hrun := execCompletionRecordWritten_folded hk hx hheld hclosing hfolded
  rw [State.leaveHead_child hroot, hpoke] at hrun
  refine ⟨_, hrun, ?_, ?_⟩
  · exact (hdone.task_eq t).trans ((State.task_modTask_other _ _ _ _ hne.symm).trans (State.task_setTask _ _ _))
  · refine (hdone.task_eq q).trans ?_
    rw [State.task_modTask, State.task_setTask_other _ _ _ _ hne, hp]
    rfl

/-- Settles O50: the steps by what they do in each case; a parent's credit from `State.finishTask_child`, since the completion record is written beside the task table and the trains. -/
theorem taskEnds : Obligations.TaskEnds := by
  unfold Obligations.TaskEnds
  refine ⟨fun s t k hx hk hheld hopen hrun => ⟨?closes, ?busy⟩, fun s t k hx hk hheld hclosing h => execCompletionRecordWritten_unfolded hk hx hheld hclosing h, ?credit,
    fun s z t k hx hk hheld hclosing h hz => hz ▸ execCompletionRecordWritten_folded hk hx hheld hclosing h, fun s u c n p id d t o w hn ht hp hw => ?join,
    fun s t k hx hk hheld hstarved => ?park, fun s t h ht hh => execHandlerTimeout_eq ht hh, fun s t c k q a ht hc hseq hk hq => ?call, fun s t n k hk hn => ?charge, fun s t n k hk hn => ?spend⟩
  case closes =>
    intro hlive hchildren hout hplacing hgraph hkind
    have hspent : s.spentOut t k = true := by simp [State.spentOut, hlive, hchildren, hout, hplacing, hgraph]
    rw [execTaskClose_eq hx, State.closeTask_closes hk hheld hopen hrun hspent hgraph hkind]
  case busy =>
    intro hleft
    have hspent : s.spentOut t k = false := by
      rcases hleft with h | h | h <;> simp [State.spentOut, h]
    rw [execTaskClose_eq hx, State.closeTask_busy hk hspent]
  case credit =>
    intro s t q k p hx hk hheld hclosing hfolded hroot hnode hlines hrec hjoins hparent hne hp
    obtain ⟨u, hrun, ht, hq⟩ := completionCreditsParent hx hk hheld hclosing hfolded hroot hnode hlines hrec hjoins hparent hne hp
    obtain ⟨halw, hspent, hrsv, hchildren, hlist, hstate⟩ := p.childDone_leaves k.alw k.spent (k.id t) k.status k.xflags k.dead
    exact ⟨u, k.freed, _, hrun, ht, hq, rfl, rfl, rfl, rfl, rfl, rfl, halw, hspent, hrsv, hchildren, hlist, hstate⟩
  case join =>
    rw [State.pokeJoins_one hn ht hp hw, State.endJoin]
    exact ⟨fun hnone => by rw [hnone], fun hword => by rw [hword]⟩
  case park =>
    rw [execParkLimitExpiry_eq hx hk hheld hstarved]
    exact ⟨fun hlate => by rw [if_pos hlate], fun hearly => by rw [if_neg (Nat.not_le.mpr hearly)]⟩
  case call =>
    exact ⟨execSyscallRecordWrite_full ht hc hseq hk hq, fun hroom ha => ⟨execSyscallRecordWrite_refused ht hc hseq hk hq hroom ha,
      fun hf u hu => execSyscallRecordWrite_written ht hc hseq hk hq hroom ha hf hu⟩⟩
  case charge =>
    exact ⟨⟨_, State.task_charge hk, by dsimp only; omega, rfl⟩, _, State.task_reserve hk, by dsimp only; omega, rfl⟩
  case spend =>
    exact ⟨⟨_, State.task_spendRsv hk, by dsimp only; omega, rfl⟩, _, State.task_refund hk, by dsimp only; omega, rfl⟩

end Sys2Proof.Proofs
end

section
/-! ### What an issue leaves of the tasks and of its train (R116, R303) -/

set_option Elab.async false

namespace Sys2Proof.Machine

/-- A task that has been charged (R116). -/
def Task.charged (k : Task) (n : Nat) : Task := { k with alw := k.alw - n, spent := k.spent + n }

/-- What an issue charges (R116, R118, R161). -/
def Cur.fee (c : Cur) (q : SReq) : Nat := if c.freeIssue q then 0 else q.cost

/-- The train with other portions. -/
def Train.withPortions (t : Train) (ps : Table Portion) : Train := { t with portions := ps }

/-- A change of a train that has nothing to do with its portions. -/
def Train.besidePortions (f : Train → Train) : Prop := ∀ (t : Train) (ps : Table Portion), (f t).withPortions ps = f (t.withPortions ps)

theorem Train.besidePortions_keep : Train.besidePortions keep := fun _ _ => rfl

theorem Train.besidePortions_setS {f : Train → Train} (hf : Train.besidePortions f) (n : Nat) (v : W64) : Train.besidePortions (fun t => (f t).setS n v) := by
  intro t ps
  dsimp only
  rw [← hf t ps]
  unfold Train.setS
  split <;> rfl

theorem Train.sorted_setS {t : Train} {n : Nat} {v : W64} (h : Table.sorted t.s = true) : Table.sorted (t.setS n v).s = true := by
  unfold Train.setS
  split
  · exact h
  · exact Sparse.sorted_set _ _ _ _ h

theorem Train.besidePortions.portions_eq {f : Train → Train} (hf : Train.besidePortions f) (t : Train) : (f t).portions = t.portions := by
  have h : (f t).withPortions t.portions = f t := hf t t.portions
  exact (congrArg Train.portions h).symm

section
variable {s : State} {c : Cur} {q : SReq}

/-! What an instruction that is ready may rely on. -/

theorem State.ready.wait_eq (h : s.ready c q) : c.o.wait = .none := by
  obtain ⟨-, hmay, -⟩ := h
  simp only [State.scalarMay, Bool.and_eq_true, decide_eq_true_eq] at hmay
  exact hmay.2

/-- A boundary instruction is none of the handler's (R161). -/
theorem State.ready.handler_eq (h : s.ready c q) (hb : q.boundary = true) : c.t.handler = none := by
  obtain ⟨-, -, -, -, hbreach, -⟩ := h
  simpa [SReq.breach, hb] using hbreach

theorem Cur.fee_eq (hh : c.t.handler = none) (hagain : c.o.again = .no) (hq : q.free = false) : c.fee q = q.cost := by
  simp [Cur.fee, Cur.freeIssue, hh, hagain, hq]

/-- Its task can pay for it (R116, R120). -/
theorem State.ready.affords {k : Task} (h : s.ready c q) (hk : s.task c.t.task = some k) (hh : c.t.handler = none) (hagain : c.o.again = .no) (hq : q.free = false) :
    q.cost + q.extra ≤ k.alw := by
  obtain ⟨-, -, -, -, -, hpay⟩ := h
  simpa [State.canPay, Cur.need, hk, hh, hagain, hq] using hpay

theorem Cur.moved_wait (c : Cur) (q : SReq) : (c.moved q).wait = c.o.wait := by
  have hfold : ∀ b, (c.o.foldScalar b).wait = c.o.wait := by
    intro b
    unfold Portion.foldScalar
    split <;> rfl
  unfold Cur.moved
  split
  · rfl
  · exact hfold q.op

/-- A portion that does not wait is left as it is by the end of a wait. -/
theorem Cur.after_unwaiting (h : c.o.wait = .none) : c.after q (fun o => { o with wait := .none }) = c.after q keep := by
  have hmoved : { c.moved q with wait := .none } = c.moved q := by rw [← h, ← c.moved_wait q]
  simp only [Cur.after, hmoved, keep_eq]

variable {f : Train → Train} {g : Portion → Portion}

/-! The tasks. -/

theorem State.task_leaves_same {k : Task} (hk : s.task c.t.task = some k) : (s.leaves c q f g).task c.t.task = some (k.charged (c.fee q)) := by
  simp only [State.task, State.leaves, State.paid, Cur.fee] at hk ⊢
  split
  · exact hk
  · rw [Table.find_modify_same, hk]
    rfl

theorem State.task_leaves_other {i : Nat} (h : i ≠ c.t.task) : (s.leaves c q f g).task i = s.task i := by
  simp only [State.task, State.leaves, State.paid]
  split
  · rfl
  · exact Table.find_modify_other _ _ _ _ h

/-- Every task is as before, but for a charge. -/
theorem State.task_leaves (i : Nat) : ∃ n, (s.leaves c q f g).task i = (s.task i).map (fun k => k.charged n) := by
  by_cases hi : i = c.t.task
  · subst hi
    refine ⟨c.fee q, ?_⟩
    cases hk : s.task c.t.task with
    | some k => exact State.task_leaves_same hk
    | none =>
      simp only [State.task, State.leaves, State.paid] at hk ⊢
      split <;> simp [hk]
  · refine ⟨0, ?_⟩
    rw [State.task_leaves_other hi]
    cases s.task i <;> rfl

/-- A charge does not change what a TASKID names (R112, R126). -/
theorem State.named_leaves (me id : Nat) : (s.leaves c q f g).named me id = s.named me id := by
  obtain ⟨n, hn⟩ := State.task_leaves (s := s) (c := c) (q := q) (f := f) (g := g) (id % 65536)
  obtain ⟨m, hm⟩ := State.task_leaves (s := s) (c := c) (q := q) (f := f) (g := g) me
  unfold State.named
  rw [hn, hm]
  cases s.task (id % 65536) with
  | none => rfl
  | some k => cases s.task me <;> rfl

/-! The train. -/

theorem State.train_leaves : (s.leaves c q f g).train c.core c.slot = some (f (c.after q g)) := Table.find_put_same _ _ _

/-- A register written after an issue reads back. -/
theorem Train.getS_after {n : Nat} (v : W64) (hn : n ≠ 0) (hs : Table.sorted c.t.s = true) : ((c.after q g).setS n v).getS n = v := Train.getS_setS _ n v hn hs

theorem Train.portion_after (hf : Train.besidePortions f) : (f (c.after q g)).portion c.p = some (g (c.moved q)) := by
  rw [Train.portion, hf.portions_eq]
  exact Table.find_put_same _ _ _

theorem State.train_setTask (s : State) (i core slot : Nat) (k : Task) : (s.setTask i k).train core slot = s.train core slot := rfl

theorem State.task_putS (s : State) (d : BitVec 6) (v : W64) (i : Nat) : (s.putS d v).task i = s.task i := rfl

theorem State.putS_modTask (s : State) (i : Nat) (h : Task → Task) (d : BitVec 6) (v : W64) : (s.modTask i h).putS d v = (s.putS d v).modTask i h := rfl

theorem State.putReg_leaves (d : Nat) (v : W64) : (s.leaves c q f g).putReg c.core c.slot d v = s.leaves c q (fun t => (f t).setS d v) g := by
  simp only [State.putReg, State.modTrain, State.leaves, Table.modify_put]

theorem State.putS_leaves (hc : s.cur = some c) (d : BitVec 6) (v : W64) : (s.leaves c q f g).putS d v = s.leaves c q (fun t => (f t).setS d.toNat v) g :=
  State.leaves_modCur s c q f _ g hc

theorem State.waitFor_leaves (hc : s.cur = some c) (w : Wait) : (s.leaves c q keep keep).waitFor w = s.leaves c q keep (fun o => { o with wait := w }) :=
  State.leaves_keep_modPortion s c q keep _ hc

/-- The end of a wait that the issue itself began. -/
theorem State.endWait_leaves (hf : Train.besidePortions f) (hw : c.o.wait = .none) (w : Wait) :
    (s.leaves c q f (fun o => { o with wait := w })).endWait c.core c.slot c.p true = s.leaves c q f keep := by
  have hended : (f (c.after q (fun o => { o with wait := w }))).withPortions (Table.modify (f (c.after q (fun o => { o with wait := w }))).portions c.p (fun o => { o with wait := .none })) = f (c.after q keep) := by
    rw [hf, hf.portions_eq, ← Cur.after_unwaiting hw]
    exact congrArg f (c.after_modify q _ _)
  rw [Train.withPortions] at hended
  simp only [State.endWait, State.setWait, State.modTrain, State.leaves, Table.modify_put, if_true, hended]

end

end Sys2Proof.Machine
end

section
/-! ### JOIN, JOINANY, GRANT, CUT and TSTAT by their targets (R112, R126, R127, R429-R431) -/

set_option Elab.async false

namespace Sys2Proof.Machine

open Sys2Proof.Claims

/-! ### What a JOIN finds (R112, R429, R430) -/

section
variable {s : State} {me id : Nat} {k : Task} (hk : s.task me = some k)
include hk

theorem State.joinLook_stale (hn : s.named me id = .stale) : s.joinLook me id = some (joinWord 3 0, s) := by
  simp only [State.joinLook, hk, hn]

theorem State.joinLook_done {e : Nat × Nat} (hn : s.named me id ≠ .stale) (he : k.doneList.find? (fun x => decide (x.1 = id)) = some e) :
    s.joinLook me id = some (joinWord 0 e.2, s.setTask me { k with doneList := k.doneList.filter (fun x => decide (x.1 ≠ id)) }) := by
  unfold State.joinLook
  simp only [hk]
  cases h : s.named me id with
  | stale => exact absurd h hn
  | notChild => simp only [he]
  | freed => simp only [he]
  | child x => simp only [he]

section
variable (he : k.doneList.find? (fun x => decide (x.1 = id)) = none)
include he

theorem State.joinLook_notChild (hn : s.named me id = .notChild) : s.joinLook me id = some (joinWord 2 0, s) := by
  simp only [State.joinLook, hk, hn, he]

theorem State.joinLook_freed (hn : s.named me id = .freed) : s.joinLook me id = some (joinWord 1 0, s) := by
  simp only [State.joinLook, hk, hn, he]

theorem State.joinLook_child {x : Nat} (hn : s.named me id = .child x) : s.joinLook me id = none := by
  simp only [State.joinLook, hk, hn, he]

end
end

/-- The word of a child that has ended is its status (Table 22-2). -/
theorem joinWord_ok (status : Nat) : joinWord 0 status = BitVec.ofNat 64 status := by rw [joinWord, Nat.zero_mul, Nat.zero_add]

/-! ### JOIN and JOINANY at once (R430) -/

section
variable {s : State} {c : Cur} {d a b : BitVec 6} {k : Task}

/-- The state in which a JOIN that has issued looks. -/
def State.joining (s : State) (c : Cur) (rs ws : List Nat) (w : Wait) : State := s.leaves c (taskReq rs ws 2 0) keep (fun o => { o with wait := w })

theorem execJoinChild_looks (hr : s.ready c (taskReq [d.toNat, a.toNat] [d.toNat] 2 0)) (hwf : (Instr.joinChild d a).wf = true) :
    exec (.joinChild d a) s = .next ((s.joining c [d.toNat, a.toNat] [d.toNat] (.join (c.t.getS a.toNat).toNat d.toNat)).endJoin c.core c.slot c.p (c.t.getS a.toNat).toNat d.toNat c.t) := by
  show execJoinChild d a s = _
  unfold execJoinChild
  rw [State.scalarGo_ready s c _ _ _ _ hr (by simp [hwf]) rfl, State.waitFor_leaves hr.1]
  rfl

theorem execJoinany_looks (hr : s.ready c (taskReq [d.toNat, b.toNat] [d.toNat, b.toNat] 2 0)) :
    exec (.joinany d b) s = .next ((s.joining c [d.toNat, b.toNat] [d.toNat, b.toNat] (.joinAny d.toNat b.toNat)).endJoinAny c.core c.slot c.p d.toNat b.toNat c.t) := by
  show execJoinany d b s = _
  unfold execJoinany
  rw [State.scalarGo_ready s c _ _ _ _ hr rfl rfl, State.waitFor_leaves hr.1]
  rfl

section
variable {rs ws : List Nat} {w : Wait}

theorem State.named_joining (me id : Nat) : (s.joining c rs ws w).named me id = s.named me id := State.named_leaves me id

/-- The caller's task while its JOIN looks. -/
theorem State.task_joining (hk : s.task c.t.task = some k) : (s.joining c rs ws w).task c.t.task = some (k.charged (c.fee (taskReq rs ws 2 0))) := State.task_leaves_same hk

variable (hw : c.o.wait = .none)
include hw

/-- What a JOIN answers: its word in S(d), and its portion goes on. -/
theorem State.answered_joining (n : Nat) (v : W64) : ((s.joining c rs ws w).putReg c.core c.slot n v).endWait c.core c.slot c.p true = s.leaves c (taskReq rs ws 2 0) (fun t => t.setS n v) keep := by
  rw [State.joining, State.putReg_leaves]
  exact State.endWait_leaves (Train.besidePortions_setS Train.besidePortions_keep n v) hw w

/-- What a JOINANY answers: two words. -/
theorem State.answeredTwice_joining (n m : Nat) (v x : W64) : (((s.joining c rs ws w).putReg c.core c.slot n v).putReg c.core c.slot m x).endWait c.core c.slot c.p true =
    s.leaves c (taskReq rs ws 2 0) (fun t => (t.setS n v).setS m x) keep := by
  rw [State.joining, State.putReg_leaves, State.putReg_leaves]
  exact State.endWait_leaves (Train.besidePortions_setS (Train.besidePortions_setS Train.besidePortions_keep n v) m x) hw w

end

/-! JOIN of a child, by what its TASKID names. -/

section
variable (hr : s.ready c (taskReq [d.toNat, a.toNat] [d.toNat] 2 0)) (hwf : (Instr.joinChild d a).wf = true) (hk : s.task c.t.task = some k)
include hr hwf hk

/-- A JOIN that looks and finds its answer beside the tasks. -/
theorem execJoinChild_answers {x : W64} (hx : ∀ u : State, u.task c.t.task = some (k.charged (c.fee (taskReq [d.toNat, a.toNat] [d.toNat] 2 0))) →
    u.named c.t.task (c.t.getS a.toNat).toNat = s.named c.t.task (c.t.getS a.toNat).toNat → u.joinLook c.t.task (c.t.getS a.toNat).toNat = some (x, u)) :
    exec (.joinChild d a) s = .next (s.leaves c (taskReq [d.toNat, a.toNat] [d.toNat] 2 0) (fun t => t.setS d.toNat x) keep) := by
  rw [execJoinChild_looks hr hwf, State.endJoin, hx _ (State.task_joining hk) (State.named_joining _ _)]
  exact congrArg Host.Outcome.next (State.answered_joining hr.wait_eq _ _)

theorem execJoinChild_stale (hn : s.named c.t.task (c.t.getS a.toNat).toNat = .stale) :
    exec (.joinChild d a) s = .next (s.leaves c (taskReq [d.toNat, a.toNat] [d.toNat] 2 0) (fun t => t.setS d.toNat (BitVec.ofNat 64 (3 * 65536))) keep) :=
  execJoinChild_answers hr hwf hk fun _ hu hnu => State.joinLook_stale hu (hnu.trans hn)

/-- A child on the done list is taken off it. -/
theorem execJoinChild_done {e : Nat × Nat} (hn : s.named c.t.task (c.t.getS a.toNat).toNat ≠ .stale) (he : k.doneList.find? (fun x => decide (x.1 = (c.t.getS a.toNat).toNat)) = some e) :
    exec (.joinChild d a) s = .next ((s.leaves c (taskReq [d.toNat, a.toNat] [d.toNat] 2 0) (fun t => t.setS d.toNat (joinWord 0 e.2)) keep).setTask c.t.task
      { k.charged (c.fee (taskReq [d.toNat, a.toNat] [d.toNat] 2 0)) with doneList := k.doneList.filter (fun x => decide (x.1 ≠ (c.t.getS a.toNat).toNat)) }) := by
  rw [execJoinChild_looks hr hwf, State.endJoin, State.joinLook_done (State.task_joining hk) (fun h => hn ((State.named_joining _ _).symm.trans h)) he, ← State.answered_joining hr.wait_eq]
  rfl

section
variable (he : k.doneList.find? (fun x => decide (x.1 = (c.t.getS a.toNat).toNat)) = none)
include he

theorem execJoinChild_notChild (hn : s.named c.t.task (c.t.getS a.toNat).toNat = .notChild) :
    exec (.joinChild d a) s = .next (s.leaves c (taskReq [d.toNat, a.toNat] [d.toNat] 2 0) (fun t => t.setS d.toNat (BitVec.ofNat 64 (2 * 65536))) keep) :=
  execJoinChild_answers hr hwf hk fun _ hu hnu => State.joinLook_notChild hu he (hnu.trans hn)

theorem execJoinChild_freed (hn : s.named c.t.task (c.t.getS a.toNat).toNat = .freed) :
    exec (.joinChild d a) s = .next (s.leaves c (taskReq [d.toNat, a.toNat] [d.toNat] 2 0) (fun t => t.setS d.toNat (BitVec.ofNat 64 (1 * 65536))) keep) :=
  execJoinChild_answers hr hwf hk fun _ hu hnu => State.joinLook_freed hu he (hnu.trans hn)

/-- A child short of DONE is waited for. -/
theorem execJoinChild_parks {x : Nat} (hn : s.named c.t.task (c.t.getS a.toNat).toNat = .child x) :
    exec (.joinChild d a) s = .next (s.joining c [d.toNat, a.toNat] [d.toNat] (.join (c.t.getS a.toNat).toNat d.toNat)) := by
  rw [execJoinChild_looks hr hwf, State.endJoin, State.joinLook_child (State.task_joining hk) he ((State.named_joining _ _).trans hn)]

end
end

/-! JOINANY, by the done list. -/

section
variable (hr : s.ready c (taskReq [d.toNat, b.toNat] [d.toNat, b.toNat] 2 0)) (hk : s.task c.t.task = some k)
include hr hk

theorem execJoinany_oldest {e : Nat × Nat} {es : List (Nat × Nat)} (hdb : d.toNat ≠ b.toNat) (hl : k.doneList = e :: es) :
    exec (.joinany d b) s = .next ((s.leaves c (taskReq [d.toNat, b.toNat] [d.toNat, b.toNat] 2 0) (fun t => (t.setS d.toNat (joinWord 0 e.2)).setS b.toNat (BitVec.ofNat 64 e.1)) keep).setTask c.t.task
      { k.charged (c.fee (taskReq [d.toNat, b.toNat] [d.toNat, b.toNat] 2 0)) with doneList := es }) := by
  have hlist : (k.charged (c.fee (taskReq [d.toNat, b.toNat] [d.toNat, b.toNat] 2 0))).doneList = e :: es := hl
  rw [execJoinany_looks hr, State.endJoinAny, State.task_joining hk, ← State.answeredTwice_joining hr.wait_eq]
  simp only [hlist, hdb, if_false]
  rfl

theorem execJoinany_gone (hdb : d.toNat ≠ b.toNat) (hl : k.doneList = []) (hz : k.children = 0) :
    exec (.joinany d b) s = .next (s.leaves c (taskReq [d.toNat, b.toNat] [d.toNat, b.toNat] 2 0) (fun t => (t.setS d.toNat (joinWord 1 0)).setS b.toNat (BitVec.ofNat 64 0)) keep) := by
  have hlist : (k.charged (c.fee (taskReq [d.toNat, b.toNat] [d.toNat, b.toNat] 2 0))).doneList = [] := hl
  have hchildren : (k.charged (c.fee (taskReq [d.toNat, b.toNat] [d.toNat, b.toNat] 2 0))).children = 0 := hz
  rw [execJoinany_looks hr, State.endJoinAny, State.task_joining hk, ← State.answeredTwice_joining (w := .joinAny d.toNat b.toNat) hr.wait_eq]
  simp only [hlist, hchildren, hdb, if_true, if_false]

theorem execJoinany_parks (hl : k.doneList = []) (hz : k.children ≠ 0) :
    exec (.joinany d b) s = .next (s.joining c [d.toNat, b.toNat] [d.toNat, b.toNat] (.joinAny d.toNat b.toNat)) := by
  have hlist : (k.charged (c.fee (taskReq [d.toNat, b.toNat] [d.toNat, b.toNat] 2 0))).doneList = [] := hl
  have hchildren : (k.charged (c.fee (taskReq [d.toNat, b.toNat] [d.toNat, b.toNat] 2 0))).children ≠ 0 := hz
  rw [execJoinany_looks hr, State.endJoinAny, State.task_joining hk]
  simp only [hlist, hchildren, if_false]

end

end

end Sys2Proof.Machine
end

section
/-! ### GRANT, CUT, TSTAT and the self form of JOIN; the task instructions settled (R112, R126, R127, R429-R431) -/

set_option Elab.async false

namespace Sys2Proof.Machine

open Sys2Proof.Claims

/-! ### The self form of JOIN (R431) -/

section
variable {s : State} {c : Cur} (hr : s.ready c (taskReq [] [] 2 0)) (happ : c.t.appending = false)
include hr happ

theorem joinSelfReady : s.ready c { op := 0x2B, cost := 2, clauses := true, boundary := true, stall := if c.t.appending then .waits else .no } := by
  simp only [happ, Bool.false_eq_true, if_false]
  exact hr

theorem execJoinSelf_releases (hone : c.t.portions.length = 1) (hstack : c.o.stack = []) {u : Nat × W64 × State}
    (hu : u = (s.leaves c (taskReq [] [] 2 0) keep keep).beginRelease c.core c.slot c.p) : exec .joinSelf s = .next (u.2.2.waitFor (.ending u.1)) := by
  have hill : (decide (c.t.portions.length ≠ 1) || !c.o.stack.isEmpty) = false := by simp [hone, hstack]
  show execJoinSelf s = _
  unfold execJoinSelf
  rw [State.scalarGo_ready s c _ _ _ _ (joinSelfReady hr happ) hill rfl, hu]
  rfl

theorem execJoinSelf_divided (h : ¬ (c.t.portions.length = 1 ∧ c.o.stack = [])) : exec .joinSelf s = .next (s.scalarFault c fILLOP 0 false) := by
  have hill : (decide (c.t.portions.length ≠ 1) || !c.o.stack.isEmpty) = true := by
    rw [Bool.or_eq_true, decide_eq_true_eq, Bool.not_eq_true', List.isEmpty_eq_false_iff]
    exact not_and_or.mp h
  show execJoinSelf s = _
  unfold execJoinSelf
  exact State.scalarGo_ill s c _ _ _ _ (joinSelfReady hr happ) hill

end

/-! ### GRANT (R126) -/

section
variable {s : State} {c : Cur} {d a b : BitVec 6}

/-- What an instruction finds beside its cost is not charged. -/
theorem State.leaves_extra (rs ws : List Nat) (n : Nat) (f : Train → Train) (g : Portion → Portion) : s.leaves c (taskReq rs ws 2 n) f g = s.leaves c (taskReq rs ws 2 0) f g := rfl

section
variable (hr : s.ready c (taskReq [d.toNat, a.toNat, b.toNat] [d.toNat] 2 (if s.actStatus c.t.task (c.t.getS a.toNat).toNat = 0 then (c.t.getS b.toNat).toNat else 0)))
include hr

theorem execGrant_refused (h : s.actStatus c.t.task (c.t.getS a.toNat).toNat ≠ 0) : exec (.grant d a b) s =
    .next (s.leaves c (taskReq [d.toNat, a.toNat, b.toNat] [d.toNat] 2 0) (fun t => t.setS d.toNat (BitVec.ofNat 64 (s.actStatus c.t.task (c.t.getS a.toNat).toNat))) keep) := by
  show execGrant d a b s = _
  unfold execGrant
  rw [State.scalarGo_ready s c _ _ _ _ hr rfl rfl]
  dsimp only
  rw [if_neg h, State.putS_leaves hr.1]
  rfl

/-- The au leave the caller's ALW and are credited to the target. -/
theorem execGrant_moves (h : s.actStatus c.t.task (c.t.getS a.toNat).toNat = 0) : exec (.grant d a b) s =
    .next ((((s.leaves c (taskReq [d.toNat, a.toNat, b.toNat] [d.toNat] 2 0) keep keep).modTask c.t.task (fun k => { k with alw := k.alw - (c.t.getS b.toNat).toNat })).modTask
      ((c.t.getS a.toNat).toNat % 65536) (fun k => k.credit (c.t.getS b.toNat).toNat)).putS d 0) := by
  show execGrant d a b s = _
  unfold execGrant
  rw [State.scalarGo_ready s c _ _ _ _ hr rfl rfl]
  dsimp only
  simp only [h, if_true]
  rfl

end

/-- A credit resumes a STARVED task and no other (R125). -/
theorem Task.credit_state (k : Task) (au : Nat) : (k.credit au).state = if k.state = .starved then .running else k.state := by
  unfold Task.credit
  split <;> rfl

/-- GRANT to a child: what the two tasks and the caller's train hold afterwards. -/
theorem grant_leaves {k ch : Task} (hst : s.actStatus c.t.task (c.t.getS a.toNat).toNat = 0) (hr : s.ready c (taskReq [d.toNat, a.toNat, b.toNat] [d.toNat] 2 (c.t.getS b.toNat).toNat))
    (hk : s.task c.t.task = some k) (hch : s.task ((c.t.getS a.toNat).toNat % 65536) = some ch) (hne : (c.t.getS a.toNat).toNat % 65536 ≠ c.t.task) (hagain : c.o.again = .no) :
    ∃ t k' ch', exec (.grant d a b) s = .next t ∧ t.task c.t.task = some k' ∧ t.task ((c.t.getS a.toNat).toNat % 65536) = some ch' ∧
      k'.alw + 2 + (c.t.getS b.toNat).toNat = k.alw ∧ k'.spent = k.spent + 2 ∧ ch'.alw = ch.alw + (c.t.getS b.toNat).toNat ∧
      (ch.state = .starved → ch'.state = .running) ∧ (ch.state ≠ .starved → ch'.state = ch.state) ∧
      t.trains = (s.leaves c (taskReq [d.toNat, a.toNat, b.toNat] [d.toNat] 2 0) (fun t => t.setS d.toNat 0) keep).trains := by
  have hmain := hr.handler_eq rfl
  have hpays : 2 + (c.t.getS b.toNat).toNat ≤ k.alw := hr.affords hk hmain hagain rfl
  have hfee : c.fee (taskReq [d.toNat, a.toNat, b.toNat] [d.toNat] 2 0) = 2 := Cur.fee_eq hmain hagain rfl
  have hrun := execGrant_moves (s := s) (c := c) (d := d) (a := a) (b := b) (by rw [if_pos hst]; exact hr) hst
  refine ⟨_, { k.charged 2 with alw := k.alw - 2 - (c.t.getS b.toNat).toNat }, ch.credit (c.t.getS b.toNat).toNat, hrun, ?caller, ?child, ?_, rfl, (ch.credit_leaves _).1, fun h => ?_, fun h => ?_, ?trains⟩
  case caller =>
    rw [State.task_putS, State.task_modTask_other _ _ _ _ hne.symm, State.task_modTask, State.task_leaves_same hk, hfee]
    rfl
  case child =>
    rw [State.task_putS, State.task_modTask, State.task_modTask_other _ _ _ _ hne, State.task_leaves_other hne, hch]
    rfl
  case trains =>
    rw [State.putS_modTask, State.putS_modTask, State.modTask_trains, State.modTask_trains, State.putS_leaves hr.1]
    rfl
  · dsimp only
    omega
  · rw [Task.credit_state, if_pos h]
  · rw [Task.credit_state, if_neg h]

/-! ### CUT (R127) -/

section
variable (hr : s.ready c (taskReq [d.toNat, a.toNat] [d.toNat] 2 0))
include hr

theorem execCut_refused (h : s.actStatus c.t.task (c.t.getS a.toNat).toNat ≠ 0) : exec (.cut d a) s =
    .next (s.leaves c (taskReq [d.toNat, a.toNat] [d.toNat] 2 0) (fun t => t.setS d.toNat (BitVec.ofNat 64 (s.actStatus c.t.task (c.t.getS a.toNat).toNat))) keep) := by
  show execCut d a s = _
  unfold execCut
  rw [State.scalarGo_ready s c _ _ _ _ hr rfl rfl]
  dsimp only
  rw [if_neg h, State.putS_leaves hr.1]
  rfl

theorem execCut_unwinds (h : s.actStatus c.t.task (c.t.getS a.toNat).toNat = 0) : exec (.cut d a) s =
    .next (((s.leaves c (taskReq [d.toNat, a.toNat] [d.toNat] 2 0) keep keep).unwind ((c.t.getS a.toNat).toNat % 65536) 1 0).putS d 0) := by
  show execCut d a s = _
  unfold execCut
  rw [State.scalarGo_ready s c _ _ _ _ hr rfl rfl]
  dsimp only
  rw [if_pos h, h]
  rfl

end

/-! ### TSTAT (R430) -/

theorem State.tstat_own {k : Task} {me : Nat} (hk : s.task me = some k) : s.tstat me 0 = (k.statWord, s) := by
  simp only [State.tstat, hk, if_true, Option.map_some, Option.getD_some]

theorem State.tstat_notChild {x : Task} {me id : Nat} (hid : id ≠ 0) (hn : s.named me id = .notChild) (hx : s.task (id % 65536) = some x) :
    s.tstat me id = (BitVec.ofNat 64 (0x200 + x.state.code), s) := by
  simp only [State.tstat, hid, hn, hx, if_false, Option.map_some, Option.getD_some]

theorem execTstat_reads {q : SReq} (hq : q = { op := 0x2B, sregs := [d.toNat, a.toNat], swrites := [d.toNat], clauses := true }) (hr : s.ready c q) {w : W64}
    (hw : (s.leaves c q keep keep).tstat c.t.task (c.t.getS a.toNat).toNat = (w, s.leaves c q keep keep)) : exec (.tstat d a) s = .next (s.leaves c q (fun t => t.setS d.toNat w) keep) := by
  show execTstat d a s = _
  subst hq
  unfold execTstat
  rw [State.scalarGo_ready s c _ _ _ _ hr rfl rfl]
  dsimp only
  rw [hw, State.putS_leaves hr.1]
  rfl

end

end Sys2Proof.Machine

namespace Sys2Proof.Proofs

open Sys2Proof.Machine

/-- Settles O23: each instruction by what its target is, on the state in which it has been charged; a charge changes no name and no done list. -/
theorem joinGrantCut : Obligations.JoinGrantCut := by
  unfold Obligations.JoinGrantCut
  refine ⟨⟨fun s c d a k hr hwf hd hs hk => ⟨fun hn => execJoinChild_stale hr hwf hk hn, fun e hn he => ?done, fun he => ⟨fun n st hmem hn => ?gone, fun x hn => execJoinChild_parks hr hwf hk he hn⟩⟩,
    fun s c d b k hr hdb hd hb hs hk => ?any, fun s c hr happ => ⟨fun h u hu => execJoinSelf_releases hr happ h.1 h.2 hu, execJoinSelf_divided hr happ⟩⟩,
    fun s c d a b st hst hr => ?grant, fun s c d a st hst hr => ?cut, fun s c d a k q hq hr hagain hmain hk => ?tstat⟩
  case done =>
    refine ⟨_, _, _, _, execJoinChild_done hr hwf hk hn he, (State.train_setTask _ _ _ _ _).trans State.train_leaves,
      Train.portion_after (Train.besidePortions_setS Train.besidePortions_keep _ _), ?_, ?_, State.task_setTask _ _ _, rfl⟩
    · rw [keep_eq, Cur.moved_wait, hr.wait_eq]
    · exact (Train.getS_after _ (BitVec.toNat_ne.mp hd) hs).trans (joinWord_ok _)
  case gone =>
    simp only [List.mem_cons, Prod.mk.injEq, List.not_mem_nil, or_false] at hmem
    obtain ⟨rfl, rfl⟩ | ⟨rfl, rfl⟩ := hmem
    · exact execJoinChild_notChild hr hwf hk he hn
    · exact execJoinChild_freed hr hwf hk he hn
  case any =>
    have hne : d.toNat ≠ b.toNat := BitVec.toNat_ne.mp hdb
    have hd0 : d.toNat ≠ 0 := BitVec.toNat_ne.mp hd
    have hb0 : b.toNat ≠ 0 := BitVec.toNat_ne.mp hb
    have hreads : ∀ (q : SReq) (v x : W64), (((c.after q keep).setS d.toNat v).setS b.toNat x).getS d.toNat = v ∧ (((c.after q keep).setS d.toNat v).setS b.toNat x).getS b.toNat = x := fun q v x =>
      ⟨(Train.getS_setS_other _ _ _ _ hne).trans (Train.getS_after _ hd0 hs), Train.getS_setS _ _ _ hb0 (Train.sorted_setS hs)⟩
    refine ⟨fun e es hl => ?_, fun hl hz => ?_, fun hl hz => execJoinany_parks hr hk hl hz⟩
    · obtain ⟨hword, hid⟩ := hreads _ (joinWord 0 e.2) (BitVec.ofNat 64 e.1)
      exact ⟨_, _, _, execJoinany_oldest hr hk hne hl, (State.train_setTask _ _ _ _ _).trans State.train_leaves, hword.trans (joinWord_ok _), hid, State.task_setTask _ _ _, rfl⟩
    · obtain ⟨hword, hid⟩ := hreads _ (joinWord 1 0) (BitVec.ofNat 64 0)
      exact ⟨_, _, execJoinany_gone hr hk hne hl hz, State.train_leaves, hword, hid⟩
  case grant =>
    subst hst
    exact ⟨fun h => execGrant_refused hr h, fun k ch h hk hch hne hagain => grant_leaves h (by rwa [if_pos h] at hr) hk hch hne hagain⟩
  case cut =>
    subst hst
    exact ⟨fun h => execCut_refused hr h, fun h => execCut_unwinds hr h⟩
  case tstat =>
    refine ⟨fun x ha hn hx hne => execTstat_reads hq hr ?_, fun ha => execTstat_reads hq hr ?_⟩
    · exact State.tstat_notChild (BitVec.toNat_ne.mp ha) ((State.named_leaves _ _).trans hn) ((State.task_leaves_other hne).trans hx)
    · have hfee : c.fee q = 1 := by rw [Cur.fee_eq hmain hagain (by rw [hq]), hq]
      rw [ha]
      exact (State.tstat_own (State.task_leaves_same hk)).trans (by rw [hfee]; rfl)

end Sys2Proof.Proofs
end

section
/-! ### Messages for sectors and the acquire of a token leave the tasks, the trains and the registers (R191, R192, R218-R220) -/

set_option Elab.async false

namespace Sys2Proof.Machine

/-- Beside the tasks, the trains and the event, the focus, the registers and the counter of free values are the same. -/
structure SameBooks (s t : State) : Prop extends SameWork s t where
  focus : t.focus = s.focus
  bar : t.bar = s.bar
  fresh : t.fresh = s.fresh

namespace SameBooks

variable {s t u : State}

theorem refl (s : State) : SameBooks s s := ⟨SameWork.refl s, rfl, rfl, rfl⟩

theorem trans (h : SameBooks s t) (h' : SameBooks t u) : SameBooks s u :=
  ⟨h.toSameWork.trans h'.toSameWork, h'.focus.trans h.focus, h'.bar.trans h.bar, h'.fresh.trans h.fresh⟩

theorem foldl {β : Type} {f : State → β → State} (hf : ∀ u x, SameBooks u (f u x)) (xs : List β) (s : State) : SameBooks s (xs.foldl f s) :=
  List.foldlRecOn xs f (refl s) (fun u hu x _ => hu.trans (hf u x))

theorem setCore (s : State) (c : Nat) (k : Core) : SameBooks s (s.setCore c k) := ⟨⟨rfl, rfl, rfl⟩, rfl, rfl, rfl⟩

theorem dropFar (s : State) (owner : Nat) : SameBooks s (s.dropFar owner) := ⟨⟨rfl, rfl, rfl⟩, rfl, rfl, rfl⟩

theorem deviceWrite (s : State) (a : Nat) (bs : List Byte) : SameBooks s (s.deviceWrite a bs) := by
  obtain ⟨m, st, ps, h⟩ := s.deviceWrite_frame a bs
  rw [h]
  exact ⟨⟨rfl, rfl, rfl⟩, rfl, rfl, rfl⟩

theorem request (s : State) (src pa len : Nat) (write : Bool) (aop : Option Nat) (data : List Byte) (reply : OutFor) (pois : Bool) :
    SameBooks s (s.request src pa len write aop data reply pois) := by
  unfold State.request
  dsimp only
  split
  · split <;> exact ⟨⟨rfl, rfl, rfl⟩, rfl, rfl, rfl⟩
  · exact ⟨⟨rfl, rfl, rfl⟩, rfl, rfl, rfl⟩
  · exact ⟨⟨rfl, rfl, rfl⟩, rfl, rfl, rfl⟩

/-! Sectors asked for. -/

theorem askSector (s : State) (core key pa : Nat) (stash keep : Bool) : SameBooks s (s.askSector core key pa stash keep) := by
  unfold State.askSector
  dsimp only
  split
  · exact refl s
  · split
    · exact setCore _ _ _
    · exact ⟨⟨rfl, rfl, rfl⟩, rfl, rfl, rfl⟩

theorem sendSector (s : State) (core key pa : Nat) (stash : Bool) : SameBooks s (s.sendSector core key pa stash) := by
  unfold State.sendSector
  split
  · exact refl s
  · exact request _ _ _ _ _ _ _ _ _

theorem wantSector (s : State) (core key pa : Nat) (stash keep : Bool) : SameBooks s (s.wantSector core key pa stash keep) := by
  unfold State.wantSector
  dsimp only
  split
  · exact askSector _ _ _ _ _ _
  · exact (askSector _ _ _ _ _ _).trans (sendSector _ _ _ _ _)

/-! Lines invalidated, records voided. -/

theorem invalidate (s : State) (core : Nat) (sel : Nat → Bool) : SameBooks s (s.invalidate core sel) := by
  unfold State.invalidate
  dsimp only
  refine SameBooks.trans (SameBooks.trans (SameBooks.trans ?_ (foldl ?_ _ _)) (foldl ?_ _ _)) (foldl ?_ _ _)
  · exact ⟨⟨rfl, rfl, rfl⟩, rfl, rfl, rfl⟩
  · exact fun u f => sendSector u _ _ _ _
  · exact fun u e => wantSector u _ _ _ _ _
  · exact fun u e => wantSector u _ _ _ _ _

theorem voidRecs (s : State) (core : Nat) (sel : Rec → Bool) : SameBooks s (s.voidRecs core sel) := by
  unfold State.voidRecs
  dsimp only
  refine SameBooks.trans (SameBooks.trans ?_ (foldl (fun u r => ?_) _ _)) (invalidate _ _ _)
  · exact ⟨⟨rfl, rfl, rfl⟩, rfl, rfl, rfl⟩
  · split
    · exact deviceWrite _ _ _
    · exact refl u

/-! An acquire (R219, R220). -/

theorem invalidateByHash (s : State) (core log lo hi : Nat) : SameBooks s (s.invalidateByHash core log lo hi) := by
  unfold State.invalidateByHash
  dsimp only
  split <;> exact invalidate _ _ _

theorem acquire {core tok : Nat} {sys : Bool} (h : s.acquire core tok sys = some u) : SameBooks s u := by
  unfold State.acquire at h
  extract_lets log t k m v at h
  clear_value m t
  split at h
  · exact absurd h (Option.some_ne_none u).symm
  · split at h
    · rw [← Option.some.inj h]
      exact refl s
    · rw [← Option.some.inj h]
      refine SameBooks.trans ?_ (setCore _ _ _)
      dsimp only [v]
      split
      · exact invalidate _ _ _
      · split
        · exact invalidate _ _ _
        · exact invalidateByHash _ _ _ _ _

/-- Where it must wait, nothing happens. -/
theorem acquire_getD (s : State) (core tok : Nat) (sys : Bool) : SameBooks s ((s.acquire core tok sys).getD s) := by
  cases h : s.acquire core tok sys with
  | none => exact refl s
  | some u => exact acquire h

end SameBooks

end Sys2Proof.Machine
end

section
/-! ### SPAWN and SPAWNF (R112, R114, R130, R427, R428) -/

set_option Elab.async false

namespace Sys2Proof.Machine

open Sys2Proof.Claims

/-! ### A task entered in the table (R112, R114) -/

section
variable {s u : State} {i : Nat} {k : Task}

theorem State.freeTask_notHeld (h : s.freeTask = some i) (hk : s.task i = some k) : k.held = false := by
  have hfree := List.find?_some h
  simpa [hk] using hfree

theorem State.freeTask_congr (hf : u.fresh = s.fresh) (ht : ∀ i, (u.task i).map Task.held = (s.task i).map Task.held) : u.freeTask = s.freeTask := by
  unfold State.freeTask
  rw [hf]
  generalize (List.range 65536).map _ = xs
  refine congrArg (List.find? · xs) (funext fun i => ?_)
  have hi := ht i
  cases hu : u.task i <;> cases hs : s.task i <;> simp_all

/-- Whether a slot has room for a task is told by its register and by which tasks are held. -/
theorem State.taskRoom_congr {p : Nat} (hb : u.bar = s.bar) (hf : u.fresh = s.fresh) (ht : ∀ i, (u.task i).map Task.held = (s.task i).map Task.held) : u.taskRoom p = s.taskRoom p := by
  rw [State.taskRoom, State.freeTask_congr hf ht, State.regBits_of_bar hb, State.regBits_of_bar hb, State.taskRoom]

/-- The state in which a task has been entered: its generation counts on, its slot counts it (R112, R114). -/
def State.entered (s : State) (i : Nat) (k : Task) : State :=
  (State.setTask { s with fresh := s.fresh + 1 } i { k with gen := ((s.task i).map Task.gen).getD 0 + 1 }).setRegBits (slotOff k.slot 0x380) 32 17 (s.regBits (slotOff k.slot 0x380) 32 17 + 1)

theorem State.newTask_noRoom (h : s.taskRoom k.slot = false) : s.newTask k = none := by
  unfold State.newTask
  split
  · rfl
  · simp only [h, Bool.not_false, if_true]

theorem State.newTask_room (h : s.taskRoom k.slot = true) : ∃ i, s.freeTask = some i ∧ s.newTask k = some (i, s.entered i k) := by
  have hsome : s.freeTask.isSome = true := by
    simp only [State.taskRoom, Bool.and_eq_true] at h
    exact h.2
  obtain ⟨i, hi⟩ := Option.isSome_iff_exists.mp hsome
  refine ⟨i, hi, ?_⟩
  unfold State.newTask
  simp only [hi, h, Bool.not_true, Bool.false_eq_true, if_false]
  rfl

theorem State.task_setRegBits (s : State) (off lo n v i : Nat) : (s.setRegBits off lo n v).task i = s.task i := rfl

theorem State.task_entered (s : State) (i : Nat) (k : Task) : (s.entered i k).task i = some { k with gen := ((s.task i).map Task.gen).getD 0 + 1 } := by
  rw [State.entered, State.task_setRegBits, State.task_setTask]

theorem State.task_entered_other {j : Nat} (h : j ≠ i) : (s.entered i k).task j = s.task j := by
  rw [State.entered, State.task_setRegBits, State.task_setTask_other _ _ _ _ h]
  rfl

end

/-! ### The child (R427) -/

section
variable {u : State} {c : Cur} {d : BitVec 6} {tk : Option W64} {bs : List Byte} {k : Task}

/-- The task that a launch record asks its parent for. -/
def spawnedTask (c : Cur) (k : Task) (tk : Option W64) (bs : List Byte) : Task := { launchTask bs k.slot (k.id c.t.task) k.level k.queue with token := tk }

theorem State.spawnChild_noRoom (hk : u.task c.t.task = some k) (h : u.taskRoom k.slot = false) : u.spawnChild c d tk bs = u.putS d 4 := by
  unfold State.spawnChild
  simp only [hk]
  split
  · rfl
  · next h' => exact absurd (h'.symm.trans (State.newTask_noRoom (k := spawnedTask c k tk bs) h)) (Option.some_ne_none _)

/-- The state in which a parent's grant has gone to its new child `i`, which is queued on the parent's core. -/
def State.spawned (u : State) (c : Cur) (k : Task) (tk : Option W64) (bs : List Byte) (i : Nat) : State :=
  ((u.entered i (spawnedTask c k tk bs)).modTask c.t.task (fun x => { x with alw := x.alw - launchGrant bs, children := x.children + 1 })).setCore c.core
    { u.core c.core with readyQ := (u.core c.core).readyQ ++ [i] }

section
variable {i : Nat} (hne : i ≠ c.t.task)
include hne

theorem State.task_spawned_child : (u.spawned c k tk bs i).task i = some { spawnedTask c k tk bs with gen := ((u.task i).map Task.gen).getD 0 + 1 } :=
  (State.task_modTask_other _ _ _ _ hne).trans (State.task_entered _ _ _)

theorem State.task_spawned_parent (hk : u.task c.t.task = some k) : (u.spawned c k tk bs i).task c.t.task = some { k with alw := k.alw - launchGrant bs, children := k.children + 1 } := by
  refine (State.task_modTask _ _ _).trans ?_
  rw [State.task_entered_other hne.symm, hk]
  rfl

end

theorem State.readyQ_spawned (i : Nat) : i ∈ ((u.spawned c k tk bs i).core c.core).readyQ := by
  rw [State.spawned, State.core_setCore]
  exact List.mem_append_right _ (List.mem_singleton_self i)

theorem State.spawnChild_room (hk : u.task c.t.task = some k) (hheld : k.held = true) (h : u.taskRoom k.slot = true) : ∃ i, i ≠ c.t.task ∧
    u.spawnChild c d tk bs = (u.spawned c k tk bs i).putS d (BitVec.ofNat 64 ((((u.task i).map Task.gen).getD 0 + 1) * 65536 + i)) := by
  obtain ⟨i, hfree, hnew⟩ := State.newTask_room (s := u) (k := spawnedTask c k tk bs) h
  have hne : i ≠ c.t.task := fun hi => by
    rw [← hi] at hk
    exact absurd (State.freeTask_notHeld hfree hk) (by simp [hheld])
  have hchild := State.task_spawned_child (u := u) (k := k) (tk := tk) (bs := bs) hne
  refine ⟨i, hne, ?_⟩
  unfold State.spawnChild
  simp only [hk]
  split
  · next h => exact absurd (h.symm.trans hnew) (Option.some_ne_none _).symm
  · next j v h =>
    obtain ⟨rfl, rfl⟩ := Prod.mk.inj (Option.some.inj (h.symm.trans hnew))
    show (u.spawned c k tk bs j).putS d (BitVec.ofNat 64 ((((u.spawned c k tk bs j).task j).map (fun x => x.id j)).getD 0)) = _
    rw [hchild]
    rfl

end

/-! ### Issue of a spawn (R425, R427, R428) -/

section
variable {s : State} {c : Cur} {d a : BitVec 6} {tok : Option (BitVec 6)} {bs : List Byte}
  (haligned : (c.t.getS a.toNat).toNat % 128 = 0) (hcanon : canonical (c.t.getS a.toNat).toNat = true)
  (hread : s.deviceRead (portionOwner c.core c.slot c.p) (c.pslot s) (c.t.getS a.toNat).toNat 128 = .ok bs)
  (hacq : ∀ b, tok = some b → (s.acquire c.core ((c.t.getS b.toNat).toNat % 2 ^ 63) false).isSome = true)
include haligned hcanon hread

theorem State.spawnRead_ok : s.spawnRead c a = some (.ok bs) := by
  simp only [State.spawnRead, haligned, hcanon, hread, decide_true, Bool.and_self, if_true]

include hacq in
theorem spawnReq_eq : spawnReq s d a tok c = spawnNeeds d a tok (launchGrant bs) := by
  have hr := State.spawnRead_ok haligned hcanon hread
  cases tok with
  | none => simp only [spawnReq, hr, DRead.stall, Bool.false_eq_true, if_false, spawnNeeds]
  | some b =>
    have hgo : (s.acquire c.core ((c.t.getS b.toNat).toNat % 2 ^ 63) false).isNone = false := by rw [Option.isNone_eq_false_iff, hacq b rfl]
    simp only [spawnReq, hr, DRead.stall, hgo, Bool.false_eq_true, if_false, spawnNeeds]

include hacq in
/-- A spawn that issues creates its child on the state in which it has been charged and its token acquired. -/
theorem execSpawn_creates (hok : launchOk bs = true) (hfits : launchFits bs = true) (hready : s.ready c (spawnNeeds d a tok (launchGrant bs))) :
    ∃ u, SameBooks (s.leaves c (spawnNeeds d a tok (launchGrant bs)) keep keep) u ∧ exec (spawnInstr d a tok) s = .next (u.spawnChild c d (tok.map (fun b => c.t.getS b.toNat)) bs) := by
  have hr := State.spawnRead_ok haligned hcanon hread
  have hq := spawnReq_eq (d := d) haligned hcanon hread hacq
  have hrun : exec (spawnInstr d a tok) s = s.spawn d a tok := by cases tok <;> rfl
  rw [hrun, State.spawn, State.scalarGo_ready s c (spawnReq s d a tok) _ _ _ (hq ▸ hready) (by simp [hr, hok, hfits]) (by simp [hr, DRead.trouble]), hq]
  simp only [hr]
  cases tok with
  | none => exact ⟨_, SameBooks.dropFar _ _, rfl⟩
  | some b => exact ⟨_, (SameBooks.dropFar _ _).trans (SameBooks.acquire_getD _ _ _ _), rfl⟩

end

/-- S(d) written where the tasks, the trains and the focus are as the issue left them. -/
theorem State.train_putS {s u : State} {c : Cur} {q : SReq} (hc : s.cur = some c) (hf : u.focus = s.focus) (ht : u.trains = (s.leaves c q keep keep).trains) (d : BitVec 6) (v : W64) :
    (u.putS d v).train c.core c.slot = some ((c.after q keep).setS d.toNat v) := by
  obtain ⟨hfocus, -, -⟩ := State.cur_eq hc
  have htrain : u.train c.core c.slot = some (c.after q keep) := (congrArg (fun m => Table.find m (trainKey c.core c.slot)) ht).trans (Table.find_put_same _ _ _)
  rw [State.putS, State.modCur, hf, hfocus, State.train_modTrain, htrain]
  rfl

end Sys2Proof.Machine

namespace Sys2Proof.Proofs

open Sys2Proof.Machine

/-- Settles O22: the child is entered on the state that the charge and the acquire leave, in which the tasks are the caller's, charged, and the others as before. -/
theorem spawnCreatesChild : Obligations.SpawnCreatesChild := by
  unfold Obligations.SpawnCreatesChild
  intro s c d a tok bs k haligned hcanon hread hok hfits hready hagain hk hheld hd hs hacq
  obtain ⟨u, hu, hrun⟩ := execSpawn_creates haligned hcanon hread hacq hok hfits hready
  generalize hq : Claims.spawnNeeds d a tok (launchGrant bs) = q at hready hu
  have hmain : c.t.handler = none := hready.handler_eq (by rw [← hq]; rfl)
  have hfee : c.fee q = 8 := (Cur.fee_eq hmain hagain (by rw [← hq]; rfl)).trans (by rw [← hq]; rfl)
  have hpays : 8 + launchGrant bs ≤ k.alw := by
    have h := hready.affords hk hmain hagain (by rw [← hq]; rfl)
    rwa [← hq] at h
  have hparent : u.task c.t.task = some (k.charged 8) := (hu.task_eq _).trans ((State.task_leaves_same hk).trans (by rw [hfee]))
  have hroom : u.taskRoom k.slot = s.taskRoom k.slot := by
    refine State.taskRoom_congr hu.bar hu.fresh fun i => ?_
    obtain ⟨n, hn⟩ := State.task_leaves (s := s) (c := c) (q := q) (f := keep) (g := keep) i
    rw [hu.task_eq, hn]
    cases s.task i <;> rfl
  have hreads : ∀ {v : State} (x : W64), v.focus = u.focus → v.trains = u.trains → (v.putS d x).train c.core c.slot = some ((c.after q keep).setS d.toNat x) := fun x hvf hvt =>
    State.train_putS hready.1 (hvf.trans hu.focus) (hvt.trans hu.trains) d x
  have hback : ∀ x, ((c.after q keep).setS d.toNat x).getS d.toNat = x := fun x => Train.getS_after x (BitVec.toNat_ne.mp hd) hs
  refine ⟨fun h => ?room, fun h => ?full⟩
  case room =>
    obtain ⟨i, hne, hspawn⟩ := State.spawnChild_room (u := u) (d := d) (tk := tok.map (fun b => c.t.getS b.toNat)) (bs := bs) hparent hheld (hroom.trans h)
    rw [hspawn] at hrun
    refine ⟨_, _, i, _, _, hrun, hreads _ rfl rfl, (State.task_putS _ _ _ _).trans (State.task_spawned_child hne), (State.task_putS _ _ _ _).trans (State.task_spawned_parent hne hparent), hne,
      rfl, rfl, rfl, rfl, rfl, rfl, rfl, rfl, rfl, rfl, rfl, rfl, hback _, State.readyQ_spawned i, rfl, rfl, rfl, ?_⟩
    show k.alw - 8 - launchGrant bs + launchGrant bs + (k.spent + 8) = k.alw + k.spent
    omega
  case full =>
    rw [State.spawnChild_noRoom hparent (hroom.trans h)] at hrun
    refine ⟨_, _, _, hrun, hreads _ rfl rfl, (State.task_putS _ _ _ _).trans hparent, hback _, ?_, rfl, rfl⟩
    show k.alw - 8 + 8 = k.alw
    omega

end Sys2Proof.Proofs
end

section
/-! ### A task unwound (R127, R128, R158, R159) -/

set_option Elab.async false

namespace Sys2Proof.Machine

/-- A map that keeps the keys acts on each entry. -/
theorem Table.find_map_keys {α β : Type} {g : Nat × α → Nat × β} (hg : ∀ e, (g e).1 = e.1) (m : Table α) (key : Nat) :
    Table.find (m.map g) key = (Table.find m key).map (fun v => (g (key, v)).2) := by
  induction m with
  | nil => rfl
  | cons e m ih =>
    obtain ⟨k, w⟩ := e
    have hgk : g (k, w) = (k, (g (k, w)).2) := Prod.ext (hg _) rfl
    rw [List.map_cons, hgk]
    simp only [Table.find]
    by_cases hk : k = key
    · subst hk
      simp only [if_true, Option.map_some]
    · simp only [hk, if_false, ih]

/-- Every entry of the task table changed by its number. -/
theorem State.task_mapTasks (s : State) {g : Nat × Task → Nat × Task} (hg : ∀ e, (g e).1 = e.1) (i : Nat) :
    State.task { s with tasks := s.tasks.map g } i = (s.task i).map (fun k => (g (i, k)).2) := Table.find_map_keys hg _ _

/-! ### The outcome that an unwinding task carries -/

/-- The task is unwinding with the status and the fault code. -/
def Task.unwindsAs (k : Task) (status code : Nat) : Prop := k.state = .unwinding ∧ k.status = status ∧ k.faultCode = code

/-- So is task `t` of the table. -/
def State.unwindsAs (s : State) (t status code : Nat) : Prop := ∃ k, s.task t = some k ∧ k.unwindsAs status code

/-- A change of a task that leaves its state, its status and its fault code. -/
def Task.keepsOutcome (f : Task → Task) : Prop := ∀ k, (f k).state = k.state ∧ (f k).status = k.status ∧ (f k).faultCode = k.faultCode

theorem Task.keepsOutcome.unwindsAs {f : Task → Task} (hf : Task.keepsOutcome f) {k : Task} {status code : Nat} (h : k.unwindsAs status code) : (f k).unwindsAs status code := by
  obtain ⟨hstate, hstatus, hcode⟩ := hf k
  exact ⟨hstate.trans h.1, hstatus.trans h.2.1, hcode.trans h.2.2⟩

namespace State.unwindsAs

variable {s u : State} {t status code : Nat} (h : s.unwindsAs t status code)
include h

theorem of_tasks (hu : u.tasks = s.tasks) : u.unwindsAs t status code := by
  obtain ⟨k, hk, hout⟩ := h
  exact ⟨k, by rw [State.task, hu]; exact hk, hout⟩

theorem modTask (i : Nat) {f : Task → Task} (hf : Task.keepsOutcome f) : (s.modTask i f).unwindsAs t status code := by
  obtain ⟨k, hk, hout⟩ := h
  by_cases hi : t = i
  · subst hi
    exact ⟨f k, by rw [State.task_modTask, hk]; rfl, hf.unwindsAs hout⟩
  · exact ⟨k, (State.task_modTask_other _ _ _ _ hi).trans hk, hout⟩

theorem mapTasks {g : Nat × Task → Nat × Task} (hg : ∀ e, (g e).1 = e.1) (hf : Task.keepsOutcome (fun k => (g (t, k)).2)) : State.unwindsAs { s with tasks := s.tasks.map g } t status code := by
  obtain ⟨k, hk, hout⟩ := h
  exact ⟨_, by rw [State.task_mapTasks s hg, hk]; rfl, hf.unwindsAs hout⟩

/-! Trains removed. -/

theorem advanceRoutes (task : Nat) : (s.advanceRoutes task).unwindsAs t status code := by
  unfold State.advanceRoutes
  split
  · exact h
  · next k hk =>
    obtain ⟨k', hk', hout⟩ := h
    by_cases hi : t = task
    · subst hi
      cases hk.symm.trans hk'
      exact ⟨_, State.task_setTask _ _ _, hout⟩
    · exact ⟨k', (State.task_setTask_other _ _ _ _ hi).trans hk', hout⟩

theorem removeTrain (key : Nat) : (s.removeTrain key).unwindsAs t status code := by
  unfold State.removeTrain
  split
  · exact h
  · next x _ =>
    dsimp only
    refine advanceRoutes (of_tasks ?_ (SameWork.noteFreed _ _).tasks) _
    refine of_tasks (s := State.modTask (State.dropTickets { s with trains := Table.drop s.trains key } key) x.task _) (modTask (of_tasks h rfl) _ fun k => ?_) rfl
    exact ⟨rfl, rfl, rfl⟩

theorem removeTrainsOf (ts : List Nat) : (s.removeTrainsOf ts).unwindsAs t status code := by
  unfold State.removeTrainsOf
  dsimp only
  refine foldl_keeps (fun u : State => u.unwindsAs t status code) _ _ _ ?_ fun u c hu => hu.of_tasks (SameBooks.voidRecs u _ _).tasks
  exact foldl_keeps (fun u : State => u.unwindsAs t status code) _ _ _ h fun u key hu => hu.removeTrain key

/-! Jobs and continuations cancelled, saved trains counted in. -/

theorem cancelJobs (ts : List Nat) : (s.cancelJobs ts).unwindsAs t status code := by
  unfold State.cancelJobs
  refine foldl_keeps (fun u : State => u.unwindsAs t status code) _ _ _ h fun u e hu => ?_
  dsimp only [State.refund]
  refine modTask (modTask (of_tasks hu rfl) _ ?_) _ ?_
  · exact fun k => ⟨rfl, rfl, rfl⟩
  · exact fun k => ⟨rfl, rfl, rfl⟩

theorem cancelConts (ts : List Nat) : (s.cancelConts ts).unwindsAs t status code := by
  unfold State.cancelConts
  refine of_tasks (mapTasks h ?_ ?_) rfl
  · intro e
    dsimp only
    split <;> rfl
  · intro k
    dsimp only
    split <;> exact ⟨rfl, rfl, rfl⟩

theorem absorbSaved (ts : List Nat) : (s.absorbSaved ts).unwindsAs t status code := by
  unfold State.absorbSaved
  exact foldl_keeps (fun u : State => u.unwindsAs t status code) _ _ _ h fun u e hu => hu.modTask _ fun k => ⟨rfl, rfl, rfl⟩

end State.unwindsAs

/-! ### The unwind -/

/-- An unwind takes in the tasks it begins with. -/
theorem State.mem_subtree (s : State) {t : Nat} (fuel : Nat) {ts : List Nat} (h : t ∈ ts) : t ∈ s.subtree fuel ts := by
  induction fuel generalizing ts with
  | zero => exact h
  | succ n ih =>
    unfold State.subtree
    dsimp only
    split
    · exact h
    · exact ih (List.mem_append_left _ h)

section
variable (s : State) (ts : List Nat) (t status code : Nat)

/-- The tasks that an unwind takes in marked as UNWINDING (R128). -/
def State.marked : State :=
  { s with tasks := s.tasks.map (fun (e : Nat × Task) => if ts.contains e.1 then (e.1, { e.2 with state := .unwinding, status := status, faultCode := if e.1 = t then code else 0 }) else e) }

/-- What is left of them outside the task table gone, and their trains counted out. -/
def State.swept : State :=
  let s := { s with
    saved := s.saved.filter (fun e => !ts.contains e.2.task)
    tasks := s.tasks.map (fun (e : Nat × Task) => (e.1, if ts.contains e.1 then { e.2 with live := 0 } else e.2)) }
  { s with
    cores := s.cores.map (fun (e : Nat × Core) => (e.1, { e.2 with readyQ := e.2.readyQ.filter (fun x => !ts.contains x) }))
    slots := s.slots.map (fun (e : Nat × PSlot) => (e.1, { e.2 with siding := e.2.siding.filter (fun x => !ts.contains x) })) }

variable {s ts t status code} {k : Task}

theorem State.marked_unwindsAs (hk : s.task t = some k) (hin : ts.contains t = true) : (s.marked ts t status code).unwindsAs t status code := by
  refine ⟨{ k with state := .unwinding, status := status, faultCode := code }, ?_, rfl, rfl, rfl⟩
  refine (State.task_mapTasks s ?_ t).trans ?_
  · intro e
    dsimp only
    split <;> rfl
  · rw [hk]
    simp only [Option.map_some, hin, if_true]

theorem State.task_swept (hk : s.task t = some k) (hin : ts.contains t = true) : (s.swept ts).task t = some { k with live := 0 } := by
  refine (State.task_mapTasks s ?_ t).trans ?_
  · exact fun e => rfl
  · rw [hk]
    simp only [Option.map_some, hin, if_true]

variable (hk : s.task t = some k) (hheld : k.held = true) (hopen : k.closing = false) (hdone : k.state ≠ .done) (hrun : k.state ≠ .unwinding)
include hk hheld hopen hdone hrun

theorem State.unwind_eq (hts : ts = s.subtree s.tasks.length [t]) :
    s.unwind t status code = (((((s.marked ts t status code).cancelConts ts).cancelJobs ts).removeTrainsOf ts).absorbSaved ts).swept ts := by
  subst hts
  unfold State.unwind
  simp only [hk, hheld, hopen, hdone, hrun, Bool.not_true, decide_false, Bool.or_self, Bool.false_eq_true, if_false]
  rfl

/-- A task that runs and is unwound carries the status and the code, and has no train left. -/
theorem State.unwind_open : ∃ k', (s.unwind t status code).task t = some k' ∧ k'.unwindsAs status code ∧ k'.live = 0 := by
  have hin : (s.subtree s.tasks.length [t]).contains t = true := List.contains_iff_mem.mpr (s.mem_subtree _ (List.mem_singleton_self t))
  rw [State.unwind_eq hk hheld hopen hdone hrun rfl]
  generalize s.subtree s.tasks.length [t] = ts at hin
  obtain ⟨x, hx, hout⟩ := ((((State.marked_unwindsAs hk hin).cancelConts ts).cancelJobs ts).removeTrainsOf ts).absorbSaved ts
  exact ⟨_, State.task_swept hx hin, hout, rfl⟩

end

end Sys2Proof.Machine
end


section
/-! ### Faults by their routes (R116, R119, R158-R161, R303, R443) -/

set_option Elab.async false

namespace Sys2Proof.Machine

open Sys2Proof.Claims

/-! ### A fault taken -/

section
variable {s : State} {core slot p : Nat} {f : Trouble} {t : Train} (ht : s.train core slot = some t)
  (hquiet : ∀ x ∈ f.lanes, x.code ≠ fOWNERSHIP ∧ x.code ≠ fLINKERR ∧ x.code ≠ fLINKTIMEOUT)

include hquiet in
/-- Faults that no counter of Table 4-9 counts. -/
theorem State.countFaults_quiet (ps : Nat) : s.countFaults ps core f.lanes = s := by
  have hown : f.lanes.any (fun x => decide (x.code = fOWNERSHIP)) = false := by
    simpa using fun x hx => (hquiet x hx).1
  have hlink : f.lanes.any (fun x => decide (x.code = fLINKERR) || decide (x.code = fLINKTIMEOUT)) = false := by
    simpa using fun x hx => (hquiet x hx).2
  simp only [State.countFaults, hown, hlink, Bool.false_eq_true, if_false]

/-- The state in which the fault `f` has been reported (R158). -/
def State.reports (s : State) (core slot : Nat) (t : Train) (f : Trouble) : State :=
  reported s core slot t (lowestLane f.lanes).code (lowestLane f.lanes).va (if f.scalar then 0 else faultMask f.lanes)

include ht hquiet

/-- In the handler every fault is a DOUBLEFLT (R161). -/
theorem State.takeFault_doubled (hh : t.handler.isSome = true) : s.takeFault core slot p f = (s.reports core slot t f).unwind t.task 4 fDOUBLEFLT := by
  have hfind : Table.find s.trains (trainKey core slot) = some t := ht
  simp only [State.takeFault, hfind, State.countFaults_quiet hquiet, hh, if_true]
  rfl

/-- A fault of one lane takes that lane's route (R159, R160). -/
theorem State.takeFault_unwinds {x : LaneFault} (hh : t.handler = none) (hx : f.lanes = [x]) (hr : ∀ on, routeOf x.code on f.scalar = .unwind) :
    s.takeFault core slot p f = (s.reports core slot t f).unwind t.task 4 (lowestCode [x]) := by
  have hmain : t.handler.isSome = false := by rw [hh, Option.isSome_none]
  have hfind : Table.find s.trains (trainKey core slot) = some t := ht
  have hroute : ∀ on, byRoute f.lanes on f.scalar .unwind = [x] := fun on => by simp [byRoute, hx, hr]
  simp only [State.takeFault, hfind, State.countFaults_quiet hquiet, hmain, hroute, List.isEmpty_cons, Bool.not_false, Bool.false_eq_true, if_true, if_false]
  rfl

theorem State.takeFault_starves {x : LaneFault} (hh : t.handler = none) (hx : f.lanes = [x]) (hr : ∀ on, routeOf x.code on f.scalar = .starve) :
    s.takeFault core slot p f = (s.reports core slot t f).starve t.task := by
  have hmain : t.handler.isSome = false := by rw [hh, Option.isSome_none]
  have hfind : Table.find s.trains (trainKey core slot) = some t := ht
  have hnone : ∀ on, byRoute f.lanes on f.scalar .unwind = [] := fun on => by simp [byRoute, hx, hr]
  have hroute : ∀ on, byRoute f.lanes on f.scalar .starve = [x] := fun on => by simp [byRoute, hx, hr]
  simp only [State.takeFault, hfind, State.countFaults_quiet hquiet, hmain, hnone, hroute, List.isEmpty_cons, List.isEmpty_nil, Bool.not_false, Bool.not_true, Bool.false_eq_true,
    if_true, if_false]
  rfl

end

/-- The codes of Table 9-4 that unwind for every handler and access, of those that one lane can raise alone and that no counter counts. -/
theorem unwindCodes {code : Nat} (h : code = fILLOP ∨ code = fADDRRANGE ∨ code = fROUTE ∨ code = fREGBUDGET ∨ code = fOOB) :
    (∀ on scalar, routeOf code on scalar = .unwind) ∧ code < 0xFF ∧ code ≠ fOWNERSHIP ∧ code ≠ fLINKERR ∧ code ≠ fLINKTIMEOUT := by
  rcases h with rfl | rfl | rfl | rfl | rfl <;> exact ⟨fun _ _ => rfl, by decide, by decide, by decide, by decide⟩

/-! ### EXHAUST (R116, R119, R303) -/

section
variable {s : State} {c : Cur}

/-- An instruction that may issue and is well formed, and whose need its task cannot meet, does nothing but trap EXHAUST (R303). -/
theorem State.scalarGo_exhausts {q : Cur → SReq} {ill : Cur → Bool} {pre : Cur → Option (Nat × Nat)} {eff : Cur → State → State} (hc : s.cur = some c) (hmay : s.scalarMay c = true)
    (hw : c.mustWait (q c) = false) (hst : (q c).stall = .no) (hh : c.t.handler = none) (hi : ill c = false) (hpay : s.canPay c.t.task (c.need (q c)) = false) :
    s.scalarGo q ill pre eff = .next (s.scalarFault c fEXHAUST 0 false) := by
  unfold State.scalarGo
  simp only [hc, hmay, hw, hst, hh, hi, hpay, Option.isSome_none, Bool.false_and, Bool.not_true, Bool.not_false, Bool.or_self, ne_eq, not_true_eq_false, Bool.false_eq_true, if_false, if_true]

theorem State.canPay_broke {k : Task} {q : SReq} (hk : s.task c.t.task = some k) (halw : k.alw = 0) (hh : c.t.handler = none) (hagain : c.o.again = .no) (hfree : q.free = false) (hcost : q.cost ≠ 0) :
    s.canPay c.t.task (c.need q) = false := by
  simp [State.canPay, Cur.need, hk, halw, hh, hagain, hfree, hcost]

/-- An instruction that names no register waits for nothing (R170, R401). -/
theorem Cur.mustWait_nameless (c : Cur) (op : Nat) : c.mustWait { op := op } = false := by
  have howed : c.t.awaits { op := op } = false := by
    unfold Train.awaits
    rw [List.any_eq_false]
    intro e _
    split <;> simp
  have hheld : ∀ cl : Clause, cl.holdsBack { op := op } = false := by
    intro cl
    unfold Clause.holdsBack
    dsimp only
    split <;> simp
  simp [Cur.mustWait, howed, hheld]

/-- Nothing is waited for where no result is owed and no clause is queued. -/
theorem Cur.mustWait_idle {q : SReq} (hpend : c.t.pend = []) (hclauses : c.o.clauses = []) (hm : q.memory = false) : c.mustWait q = false := by
  have hours : c.t.ours = [] := by
    unfold Train.ours
    rw [hpend]
    split <;> rfl
  simp [Cur.mustWait, Train.awaits, hours, hclauses, hm]

/-- The trap reports EXHAUST and takes the starve policy (R119). -/
theorem State.scalarFault_exhaust (hc : s.cur = some c) (hh : c.t.handler = none) : s.scalarFault c fEXHAUST 0 false = (reported s c.core c.slot c.t fEXHAUST 0 0).starve c.t.task := by
  obtain ⟨-, htrain, -⟩ := State.cur_eq hc
  unfold State.scalarFault
  rw [if_neg (by decide), State.takeFault_starves (x := { lane := 0, code := fEXHAUST, va := 0 }) htrain (by simp [fEXHAUST, fOWNERSHIP, fLINKERR, fLINKTIMEOUT]) hh rfl (fun _ => rfl)]
  rfl

theorem State.starve_parks {t : Nat} {k : Task} (hk : s.task t = some k) (hpark : k.park = true) (hsignal : k.signalVa = 0) :
    s.starve t = s.setTask t { k with state := .starved, expiry := s.clock + k.parkNs } := by
  unfold State.starve
  simp only [hk, hpark, hsignal, Bool.not_true, Bool.false_eq_true, if_false, if_true]

theorem State.starve_unwinds {t : Nat} {k : Task} (hk : s.task t = some k) (hpark : k.park = false) : s.starve t = s.unwind t 2 0 := by
  unfold State.starve
  simp only [hk, hpark, Bool.not_false, if_true]

/-! ### TRAP (R164, R443) -/

section
variable {i : BitVec 16} (hr : s.ready c { op := 0x31, cost := 16, clauses := true, boundary := true })
include hr

theorem execTrap_calls (hwf : (Instr.trap i).wf = true) : exec (.trap i) s =
    .next (s.leaves c { op := 0x31, cost := 16, clauses := true, boundary := true } (fun t => { t with call := some { imm := i.toNat, fault := false } }) keep) := by
  show execTrap i s = _
  unfold execTrap
  rw [State.scalarGo_ready s c _ _ _ _ hr (by simp [hwf]) rfl, State.leaves_modCur _ _ _ _ _ _ hr.1]
  rfl

theorem execTrap_illegal (hwf : (Instr.trap i).wf = false) : exec (.trap i) s = .next (s.scalarFault c fILLOP 0 false) := by
  show execTrap i s = _
  unfold execTrap
  exact State.scalarGo_ill s c _ _ _ _ hr (by simp [hwf])

end
end

end Sys2Proof.Machine

namespace Sys2Proof.Proofs

open Sys2Proof.Machine

/-- Settles O12: a trap or fault by the route it takes, and the task unwound by what each step of the unwind keeps of its outcome. -/
theorem faultRoutes : Obligations.FaultRoutes := by
  unfold Obligations.FaultRoutes
  refine ⟨fun s c k hc hmay hk halw hh hagain => ⟨?nop, fun d a b hpend hclauses => ?sadd, fun hpark hsignal => ?parks, fun hpark => ?unwinds⟩,
    fun s core slot p code va t k pc ht hh hk hheld hopen hdone hrun hcode => ?route, fun s core slot p f t ht hh hquiet => State.takeFault_doubled ht hquiet hh,
    fun s c i hr => ⟨execTrap_calls hr, execTrap_illegal hr⟩⟩
  case nop =>
    show execNop s = _
    unfold execNop
    exact State.scalarGo_exhausts hc hmay (c.mustWait_nameless 0x29) rfl hh rfl (State.canPay_broke hk halw hh hagain rfl Nat.one_ne_zero)
  case sadd =>
    show execSadd d a b s = _
    unfold execSadd State.salu
    exact State.scalarGo_exhausts hc hmay (Cur.mustWait_idle hpend hclauses rfl) rfl hh rfl (State.canPay_broke hk halw hh hagain rfl Nat.one_ne_zero)
  case parks =>
    rw [State.scalarFault_exhaust hc hh, State.starve_parks (s := Claims.reported s c.core c.slot c.t fEXHAUST 0 0) hk hpark hsignal]
    rfl
  case unwinds => rw [State.scalarFault_exhaust hc hh, State.starve_unwinds (s := Claims.reported s c.core c.slot c.t fEXHAUST 0 0) hk hpark]
  case route =>
    obtain ⟨hroute, hlt, hquiet⟩ := unwindCodes hcode
    rw [State.takeFault_unwinds (x := { lane := 0, code := code, va := va }) ht (by simpa using hquiet) hh rfl (fun on => hroute on _)]
    obtain ⟨k', hk', ⟨hstate, hstatus, hfault⟩, hlive⟩ := State.unwind_open (s := s.reports core slot t _) (status := 4) (code := lowestCode [{ lane := 0, code := code, va := va }]) hk hheld hopen hdone hrun
    exact ⟨k', hk', hstate, hstatus, hfault.trans (Nat.min_eq_right hlt.le), hlive⟩

end Sys2Proof.Proofs
end

section
/-! ### Numbers and their bytes (R7) -/

namespace Sys2Proof.Machine

theorem leNat_lt (bs : List Byte) : leNat bs < 256 ^ bs.length := by
  induction bs with
  | nil => exact Nat.one_pos
  | cons b bs ih =>
    have hb : b.toNat < 256 := b.isLt
    rw [leNat, List.length_cons, Nat.pow_succ]
    omega

theorem leNat_leBytes (n w : Nat) : leNat (leBytes n w) = w % 256 ^ n := by
  induction n generalizing w with
  | zero => simp [leBytes, leNat, Nat.mod_one]
  | succ n ih =>
    have hsplit : w % (256 * 256 ^ n) = w % 256 + 256 * (w / 256 % 256 ^ n) := Nat.mod_mul
    rw [leBytes, leNat, ih, Nat.pow_succ', hsplit, BitVec.toNat_ofNat]

theorem State.readLe_lt (s : State) (a n : Nat) : s.readLe a n < 256 ^ n := by
  simpa [State.readLe, State.readBytes] using leNat_lt (s.readBytes a n)

end Sys2Proof.Machine
end

section
/-! ### What a turn runs (R146, R169, R190, R269, R302) -/

namespace Sys2Proof.Machine

open Sys2Proof.Claims

variable {s u v : State} {f : Focus} {ts : List Turn} {c : Cur} {i : Instr}

/-! ### Code (R190) -/

/-- A translation that gives an address changes no more than what its core caches. -/
theorem State.translate_ok {core p va pa : Nat} {r : Right} {pool : Bool} (h : s.translate core p va r pool = (.ok pa, v)) : v = s ∨ ∃ k, v = s.setCore core k := by
  unfold State.translate at h
  split at h
  · exact .inl (congrArg Prod.snd h).symm
  · split at h
    · exact .inr ⟨_, (congrArg Prod.snd h).symm⟩
    · cases h
    · cases h

theorem State.refusal_setCore (s : State) (core : Nat) (k : Core) (p kind pa : Nat) (now : Bool) : (s.setCore core k).refusal p kind pa now = s.refusal p kind pa now := rfl

section
variable {core p va pa : Nat} (hcanon : canonical va = true) (hpa : s.translate core p va .fetch false = (.ok pa, v)) (hrefusal : v.refusal p 0 pa true = none)
  (hstack : isStack pa = true) (hclean : s.poisoned pa = false)
include hcanon hpa hrefusal hstack hclean

theorem State.codeAt_ok (n : Nat) : s.codeAt core p va n = .ok (s.readLe pa n) := by
  have hrefusal' : s.refusal p 0 pa true = none := by
    obtain rfl | ⟨k, rfl⟩ := State.translate_ok hpa
    · exact hrefusal
    · rwa [State.refusal_setCore] at hrefusal
  simp [State.codeAt, hcanon, hpa, hrefusal', hstack, hclean]

theorem State.fetchCode_word : s.fetchCode core p 1 va = .ok (s.readLe pa 4) := by
  simp only [State.fetchCode, State.codeWords, State.codeAt_ok hcanon hpa hrefusal hstack hclean, List.append_nil, leNat_leBytes, Nat.mod_eq_of_lt (s.readLe_lt pa 4)]

end

/-! ### Turns (R146, R302) -/

theorem step_turn {t : Turn} (h : s.agenda = t :: ts) : step s = after (State.turnOut { s with agenda := ts } t) := by
  simp only [step, h, runTurn]

/-- In a turn of the scalar stream that nothing holds, the stream fetches its word. -/
theorem State.fetchScalar_word (hc : u.cur = some c) (hwait : c.o.wait = .none) (hcomp : u.competes c = true) (hstart : c.t.starting = false) (hmay : u.scalarMay c = true) :
    u.fetchScalar = u.scalarWord c := by
  simp [State.fetchScalar, hc, hwait, hcomp, hstart, hmay]

/-- The word at the PC, decoded; one that decodes to none runs the fault of an illegal encoding. -/
theorem State.scalarWord_runs {pa : Nat} (hcanon : canonical c.o.pc.toNat = true) (hpa : u.translate c.core (c.pslot u) c.o.pc.toNat .fetch false = (.ok pa, v))
    (hbusy : u.codeBusy c c.o.pc.toNat = false) (hlost : u.codeLost c.core (portionOwner c.core c.slot c.p) (c.pslot u) c.o.pc.toNat = false)
    (hrefusal : v.refusal (c.pslot u) 0 pa true = none) (hstack : isStack pa = true) (hclean : u.poisoned pa = false) :
    u.scalarWord c = .run ((decodeTableWord 32 (u.readLe pa 4)).getD .illegalEncoding) v := by
  have htouch : u.touch c.core (c.pslot u) c.o.pc.toNat = v := by simp [State.touch, hcanon, hpa]
  have hdec : decodeTableWord 32 (u.readLe pa 4) = decodeScalar (u.readLe pa 4) := rfl
  simp only [State.scalarWord, hbusy, hlost, htouch, State.fetchCode_word hcanon hpa hrefusal hstack hclean, hdec, Bool.false_eq_true, if_false]
  cases decodeScalar (u.readLe pa 4) <;> rfl

/-- A scalar turn whose entry and portion come next runs what its fetch comes to, and is noted. -/
theorem scalarTurn_step (h : scalarTurn s f ts u c) (hword : u.scalarWord c = .run i v) : step s = after (v.noteTurn f false i (exec i v)) := by
  obtain ⟨hagenda, rfl, hc, hwait, hcomp, hstart, hmay, hchosen⟩ := h
  have hfetch : State.fetch { s with agenda := ts } (.scalar f) = .run i v := (State.fetchScalar_word hc hwait hcomp hstart hmay).trans hword
  have hnext : State.chosen { s with agenda := ts } f false = true := hchosen
  simp only [step_turn hagenda, State.turnOut, hnext, hfetch, Bool.not_true, Bool.false_eq_true, if_false]

/-- In a turn of the lane cursor that nothing holds, it fetches its word of the clause that has started. -/
theorem State.fetchLane_word {cl : Clause} {cls : List Clause} {n : Nat} (hc : u.cur = some c) (hwait : c.o.lwait = .none) (hcomp : u.competes c = true) (hstart : c.t.starting = false)
    (hmay : u.laneMay c = true) (hcl : c.o.clauses = cl :: cls) (hn : cl.next = some n) : u.fetchLane = u.laneWord c cl n := by
  simp [State.fetchLane, hc, hwait, hcomp, hstart, hmay, hcl, hn]

/-- The lane word at its place of the clause, decoded. -/
theorem State.laneWord_runs {cl : Clause} {n va : Nat} {bs : List Byte} (hva : va = wordVa cl.lcb (cl.off + n)) (hbusy : u.codeBusy c va = false) (hbusy' : u.codeBusy c (va + 8) = false)
    (hlost : u.codeLost c.core (portionOwner c.core c.slot c.p) (c.pslot u) va = false) (hlost' : u.codeLost c.core (portionOwner c.core c.slot c.p) (c.pslot u) (va + 8) = false)
    (hv : v = (u.touch c.core (c.pslot u) va).touch c.core (c.pslot u) (va + 8)) (hbs : v.codeWords c.core (c.pslot v) 3 va = .ok bs) (hi : decodeTableWord 96 (leNat bs) = some i) :
    u.laneWord c cl n = .run i v := by
  subst hva hv
  have hdec : decodeLane (leNat bs) = some i := hi
  simp [State.laneWord, State.laneCode, State.fetchCode, hbusy, hbusy', hlost, hlost', hbs, hdec]

/-- A lane turn whose entry and portion come next runs what its fetch comes to, and is noted. -/
theorem laneTurn_step {cl : Clause} {cls : List Clause} {n : Nat} (h : laneTurn s f ts u c cl cls n) (hword : u.laneWord c cl n = .run i v) :
    step s = after (v.noteTurn f true i (exec i v)) := by
  obtain ⟨hagenda, rfl, hc, hwait, hcomp, hstart, hmay, hchosen, hcl, hn⟩ := h
  have hfetch : State.fetch { s with agenda := ts } (.lane f) = .run i v := (State.fetchLane_word hc hwait hcomp hstart hmay hcl hn).trans hword
  have hnext : State.chosen { s with agenda := ts } f true = true := hchosen
  simp only [step_turn hagenda, State.turnOut, hnext, hfetch, Bool.not_true, Bool.false_eq_true, if_false]

/-- The sequencer's command at its index, decoded. -/
theorem State.fetchMatrix_command {m : MxProg} (hm : u.running u.pair = some m) (hended : m.ended = false) (hstop : (u.die (u.pair / 192)).stopped = false) (hload : m.loaded = true)
    (hheld : u.mxHeld { leader := u.pair, pair := u.pairOf u.pair, m := m } = false) (hrest : m.rest = []) (hpc : m.pc < m.ncmd) (hi : decodeTableWord 128 (le m.cmds (16 * m.pc) 16) = some i) :
    u.fetchMatrix = .run i u := by
  have hdec : decodeMx m.command = some i := hi
  simp [State.fetchMatrix, hm, hended, hstop, hload, hheld, hrest, hpc, hdec]

end Sys2Proof.Machine

namespace Sys2Proof.Proofs

open Sys2Proof.Machine

/-- Settles O57: a turn's fetch comes to the decoded instruction (`State.scalarWord_runs`, `State.laneWord_runs`, `State.fetchMatrix_command`), which the step runs and notes. -/
theorem stepRunsDecoded : Obligations.StepRunsDecoded := by
  unfold Obligations.StepRunsDecoded
  refine ⟨?scalar, ?lane, ?matrix, ?device, ?idle⟩
  case scalar =>
    intro s f ts u v c pa w hturn hcanon hpa hbusy hlost hrefusal hstack hclean hw
    have hle : u.readLe pa 4 = w := hw.symm
    have hrun := State.scalarWord_runs hcanon hpa hbusy hlost hrefusal hstack hclean
    rw [hle] at hrun
    exact ⟨fun i hi => scalarTurn_step hturn (by rw [hrun, hi]; rfl), fun hi => scalarTurn_step hturn (by rw [hrun, hi]; rfl)⟩
  case lane =>
    intro s f ts u v c cl cls n va bs hturn hva hbusy hbusy' hlost hlost' hv hbs i hi
    exact laneTurn_step hturn (State.laneWord_runs hva hbusy hbusy' hlost hlost' hv hbs hi)
  case matrix =>
    intro s l ts u m i hagenda hu hm hended hstop hload hheld hrest hpc hi
    subst hu
    have hfetch : State.fetch { s with agenda := ts } (.matrix l) = .run i { s with agenda := ts, pair := l, ev := {} } :=
      State.fetchMatrix_command hm hended hstop hload hheld hrest hpc hi
    simp only [step_turn hagenda, State.turnOut, hfetch, Fetched.out]
  case device =>
    intro s i a ts hagenda hcode hword
    have hdev : deviceStep i = true := by simp [deviceStep, hcode, hword]
    simp only [step_turn hagenda, State.turnOut, State.fetch, hdev, Fetched.out, if_true]
  case idle =>
    intro s hagenda
    simp only [step, hagenda, runTurn, State.turnOut, State.fetch, Fetched.out]

end Sys2Proof.Proofs
end

section
/-! ### Bytes and bits in a scratchpad (R7, R187, R272) -/

namespace Sys2Proof.Machine

variable {x y : Scratch} {a b : Nat} {bs : List Byte}

theorem length_leBytes (n w : Nat) : (leBytes n w).length = n := by
  induction n generalizing w with
  | zero => rfl
  | succ n ih => rw [leBytes, List.length_cons, ih]

theorem Scratch.readLe_lt (x : Scratch) (a n : Nat) : x.readLe a n < 256 ^ n := by
  simpa [Scratch.readLe] using leNat_lt ((List.range n).map (fun i => x.read (a + i)))

/-- What a write leaves of the bytes depends on nothing else of the scratchpad. -/
theorem Scratch.write_bytes_congr (h : x.bytes = y.bytes) : (x.write a bs).bytes = (y.write a bs).bytes := by
  induction bs generalizing x y a with
  | nil => exact h
  | cons b bs ih => exact ih (congrArg (fun m => Sparse.set 0 m a b) h)

/-- Bytes outside the written ones read as before. -/
theorem Scratch.read_write_other {i : Nat} (h : i < a ∨ a + bs.length ≤ i) : (x.write a bs).read i = x.read i := by
  induction bs generalizing x a with
  | nil => rfl
  | cons b bs ih =>
    rw [List.length_cons] at h
    rw [Scratch.write, ih (by omega)]
    exact Sparse.get_set_other _ _ _ _ _ (by omega)

/-- The bytes that were written read back. -/
theorem Scratch.read_write_same (hs : Table.sorted x.bytes = true) : (List.range bs.length).map (fun i => (x.write a bs).read (a + i)) = bs := by
  induction bs generalizing x a with
  | nil => rfl
  | cons b bs ih =>
    have hfirst : (x.write a (b :: bs)).read a = b := by
      rw [Scratch.write, Scratch.read_write_other (by omega)]
      exact Sparse.get_set_same _ _ _ _ hs
    have hrest := ih (x := { x with bytes := Sparse.set 0 x.bytes a b, bad := x.bad.filter (fun w => decide (w ≠ a / 4)) }) (a := a + 1) (Sparse.sorted_set _ _ _ _ hs)
    rw [List.length_cons, List.range_succ_eq_map, List.map_cons, List.map_map, Nat.add_zero, hfirst]
    refine congrArg (b :: ·) (Eq.trans (List.map_congr_left fun i _ => ?_) hrest)
    rw [Scratch.write, Function.comp_apply, Nat.add_right_comm, Nat.succ_eq_add_one, Nat.add_assoc]

theorem Scratch.readLe_write_same (hs : Table.sorted x.bytes = true) : (x.write a bs).readLe a bs.length = leNat bs :=
  congrArg leNat (Scratch.read_write_same hs)

/-- The bytes of a scratchpad with a bit of a word set are those of a write of the word (R272). -/
theorem Scratch.setBit_bytes (x : Scratch) (a b : Nat) : (x.setBit a b).bytes = (x.write a (leBytes 4 (x.readLe a 4 ||| 2 ^ b))).bytes := by
  unfold Scratch.setBit
  dsimp only
  refine Scratch.write_bytes_congr ?_
  split
  · rfl
  · split <;> rfl

theorem Scratch.read_setBit_other {i : Nat} (h : i < a ∨ a + 4 ≤ i) : (x.setBit a b).read i = x.read i := by
  rw [Scratch.read, Scratch.setBit_bytes]
  exact Scratch.read_write_other (by rwa [length_leBytes])

theorem Scratch.readLe_setBit (hs : Table.sorted x.bytes = true) (hb : b < 32) : (x.setBit a b).readLe a 4 = x.readLe a 4 ||| 2 ^ b := by
  have hlt : x.readLe a 4 ||| 2 ^ b < 256 ^ 4 := Nat.or_lt_two_pow (n := 32) (x.readLe_lt a 4) (Nat.pow_lt_pow_right (by decide) hb)
  have hback := Scratch.readLe_write_same (a := a) (bs := leBytes 4 (x.readLe a 4 ||| 2 ^ b)) hs
  rw [length_leBytes, leNat_leBytes, Nat.mod_eq_of_lt hlt] at hback
  rw [← hback]
  simp only [Scratch.readLe, Scratch.read, Scratch.setBit_bytes]

end Sys2Proof.Machine
end

section
/-! ### Route barriers, REPACK and ring stages (R137, R432-R434) -/

namespace Sys2Proof.Machine

open Sys2Proof.Claims

variable {s : State} {c : Cur} {r : BitVec 8}

/-! ### Routes (R137, R432, R434) -/

theorem State.routeFault_member (h : onRoute s c r) : s.routeFault c r.toNat = none := by
  obtain ⟨k, hk, hmember, hlt, hbit⟩ := h
  simp only [State.routeFault, Train.onRoute, hk, hmember, hlt, hbit, decide_true, Bool.and_self, if_true]

theorem State.routeFault_stranger (h : ¬ onRoute s c r) : s.routeFault c r.toNat = some (fROUTE, 0) := by
  unfold State.routeFault
  split
  · next k hk =>
    refine if_neg fun hon => h ?_
    simp only [Train.onRoute, Bool.and_eq_true, decide_eq_true_eq] at hon
    obtain ⟨hlt, hmember, hbit⟩ := hon
    exact ⟨k, hk, hmember, hlt, hbit⟩
  · rfl

section
variable {q : Cur → SReq} {ill : Cur → Bool} {eff : Cur → State → State} (hr : s.ready c (q c)) (hi : ill c = false)
include hr hi

/-- A member of the route issues with the form's own effect. -/
theorem State.scalarGo_member (h : onRoute s c r) : s.scalarGo q ill (fun c => s.routeFault c r.toNat) eff = .next (eff c (s.leaves c (q c) keep keep)) :=
  State.scalarGo_ready s c q ill _ eff hr hi (State.routeFault_member h)

/-- A train that is no member faults ROUTE, precisely. -/
theorem State.scalarGo_stranger (h : ¬ onRoute s c r) : s.scalarGo q ill (fun c => s.routeFault c r.toNat) eff = .next (s.scalarFault c fROUTE 0 false) :=
  State.scalarGo_fault s c q ill _ eff (fROUTE, 0) hr hi (State.routeFault_stranger h)

end

section
variable {sc : BitVec 1} (happ : c.t.appending = false) (hr : s.ready c (routeReq [] true))
include happ hr

/-- A train that is appending no record does not hold its BARR back. -/
theorem barr_ready : s.ready c { op := 0x2C, clauses := true, boundary := true, stall := if sc = 1 && c.t.appending then .waits else .no } := by
  simpa [happ, routeReq] using hr

theorem execBarr_member (h : onRoute s c r) :
    exec (.barr r sc) s = .next (s.leaves c (routeReq [] true) keep (fun o => { o with wait := .arriving r.toNat true (decide (sc = 1)) none })) := by
  have hreq : ({ op := 0x2C, clauses := true, boundary := true, stall := if sc = 1 && c.t.appending then .waits else .no } : SReq) = routeReq [] true := by simp [happ, routeReq]
  show execBarr r sc s = _
  rw [execBarr, State.scalarGo_member (barr_ready happ hr) rfl h, hreq, State.waitFor_leaves hr.1]

theorem execBarr_stranger (h : ¬ onRoute s c r) : exec (.barr r sc) s = .next (s.scalarFault c fROUTE 0 false) := by
  show execBarr r sc s = _
  rw [execBarr, State.scalarGo_stranger (barr_ready happ hr) rfl h]

end

theorem execArrive_member (hr : s.ready c (routeReq [] true)) (h : onRoute s c r) :
    exec (.arrive r) s = .next (s.leaves c (routeReq [] true) keep (fun o => { o with wait := .arriving r.toNat false false none })) := by
  show execArrive r s = _
  rw [execArrive, State.scalarGo_member hr rfl h, State.waitFor_leaves hr.1]
  rfl

theorem execArrive_stranger (hr : s.ready c (routeReq [] true)) (h : ¬ onRoute s c r) : exec (.arrive r) s = .next (s.scalarFault c fROUTE 0 false) := by
  show execArrive r s = _
  rw [execArrive, State.scalarGo_stranger hr rfl h]

/-- An issue completes no phase. -/
theorem State.phaseOf_leaves {q : SReq} {k : Task} (hk : s.task c.t.task = some k) : (s.leaves c q keep keep).phaseOf c.t.task r.toNat = Sparse.get 0 k.phases r.toNat := by
  rw [State.phaseOf, State.task_leaves_same hk]
  rfl

theorem execWaitb_member {k : Task} (hr : s.ready c (routeReq [] false)) (hk : s.task c.t.task = some k) (h : onRoute s c r) :
    exec (.waitb r) s = .next (s.leaves c (routeReq [] false) keep
      (fun o => if Sparse.get 0 c.t.arrivals r.toNat ≤ Sparse.get 0 k.phases r.toNat then o else { o with wait := .waitb r.toNat (Sparse.get 0 c.t.arrivals r.toNat) })) := by
  show execWaitb r s = _
  rw [execWaitb, State.scalarGo_member hr rfl h, State.phaseOf_leaves hk, State.waitFor_leaves hr.1, Train.arrived]
  split <;> rfl

theorem execWaitb_stranger (hr : s.ready c (routeReq [] false)) (h : ¬ onRoute s c r) : exec (.waitb r) s = .next (s.scalarFault c fROUTE 0 false) := by
  show execWaitb r s = _
  rw [execWaitb, State.scalarGo_stranger hr rfl h]

section
variable (hr : s.ready c { op := 0x38, clauses := true, boundary := true })
include hr

theorem execRepack_divided (h : ¬ (c.t.portions.length = 1 ∧ c.o.stack = [])) : exec (.repack r) s = .next (s.scalarFault c fILLOP 0 false) := by
  show execRepack r s = _
  refine State.scalarGo_ill s c _ _ _ _ hr ?_
  rw [not_and_or] at h
  simpa using h

variable (hone : c.t.portions.length = 1) (hstack : c.o.stack = [])
include hone hstack

theorem execRepack_member (h : onRoute s c r) :
    exec (.repack r) s = .next (s.leaves c { op := 0x38, clauses := true, boundary := true } keep (fun o => { o with wait := .repack r.toNat })) := by
  show execRepack r s = _
  rw [execRepack, State.scalarGo_member hr (by simp [hone, hstack]) h, State.waitFor_leaves hr.1]

theorem execRepack_stranger (h : ¬ onRoute s c r) : exec (.repack r) s = .next (s.scalarFault c fROUTE 0 false) := by
  show execRepack r s = _
  rw [execRepack, State.scalarGo_stranger hr (by simp [hone, hstack]) h]

end

/-! ### Ring stages (R272, R433) -/

section
variable {a : BitVec 6} {bit : Nat} (hr : s.ready c (routeReq [a.toNat] true))
include hr

theorem State.stage_sets (h : s.padOk c (c.t.getS a.toNat) 4 = true) : s.stage a bit =
    .next ((s.leaves c (routeReq [a.toNat] true) keep keep).setScratch c.core c.t.task ((s.scratch c.core c.t.task).setBit (c.t.getS a.toNat).toNat bit)) :=
  State.scalarGo_ready s c _ _ _ _ hr rfl (if_pos h)

theorem State.stage_faults (h : s.padOk c (c.t.getS a.toNat) 4 = false) : s.stage a bit = .next (s.scalarFault c fADDRRANGE (c.t.getS a.toNat).toNat false) :=
  State.scalarGo_fault s c _ _ _ _ (fADDRRANGE, (c.t.getS a.toNat).toNat) hr rfl (by simp [h])

/-- A stage form sets its bit of the stage's full word and nothing else of the scratchpad. -/
theorem State.stage_leaves (h : s.padOk c (c.t.getS a.toNat) 4 = true) (hs : Table.sorted (s.scratch c.core c.t.task).bytes = true) (hbit : bit < 32) :
    ∃ t, s.stage a bit = .next t ∧
      (t.scratch c.core c.t.task).readLe (c.t.getS a.toNat).toNat 4 = (s.scratch c.core c.t.task).readLe (c.t.getS a.toNat).toNat 4 ||| 2 ^ bit ∧
      (∀ x, x < (c.t.getS a.toNat).toNat ∨ (c.t.getS a.toNat).toNat + 4 ≤ x → (t.scratch c.core c.t.task).read x = (s.scratch c.core c.t.task).read x) ∧
      t.trains = (s.leaves c (routeReq [a.toNat] true) keep keep).trains ∧ t.tasks = s.paid c (routeReq [a.toNat] true) ∧ t.mem = s.mem := by
  refine ⟨_, State.stage_sets hr h, ?_, fun x hx => ?_, rfl, rfl, rfl⟩
  · rw [State.scratch_setScratch, Scratch.readLe_setBit hs hbit]
  · rw [State.scratch_setScratch, Scratch.read_setBit_other hx]

end

theorem State.padOk_iff {x : W64} {n : Nat} : s.padOk c x n = true ↔ x.toNat % 8 = 0 ∧ x.toNat + n ≤ (s.scratch c.core c.t.task).ways * 32768 := by
  rw [State.padOk, Bool.and_eq_true, decide_eq_true_eq, decide_eq_true_eq, Scratch.size]

/-- The two stage forms by the bit that they set. -/
theorem exec_stage (s : State) (a : BitVec 6) (p : BitVec 4) (close : Bool) :
    exec (if close then .arriveStageClose a p else .arriveStage a p) s = s.stage a (if close then 16 + p.toNat else p.toNat) := by
  cases close <;> rfl

end Sys2Proof.Machine

namespace Sys2Proof.Proofs

open Sys2Proof.Machine Sys2Proof.Claims

/-- Settles O24: the route forms by membership (`State.scalarGo_member`, `State.scalarGo_stranger`), the stage forms by what `Scratch.setBit` reads back. -/
theorem routeInstructions : Obligations.RouteInstructions := by
  unfold Obligations.RouteInstructions
  refine ⟨fun s c r => ⟨?barr, ?arrive, ?waitb, ?repack⟩, fun s c a p close off hr hoff => ⟨fun hin hs => ?sets, fun hout => ?faults⟩⟩
  case barr => exact fun sc happ hr => ⟨execBarr_member happ hr, execBarr_stranger happ hr⟩
  case arrive => exact fun hr => ⟨execArrive_member hr, execArrive_stranger hr⟩
  case waitb => exact fun hr => ⟨fun k hk h => execWaitb_member hr hk h, execWaitb_stranger hr⟩
  case repack => exact fun hr => ⟨execRepack_member hr, execRepack_stranger hr, execRepack_divided hr⟩
  all_goals
    subst hoff
    rw [exec_stage]
  case sets =>
    have hbit : (if close then 16 + p.toNat else p.toNat) < 32 := by split <;> omega
    exact State.stage_leaves hr (State.padOk_iff.2 hin) hs hbit
  case faults => exact State.stage_faults hr (Bool.eq_false_iff.2 fun hok => hout (State.padOk_iff.1 hok))

end Sys2Proof.Proofs
end

section
/-! ### Placement: attempt, reserve, commit, release, retry, siding (R132-R136, R184) -/

namespace Sys2Proof.Machine

variable {s : State} {t c p : Nat} {k : Task} {pl : Placing}

/-! ### The siding queue (R135) -/

theorem State.mem_sidingWith (s : State) (t level : Nat) (q : List Nat) : t ∈ s.sidingWith t level q := by
  simp [State.sidingWith]

/-- A task in the siding queue waits for nothing and holds nothing; it is dated by its entry. -/
theorem State.task_enterSiding (s : State) (t : Nat) (k : Task) : (s.enterSiding t k).task t = some { k with placing := none, retryAt := 0, siding := some s.clock } := by
  rw [State.enterSiding]
  exact State.task_setTask _ _ _

theorem State.enterSiding_queued (s : State) (t : Nat) (k : Task) : t ∈ ((s.enterSiding t k).pslot k.slot).siding := by
  rw [State.enterSiding, State.pslot_setPslot]
  exact State.mem_sidingWith _ _ _ _

/-! ### A failed attempt (R135) -/

/-- An agent's jitter lies below its span. -/
theorem State.jitter_lt {span : Nat} (h : 0 < span) : (s.jitter k span).1 < span := by
  unfold State.jitter
  split
  · exact Nat.mod_lt _ h
  · exact Nat.mod_lt _ h

/-- A task whose attempt has failed once more: it holds no place. -/
def Task.failed (k : Task) : Task := { k with placing := none, attempts := k.attempts + 1 }

section
variable (hk : s.task t = some k) (hs : k.siding = none)
include hk hs

theorem State.failAttempt_last (h : s.retries k.slot ≤ k.attempts + 1) : s.failAttempt t = s.enterSiding t k.failed := by
  simp [State.failAttempt, Task.failed, hk, hs, h]

/-- The span of the wait counts nanoseconds, eight units of the model's time each (R135). -/
theorem State.failAttempt_waits (h : k.attempts + 1 < s.retries k.slot) : s.failAttempt t =
    (s.jitter k.failed (32 * 2 ^ (k.attempts + 1))).2.setTask t { k.failed with retryAt := s.time + 8 * (32 * 2 ^ (k.attempts + 1) + (s.jitter k.failed (32 * 2 ^ (k.attempts + 1))).1) } := by
  simp [State.failAttempt, Task.failed, hk, hs, h]

end

/-! ### The steps of an attempt -/

section
variable (hx : s.ev.x = t) (hk : s.task t = some k)
include hx hk

section
variable (hmay : s.mayPlace t k = true) (hs : k.siding = none)
include hmay hs

/-- An attempt, but for a task behind its slot's siding queue, which enters it (R133, R135). -/
theorem execPlacementAttempt_eq (hr : k.retryAt = 0) : exec .placementAttempt s =
    .next (if (k.attempts = 0 && s.behindSiding k) = true then s.enterSiding t { k with agentCore := (s.agentOf t k).getD none } else s.attempt t k) := by
  show execPlacementAttempt s = _
  simp [execPlacementAttempt, hx, hk, hmay, hs, hr]

/-- A wait that is over ends in the next attempt (R135). -/
theorem execPlacementBackoffExpiry_eq (hr : k.retryAt ≠ 0) (hn : k.attempts < s.retries k.slot) : exec .placementBackoffExpiry s =
    .next (if s.time < k.retryAt then s else s.attempt t { k with retryAt := 0 }) := by
  show execPlacementBackoffExpiry s = _
  simp [execPlacementBackoffExpiry, hx, hk, hmay, hs, hr, Nat.not_le.2 hn]

end

variable (hpl : k.placing = some pl)
include hpl

/-- A core that can grant holds the amounts (R132). -/
theorem execReserveRequest_grants (hc : s.ev.y = c) (hasked : c ∈ pl.asked) (hfits : s.fits k c = true) : exec .reserveRequest s =
    .next ((s.setCore c { s.core c with resv := (s.core c).resv ++ [{ task := t, trains := k.share, regs := k.share * budgetRegs k.budget, ways := k.ways }] }).setPlacing t
      (fun pl => { pl with asked := pl.asked.filter (fun x => decide (x ≠ c)), granted := pl.granted ++ [c] })) := by
  show execReserveRequest s = _
  simp [execReserveRequest, hx, hc, hk, hpl, hasked, hfits]

/-- One that cannot refuses (R132). -/
theorem execReserveRequest_refuses (hc : s.ev.y = c) (hasked : c ∈ pl.asked) (hfits : s.fits k c = false) : exec .reserveRequest s =
    .next (s.setPlacing t (fun pl => { pl with asked := pl.asked.filter (fun x => decide (x ≠ c)), refused := pl.refused ++ [c] })) := by
  show execReserveRequest s = _
  simp [execReserveRequest, hx, hc, hk, hpl, hasked, hfits]

theorem execReserveAnswer_heard (hc : s.ev.y = c) (hnew : c ∉ pl.heard) (hans : c ∈ pl.granted ∨ c ∈ pl.refused) (hg : pl.granted ≠ []) : exec .reserveAnswer s =
    .next (s.setTask t { k with placing := some { pl with heard := pl.heard ++ [c] } }) := by
  have hanswered : (pl.granted.contains c || pl.refused.contains c) = true := by simpa using hans
  have hfirst : pl.heard.contains c = false := by simpa using hnew
  show execReserveAnswer s = _
  simp [execReserveAnswer, hx, hc, hk, hpl, hfirst, hanswered, hg, -List.contains_eq_mem]

section
variable (hc : s.ev.y = c) (hready : k.state = .ready) (hans : pl.answered k.cores = true) (hrefused : pl.refused ≠ [])
include hc hready hans hrefused

/-- With the last release the attempt has failed (R133 step 3). -/
theorem execPlacementRelease_last (hg : pl.granted = [c]) : exec .placementRelease s = .next ((s.dropResv t c).failAttempt t) := by
  show execPlacementRelease s = _
  simp [execPlacementRelease, hx, hc, hk, hpl, hready, hans, hrefused, hg]

/-- A release before the last leaves the other cores' to be released. -/
theorem execPlacementRelease_more (hg : c ∈ pl.granted) (hmore : ∃ d ∈ pl.granted, d ≠ c) : exec .placementRelease s =
    .next ((s.dropResv t c).setTask t { k with placing := some { pl with granted := pl.granted.filter (fun x => decide (x ≠ c)) } }) := by
  show execPlacementRelease s = _
  simp [execPlacementRelease, hx, hc, hk, hpl, hready, hans, hrefused, hg, hmore]

end

section
variable (hready : k.state = .ready) (hans : pl.answered k.cores = true) (hnone : pl.refused = []) (hruns : s.slotRuns k.slot = true) (hpass : s.passes k = false)
include hready hans hnone hruns hpass

/-- The commit, once the route table and the buffer records are read: the gang is placed, or it unwinds with FORMAT (R133 step 2, R136, R184). -/
theorem execPlacementCommit_read {rt bs : List Byte} (hrt : (if k.routesN = 0 then DRead.ok [] else s.deviceRead (taskOwner t) k.slot k.routesVa.toNat (8 * k.routesN)) = .ok rt)
    (hbs : (if k.blockVa = 0 then DRead.ok [] else s.deviceRead (taskOwner t) k.slot k.blockVa.toNat 512) = .ok bs) : exec .placementCommit s =
    .next (if routesOk rt k.routesN k.trains = true ∧ blockOk bs = true then s.placeAll t k pl (routeMasks rt k.routesN) (blockRegs bs) else s.placeFails t k pl 5 0) := by
  show execPlacementCommit s = _
  simp only [execPlacementCommit, hx, hk, hpl, hready, hans, hnone, hruns, hpass, hrt, hbs]
  cases routesOk rt k.routesN k.trains <;> cases blockOk bs <;> rfl

/-- A fault of the route table's read unwinds it with FAULT (R425). -/
theorem execPlacementCommit_unread {code va : Nat} (hn : k.routesN ≠ 0) (hrt : s.deviceRead (taskOwner t) k.slot k.routesVa.toNat (8 * k.routesN) = .fault code va) :
    exec .placementCommit s = .next ((s.reportRead k.slot (.fault code va)).placeFails t k pl 4 code) := by
  show execPlacementCommit s = _
  simp only [execPlacementCommit, hx, hk, hpl, hready, hans, hnone, hruns, hpass, if_neg hn, hrt]
  rfl

end
end

section
variable (hx : s.ev.x = p) {ts : List Nat} (hq : (s.pslot p).siding = t :: ts) (hk : s.task t = some k) (hmay : s.mayPlace t k = true)
include hx hq hk hmay

/-- The head of a siding queue is tried once its slot has freed something (R135). -/
theorem execPlacementSidingAttempt_eq : exec .placementSidingAttempt s =
    .next (if (s.pslot p).freed = true then (s.setPslot p { s.pslot p with freed := false }).attempt t k else s) := by
  show execPlacementSidingAttempt s = _
  cases hf : (s.pslot p).freed <;> simp [execPlacementSidingAttempt, hx, hq, hk, hmay, hf]

end

/-! ### What an attempt and an answer leave -/

/-- An attempt asks every core of the window that the agent chooses among the amounts it has been told (R133, R134). -/
theorem State.attempt_window {u : State} {i : Task} {w : Window} (hi : i = { k with agentCore := (s.agentOf t k).getD none }) (hu : u = (s.adverts i).setTask t i)
    (hw : u.chooseWindow i = some w) :
    s.attempt t k = u.setTask t { i with placing := some { yard := w.1, w := w.2, asked := windowCores w k.cores, granted := [], refused := [] } } := by
  subst hi hu
  simp only [State.attempt, hw]

/-- With no window it fails at once (R135). -/
theorem State.attempt_none {u : State} {i : Task} (hi : i = { k with agentCore := (s.agentOf t k).getD none }) (hu : u = (s.adverts i).setTask t i) (hw : u.chooseWindow i = none) :
    s.attempt t k = u.failAttempt t := by
  subst hi hu
  simp only [State.attempt, hw]

theorem State.task_setPlacing {f : Placing → Placing} (hk : s.task t = some k) (hpl : k.placing = some pl) : (s.setPlacing t f).task t = some { k with placing := some (f pl) } := by
  rw [State.setPlacing, State.task_modTask, hk, Option.map_some, hpl, Option.map_some]

end Sys2Proof.Machine

namespace Sys2Proof.Proofs

open Sys2Proof.Machine

/-- Settles O51: each step of a placement by its equation, a failed attempt by its number (`State.failAttempt_last`, `State.failAttempt_waits`) and the bound of the agent's jitter. -/
theorem placement : Obligations.Placement := by
  unfold Obligations.Placement
  refine ⟨?attempt, ?behind, ?window, ?reserve, ?answer, ?commit, ?release, ?fails, ?backoff, ?siding⟩
  case attempt =>
    intro s t k hx hk hmay hs hr hfree
    rw [execPlacementAttempt_eq hx hk hmay hs hr, if_neg (Bool.eq_false_iff.1 hfree)]
  case behind =>
    intro s t k hx hk hmay hs hr hbehind
    rw [execPlacementAttempt_eq hx hk hmay hs hr, if_pos hbehind]
  case window => exact fun s u t k i hi hu => ⟨fun w hw => State.attempt_window hi hu hw, fun hw => State.attempt_none hi hu hw⟩
  case reserve =>
    intro s t c k pl hx hc hk hpl hasked
    cases hfits : s.fits k c with
    | true =>
      refine ⟨_, _, execReserveRequest_grants hx hk hpl hc hasked hfits, State.task_setPlacing hk hpl, fun _ => ⟨rfl, ?_⟩, fun h => absurd h (by decide)⟩
      exact congrArg Core.resv (State.core_setCore s c _)
    | false => exact ⟨_, _, execReserveRequest_refuses hx hk hpl hc hasked hfits, State.task_setPlacing hk hpl, fun h => absurd h (by decide), fun _ => ⟨rfl, rfl⟩⟩
  case answer => exact fun s t c k pl hx hc hk hpl hnew hans hg => execReserveAnswer_heard hx hk hpl hc hnew hans hg
  case commit =>
    intro s t k pl hx hk hpl hready hans hnone hruns hpass
    exact ⟨fun rt bs hrt hbs => execPlacementCommit_read hx hk hpl hready hans hnone hruns hpass hrt hbs, fun code va hn hrt => execPlacementCommit_unread hx hk hpl hready hans hnone hruns hpass hn hrt⟩
  case release =>
    intro s t c k pl hx hc hk hpl hready hans hrefused
    exact ⟨execPlacementRelease_last hx hk hpl hc hready hans hrefused, execPlacementRelease_more hx hk hpl hc hready hans hrefused⟩
  case fails =>
    intro s t k hk hs
    refine ⟨fun h => ?_, fun h => ?_⟩
    · rw [State.failAttempt_last hk hs h]
      exact ⟨_, State.task_enterSiding _ _ _, rfl, rfl, State.enterSiding_queued s t k.failed⟩
    · rw [State.failAttempt_waits hk hs h]
      have hjitter : (s.jitter k.failed (32 * 2 ^ (k.attempts + 1))).1 < 32 * 2 ^ (k.attempts + 1) := State.jitter_lt (by positivity)
      exact ⟨_, State.task_setTask _ _ _, rfl, rfl, by dsimp only; omega, by dsimp only; omega⟩
  case backoff =>
    intro s t k hx hk hmay hs hr hn
    rw [execPlacementBackoffExpiry_eq hx hk hmay hs hr hn]
    exact ⟨fun h => by rw [if_neg (Nat.not_lt.2 h)], fun h => by rw [if_pos h]⟩
  case siding =>
    intro s p t ts k hx hq hk hmay
    rw [execPlacementSidingAttempt_eq hx hq hk hmay]
    exact ⟨fun h => by rw [if_pos h], fun h => by rw [if_neg (Bool.eq_false_iff.1 h)]⟩

end Sys2Proof.Proofs
end

section
/-! ### The supervisor handler: entry (R161) -/

set_option Elab.async false

namespace Sys2Proof.Machine

variable {s : State} {core slot p : Nat} {t : Train} {o : Portion} {fs : List LaneFault} {f : LaneFault}

/-! What the handler is told of each lane. -/

/-- What V0 to V2 hold for a lane's fault: its address in two halves, and its code. -/
def LaneFault.told (f : LaneFault) : Nat → W32
  | 0 => BitVec.ofNat 32 f.va
  | 1 => BitVec.ofNat 32 (f.va / 2 ^ 32 % 2 ^ 25)
  | _ => BitVec.ofNat 32 f.code

/-- The writes of them, each with the number of its lane register among all. -/
def LaneFault.writes (f : LaneFault) : List (Nat × W32) := [0, 1, 2].map (fun r => (32 * r + f.lane, f.told r))

/-- Lane registers after the entry of the handler. -/
def laneWrites (fs : List LaneFault) (v : Sparse W32) : Sparse W32 := (fs.flatMap LaneFault.writes).foldl (fun m w => Sparse.set 0 m w.1 w.2) v

/-- The entry's writes change the lane registers alone. -/
theorem Train.foldl_faults_eq (fs : List LaneFault) (t : Train) :
    fs.foldl (fun t f => ((t.setV 0 f.lane (BitVec.ofNat 32 f.va)).setV 1 f.lane (BitVec.ofNat 32 (f.va / 2 ^ 32 % 2 ^ 25))).setV 2 f.lane (BitVec.ofNat 32 f.code)) t =
      { t with v := laneWrites fs t.v } := by
  induction fs generalizing t with
  | nil => rfl
  | cons f fs ih =>
    rw [List.foldl_cons, ih]
    rfl

/-- A write of the entry is one of V0 to V2 of a faulting lane. -/
theorem mem_writes {w : Nat × W32} (h : w ∈ fs.flatMap LaneFault.writes) : ∃ f ∈ fs, ∃ r < 3, w = (32 * r + f.lane, f.told r) := by
  obtain ⟨f, hf, hw⟩ := List.mem_flatMap.1 h
  obtain ⟨r, hr, rfl⟩ := List.mem_map.1 hw
  exact ⟨f, hf, r, by simp at hr; omega, rfl⟩

/-- V0 to V2 of a faulting lane hold what its own fault gives, where no lane faults twice. -/
theorem get_laneWrites (hlanes : ∀ f ∈ fs, f.lane < 32) (hdistinct : (fs.map LaneFault.lane).Nodup) {v : Sparse W32} (hv : Table.sorted v = true) (hf : f ∈ fs) {r : Nat} (hr : r ∈ [0, 1, 2]) :
    Sparse.get 0 (laneWrites fs v) (32 * r + f.lane) = f.told r := by
  refine Sparse.get_foldl_set 0 Prod.fst Prod.snd _ _ _ v hv ?_ (.inr ⟨_, List.mem_flatMap.2 ⟨f, hf, List.mem_map.2 ⟨r, hr, rfl⟩⟩, rfl⟩)
  rintro x hx hkey
  obtain ⟨g, hg, q, -, rfl⟩ := mem_writes hx
  have hlf := hlanes f hf
  have hlg := hlanes g hg
  dsimp only at hkey ⊢
  have hreg : q = r := by omega
  have hlane : g.lane = f.lane := by omega
  rw [hreg, List.inj_on_of_nodup_map hdistinct hg hf hlane]

/-- Every other lane register is left. -/
theorem get_laneWrites_other (hlanes : ∀ f ∈ fs, f.lane < 32) {v : Sparse W32} (hv : Table.sorted v = true) {r l : Nat} (hl : l < 32) (h : 2 < r ∨ l ∉ fs.map LaneFault.lane) :
    Sparse.get 0 (laneWrites fs v) (32 * r + l) = Sparse.get 0 v (32 * r + l) := by
  refine Sparse.get_foldl_set 0 Prod.fst Prod.snd _ _ _ v hv ?_ (.inl rfl)
  rintro x hx hkey
  obtain ⟨g, hg, q, hq, rfl⟩ := mem_writes hx
  have hlg := hlanes g hg
  dsimp only at hkey
  have hreg : q = r := by omega
  have hlane : g.lane = l := by omega
  exact absurd h (not_or.2 ⟨by omega, fun hnot => hnot (hlane ▸ List.mem_map_of_mem hg)⟩)

/-! The lowest lane. -/

/-- The lower of a fault found so far and the next. -/
def lowerOf (b : Option LaneFault) (f : LaneFault) : Option LaneFault := match b with
  | none => some f
  | some g => if f.lane < g.lane then some f else some g

theorem lowestLane_eq_foldl (fs : List LaneFault) : lowestLane fs = (fs.foldl lowerOf none).getD { lane := 0, code := 0, va := 0 } := rfl

theorem foldl_lowerOf {acc : Option LaneFault} (hlow : ∀ g ∈ fs, g = f ∨ f.lane < g.lane) (h : acc = some f ∨ f ∈ fs ∧ ∀ b, acc = some b → f.lane < b.lane) :
    fs.foldl lowerOf acc = some f := by
  induction fs generalizing acc with
  | nil => simpa using h
  | cons g gs ih =>
    have hrest : ∀ x ∈ gs, x = f ∨ f.lane < x.lane := fun x hx => hlow x (List.mem_cons_of_mem _ hx)
    rw [List.foldl_cons]
    refine ih hrest ?_
    rcases hlow g List.mem_cons_self with rfl | hg
    · refine .inl ?_
      rcases h with rfl | ⟨-, hacc⟩
      · simp [lowerOf]
      · cases acc with
        | none => rfl
        | some b => simp [lowerOf, hacc b rfl]
    · rcases h with rfl | ⟨hmem, hacc⟩
      · exact .inl (by simp [lowerOf, Nat.not_lt.2 hg.le])
      · have hne : f ≠ g := fun he => absurd hg (by simp [he])
        refine .inr ⟨(List.mem_cons.1 hmem).resolve_left hne, fun b hb => ?_⟩
        cases acc with
        | none => exact Option.some.inj hb ▸ hg
        | some a =>
          have ha := hacc a rfl
          dsimp only [lowerOf] at hb
          split at hb <;> cases hb <;> assumption

/-- The fault of the lowest lane, where no lane faults twice. -/
theorem lowestLane_eq (hdistinct : (fs.map LaneFault.lane).Nodup) (hf : f ∈ fs) (hle : ∀ g ∈ fs, f.lane ≤ g.lane) : lowestLane fs = f := by
  have hlow : ∀ g ∈ fs, g = f ∨ f.lane < g.lane := fun g hg =>
    (hle g hg).eq_or_lt.imp (fun he => List.inj_on_of_nodup_map hdistinct hg hf he.symm) id
  rw [lowestLane_eq_foldl, foldl_lowerOf hlow (.inr ⟨hf, fun _ h => absurd h (by simp)⟩), Option.getD_some]

/-- FLTINFO of a code and an address within their fields (Table 9-3). -/
theorem fltInfo_eq {code va : Nat} (hcode : code < 128) (hva : va < 2 ^ 57) : fltInfo code va = BitVec.ofNat 64 (code * 2 ^ 57 + va) := by
  rw [fltInfo, Nat.mod_eq_of_lt hcode, Nat.mod_eq_of_lt hva]

/-! The bank and the train. -/

/-- The bank that the entry of the handler fills (R161). -/
def State.bankOf (s : State) (t : Train) (p : Nat) (o : Portion) : Handler :=
  { portion := p, s := (List.range 8).map (fun i => t.getS (i + 1)), v := t.v.filter (fun e => decide (e.1 < 512)), k0 := t.getK 0, k1 := t.getK 1
    exm := o.exm, fmt := o.fmt, sig := o.sig, lineage := t.lineage, xflags := t.xflags, lcb := t.lcb, pc := o.pc, clauses := o.clauses, wait := o.wait, lwait := o.lwait
    since := s.time, mark := t.nextPend, stack := o.stack, entries := t.entries, frozen := (t.portions.map Prod.fst).filter (fun q => decide (q ≠ p)) }

/-- The handler's portion at its entry. -/
def State.handlerPortion (s : State) (t : Train) (o : Portion) (fs : List LaneFault) : Portion :=
  { o with pc := s.slotReg (s.slotOfTask t.task) 0x398 &&& 0x1FFFFFFFFFFFFFC, exm := faultMask fs, pm := faultMask fs, clauses := [], wait := .none, lwait := .none, stack := [] }

/-- FLTINFO of the lowest lane. -/
def lowestInfo (fs : List LaneFault) : W64 := fltInfo (lowestLane fs).code (lowestLane fs).va

/-- The train that has entered the handler: S1 and S2, V0 to V2 of the faulting lanes, LCB, the reports, the bank and portion `p` have changed. -/
def State.inHandler (s : State) (t : Train) (p : Nat) (o : Portion) (fs : List LaneFault) : Train :=
  { t with
    s := Sparse.set 0 (Sparse.set 0 t.s 1 (lowestInfo fs)) 2 ((faultMask fs).setWidth 64), portions := Table.put t.portions p (s.handlerPortion t o fs)
    v := laneWrites fs t.v, lcb := s.slotReg (s.slotOfTask t.task) 0x3A0, fltinfo := lowestInfo fs, fltmask := faultMask fs, handler := some (s.bankOf t p o) }

/-- The entry of the handler changes one train. -/
theorem State.enterHandler_eq (ht : s.train core slot = some t) (ho : t.portion p = some o) : s.enterHandler (trainKey core slot) p fs = s.setTrain core slot (s.inHandler t p o fs) := by
  have hfind : Table.find s.trains (trainKey core slot) = some t := ht
  simp only [State.enterHandler, hfind, ho, Train.foldl_faults_eq, Train.setS, OfNat.ofNat_ne_zero, one_ne_zero, if_false, Train.setPortion, State.setTrain, State.inHandler, State.bankOf,
    State.handlerPortion, lowestInfo]

theorem State.inHandler_getS {n : Nat} (hn : n ≠ 0) :
    (s.inHandler t p o fs).getS n = Sparse.get 0 (Sparse.set 0 (Sparse.set 0 t.s 1 (lowestInfo fs)) 2 ((faultMask fs).setWidth 64)) n := by
  rw [Train.getS, if_neg hn, State.inHandler]

theorem State.inHandler_getS_one (hs : Table.sorted t.s = true) : (s.inHandler t p o fs).getS 1 = lowestInfo fs := by
  rw [State.inHandler_getS (by decide), Sparse.get_set_other _ _ _ _ _ (by decide), Sparse.get_set_same _ _ _ _ hs]

theorem State.inHandler_getS_two (hs : Table.sorted t.s = true) : (s.inHandler t p o fs).getS 2 = (faultMask fs).setWidth 64 := by
  rw [State.inHandler_getS (by decide), Sparse.get_set_same _ _ _ _ (Sparse.sorted_set _ _ _ _ hs)]

theorem State.inHandler_getS_other {n : Nat} (hn : 2 < n) : (s.inHandler t p o fs).getS n = t.getS n := by
  rw [State.inHandler_getS (by omega), Sparse.get_set_other _ _ _ _ _ (by omega), Sparse.get_set_other _ _ _ _ _ (by omega), Train.getS, if_neg (by omega)]

/-- The bank's lane registers are V0 to V15 (R161). -/
theorem State.get_bankOf_v {r l : Nat} (hr : r < 16) (hl : l < 32) : Sparse.get 0 (s.bankOf t p o).v (32 * r + l) = t.getV r l := by
  have hin : 32 * r + l < 512 := by omega
  rw [State.bankOf, Sparse.get, Table.find_filter_key t.v (fun n => decide (n < 512)), if_pos (decide_eq_true hin)]
  rfl

theorem State.inHandler_portion : (s.inHandler t p o fs).portion p = some (s.handlerPortion t o fs) := Table.find_put_same _ _ _

theorem State.inHandler_portion_other {q : Nat} (hq : q ≠ p) : (s.inHandler t p o fs).portion q = t.portion q := Table.find_put_other _ _ _ _ hq

end Sys2Proof.Machine

namespace Sys2Proof.Proofs

open Sys2Proof.Machine

/-- Settles O9: the entry changes one train (`State.enterHandler_eq`), whose registers read back what was written (`get_laneWrites`, `lowestLane_eq`). -/
theorem handlerEntry : Obligations.HandlerEntry := by
  unfold Obligations.HandlerEntry
  intro s core slot p t o fs ht ho hs hv _ hbounds hdistinct _
  have hlanes : ∀ f ∈ fs, f.lane < 32 := fun f hf => (hbounds f hf).1
  have hinfo : ∀ f ∈ fs, (∀ g ∈ fs, f.lane ≤ g.lane) → lowestInfo fs = BitVec.ofNat 64 (f.code * 2 ^ 57 + f.va) := by
    intro f hf hle
    obtain ⟨-, hcode, hva⟩ := hbounds f hf
    rw [lowestInfo, lowestLane_eq hdistinct hf hle, fltInfo_eq hcode hva]
  have htold : ∀ f ∈ fs, ∀ r ∈ [0, 1, 2], (s.inHandler t p o fs).getV r f.lane = f.told r := fun f hf r hr => get_laneWrites hlanes hdistinct hv hf hr
  rw [State.enterHandler_eq ht ho]
  refine ⟨s.inHandler t p o fs, s.handlerPortion t o fs, s.bankOf t p o, State.train_setTrain _ _ _ _, State.inHandler_portion, rfl, State.inHandler_getS_two hs, rfl,
    fun f hf hle => ⟨(State.inHandler_getS_one hs).trans (hinfo f hf hle), hinfo f hf hle⟩, fun f hf => ⟨htold f hf 0 (by decide), ?upper, htold f hf 2 (by decide)⟩,
    rfl, rfl, rfl, rfl, rfl, rfl, rfl, rfl, rfl, rfl, rfl, rfl, rfl, rfl, rfl, rfl, rfl, rfl, fun r l hr hl => State.get_bankOf_v hr hl, rfl, rfl, rfl, rfl,
    rfl, rfl, rfl, rfl, rfl, fun n hn => State.inHandler_getS_other hn, fun r l hl h => get_laneWrites_other hlanes hv hl h, fun q hq => State.inHandler_portion_other hq,
    fun key hkey => Table.find_put_other _ _ _ _ hkey, rfl, rfl⟩
  case upper =>
    have hfits : f.va / 2 ^ 32 < 2 ^ 25 := by have := (hbounds f hf).2.2; omega
    rw [htold f hf 1 (by decide), LaneFault.told, Nat.mod_eq_of_lt hfits]

end Sys2Proof.Proofs
end

section
/-! ### The supervisor handler: its forms and its return (R160-R162, R447) -/

set_option Elab.async false

namespace Sys2Proof.Machine

open Sys2Proof.Claims

variable {s : State} {c : Cur} {q : SReq} {h : Handler} {f : FaultCtx} {t : Train}

/-! ### The supervisor forms outside the handler (R447) -/

section
variable (hh : c.t.handler = none)
include hh

theorem notHandler_eq_true : notHandler c = true := by rw [notHandler, hh, Option.isNone_none]

theorem execRflt_outside (hr : s.ready c (rfltReq s c)) : exec .rflt s = .next (s.scalarFault c fILLOP 0 false) := by
  show execRflt s = _
  unfold execRflt
  exact State.scalarGo_ill s c (rfltReq s) _ _ _ hr (notHandler_eq_true hh)

theorem execHalt_outside (hr : s.ready c (leaveReq c)) : exec .halt s = .next (s.scalarFault c fILLOP 0 false) := by
  show execHalt s = _
  unfold execHalt
  exact State.scalarGo_ill s c leaveReq _ _ _ hr (notHandler_eq_true hh)

/-- Outside the handler MAPPG has no walk to wait for. -/
theorem mappgReq_outside (d a b : BitVec 6) : mappgReq s d a b c = mappgNeeds d a b := by
  rw [mappgReq, hh, mappgNeeds, Option.isSome_none, if_neg (by decide)]

theorem execMappg_outside {d a b : BitVec 6} (hr : s.ready c (mappgNeeds d a b)) : exec (.mappg d a b) s = .next (s.scalarFault c fILLOP 0 false) := by
  show execMappg d a b s = _
  unfold execMappg
  exact State.scalarGo_ill s c (mappgReq s d a b) _ _ _ (by rwa [mappgReq_outside hh]) (notHandler_eq_true hh)

theorem execIvpg_outside {a b : BitVec 6} (hr : s.ready c (ivpgNeeds a b)) : exec (.ivpg a b) s = .next (s.scalarFault c fILLOP 0 false) := by
  show execIvpg a b s = _
  unfold execIvpg
  exact State.scalarGo_ill s c _ _ _ _ hr (notHandler_eq_true hh)

end

/-! ### The bank restored (R162) -/

/-- S1 to S8 from a bank. -/
def bankScalars (h : Handler) (m : Sparse W64) : Sparse W64 := (List.range 8).foldl (fun m i => Sparse.set 0 m (i + 1) (h.s[i]?.getD 0)) m

theorem Train.foldl_setS_eq (is : List Nat) (v : Nat → W64) (t : Train) :
    is.foldl (fun t i => t.setS (i + 1) (v i)) t = { t with s := is.foldl (fun m i => Sparse.set 0 m (i + 1) (v i)) t.s } := by
  induction is generalizing t with
  | nil => rfl
  | cons i is ih =>
    rw [List.foldl_cons, ih, List.foldl_cons, Train.setS, if_neg (Nat.succ_ne_zero i)]

/-- Where the portion of the handler goes on. -/
def Handler.resumed (h : Handler) : Portion :=
  { pc := h.pc, exm := h.exm, pm := h.exm, fmt := h.fmt, sig := h.sig, stack := h.stack, clauses := h.clauses, wait := h.wait, lwait := h.lwait }

/-- The train that leaves the handler `h`. -/
theorem Train.leaveHandler_eq (hh : t.handler = some h) :
    t.leaveHandler = { t with
      s := bankScalars h t.s, v := h.v ++ t.v.filter (fun e => decide (512 ≤ e.1)), k := Sparse.set 0 (Sparse.set 0 t.k 0 h.k0) 1 h.k1
      lineage := h.lineage, xflags := h.xflags, lcb := h.lcb, handler := none, entries := h.entries
      portions := Table.put (t.portions.filter (fun e => h.frozen.contains e.1)) h.portion h.resumed } := by
  simp only [Train.leaveHandler, hh, Train.foldl_setS_eq, Train.setK, Train.setPortion, bankScalars, Handler.resumed]

/-- S1 to S8 read what the bank holds. -/
theorem get_bankScalars {m : Sparse W64} (hm : Table.sorted m = true) {n : Nat} (hlo : 1 ≤ n) (hhi : n ≤ 8) : Sparse.get 0 (bankScalars h m) n = h.s[n - 1]?.getD 0 := by
  refine Sparse.get_foldl_set 0 (fun i => i + 1) (fun i => h.s[i]?.getD 0) n _ (List.range 8) m hm (fun i _ hi => ?_) (.inr ⟨n - 1, List.mem_range.2 (by omega), by omega⟩)
  rw [← hi, Nat.add_sub_cancel]

theorem get_bankScalars_other {m : Sparse W64} (hm : Table.sorted m = true) {n : Nat} (h8 : 8 < n) : Sparse.get 0 (bankScalars h m) n = Sparse.get 0 m n :=
  Sparse.get_foldl_set 0 (fun i => i + 1) (fun i => h.s[i]?.getD 0) n _ (List.range 8) m hm (fun i hi he => absurd (List.mem_range.1 hi) (by omega)) (.inl rfl)

/-- A key that one table holds no entry of is read from the next. -/
theorem Table.find_append {α : Type} (m n : Table α) (key : Nat) : Table.find (m ++ n) key = (Table.find m key).or (Table.find n key) := by
  induction m with
  | nil => rfl
  | cons e m ih =>
    obtain ⟨k, v⟩ := e
    by_cases hk : k = key
    · simp [Table.find, hk]
    · simp [Table.find, hk, ih]

/-- A key that no entry has. -/
theorem Table.find_eq_none {α : Type} {m : Table α} {key : Nat} (hm : ∀ e ∈ m, e.1 ≠ key) : Table.find m key = none := by
  induction m with
  | nil => rfl
  | cons e m ih =>
    obtain ⟨k, v⟩ := e
    rw [Table.find, if_neg (hm (k, v) List.mem_cons_self), ih (fun x hx => hm x (List.mem_cons_of_mem _ hx))]

/-- V0 to V15 come from the bank. -/
theorem get_bank_low {v w : Sparse W32} {n : Nat} (hn : n < 512) : Sparse.get 0 (v ++ w.filter (fun e => decide (512 ≤ e.1))) n = Sparse.get 0 v n := by
  rw [Sparse.get, Table.find_append, Table.find_filter_key w (fun k => decide (512 ≤ k)), if_neg (by simpa using hn), Option.or_none, Sparse.get]

/-- The registers above them stay. -/
theorem get_bank_high {v w : Sparse W32} (hv : v.all (fun e => decide (e.1 < 512)) = true) {n : Nat} (hn : 512 ≤ n) :
    Sparse.get 0 (v ++ w.filter (fun e => decide (512 ≤ e.1))) n = Sparse.get 0 w n := by
  have hnone : Table.find v n = none := Table.find_eq_none fun e he hkey => by
    have hlow : e.1 < 512 := by simpa using List.all_eq_true.1 hv e he
    omega
  rw [Sparse.get, Table.find_append, hnone, Option.none_or, Table.find_filter_key w (fun k => decide (512 ≤ k)), if_pos (by simpa using hn), Sparse.get]

/-- A train whose registers are those of the focus, but for what an issue changes, has the bank's once it has left the handler. -/
theorem restored_leaveHandler (hh : c.t.handler = some h) (hp : h.portion = c.p) (hv : h.v.all (fun e => decide (e.1 < 512)) = true) (hs : Table.sorted c.t.s = true) (hk : Table.sorted c.t.k = true) :
    restored c h (c.after q keep).leaveHandler := by
  have hafter : (c.after q keep).handler = some h := hh
  rw [Train.leaveHandler_eq hafter]
  refine ⟨h.resumed, ?portion, rfl, fun n hlo hhi => ?low, fun n h8 => ?high, ?k0, ?k1, fun n hn => ?kn, fun r l hr hl => get_bank_low (by omega), fun r l hr => get_bank_high hv (by omega),
    rfl, rfl, rfl, rfl, rfl, rfl, rfl, rfl, rfl, rfl, rfl, rfl⟩
  case portion =>
    rw [← hp]
    exact Table.find_put_same _ _ _
  case low =>
    rw [Train.getS, if_neg (by omega)]
    exact get_bankScalars hs hlo hhi
  case high =>
    rw [Train.getS, Train.getS, if_neg (by omega), if_neg (by omega)]
    exact get_bankScalars_other hs h8
  case k0 =>
    rw [Train.getK, Sparse.get_set_other _ _ _ _ _ (by decide)]
    exact Sparse.get_set_same _ _ _ _ hk
  case k1 => exact Sparse.get_set_same _ _ _ _ (Sparse.sorted_set _ _ _ _ hk)
  case kn =>
    rw [Train.getK, Sparse.get_set_other _ _ _ _ _ (by omega), Sparse.get_set_other _ _ _ _ _ (by omega)]
    rfl

/-! ### The lanes that wait for the host (R160) -/

/-- The train of the focus once it has left the handler, its fault taken up. -/
def Cur.returned (c : Cur) (q : SReq) : Train := { (c.after q keep).leaveHandler with fault := none }

/-- The state in which the train of the focus has left the handler. -/
def State.returns (s : State) (c : Cur) (q : SReq) : State := s.leaves c q (fun t => { t.leaveHandler with fault := none }) keep

theorem State.train_returns : (s.returns c q).train c.core c.slot = some (c.returned q) := State.train_leaves

/-- Nothing is charged in the handler (R161). -/
theorem State.tasks_returns (hh : c.t.handler = some h) : (s.returns c q).tasks = s.tasks := by
  simp [State.returns, State.leaves, State.paid, Cur.freeIssue, hh]

/-- With no lane to wait for the host nothing happens. -/
theorem State.hostLanes_nil (u : State) (key : Nat) : u.hostLanes key f [] = u := rfl

/-- The fault that stands while the host is asked about the lanes `fs` alone. -/
def FaultCtx.onlyLanes (f : FaultCtx) (fs : List LaneFault) : FaultCtx := { f with access := f.access.map (fun x => x.only (faultMask fs)), lanes := fs }

/-- The train that waits for the host with the fault `g`. -/
def Train.hostWaits (t : Train) (g : FaultCtx) : Train :=
  { t with fault := some g, fltinfo := fltInfo (lowestLane g.lanes).code (lowestLane g.lanes).va, fltmask := faultMask g.lanes, call := some { imm := 0xFF00 + (lowestLane g.lanes).code, fault := true } }

/-- Lanes that wait for the host behind a train with no fault and no handler (R160, R163). -/
theorem State.hostLanes_waits {u : State} {core slot : Nat} {fs : List LaneFault} (hfs : fs ≠ []) (ht : u.train core slot = some t) (hf : t.fault = none) (hh : t.handler = none) :
    u.hostLanes (trainKey core slot) f fs = u.setTrain core slot (t.hostWaits (f.onlyLanes fs)) := by
  have hfind : Table.find u.trains (trainKey core slot) = some t := ht
  have hne : fs.isEmpty = false := by simpa using hfs
  simp only [State.hostLanes, hne, hfind, hf, hh, Option.isSome_none, Bool.false_eq_true, if_false, State.toHost, Table.modify_put, State.setTrain, Train.hostWaits, FaultCtx.onlyLanes]

section
variable (hh : c.t.handler = some h)
include hh

theorem Cur.returned_handler : (c.returned q).handler = none := by
  have hafter : (c.after q keep).handler = some h := hh
  rw [Cur.returned, Train.leaveHandler_eq hafter]

theorem Cur.returned_call : (c.returned q).call = c.t.call := by
  have hafter : (c.after q keep).handler = some h := hh
  rw [Cur.returned, Train.leaveHandler_eq hafter]
  rfl

/-- The lanes of a train that has left the handler wait for the host. -/
theorem State.hostLanes_returns {fs : List LaneFault} (hfs : fs ≠ []) :
    (s.returns c q).hostLanes (trainKey c.core c.slot) f fs = (s.returns c q).setTrain c.core c.slot ((c.returned q).hostWaits (f.onlyLanes fs)) :=
  State.hostLanes_waits hfs State.train_returns rfl (Cur.returned_handler hh)

end

/-- A pending fault, its reports and the call for the host are no part of the bank. -/
theorem restored_beside {g : Option FaultCtx} {info : W64} {mask : W32} {call : Option Call} (hr : restored c h t) :
    restored c h { t with fault := g, fltinfo := info, fltmask := mask, call := call } := by
  obtain ⟨o, hregs⟩ := hr
  exact ⟨o, hregs⟩

theorem restored_hostWaits {g : FaultCtx} (hr : restored c h t) : restored c h (t.hostWaits g) := by
  rw [Train.hostWaits]
  exact restored_beside hr

/-! ### RFLT and HALT in the handler (R162) -/

/-- A train that may issue waits on no call. -/
theorem State.ready.call_eq (hr : s.ready c q) : c.t.call = none := by
  obtain ⟨-, hmay, -⟩ := hr
  cases hcall : c.t.call with
  | none => rfl
  | some x => simp [State.scalarMay, State.trainRuns, hcall] at hmay

/-- RFLT needs what HALT needs, and room for the stores that it replays (R235). -/
theorem rfltReady (hr : s.ready c (leaveReq c)) (hroom : (rfltReq s c).stall = .no) : s.ready c (rfltReq s c) := by
  obtain ⟨hc, hmay, hwait, -, hbreach, hpay⟩ := hr
  exact ⟨hc, hmay, hwait, hroom, hbreach, hpay⟩

section
variable (hh : c.t.handler = some h) (hf : c.t.fault = some f)
include hh hf

/-- RFLT with no lane of its own restores the bank and leaves the other lanes to the host. -/
theorem execRflt_empty (hr : s.ready c (rfltReq s c)) (hmine : f.mine c.o.exm = []) :
    exec .rflt s = .next ((s.returns c (rfltReq s c)).hostLanes (trainKey c.core c.slot) f (f.routed .host)) := by
  show execRflt s = _
  unfold execRflt
  rw [State.scalarGo_ready s c _ _ _ _ hr (by rw [notHandler, hh]; rfl) rfl]
  simp only [hf, State.leaves_modCur _ _ _ _ _ _ hr.1, hmine, List.isEmpty_nil, if_true]
  cases f.access <;> rfl

/-- RFLT replays its own lanes first. -/
theorem execRflt_replays (hr : s.ready c (rfltReq s c)) {x : Acc} (hx : f.access = some x) (hmine : f.mine c.o.exm ≠ []) : exec .rflt s =
    .next (((s.returns c (rfltReq s c)).access c.core c.slot c.p (x.only (faultMask (f.mine c.o.exm))) []).hostLanes (trainKey c.core c.slot) f (f.routed .host)) := by
  have hsome : (f.mine c.o.exm).isEmpty = false := by simpa using hmine
  show execRflt s = _
  unfold execRflt
  rw [State.scalarGo_ready s c _ _ _ _ hr (by rw [notHandler, hh]; rfl) rfl]
  simp only [hf, State.leaves_modCur _ _ _ _ _ _ hr.1, hx, hsome, Bool.false_eq_true, if_false]
  rfl

/-- HALT restores the bank and leaves its lanes to the host with the others. -/
theorem execHalt_returns (hr : s.ready c (leaveReq c)) : exec .halt s = .next ((s.returns c (leaveReq c)).hostLanes (trainKey c.core c.slot) f (f.mine c.o.exm ++ f.routed .host)) := by
  show execHalt s = _
  unfold execHalt
  rw [State.scalarGo_ready s c _ _ _ _ hr (by rw [notHandler, hh]; rfl) rfl]
  simp only [hf, State.leaves_modCur _ _ _ _ _ _ hr.1]
  rfl

end

end Sys2Proof.Machine

namespace Sys2Proof.Proofs

open Sys2Proof.Machine Sys2Proof.Claims

/-- Settles O10: outside the handler its forms are ill-formed; in it the bank is restored (`restored_leaveHandler`), and the lanes left to the host wait for it (`State.hostLanes_returns`). -/
theorem handlerReturn : Obligations.HandlerReturn := by
  unfold Obligations.HandlerReturn
  refine ⟨fun s c hh => ⟨execRflt_outside hh, execHalt_outside hh, fun d a b => execMappg_outside hh, fun a b => execIvpg_outside hh⟩, ?_⟩
  intro s c h f hr hroom hh hp _ hv hs hk hf mine hosted hmine hhosted
  change mine = f.mine c.o.exm at hmine
  subst hmine hhosted
  have hrflt := rfltReady hr hroom
  have hback : ∀ q, restored c h (c.returned q) := fun q => restored_beside (restored_leaveHandler hh hp hv hs hk)
  have htasks : ∀ q, (s.returns c q).tasks = s.tasks := fun q => State.tasks_returns hh
  have hhost : ∀ q fs, fs ≠ [] → ∃ t t' g, (s.returns c q).hostLanes (trainKey c.core c.slot) f fs = t ∧ t.train c.core c.slot = some t' ∧ restored c h t' ∧ t'.fault = some g ∧ g.lanes = fs ∧
      t'.fltmask = faultMask fs ∧ t'.call = some { imm := 0xFF00 + (lowestLane fs).code, fault := true } ∧ t.mem = s.mem ∧ t.tasks = s.tasks := fun q fs hfs =>
    ⟨_, _, _, State.hostLanes_returns hh hfs, State.train_setTrain _ _ _ _, restored_hostWaits (hback q), rfl, rfl, rfl, rfl, rfl, htasks q⟩
  refine ⟨fun hmine hhosted => ?goes, fun hmine hhosted => ?waits, fun x hx hmine => execRflt_replays hh hf hrflt hx hmine, ?halt⟩
  case goes =>
    refine ⟨s.returns c (rfltReq s c), c.returned (rfltReq s c), ?_, State.train_returns, hback _, rfl, rfl, htasks _⟩
    rw [execRflt_empty hh hf hrflt hmine, hhosted, State.hostLanes_nil]
  case waits =>
    obtain ⟨t, t', g, hu, hpost⟩ := hhost (rfltReq s c) _ hhosted
    exact ⟨t, t', g, by rw [execRflt_empty hh hf hrflt hmine, hu], hpost⟩
  case halt =>
    by_cases hlanes : f.mine c.o.exm ++ f.routed .host = []
    · refine ⟨s.returns c (leaveReq c), c.returned (leaveReq c), ?_, State.train_returns, hback _, rfl, htasks _, fun _ => ⟨rfl, ?_⟩, fun hne => absurd hlanes hne⟩
      · rw [execHalt_returns hh hf hr, hlanes, State.hostLanes_nil]
      · rw [Cur.returned_call hh, hr.call_eq]
    · obtain ⟨t, t', g, hu, ht, hregs, hfault, hg, hmask, hcall, hmem, htask⟩ := hhost (leaveReq c) _ hlanes
      exact ⟨t, t', by rw [execHalt_returns hh hf hr, hu], ht, hregs, hmem, htask, fun he => absurd he hlanes, fun _ => ⟨hmask, hcall, g, hfault, hg⟩⟩

end Sys2Proof.Proofs
end

section
/-! ### FBP (R151, R178, R444) -/

set_option Elab.async false

namespace Sys2Proof.Machine

variable {s : State} {c : Cur} {w : BitVec 24} {bs : List Byte}

/-- The needs of an FBP that waits for nothing of its own. -/
def fbpNeeds : SReq := { op := 0x32, clauses := true }

/-- An FBP whose descriptor has come waits for the results that its live set names, where it records a flashback point (R151). -/
theorem fbpReq_read (hwait : fbpWait s w c = .no) (hread : fbpRead s w c = .ok bs) (hlive : (c.records && fbpOk bs c.t.budget && c.t.liveBusy bs) = false) : fbpReq s w c = fbpNeeds := by
  simp only [fbpReq, hwait, hread, ne_eq, not_true_eq_false, if_false, fbpNeeds, SReq.mk.injEq, true_and]
  cases hrec : c.records
  · rfl
  · rw [hrec, Bool.true_and] at hlive
    rw [if_pos rfl, hlive, if_neg (by decide)]

/-- One in the handler waits for nothing (R444). -/
theorem fbpReq_handler (hh : c.t.handler.isSome = true) : fbpReq s w c = fbpNeeds := by
  have hwait : fbpWait s w c = .no := by rw [fbpWait, if_pos hh]
  have hrec : c.records = false := by
    rw [Cur.records, Option.isNone_eq_false_iff.2 hh, Bool.false_and, Bool.false_and]
  simp only [fbpReq, hwait, hrec, ne_eq, not_true_eq_false, Bool.false_eq_true, if_false, fbpNeeds]

/-- In the handler FBP only issues (R444). -/
theorem execFbp_handler (hr : s.ready c fbpNeeds) (hh : c.t.handler.isSome = true) : exec (.fbp w) s = .next (s.leaves c fbpNeeds keep keep) := by
  have hnone : c.t.handler.isNone = false := Option.isNone_eq_false_iff.2 hh
  show execFbp w s = _
  unfold execFbp
  rw [State.scalarGo_ready s c (fbpReq s w) _ _ _ (by rwa [fbpReq_handler hh]) (by rw [hnone, Bool.false_and]) (if_pos hh), fbpReq_handler hh]
  exact congrArg _ (if_pos hh)

section
variable (hr : s.ready c fbpNeeds) (hh : c.t.handler = none) (hwait : fbpWait s w c = .no) (hread : fbpRead s w c = .ok bs)
include hr hh hwait hread

/-- A descriptor that breaks Table 22-10 faults ILLOP. -/
theorem execFbp_illegal (hok : fbpOk bs c.t.budget = false) : exec (.fbp w) s = .next (s.scalarFault c fILLOP 0 false) := by
  have hreq : fbpReq s w c = fbpNeeds := fbpReq_read hwait hread (by rw [hok, Bool.and_false, Bool.false_and])
  show execFbp w s = _
  unfold execFbp
  exact State.scalarGo_ill s c (fbpReq s w) _ _ _ (by rwa [hreq]) (by simp [hh, hread, hok])

/-- A well-formed one issues, and records the flashback point of an undivided train (R178). -/
theorem execFbp_issues (hok : fbpOk bs c.t.budget = true) (hlive : (c.records && c.t.liveBusy bs) = false) :
    exec (.fbp w) s = .next (if c.records then (s.leaves c fbpNeeds keep keep).takeFbp bs else s.leaves c fbpNeeds keep keep) := by
  have hreq : fbpReq s w c = fbpNeeds := fbpReq_read hwait hread (by rwa [hok, Bool.and_true])
  have hmain : c.t.handler.isSome = false := by rw [hh, Option.isSome_none]
  show execFbp w s = _
  unfold execFbp
  rw [State.scalarGo_ready s c (fbpReq s w) _ _ _ (by rwa [hreq]) (by simp [hh, hread, hok]) (by simp [hh, hread]), hreq]
  simp only [hmain, hread, Bool.false_eq_true, if_false]

end

/-- The focus after an issue. -/
theorem State.cur_leaves {q : SReq} (hc : s.cur = some c) : (s.leaves c q keep keep).cur = some { c with t := c.after q keep, o := c.moved q } := by
  obtain ⟨hfocus, -, -⟩ := State.cur_eq hc
  have hf : (s.leaves c q keep keep).focus = { core := c.core, slot := c.slot, portion := c.p } := hfocus
  have hp : (c.after q keep).portion c.p = some (c.moved q) := Train.portion_after Train.besidePortions_keep
  simp only [State.cur, hf, State.train_leaves, keep_eq, hp]

/-- The train that an FBP leaves, its flashback point recorded (R151). -/
def Cur.recorded (c : Cur) (q : SReq) (bs : List Byte) (mark : Nat) : Train :=
  { c.after q keep with flash := (c.after q keep).flashback (c.moved q) bs mark, boundary := false, bounds := 0 }

theorem State.takeFbp_leaves {q : SReq} (hc : s.cur = some c) : (s.leaves c q keep keep).takeFbp bs = s.leaves c q (fun _ => c.recorded q bs (s.log c.core).tail) keep := by
  obtain ⟨hfocus, -, -⟩ := State.cur_eq hc
  have hf : (s.leaves c q keep keep).focus = { core := c.core, slot := c.slot, portion := c.p } := hfocus
  rw [State.takeFbp, State.cur_leaves hc]
  simp only [State.setCur, hf]
  simp only [State.setTrain, State.leaves, Table.put_put]
  rfl

/-- An issue leaves EXM and FMT. -/
theorem Cur.moved_exm_fmt (c : Cur) (q : SReq) : (c.moved q).exm = c.o.exm ∧ (c.moved q).fmt = c.o.fmt := by
  have hfold : ∀ b, (c.o.foldScalar b).exm = c.o.exm ∧ (c.o.foldScalar b).fmt = c.o.fmt := by
    intro b
    unfold Portion.foldScalar
    split <;> exact ⟨rfl, rfl⟩
  unfold Cur.moved
  split
  · exact ⟨rfl, rfl⟩
  · exact hfold q.op

end Sys2Proof.Machine

namespace Sys2Proof.Proofs

open Sys2Proof.Machine

/-- Settles O20: an FBP issues (`execFbp_issues`), and in an undivided train records the focus as its issue left it (`State.takeFbp_leaves`). -/
theorem flashbackPoint : Obligations.FlashbackPoint := by
  unfold Obligations.FlashbackPoint
  refine fun s c w => ⟨fun bs hr hh hwait hread => ⟨fun hok hlive hone hstack => ?records, fun hok hdivided => ?divided, fun hok => execFbp_illegal hr hh hwait hread hok⟩, fun hr hh => execFbp_handler hr hh⟩
  case records =>
    have hrec : c.records = true := by simp [Cur.records, hh, hone, hstack]
    have hexec : exec (.fbp w) s = .next (s.leaves c fbpNeeds (fun _ => c.recorded fbpNeeds bs (s.log c.core).tail) keep) := by
      rw [execFbp_issues hr hh hwait hread hok (by rw [hlive, Bool.and_false]), if_pos hrec, State.takeFbp_leaves hr.1]
    obtain ⟨hexm, hfmt⟩ := c.moved_exm_fmt fbpNeeds
    exact ⟨_, c.recorded fbpNeeds bs (s.log c.core).tail, c.moved fbpNeeds, hexec, State.train_leaves, Table.find_put_same _ _ _, rfl, rfl, rfl, hexm, hfmt, rfl, rfl, rfl, rfl, rfl, rfl, rfl, rfl,
      rfl, rfl, rfl, rfl, rfl, rfl⟩
  case divided =>
    have hrec : c.records = false := by
      rcases hdivided with hmany | hdeep
      · simp [Cur.records, hmany]
      · simp [Cur.records, hdeep]
    rw [execFbp_issues hr hh hwait hread hok (by rw [hrec, Bool.false_and]), hrec]
    exact congrArg _ (if_neg (by decide))

end Sys2Proof.Proofs
end

section
/-! ### Pre-emption: the tiers, and the save of a core (R149, R150, R153-R155) -/

set_option Elab.async false

namespace Sys2Proof.Machine

open Sys2Proof.Claims

variable {s : State} {p c : Nat}

/-! ### The tiers (R149, R154) -/

section
variable (hx : s.ev.x = p) (hstate : s.pctlState p = 3)
include hx hstate

/-- Tier 2 marks the slot's trains and saves those that can be saved. -/
theorem execTier2Start_begins (htier : (s.pslot p).tier = 1) (harea : s.csBase p ≠ 0) (hage : s.drainNs p ≤ s.stopAge p) : exec .tier2Start s =
    .next ({ s.setTier p 2 with trains := (s.setTier p 2).trains.map (fun (e : Nat × Train) =>
      (e.1, if (s.setTier p 2).slotOfTask e.2.task = p then { e.2 with draining := true } else e.2)) } : State).saveDrained := by
  subst hx
  show execTier2Start s = _
  rw [execTier2Start, if_pos ⟨hstate, htier, hage, harea⟩]

omit hstate in
/-- It does not begin before DRAINUS has passed. -/
theorem execTier2Start_early (hage : s.stopAge p < s.drainNs p) : exec .tier2Start s = .next s := by
  subst hx
  show execTier2Start s = _
  rw [execTier2Start, if_neg fun ⟨_, _, hdue, _⟩ => absurd hdue (Nat.not_le.2 hage)]

/-- Tier 3 begins when its time has come. -/
theorem execTier3Start_due (htier : (s.pslot p).tier < 3) (hage : s.drainNs p + (if s.csBase p = 0 then 0 else 20000) ≤ s.stopAge p) : exec .tier3Start s = .next (s.forceReset p) := by
  subst hx
  show execTier3Start s = _
  rw [execTier3Start, if_pos ⟨hstate, htier, hage⟩]

omit hstate in
theorem execTier3Start_early (hage : s.stopAge p < s.drainNs p) : exec .tier3Start s = .next s := by
  subst hx
  show execTier3Start s = _
  rw [execTier3Start, if_neg fun ⟨_, _, hdue⟩ => absurd (Nat.le_of_add_right_le hdue) (Nat.not_le.2 hage)]

end

/-- A write of DRAINUS and FORCE is a plain one, which leaves the event of the turn. -/
theorem State.slotWrite_drain_ev (s : State) (p : Nat) (v : W64) : (s.slotWrite p 0x390 v).ev = s.ev := by
  rw [State.slotWrite, if_neg (by decide), if_neg (by decide), if_pos rfl, State.plainWrite_ev]

/-- FORCE stores the register and, while the slot is stopping, begins tier 3 at once where its bit is set. -/
theorem execForce_eq (hx : s.ev.x = p) (hp : p ≤ 64) (ha : accepts s (slotOff p 0x390)) : exec .force s =
    .next (if s.ev.val.getLsbD 0 = true ∧ (s.slotWrite p 0x390 s.ev.val).pctlState p = 3 then (s.slotWrite p 0x390 s.ev.val).forceReset p else s.slotWrite p 0x390 s.ev.val) := by
  subst hx
  show execForce s = _
  rw [execForce, if_neg (Nat.not_lt.2 hp), State.regWrite_accepted _ ha]
  simp only [State.slotWrite_drain_ev, Bool.and_eq_true, decide_eq_true_eq]

/-! ### The save of a core (R155) -/

/-- Poison set in a run of granules changes nothing else. -/
theorem State.foldl_setPoison_frame (f : Nat → Nat) (xs : List Nat) (s : State) : ∃ x, xs.foldl (fun s o => s.setPoison (f o) true) s = { s with poison := x } := by
  refine List.foldlRecOn (motive := fun (t : State) => ∃ x, t = { s with poison := x }) _ _ ⟨s.poison, rfl⟩ ?_
  rintro t ⟨x, rfl⟩ o -
  exact ⟨_, rfl⟩

/-- The core as its save leaves it. -/
def Core.savedWith (k : Core) (pads : List (Nat × Scratch)) (kept : Table Scratch) : Core :=
  { k with
    saved := true, view := [], stash := [], stashUse := []
    aside := pads.map (fun e => (e.1, { ways := e.2.ways, stash := e.2.stash, doubled := e.2.doubled }))
    scratch := kept }

section
variable (hx : s.ev.x = c) (hslot : s.slotOfCore c = some p) (hstate : s.pctlState p = 3) (htier : 2 ≤ (s.pslot p).tier) (harea : s.csBase p ≠ 0) (hopen : (s.core c).saved = false)
  (hused : c ∈ s.usedCores p) (hgone : (s.trainsIn p).any (fun e => decide (e.1 / 32 = c)) = false)
include hx hslot hstate htier harea hopen hused hgone

/-- Once its trains are saved, a core first publishes its log. -/
theorem execCoreSave_publishes (hlog : (s.log c).recs.any (fun r => r.stamp.isNone) = true) : exec .coreSave s = .next (s.publish c) := by
  subst hx
  show execCoreSave s = _
  have hlow : ¬ (s.pslot p).tier < 2 := Nat.not_lt.2 htier
  simp only [execCoreSave, hslot, hstate, hlow, harea, hopen, List.contains_iff_mem.2 hused, hgone, hlog, ne_eq, not_true_eq_false, decide_false, Bool.not_true, Bool.or_self, Bool.false_eq_true, if_false, if_true]

/-- Then it waits for its records and for what still writes its scratchpads. -/
theorem execCoreSave_waits (hlog : (s.log c).recs.any (fun r => r.stamp.isNone) = false) (hbusy : (s.log c).settledPkg (s.log c).tail = false ∨ s.padBusy p c = true) :
    exec .coreSave s = .next s := by
  subst hx
  show execCoreSave s = _
  have hlow : ¬ (s.pslot p).tier < 2 := Nat.not_lt.2 htier
  have hwait : (!(s.log s.ev.x).settledPkg (s.log s.ev.x).tail || s.padBusy p s.ev.x) = true := by
    rcases hbusy with h | h <;> simp [h]
  simp only [execCoreSave, hslot, hstate, hlow, harea, hopen, List.contains_iff_mem.2 hused, hgone, hlog, hwait, ne_eq, not_true_eq_false, decide_false, Bool.not_true, Bool.or_self, Bool.false_eq_true, if_false, if_true]

/-- With no record left, nothing that writes its scratchpads and no byte of them to write, it is saved. -/
theorem execCoreSave_saves (hlog : (s.log c).recs = []) (hidle : s.padBusy p c = false) (hempty : padBytes (s.padsIn p c) = []) :
    ∃ u : State, u.cores = s.cores ∧ u.tasks = s.tasks ∧
      exec .coreSave s = .next (u.setCore c ((s.core c).savedWith (s.padsIn p c) ((s.core c).scratch.filter (fun e => decide (s.slotOfTask e.1 ≠ p))))) := by
  subst hx
  show ∃ u : State, u.cores = s.cores ∧ u.tasks = s.tasks ∧ execCoreSave s = _
  have hlow : ¬ (s.pslot p).tier < 2 := Nat.not_lt.2 htier
  have hpublished : (s.log s.ev.x).recs.any (fun r => r.stamp.isNone) = false := by rw [hlog, List.any_nil]
  have hsettled : (s.log s.ev.x).settledPkg (s.log s.ev.x).tail = true := by rw [Log.settledPkg, hlog, List.all_nil]
  obtain ⟨m, st, ps, hwrite⟩ := s.deviceWrite_frame (s.imageAt p s.ev.x) []
  obtain ⟨x, hpoison⟩ := State.foldl_setPoison_frame (fun o => s.imageAt p s.ev.x + o) (padBad (s.padsIn p s.ev.x)) { s with mem := m, stamps := st, posts := ps }
  refine ⟨{ s with mem := m, stamps := st, posts := ps, poison := x }, rfl, rfl, ?_⟩
  simp only [execCoreSave, hslot, hstate, hlow, harea, hopen, List.contains_iff_mem.2 hused, hgone, hpublished, hsettled, hidle, hempty, hwrite, hpoison, List.isEmpty_nil, ne_eq, not_true_eq_false,
    decide_false, Bool.not_true, Bool.false_and, Bool.or_self, Bool.false_eq_true, if_false]
  rfl

end

/-! ### The save of a train (R153-R155) -/

section
variable {key : Nat} {t : Train} (ht : Table.find s.trains key = some t) (hp : p = s.slotOfTask t.task)
include ht hp

/-- A record that fails its FOT check saves nothing. -/
theorem State.saveTrain_refused (hfot : s.fotRange p (s.recordAt p (key / 32) (key % 32)) 4096 = false) :
    s.saveTrain key = { s with trains := Table.put s.trains key { t with draining := false, rewound := true } } := by
  subst hp
  simp only [State.saveTrain, ht, hfot, Bool.not_false, if_true]

/-- A train parked on a call is saved as it stands. -/
theorem State.saveTrain_parked {u : State} (hfot : s.fotRange p (s.recordAt p (key / 32) (key % 32)) 4096 = true) (hcall : t.onCall = true)
    (hu : u = (s.detach key).deviceWrite (s.recordAt p (key / 32) (key % 32)) (t.recordBytes (((s.task t.task).map (fun k => k.id t.task)).getD 0) (key % 32))) :
    s.saveTrain key = { u with saved := Table.put u.saved key { t with draining := false } } := by
  subst hp hu
  simp only [State.saveTrain, ht, hfot, hcall, Bool.not_true, Bool.false_eq_true, if_false, if_true]

end

end Sys2Proof.Machine

namespace Sys2Proof.Proofs

open Sys2Proof.Machine Sys2Proof.Claims

/-- Settles O53: each step of the tiers and of a save by its equation, the core's save by its three stages. -/
theorem preemption : Obligations.Preemption := by
  unfold Obligations.Preemption
  refine ⟨fun s p hx hstate => ⟨?tier2, fun hage => ⟨execTier2Start_early hx hage, execTier3Start_early hx hage⟩, ?bare, ?due, ?force⟩,
    fun s c p hx hslot hstate htier harea hopen hused hgone => ⟨execCoreSave_publishes hx hslot hstate htier harea hopen hused hgone, execCoreSave_waits hx hslot hstate htier harea hopen hused hgone, ?saves⟩,
    fun s u key p t ht hp => ⟨State.saveTrain_refused ht hp, fun hfot hcall hu => State.saveTrain_parked ht hp hfot hcall hu⟩⟩
  case tier2 =>
    rintro htier harea hage u rfl
    exact execTier2Start_begins hx hstate htier harea hage
  case bare => exact fun htier harea hage => execTier3Start_due hx hstate htier (by simpa only [if_pos harea, Nat.add_zero] using hage)
  case due => exact fun htier harea hage => execTier3Start_due hx hstate htier (by simpa only [if_neg harea] using hage)
  case force =>
    rintro hp ha u rfl
    rw [execForce_eq hx hp ha]
    exact ⟨fun hbit hstop => congrArg _ (if_pos ⟨hbit, hstop⟩), fun hbit => congrArg _ (if_neg fun h => Bool.eq_false_iff.1 hbit h.1)⟩
  case saves =>
    intro hlog hidle hempty
    obtain ⟨u, hcores, htasks, hexec⟩ := execCoreSave_saves hx hslot hstate htier harea hopen hused hgone hlog hidle hempty
    refine ⟨_, hexec, ?_⟩
    rw [State.core_setCore]
    exact ⟨rfl, rfl, rfl, fun x hmem => of_decide_eq_true (List.mem_filter.1 hmem).2, htasks⟩

end Sys2Proof.Proofs
end

section
/-! ### Clauses enqueued (R169, R170, R342, R343) -/

set_option Elab.async false

namespace Sys2Proof.Machine

open Sys2Proof.Claims

/-! ### What an issue does not change of the code (R170, R190) -/

section
variable {s : State} {c : Cur} {q : SReq} {f : Train → Train} {g : Portion → Portion}

theorem State.walkFrom_leaves (id va : Nat) (pool : Bool) (l table : Nat) : (s.leaves c q f g).walkFrom id va pool l table = s.walkFrom id va pool l table := by
  induction l generalizing table with
  | zero => rfl
  | succ l ih =>
    simp only [State.walkFrom, ih]
    rfl

theorem State.walk_leaves (p va : Nat) (pool : Bool) : (s.leaves c q f g).walk p va pool = s.walk p va pool := by
  simp only [State.walk, State.walkFrom_leaves]
  rfl

theorem State.translate_leaves (core p va : Nat) (r : Right) (pool : Bool) : ((s.leaves c q f g).translate core p va r pool).1 = (s.translate core p va r pool).1 := by
  have hcore : (s.leaves c q f g).core core = s.core core := rfl
  simp only [State.translate, hcore, State.walk_leaves]
  cases (s.core core).cached p va with
  | some e => rfl
  | none => cases s.walk p va pool <;> rfl

theorem State.peekCode_leaves (core p va : Nat) : (s.leaves c q f g).peekCode core p va = s.peekCode core p va := by
  simp only [State.peekCode, State.translate_leaves]
  rfl

theorem State.peekLane_leaves (core p : Nat) (lcb : W64) (off : Nat) : (s.leaves c q f g).peekLane core p lcb off = s.peekLane core p lcb off := by
  simp only [State.peekLane, State.peekCode_leaves]

theorem State.wordUses_leaves (core p : Nat) (lcb : W64) (n off : Nat) : (s.leaves c q f g).wordUses core p lcb n off = s.wordUses core p lcb n off := by
  induction n generalizing off with
  | zero => rfl
  | succ n ih => simp only [State.wordUses, State.peekLane_leaves, ih]

theorem State.clauseUses_leaves (core p : Nat) (lcb : W64) (off : Nat) : (s.leaves c q f g).clauseUses core p lcb off = s.clauseUses core p lcb off := by
  simp only [State.clauseUses, State.peekLane_leaves, State.wordUses_leaves]

theorem State.pslot_leaves : c.pslot (s.leaves c q f g) = c.pslot s := by
  obtain ⟨n, hn⟩ := State.task_leaves (s := s) (c := c) (q := q) (f := f) (g := g) c.t.task
  simp only [Cur.pslot, State.slotOfTask, hn]
  cases s.task c.t.task <;> rfl

/-- The clause is the same before the issue that enqueues it and after. -/
theorem State.newClause_leaves (off : Nat) : (s.leaves c q f g).newClause c off = s.newClause c off := by
  simp only [State.newClause, State.pslot_leaves, State.clauseUses_leaves]

end

/-! ### CLS and CLSR (R169, R170, R342, R343) -/

section
variable {s : State} {c : Cur}

theorem State.enqueue_leaves {q : SReq} (hc : s.cur = some c) (off : Nat) :
    (s.leaves c q keep keep).modPortion (fun o => { o with clauses := o.clauses ++ [(s.leaves c q keep keep).newClause c off] }) =
      s.leaves c q keep (fun o => { o with clauses := o.clauses ++ [s.newClause c off] }) := by
  rw [State.newClause_leaves]
  exact State.leaves_keep_modPortion s c q keep _ hc

theorem execCls_enqueues {w : BitVec 24} (h : s.ready c (clsReq c 0x20 [])) :
    exec (.cls w) s = .next (s.leaves c (clsReq c 0x20 []) keep (fun o => { o with clauses := o.clauses ++ [s.newClause c w.toNat] })) := by
  show execCls w s = _
  unfold execCls
  exact (State.scalarGo_ready s c (fun c => clsReq c 0x20 []) _ _ _ h rfl rfl).trans (congrArg _ (State.enqueue_leaves h.1 _))

theorem execClsr_enqueues {a : BitVec 6} (h : s.ready c (clsReq c 0x21 [a.toNat])) (ha : (c.t.getS a.toNat).toNat < 2 ^ 24) :
    exec (.clsr a) s = .next (s.leaves c (clsReq c 0x21 [a.toNat]) keep (fun o => { o with clauses := o.clauses ++ [s.newClause c (c.t.getS a.toNat).toNat] })) := by
  show execClsr a s = _
  unfold execClsr
  exact (State.scalarGo_ready s c (fun c => clsReq c 0x21 [a.toNat]) _ _ _ h (decide_eq_false (Nat.not_le.2 ha)) rfl).trans (congrArg _ (State.enqueue_leaves h.1 _))

theorem execClsr_far {a : BitVec 6} (h : s.ready c (clsReq c 0x21 [a.toNat])) (ha : 2 ^ 24 ≤ (c.t.getS a.toNat).toNat) :
    exec (.clsr a) s = .next (s.scalarFault c fILLOP 0 false) := by
  show execClsr a s = _
  unfold execClsr
  exact State.scalarGo_ill s c (fun c => clsReq c 0x21 [a.toNat]) _ _ _ h (decide_eq_true ha)

/-- An instruction that stalls, if nothing else holds it back before, leaves the state as it is. -/
theorem State.scalarGo_waits {q : Cur → SReq} {ill : Cur → Bool} {pre : Cur → Option (Nat × Nat)} {eff : Cur → State → State} (hc : s.cur = some c) (hq : (q c).stall = .waits) :
    s.scalarGo q ill pre eff = .next s := by
  have hstalled : s.stalled c .waits = s := rfl
  simp only [State.scalarGo, hc, hq, hstalled, ne_eq, reduceCtorEq, not_false_eq_true, if_true, ite_self]

/-- With four clauses queued both wait. -/
theorem Cur.clsStall_full (h : 4 ≤ c.o.clauses.length) : c.clsStall = .waits := by
  simp only [Cur.clsStall, h, decide_true, Bool.true_or, if_true]

section
variable (hc : s.cur = some c) (hfull : 4 ≤ c.o.clauses.length)
include hc hfull

theorem execCls_full (w : BitVec 24) : exec (.cls w) s = .next s := by
  show execCls w s = _
  unfold execCls
  exact State.scalarGo_waits hc (Cur.clsStall_full hfull)

theorem execClsr_full (a : BitVec 6) : exec (.clsr a) s = .next s := by
  show execClsr a s = _
  unfold execClsr
  exact State.scalarGo_waits hc (Cur.clsStall_full hfull)

end

end

end Sys2Proof.Machine

namespace Sys2Proof.Proofs

open Sys2Proof.Machine Sys2Proof.Claims

/-- Settles O6: the enqueued clause is the one that the state before the issue gives (`State.newClause_leaves`); a full queue stalls both (`Cur.clsStall_full`). -/
theorem clauseEnqueue : Obligations.ClauseEnqueue := by
  unfold Obligations.ClauseEnqueue
  exact ⟨fun s c w h => execCls_enqueues h, fun s c a h => ⟨execClsr_enqueues h, execClsr_far h⟩, fun s c hc hfull => ⟨execCls_full hc hfull, execClsr_full hc hfull⟩⟩

end Sys2Proof.Proofs
end

section
/-! ### Division, loops and breaks (R172, R173, R335, R337, R346) -/

set_option Elab.async false

namespace Sys2Proof.Machine

open Sys2Proof.Claims

section
variable {s : State} {c : Cur}

/-- A scalar instruction that is ready, meets no fault of its own and changes its own train alone. -/
theorem State.scalarGo_changes {q : Cur → SReq} {ill : Cur → Bool} {pre : Cur → Option (Nat × Nat)} {h : Cur → Train → Train} (hr : s.ready c (q c)) (hi : ill c = false) (hp : pre c = none) :
    s.scalarGo q ill pre (fun c s => s.modCur (h c)) = .next (s.leaves c (q c) (h c) keep) :=
  (State.scalarGo_ready s c q ill pre _ hr hi hp).trans (congrArg _ (State.leaves_modCur s c (q c) keep (h c) keep hr.1))

theorem Cur.stackFull_eq_true (h : 16 ≤ c.o.stack.length) : c.stackFull = true := decide_eq_true h
theorem Cur.stackFull_eq_false (h : c.o.stack.length < 16) : c.stackFull = false := decide_eq_false (Nat.not_le.2 h)

end

/-! ### Reconvergence entries and paths (R172) -/

section
variable {t : Train} {p q : Nat} {o : Portion} {e : REntry}

theorem Train.find_pushEntry : Table.find (t.pushEntry p e).entries t.nextEntry = some e := Table.find_put_same _ _ _

theorem Train.portion_pushEntry (ho : t.portion p = some o) : (t.pushEntry p e).portion p = some { o with stack := t.nextEntry :: o.stack } :=
  (Table.find_modify_same _ _ _).trans (congrArg _ ho)

theorem Train.portion_pushEntry_other (hq : q ≠ p) : (t.pushEntry p e).portion q = t.portion q := Table.find_modify_other _ _ _ _ hq

theorem Train.freePortion_pushEntry : (t.pushEntry p e).freePortion = t.freePortion := by
  have hnone : ∀ i, ((t.pushEntry p e).portion i).isNone = (t.portion i).isNone := by
    intro i
    by_cases hi : i = p
    · subst hi
      simp only [Train.portion, Train.pushEntry, Table.find_modify_same, Option.isNone_map]
    · rw [Train.portion_pushEntry_other hi]
  simp only [Train.freePortion, hnone]

/-- The free portion is none of the train's. -/
theorem Train.portion_of_freePortion (h : t.freePortion = some q) : t.portion q = none := Option.isNone_iff_eq_none.1 (List.find?_some (p := fun i => (t.portion i).isNone) h)

/-- The new portion of one more path of an entry (R172, R346). -/
def Portion.taker (o : Portion) (pc : W64) (m : W32) : Portion := { (o.path pc m) with clauses := [], wait := .none, lwait := .none, again := .no, atJunc := false }

theorem Train.addPath_free {id : Nat} {ids : List Nat} (ho : t.portion p = some o) (hstack : o.stack = id :: ids) (hq : t.freePortion = some q) (pc : W64) (m : W32) :
    t.addPath p pc m = { t with portions := Table.put t.portions q (o.taker pc m), entries := Table.modify t.entries id (fun e => { e with members := e.members ++ [q] }) } := by
  simp only [Train.addPath, ho, hstack, hq]
  rfl

/-- The entry of a division of the live lanes (R172). -/
def Train.division (t : Train) (p : Nat) (o : Portion) : REntry := { kind := .divg, m := live o.exm t.deadm, fmt := o.fmt, sig := o.sig, owner := p, members := [p] }

/-- A division that some live lanes take and some do not, with a portion free. -/
theorem Train.divide_splits {taken : W32} (ho : t.portion p = some o) (hq : t.freePortion = some q) (htaken : taken ≠ 0) (hrest : live o.exm t.deadm &&& ~~~ taken ≠ 0) (target : W64) :
    t.divide p taken target = { (t.pushEntry p (t.division p o)).addPath p target taken with
      portions := Table.modify ((t.pushEntry p (t.division p o)).addPath p target taken).portions p (fun o' => o'.path o'.pc (live o.exm t.deadm &&& ~~~ taken)) } := by
  have hfree : (t.pushEntry p (t.division p o)).freePortion.isSome = true := by rw [Train.freePortion_pushEntry, hq, Option.isSome_some]
  simp only [Train.division] at hfree ⊢
  simp only [Train.divide, ho, hrest, htaken, hfree, if_false, if_true]

end

/-- The lanes that take a branch and those left make up all the lanes, with none in both. -/
theorem lanes_split {l taken : W32} (h : taken &&& l = taken) : (l &&& ~~~ taken) ||| taken = l ∧ (l &&& ~~~ taken) &&& taken = 0 := by
  have hbit : ∀ i (hi : i < 32), taken[i] = true → l[i] = true := by
    intro i hi ht
    have hsame := congrArg (fun x : W32 => x[i]) h
    simpa [ht] using hsame
  constructor <;> refine BitVec.eq_of_getElem_eq fun i hi => ?_
  · cases ht : taken[i]
    · simp [ht]
    · simp [ht, hbit i hi ht]
  · cases ht : taken[i] <;> simp [ht]

/-! ### DIVG, DIVG.loop and BRKL (R172, R173, R335, R337) -/

section
variable {s : State} {c : Cur}

theorem execDivg_divides {k : BitVec 4} {i : BitVec 1} {o : BitVec 20} (hr : s.ready c { ctlReq 0x1D [k.toNat] with exm := true }) (hroom : c.o.stack.length < 16) :
    exec (.divg k i o) s = .next (s.leaves c { ctlReq 0x1D [k.toNat] with exm := true } (fun t => t.divide c.p (condLanes c k i) (c.o.pc + 4 * o.signExtend 64)) keep) := by
  show execDivg k i o s = _
  unfold execDivg
  exact State.scalarGo_changes (q := fun _ => { ctlReq 0x1D [k.toNat] with exm := true }) hr (Cur.stackFull_eq_false hroom) rfl

theorem execDivg_full {k : BitVec 4} {i : BitVec 1} {o : BitVec 20} (hr : s.ready c { ctlReq 0x1D [k.toNat] with exm := true }) (hfull : 16 ≤ c.o.stack.length) :
    exec (.divg k i o) s = .next (s.scalarFault c fILLOP 0 false) := by
  show execDivg k i o s = _
  unfold execDivg
  exact State.scalarGo_ill s c (fun _ => { ctlReq 0x1D [k.toNat] with exm := true }) _ _ _ hr (Cur.stackFull_eq_true hfull)

theorem execDivgLoop_full {o : BitVec 20} (hr : s.ready c { ctlReq 0x1D [] with exm := true }) (hfull : 16 ≤ c.o.stack.length) :
    exec (.divgLoop o) s = .next (s.scalarFault c fILLOP 0 false) := by
  show execDivgLoop o s = _
  unfold execDivgLoop
  exact State.scalarGo_ill s c (fun _ => { ctlReq 0x1D [] with exm := true }) _ _ _ hr (Cur.stackFull_eq_true hfull)

/-- The entry of a loop that the focus enters (R173). -/
def Cur.loopEntry (c : Cur) (sig : W32) (exit : W64) : REntry :=
  { kind := .loop, m := live c.o.exm c.t.deadm, fmt := c.o.fmt, sig := sig, exit := exit, owner := c.p, members := [c.p] }

/-- The train in a loop: the entry pushed, EXM and PM the live lanes. -/
def Cur.inLoop (c : Cur) (exit : W64) (t : Train) : Train :=
  let t := t.pushEntry c.p (c.loopEntry (((t.portion c.p).map Portion.sig).getD 0) exit)
  { t with portions := Table.modify t.portions c.p (fun o => { o with exm := live c.o.exm c.t.deadm, pm := live c.o.exm c.t.deadm }) }

theorem execDivgLoop_enters {o : BitVec 20} (hr : s.ready c { ctlReq 0x1D [] with exm := true }) (hroom : c.o.stack.length < 16) :
    exec (.divgLoop o) s = .next (s.leaves c { ctlReq 0x1D [] with exm := true } (c.inLoop (relTarget c.o.pc o)) keep) := by
  show execDivgLoop o s = _
  unfold execDivgLoop
  exact State.scalarGo_changes (q := fun _ => { ctlReq 0x1D [] with exm := true }) (h := fun c => c.inLoop (relTarget c.o.pc o)) hr (Cur.stackFull_eq_false hroom) rfl

theorem Cur.portion_inLoop {t : Train} {o : Portion} (exit : W64) (ho : t.portion c.p = some o) :
    (c.inLoop exit t).portion c.p = some { o with stack := t.nextEntry :: o.stack, exm := live c.o.exm c.t.deadm, pm := live c.o.exm c.t.deadm } :=
  (Table.find_modify_same _ _ _).trans (congrArg _ (Train.portion_pushEntry ho))

theorem Cur.find_inLoop {t : Train} {o : Portion} (exit : W64) (ho : t.portion c.p = some o) : Table.find (c.inLoop exit t).entries t.nextEntry = some (c.loopEntry o.sig exit) := by
  have hsig : ((t.portion c.p).map Portion.sig).getD 0 = o.sig := by rw [ho]; rfl
  rw [← hsig]
  exact Train.find_pushEntry (p := c.p)

theorem execBrkl_breaks {k : BitVec 4} {i : BitVec 1} (hr : s.ready c { op := 0x1F, kregs := [k.toNat], exm := true }) :
    exec (.brkl k i) s = .next (s.leaves c { op := 0x1F, kregs := [k.toNat], exm := true } (fun t => t.breakLanes c.p (condLanes c k i)) keep) := by
  show execBrkl k i s = _
  unfold execBrkl
  exact State.scalarGo_changes (q := fun _ => { op := 0x1F, kregs := [k.toNat], exm := true }) hr rfl rfl

/-- An issue keeps the portion's stack. -/
theorem Cur.moved_stack (c : Cur) (q : SReq) : (c.moved q).stack = c.o.stack := by
  have hfold : ∀ b, (c.o.foldScalar b).stack = c.o.stack := by
    intro b
    unfold Portion.foldScalar
    split <;> rfl
  unfold Cur.moved
  split
  · rfl
  · exact hfold q.op

end

end Sys2Proof.Machine

namespace Sys2Proof.Proofs

open Sys2Proof.Machine Sys2Proof.Claims

/-- Settles O7: each instruction by the change of its train; a division with a portion free by `Train.divide_splits`, in which the new path is added by `Train.addPath_free`. -/
theorem divisionAndLoops : Obligations.DivisionAndLoops := by
  unfold Obligations.DivisionAndLoops
  refine ⟨⟨fun s c k i o hr => ⟨execDivg_divides hr, execDivg_full hr⟩, fun s c o hr => ⟨execDivgLoop_full hr, fun hroom => ?loop⟩, fun s c k i hr => execBrkl_breaks hr⟩, ?splits⟩
  case loop =>
    have ho : (c.after { ctlReq 0x1D [] with exm := true } keep).portion c.p = some (c.moved { ctlReq 0x1D [] with exm := true }) := Table.find_put_same _ _ _
    exact ⟨_, _, _, _, execDivgLoop_enters hr hroom, State.train_leaves, Cur.portion_inLoop _ ho, rfl, rfl, rfl, congrArg _ (c.moved_stack _), Cur.find_inLoop _ ho, rfl, rfl, rfl, rfl, rfl, rfl, rfl, rfl, rfl⟩
  case splits =>
    intro t p q o taken target ho hq hsub htaken hrest
    have hqp : q ≠ p := fun h => by simp [← h, Train.portion_of_freePortion hq] at ho
    have hpushed := Train.portion_pushEntry (e := t.division p o) ho
    have hadd := Train.addPath_free hpushed rfl (Train.freePortion_pushEntry.trans hq) target taken
    rw [Train.divide_splits ho hq htaken hrest target, hadd]
    obtain ⟨hunion, hdisjoint⟩ := lanes_split hsub
    refine ⟨_, Portion.taker { o with stack := t.nextEntry :: o.stack } target taken, { t.division p o with members := [p, q] }, ?rest, ?taker, ?entry, rfl, rfl, rfl, rfl, rfl, rfl, rfl, rfl, rfl, rfl, rfl, rfl, rfl, rfl, rfl, hunion, hdisjoint⟩
    case rest => exact (Table.find_modify_same _ _ _).trans (congrArg _ ((Table.find_put_other _ _ _ _ (Ne.symm hqp)).trans hpushed))
    case taker => exact (Table.find_modify_other _ _ _ _ hqp).trans (Table.find_put_same _ _ _)
    case entry => exact (Table.find_modify_same _ _ _).trans (congrArg _ Train.find_pushEntry)

end Sys2Proof.Proofs
end

section
/-! ### Junctions and per-lane calls (R174, R176, R339, R340) -/

set_option Elab.async false

namespace Sys2Proof.Machine

open Sys2Proof.Claims

/-! ### The coupling of an entry's paths (R174, R176) -/

/-- A table of which the entries that fail a test are removed, at a key whose entries all pass it. -/
theorem Table.find_filter_kept {α : Type} {m : Table α} {key : Nat} {test : Nat × α → Bool} (h : ∀ v, test (key, v) = true) : Table.find (m.filter test) key = Table.find m key := by
  induction m with
  | nil => rfl
  | cons e m ih =>
    obtain ⟨k, v⟩ := e
    by_cases hk : k = key
    · subst hk
      simp [h, Table.find]
    · rw [List.filter_cons]
      split <;> simp [Table.find, hk, ih]

section
variable {t : Train} {p id : Nat} {o : Portion} {e : REntry} {pc : W64} {ids : List Nat}

/-- An entry once its last path, with none deferred, has arrived at `pc` with the lanes `m` (R174). -/
def REntry.reached (e : REntry) (pc : W64) (m : W32) : REntry :=
  { e with junc := some (e.junc.getD pc), wrong := e.wrong || decide (e.junc.getD pc ≠ pc), arrived := e.arrived ||| m, deferred := [], members := [] }

/-- Where the coupled portion goes on: after the junction, or at that of a CALLV entry (R174, R340). -/
def REntry.resumes (e : REntry) (pc : W64) : W64 := if e.kind = .callv then e.junc.getD pc else e.junc.getD pc + 4

/-- The lanes of an entry that has coupled, and whether every lane of the division that no outer loop has taken is back and no path arrived elsewhere. -/
def Train.coupled (t : Train) (e : REntry) : W32 := (e.arrived ||| e.broken) &&& ~~~ t.deadm
def Train.passes (t : Train) (e : REntry) : Bool := decide (t.coupled e = e.m &&& ~~~ t.deadm &&& ~~~ e.x) && !e.wrong

theorem Train.passes_reached : t.passes (e.reached pc o.exm) = true ↔
    (e.arrived ||| o.exm ||| e.broken) &&& ~~~ t.deadm = e.m &&& ~~~ t.deadm &&& ~~~ e.x ∧ e.wrong = false ∧ e.junc.getD pc = pc := by
  simp [Train.passes, Train.coupled, REntry.reached]

theorem Train.portion_couple {resume : W64} (ho : t.portion e.owner = some o) : (t.couple id e resume).portion e.owner =
    some { o.path resume (t.coupled e) with fmt := e.fmt, sig := sigFold e.sig (if t.passes e then 0x5A else 0xA5), stack := o.stack.drop 1, atJunc := false } := by
  refine (Table.find_modify_same _ _ _).trans ?_
  rw [Table.find_filter_kept (fun o => by simp)]
  exact congrArg _ ho

section
variable (ho : t.portion p = some o) (hstack : o.stack = id :: ids) (he : Table.find t.entries id = some e) (hdef : e.deferred = []) (hmem : e.members = [p])
include ho hstack he hdef hmem

/-- The last arrival at an entry couples its paths (R174 step 4). -/
theorem Train.arrive_last : t.arrive p pc = { t with entries := Table.put t.entries id (e.reached pc o.exm) }.couple id (e.reached pc o.exm) (e.resumes pc) := by
  have hgone : [p].filter (fun x => decide (x ≠ p)) = [] := by simp
  simp only [Train.arrive, ho, hstack, he, hdef, hmem, hgone, List.isEmpty_nil, Bool.not_true, Bool.false_eq_true, if_false]
  rfl

/-- The dividing portion goes on with the lanes of the coupled paths. -/
theorem Train.portion_arrive_last (howner : e.owner = p) : (t.arrive p pc).portion p =
    some { o.path (e.resumes pc) (t.coupled (e.reached pc o.exm)) with fmt := e.fmt, sig := sigFold e.sig (if t.passes (e.reached pc o.exm) then 0x5A else 0xA5), stack := ids, atJunc := false } := by
  subst howner
  rw [Train.arrive_last ho hstack he hdef hmem]
  refine (Train.portion_couple (e := e.reached pc o.exm) ho).trans ?_
  rw [hstack]
  rfl

theorem Train.lineage_arrive_last : (t.arrive p pc).lineage = (t.lineage || !t.passes (e.reached pc o.exm)) := by
  rw [Train.arrive_last ho hstack he hdef hmem]
  rfl

theorem Train.find_arrive_last (hs : Table.sorted t.entries = true) : Table.find (t.arrive p pc).entries id = none := by
  rw [Train.arrive_last ho hstack he hdef hmem]
  exact Table.find_drop_same _ _ (Table.risesFrom_put _ _ hs (Nat.zero_le _))

end

end

/-! ### JUNC and RET S0 (R174, R340) -/

section
variable {s : State} {c : Cur}

theorem execJunc_arrives (hr : s.ready c (ctlReq 0x1E [])) : exec .junc s = .next (s.leaves c (ctlReq 0x1E []) (fun t => t.arrive c.p c.o.pc) keep) := by
  show execJunc s = _
  unfold execJunc
  exact State.scalarGo_changes (q := fun _ => ctlReq 0x1E []) hr rfl rfl

section
variable (hr : s.ready c (ctlReq 0x1C []))
include hr

theorem execRetS0_arrives {e : REntry} {j : W64} (htop : c.top = some e) (hkind : e.kind = .callv) (hj : e.junc = some j) :
    exec .retS0 s = .next (s.leaves c (ctlReq 0x1C []) (fun t => t.arrive c.p j) keep) := by
  have hjunc : (c.top.bind REntry.junc).getD 0 = j := by rw [htop, Option.bind_some, hj, Option.getD_some]
  show execRetS0 s = _
  unfold execRetS0
  rw [← hjunc]
  refine State.scalarGo_changes (q := fun _ => ctlReq 0x1C []) (h := fun c t => t.arrive c.p ((c.top.bind REntry.junc).getD 0)) hr ?_ rfl
  simp [htop, hkind]

theorem execRetS0_bare (htop : c.top = none) : exec .retS0 s = .next (s.scalarFault c fILLOP 0 false) := by
  show execRetS0 s = _
  unfold execRetS0
  exact State.scalarGo_ill s c (fun _ => ctlReq 0x1C []) _ _ _ hr (by simp only [htop])

theorem execRetS0_other {e : REntry} (htop : c.top = some e) (hkind : e.kind ≠ .callv) : exec .retS0 s = .next (s.scalarFault c fILLOP 0 false) := by
  show execRetS0 s = _
  unfold execRetS0
  exact State.scalarGo_ill s c (fun _ => ctlReq 0x1C []) _ _ _ hr (by simp [htop, hkind])

end

end

/-! ### The fault of lowest code -/

/-- The lower in code of a fault found so far and the next. -/
def lowerFault (b : Option (Nat × Nat)) (f : Nat × Nat) : Option (Nat × Nat) := match b with
  | none => some f
  | some g => if f.1 < g.1 then some f else some g

theorem lowestFault_eq_foldl (fs : List (Nat × Nat)) : lowestFault fs = fs.foldl lowerFault none := rfl

theorem foldl_lowerFault (g : Nat × Nat) (fs : List (Nat × Nat)) : ∃ h, fs.foldl lowerFault (some g) = some h ∧ h ∈ g :: fs ∧ ∀ f ∈ g :: fs, h.1 ≤ f.1 := by
  induction fs generalizing g with
  | nil => exact ⟨g, rfl, List.mem_cons_self, fun f hf => by rw [List.mem_singleton.1 hf]⟩
  | cons x xs ih =>
    by_cases hlt : x.1 < g.1
    · obtain ⟨h, hfold, hmem, hlow⟩ := ih x
      refine ⟨h, by rwa [List.foldl_cons, lowerFault, if_pos hlt], List.mem_cons_of_mem _ hmem, fun f hf => ?_⟩
      rcases List.mem_cons.1 hf with rfl | hf
      · exact (hlow x List.mem_cons_self).trans hlt.le
      · exact hlow f hf
    · obtain ⟨h, hfold, hmem, hlow⟩ := ih g
      refine ⟨h, by rwa [List.foldl_cons, lowerFault, if_neg hlt], ?_, fun f hf => ?_⟩
      · rcases List.mem_cons.1 hmem with rfl | hmem
        · exact List.mem_cons_self
        · exact List.mem_cons_of_mem _ (List.mem_cons_of_mem _ hmem)
      · rcases List.mem_cons.1 hf with rfl | hf
        · exact hlow f List.mem_cons_self
        · rcases List.mem_cons.1 hf with rfl | hf
          · exact (hlow g List.mem_cons_self).trans (Nat.not_lt.1 hlt)
          · exact hlow f (List.mem_cons_of_mem _ hf)

theorem lowestFault_low {fs : List (Nat × Nat)} {f : Nat × Nat} (hf : f ∈ fs) : ∃ h, lowestFault fs = some h ∧ h ∈ fs ∧ h.1 ≤ f.1 := by
  cases fs with
  | nil => exact absurd hf List.not_mem_nil
  | cons g gs =>
    obtain ⟨h, hfold, hmem, hlow⟩ := foldl_lowerFault g gs
    exact ⟨h, hfold, hmem, hlow f hf⟩

/-! ### CALLV (R339) -/

/-- What CALLV finds ill-formed before it looks at its targets. -/
def Cur.callIll (c : Cur) (v : BitVec 8) : Bool :=
  decide (v.toNat % 2 ≠ 0) || decide (budgetRegs c.t.budget ≤ v.toNat + 1) || (c.stackFull && decide (live c.o.exm c.t.deadm ≠ 0))

theorem Cur.callIll_iff {c : Cur} {v : BitVec 8} :
    c.callIll v = true ↔ v.toNat % 2 = 1 ∨ 32 + 16 * c.t.budget ≤ v.toNat + 1 ∨ (16 ≤ c.o.stack.length ∧ c.o.exm &&& ~~~ c.t.deadm ≠ 0) := by
  simp only [Cur.callIll, Cur.stackFull, Bool.or_eq_true, Bool.and_eq_true, decide_eq_true_eq, Nat.mod_two_ne_zero, or_assoc]
  rfl

section
variable {s : State} {c : Cur} {v : BitVec 8} (hr : s.ready c (callvReq s c v))
include hr

theorem execCallv_ill (hi : c.callIll v = true) : exec (.callv v) s = .next (s.scalarFault c fILLOP 0 false) := by
  show execCallv v s = _
  unfold execCallv
  exact State.scalarGo_ill s c (fun c => callvReq s c v) _ _ _ hr hi

theorem execCallv_divides (hi : c.callIll v = false) (htargets : ∀ x ∈ callTargets c v, s.targetFault c x = none) :
    exec (.callv v) s = .next (s.leaves c (callvReq s c v) (fun t => t.callPaths c v.toNat (callTargets c v)) keep) := by
  have hnone : (c.targets v.toNat).filterMap (fun t => s.targetFault c t) = [] := List.filterMap_eq_nil_iff.2 htargets
  show execCallv v s = _
  unfold execCallv
  exact State.scalarGo_changes (q := fun c => callvReq s c v) (h := fun c t => t.callPaths c v.toNat (c.targets v.toNat)) hr hi (by rw [hnone]; rfl)

theorem execCallv_faults (hi : c.callIll v = false) {x : Nat} {f : Nat × Nat} (hx : x ∈ callTargets c v) (hf : s.targetFault c x = some f) :
    ∃ g y, y ∈ callTargets c v ∧ s.targetFault c y = some g ∧ g.1 ≤ f.1 ∧ exec (.callv v) s = .next (s.scalarFault c g.1 g.2 false) := by
  obtain ⟨g, hlowest, hg, hle⟩ := lowestFault_low (List.mem_filterMap.2 ⟨x, hx, hf⟩)
  obtain ⟨y, hy, hyg⟩ := List.mem_filterMap.1 hg
  refine ⟨g, y, hy, hyg, hle, ?_⟩
  show execCallv v s = _
  unfold execCallv
  exact State.scalarGo_fault s c (fun c => callvReq s c v) _ _ _ g hr hi hlowest

end

end Sys2Proof.Machine

namespace Sys2Proof.Proofs

open Sys2Proof.Machine Sys2Proof.Claims

/-- Settles O8: the last arrival couples the paths (`Train.arrive_last`, `Train.portion_couple`); JUNC and RET S0 arrive; CALLV by its checks and by the lowest fault of its targets (`lowestFault_low`). -/
theorem junctionsAndCallv : Obligations.JunctionsAndCallv := by
  unfold Obligations.JunctionsAndCallv
  refine ⟨?couples, fun s c hr => execJunc_arrives hr, fun s c hr => ⟨fun e j => execRetS0_arrives hr, execRetS0_bare hr, fun e => execRetS0_other hr⟩,
    fun s c v hr => ⟨fun h => execCallv_ill hr (Cur.callIll_iff.2 h), fun heven hregs hroom => ?callv⟩⟩
  case couples =>
    intro t p id o e pc ids ho hstack he hdef hmem howner hs
    refine ⟨_, Train.portion_arrive_last ho hstack he hdef hmem howner, Train.find_arrive_last ho hstack he hdef hmem hs, rfl, rfl, rfl, rfl, rfl, fun h => ?pass, fun h => ?fail⟩
    all_goals rw [Train.lineage_arrive_last ho hstack he hdef hmem]
    case pass => simp [Train.passes_reached.2 h]
    case fail => simp [Bool.eq_false_iff.2 (mt Train.passes_reached.1 h)]
  case callv =>
    have hi : c.callIll v = false := Bool.eq_false_iff.2 fun h => by
      rcases Cur.callIll_iff.1 h with h | h | ⟨hfull, hlive⟩
      · omega
      · omega
      · exact hroom.elim (fun hroom => by omega) hlive
    exact ⟨execCallv_divides hr hi, fun x f => execCallv_faults hr hi⟩

end Sys2Proof.Proofs
end

section
/-! ### Results written in lanes (R170, R251, R356) -/

set_option Elab.async false

namespace Sys2Proof.Machine

/-! ### Words written in one lane -/

section
variable {t : Train} {r l r' l' : Nat} {ws : List W32}

theorem Train.setVs_frame (t : Train) (r l : Nat) (ws : List W32) : ∃ v, t.setVs r l ws = { t with v := v } := by
  induction ws generalizing t r with
  | nil => exact ⟨t.v, rfl⟩
  | cons w ws ih => exact ih (t.setV r l w) (r + 1)

theorem Train.sorted_setVs (ht : Table.sorted t.v = true) : Table.sorted (t.setVs r l ws).v = true := by
  induction ws generalizing t r with
  | nil => exact ht
  | cons w ws ih => exact ih (Sparse.sorted_set _ _ _ _ ht)

/-- Another lane, and a register outside the written ones, keep their words. -/
theorem Train.getV_setVs_other (hl : l < 32) (hl' : l' < 32) (h : l' ≠ l ∨ r' < r ∨ r + ws.length ≤ r') : (t.setVs r l ws).getV r' l' = t.getV r' l' := by
  induction ws generalizing t r with
  | nil => rfl
  | cons w ws ih =>
    rw [List.length_cons] at h
    rw [Train.setVs, ih (by omega)]
    exact Train.getV_setV_other _ _ _ _ _ _ (by omega)

theorem Train.getV_setVs_same (ht : Table.sorted t.v = true) (hl : l < 32) {i : Nat} {w : W32} (hw : ws[i]? = some w) : (t.setVs r l ws).getV (r + i) l = w := by
  induction ws generalizing t r i with
  | nil => simp at hw
  | cons w₀ ws ih =>
    rw [Train.setVs]
    cases i with
    | zero =>
      rw [Train.getV_setVs_other hl hl (by omega), Nat.add_zero, Train.getV_setV _ _ _ _ ht]
      simpa using hw
    | succ i =>
      rw [← Nat.add_assoc, Nat.add_right_comm]
      exact ih (Sparse.sorted_set _ _ _ _ ht) (by simpa using hw)

end

/-! ### Words written in several lanes (R170, R251) -/

section
variable {t : Train} {d r l : Nat} {words : Nat → List W32} {ls : List Nat}

theorem Train.writeLanes_frame (t : Train) (d : Nat) (rs : List (Nat × List W32)) : ∃ v, t.writeLanes d rs = { t with v := v } := by
  induction rs generalizing t with
  | nil => exact ⟨t.v, rfl⟩
  | cons e rs ih =>
    obtain ⟨v, hfirst⟩ := t.setVs_frame d e.1 e.2
    obtain ⟨v', hrest⟩ := ih (t.setVs d e.1 e.2)
    exact ⟨v', by rw [hfirst] at hrest; exact (congrArg (Train.writeLanes · d rs) hfirst).trans hrest⟩

/-- A lane that is not among the written ones, and a register outside the written ones, keep their words. -/
theorem Train.getV_writeLanes_other (hls : ∀ k ∈ ls, k < 32) (hl : l < 32) (h : l ∉ ls ∨ r < d ∨ d + (words l).length ≤ r) :
    (t.writeLanes d (ls.map (fun k => (k, words k)))).getV r l = t.getV r l := by
  induction ls generalizing t with
  | nil => rfl
  | cons k ls ih =>
    have hk : l ≠ k ∨ r < d ∨ d + (words k).length ≤ r := by
      by_cases hlk : l = k
      · subst hlk
        exact .inr (h.resolve_left (fun hnot => hnot List.mem_cons_self))
      · exact .inl hlk
    refine Eq.trans (ih (fun j hj => hls j (List.mem_cons_of_mem _ hj)) (h.imp_left (mt (List.mem_cons_of_mem _)))) ?_
    exact Train.getV_setVs_other (hls k List.mem_cons_self) hl hk

/-- Each written lane holds its words. -/
theorem Train.getV_writeLanes_same (ht : Table.sorted t.v = true) (hls : ∀ k ∈ ls, k < 32) (hdistinct : ls.Nodup) (hl : l ∈ ls) {i : Nat} {w : W32} (hw : (words l)[i]? = some w) :
    (t.writeLanes d (ls.map (fun k => (k, words k)))).getV (d + i) l = w := by
  induction ls generalizing t with
  | nil => exact absurd hl List.not_mem_nil
  | cons k ls ih =>
    obtain ⟨hk, hdistinct⟩ := List.nodup_cons.1 hdistinct
    have hrest : ∀ j ∈ ls, j < 32 := fun j hj => hls j (List.mem_cons_of_mem _ hj)
    rcases List.mem_cons.1 hl with rfl | hl
    · have hl32 : l < 32 := hls l List.mem_cons_self
      exact (Train.getV_writeLanes_other hrest hl32 (.inl hk)).trans (Train.getV_setVs_same ht hl32 hw)
    · exact ih (Train.sorted_setVs ht) hrest hdistinct hl

end

theorem mem_lanesOf {m : W32} {l : Nat} : l ∈ lanesOf m ↔ l < 32 ∧ m.getLsbD l = true := by simp [lanesOf]

theorem nodup_lanesOf (m : W32) : (lanesOf m).Nodup := List.nodup_range.filter _

end Sys2Proof.Machine

namespace Sys2Proof.Proofs

open Sys2Proof.Machine Sys2Proof.Claims

/-- Settles O30: a typed result is a write of its words in the live active lanes (`Train.getV_writeLanes_same`, `Train.getV_writeLanes_other`), which changes the lane registers alone (`Train.writeLanes_frame`). -/
theorem laneWriteFrame : Obligations.LaneWriteFrame := by
  unfold Obligations.LaneWriteFrame
  intro x d typ f t ht
  have hlanes : ∀ k ∈ lanesOf x.act, k < 32 := fun k hk => (mem_lanesOf.1 hk).1
  refine ⟨fun l hl hact i w hw => ?written, fun r l hl hout => ?others, ?frame⟩
  case written => exact Train.getV_writeLanes_same (words := fun k => resultWords typ (f k).1) ht hlanes (nodup_lanesOf _) (mem_lanesOf.2 ⟨hl, hact⟩) hw
  case others =>
    refine Train.getV_writeLanes_other (words := fun k => resultWords typ (f k).1) hlanes hl (hout.imp_left fun hidle hl => ?_)
    exact Bool.eq_false_iff.1 hidle (mem_lanesOf.1 hl).2
  case frame =>
    obtain ⟨v, hv⟩ := t.writeLanes_frame d ((lanesOf x.act).map (fun l => (l, resultWords typ (f l).1)))
    rw [typed, hv]
    refine ⟨rfl, rfl, rfl, rfl, rfl, ?_⟩
    refine BitVec.eq_of_getElem_eq fun i hi => ?_
    rw [BitVec.getElem_and]
    cases hflag : t.xflags[i] <;> simp [Train.flagUp, hflag]

end Sys2Proof.Proofs
end

section
/-! ### Accesses to the scratchpad (R171, R186, R187, R195, R401, R406) -/

set_option Elab.async false

namespace Sys2Proof.Machine

open Sys2Proof.Claims

/-! ### One element formed (R186, R187) -/

section
variable {r : BitVec 256} {e n size : Nat} {i : Int}

theorem rExtent_lt (r : BitVec 256) : rExtent r < 2 ^ 32 := Nat.mod_lt _ (by decide)

theorem boundOf_inside (h0 : 0 ≤ i) (hi : i < rExtent r) : boundOf r i = .at i.toNat := if_pos (And.intro h0 hi)

/-- Within EXTENT the index is itself modulo 2^64. -/
theorem elemAddr_inside (hi : i < rExtent r) : elemAddr r (i.toNat : Int) = (((rBase r : Int) + swz (rSwz r) i.toNat * rStride r) % 2 ^ 64).toNat := by
  have hextent := rExtent_lt r
  have hindex : ((i.toNat : Int) % 2 ^ 64).toNat = i.toNat := by omega
  rw [elemAddr, hindex]

/-- What the checks of R187 make of an address. -/
def judgeAddr (r : BitVec 256) (e n size a : Nat) : Except (Nat × Nat) (Option Nat) :=
  if a % e ≠ 0 then .error (fADDRRANGE, a % 2 ^ 57)
  else if rKind r = 1 then (if a + n ≤ size then .ok (some a) else .error (fADDRRANGE, a % 2 ^ 57))
  else if canonical a then .ok (some a) else .error (fADDRRANGE, a % 2 ^ 57)

theorem formElem_at {k : Nat} (h : boundOf r i = .at k) : formElem r e n size i = judgeAddr r e n size (elemAddr r k) := by
  simp only [formElem, h]
  rfl

theorem formElem_inside (h0 : 0 ≤ i) (hi : i < rExtent r) : formElem r e n size i = judgeAddr r e n size (((rBase r : Int) + swz (rSwz r) i.toNat * rStride r) % 2 ^ 64).toNat := by
  rw [formElem_at (boundOf_inside h0 hi), elemAddr_inside hi]

theorem formElem_dropped (h : boundOf r i = .dropped) : formElem r e n size i = .ok none := by
  simp only [formElem, h]

theorem formElem_fault (h : boundOf r i = .fault) : formElem r e n size i = .error (fOOB, elemAddr r i % 2 ^ 57) := by
  simp only [formElem, h]

section
variable (hout : i < 0 ∨ (rExtent r : Int) ≤ i)
include hout

theorem not_inside : ¬ (0 ≤ i ∧ i < rExtent r) := by omega

theorem boundOf_drops (h : rOob r = 0 ∨ rOob r = 2 ∧ rExtent r = 0) : boundOf r i = .dropped := by
  rw [boundOf, if_neg (not_inside hout), if_neg (by omega), if_neg (by omega)]

theorem boundOf_faults (h : rOob r = 1) : boundOf r i = .fault := by
  rw [boundOf, if_neg (not_inside hout), if_pos h]

/-- The clamped index is the first or the last within EXTENT. -/
theorem formElem_clamps (h : rOob r = 2) (hextent : rExtent r ≠ 0) : formElem r e n size i = formElem r e n size (if i < 0 then 0 else (rExtent r : Int) - 1) := by
  have hbound : boundOf r i = .at (if i < 0 then 0 else rExtent r - 1) := by
    rw [boundOf, if_neg (not_inside hout), if_neg (by omega), if_pos ⟨h, hextent⟩]
  have hclamped : boundOf r (if i < 0 then 0 else (rExtent r : Int) - 1) = .at (if i < 0 then 0 else rExtent r - 1) := by
    rw [boundOf_inside (by split <;> omega) (by split <;> omega)]
    refine congrArg Bound.at ?_
    split <;> omega
  rw [formElem_at hbound, formElem_at hclamped]

end

end

/-! ### A scalar access issued (R401, R406) -/

section
variable {s : State} {c : Cur} {q : Cur → SReq} {ill : Cur → Bool} {acc : Cur → Acc × List (Nat × LaneFault)}

theorem State.scalarAccess_performs (hr : s.ready c (accessReq s q acc c)) (hi : ill c = false) :
    s.scalarAccess q ill acc = .next ((s.leaves c (accessReq s q acc c) keep keep).access c.core c.slot c.p ((acc c).1.issue c (accessReq s q acc c)) (acc c).2) :=
  State.scalarGo_ready s c (accessReq s q acc) _ _ _ hr hi rfl

theorem scalarIll_usable {b : BitVec 4} {z : BitVec 2} {kind : BitVec 256 → Bool} (h : usable c b z kind) : scalarIll c b.toNat z.toNat kind = false := by
  obtain ⟨hok, hkind, hsize⟩ := h
  simp [scalarIll, hok, hkind, hsize]

variable {d : BitVec 6} {b : BitVec 4} {z : BitVec 2} {i : BitVec 14}

theorem execSst_performs (hr : s.ready c ((ScalarAccess.sst i).req s c d b z)) (h : usable c b z (fun _ => true)) :
    exec (.sst d b z i) s = .next ((s.leaves c ((ScalarAccess.sst i).req s c d b z) keep keep).access c.core c.slot c.p
      ((storeAcc s c d b z i.toInt).issue c ((ScalarAccess.sst i).req s c d b z)) (s.formScalar c (c.t.getB b.toNat) (rE (c.t.getB b.toNat)) (2 ^ z.toNat) i.toInt).2) := by
  show execSst d b z i s = _
  unfold execSst State.scalarStore
  exact State.scalarAccess_performs (q := fun c => plainReq c 0x12 d b [] false) (ill := fun c => scalarIll c b.toNat z.toNat plainKind)
    (acc := fun c => (storeAcc s c d b z i.toInt, (s.formScalar c (c.t.getB b.toNat) (rE (c.t.getB b.toNat)) (2 ^ z.toNat) i.toInt).2)) hr (scalarIll_usable h)

theorem execSld_performs (hr : s.ready c ((ScalarAccess.sld i).req s c d b z)) (h : usable c b z (fun _ => true)) :
    exec (.sld d b z i) s = .next ((s.leaves c ((ScalarAccess.sld i).req s c d b z) keep keep).access c.core c.slot c.p
      ((loadAcc s c .load d b z i.toInt).issue c ((ScalarAccess.sld i).req s c d b z)) (s.formScalar c (c.t.getB b.toNat) (rE (c.t.getB b.toNat)) (2 ^ z.toNat) i.toInt).2) := by
  show execSld d b z i s = _
  unfold execSld State.scalarLoad
  exact State.scalarAccess_performs (q := fun c => plainReq c 0x10 d b [] true) (ill := fun c => scalarIll c b.toNat z.toNat plainKind)
    (acc := fun c => (loadAcc s c .load d b z i.toInt, (s.formScalar c (c.t.getB b.toNat) (rE (c.t.getB b.toNat)) (2 ^ z.toNat) i.toInt).2)) hr (scalarIll_usable h)

/-- The one element of a scalar access, at an address. -/
def scalarElem (a : Nat) : Elem := { lane := 0, j := 0, va := some a }

theorem State.formScalar_ok {r : BitVec 256} {e n a : Nat} {k : Int} (h : formElem r e n (s.scratch c.core c.t.task).size k = .ok (some a)) :
    s.formScalar c r e n k = ([scalarElem a], []) := by
  simp [State.formScalar, formLanes, h, scalarElem]

end

/-! ### One element accessed in the scratchpad (R195, R403) -/

section
variable {s : State} {core slot p : Nat} {t : Train} {x : Acc} {e : Elem} {a : Nat}

/-- In the scratchpad an element's offset is its address: nothing is translated (R186). -/
theorem State.checkElems_pad {op : AccOp} {r : BitVec 256} (hkind : rKind r = 1) (hro : (op.stores && rRdonly r) = false) (he : e.va = some a) :
    s.checkElems core p op r [e] = ([(e, a)], [], s) := by
  have hva : ∀ va, s.checkVa core p op r va = (.ok va, s) := by
    intro va
    rw [State.checkVa, if_neg (Bool.eq_false_iff.1 hro), if_pos hkind]
  have hlines : s.checkLines core p op r [a / 256] = ([(a / 256, .ok (a / 256 * 256))], s) := by
    simp only [State.checkLines, hva]
  have hgood : goodElem [(a / 256, .ok (a / 256 * 256))] e = some (e, a) := by
    simp [goodElem, he, Nat.div_add_mod']
  have hbad : badElem [(a / 256, .ok (a / 256 * 256))] e = none := by
    simp [badElem, he]
  have hkeys : ([e].filterMap (fun e => e.va.map (· / 256))).eraseDups = [a / 256] := by
    simp [he, List.eraseDups_cons]
  rw [State.checkElems, hkeys, hlines]
  simp [hgood, hbad, firstFaults]

/-- An access of one element of the scratchpad, at an offset where it may be performed, with no ordering effect. -/
structure Acc.OnPad (x : Acc) (e : Elem) (a : Nat) : Prop where
  elems : x.elems = [e]
  lane : e.lane = 0
  va : e.va = some a
  kind : rKind x.brec = 1
  allowed : (x.op.stores && rRdonly x.brec) = false
  plain : x.op = .store ∨ x.op = .load
  rel : x.rel = false
  acq : x.acq = false

theorem faultMask_nil : faultMask [] = 0 := rfl

/-- No lane is left out where none faults. -/
theorem Acc.OnPad.only_all (hx : x.OnPad e a) : x.only (~~~ faultMask []) = x := by
  obtain ⟨helems, hlane, -, -, -, hop, -, -⟩ := hx
  have hall : (~~~ faultMask []).getLsbD e.lane = true := by rw [hlane]; decide
  cases x
  subst helems
  rcases hop with rfl | rfl <;> simp only [Acc.only, List.filter_cons, List.filter_nil, hall, if_true]

/-- It passes its checks and is performed. -/
theorem State.access_onPad (ht : s.train core slot = some t) (hx : x.OnPad e a) : s.access core slot p x [] = (s.perform core slot p x [(e, a)] x.lanes).2 := by
  have honly := hx.only_all
  obtain ⟨helems, -, hva, hkind, hro, hop, hrel, hacq⟩ := hx
  have hchecked : x.checked [] = [e] := by simp [Acc.checked, helems]
  have hdrop : anyDropped [e] = false := by simp [anyDropped, hva]
  have hnone : x.spread (mergeFaults [] []) = [] := by rcases hop with hop | hop <;> simp [Acc.spread, mergeFaults, hop]
  have hprefetch : x.op ≠ .prefetch := by rcases hop with hop | hop <;> simp [hop]
  have hok : [(e, a)].filter (fun y => !(faultMask []).getLsbD y.1.lane) = [(e, a)] := by simp [faultMask_nil]
  simp only [State.access, ht, hchecked, State.checkElems_pad hkind hro hva, hnone, hok, honly, hprefetch, helems, hdrop, hrel, hacq]
  simp

end

/-! ### A store to the scratchpad (R195, R403) -/

theorem getElem?_leBytes {n j : Nat} (v : Nat) (hj : j < n) : (leBytes n v)[j]? = some (BitVec.ofNat 8 (v / 256 ^ j)) := by
  induction n generalizing j v with
  | zero => omega
  | succ n ih =>
    cases j with
    | zero => simp [leBytes]
    | succ j => rw [leBytes, List.getElem?_cons_succ, ih _ (by omega), Nat.div_div_eq_div_mul, Nat.pow_succ']

/-- The low bytes of a number are those of the number itself. -/
theorem byte_of_low {n j : Nat} (v : Nat) (hj : j < n) : BitVec.ofNat 8 (v % 2 ^ (8 * n) / 256 ^ j) = BitVec.ofNat 8 (v / 2 ^ (8 * j)) := by
  have hsplit : 2 ^ (8 * n) = 2 ^ (8 * j) * 2 ^ (8 * (n - j)) := by rw [← Nat.pow_add]; congr 1; omega
  have hdvd : 2 ^ 8 ∣ 2 ^ (8 * (n - j)) := Nat.pow_dvd_pow 2 (by omega)
  have hpow : 256 ^ j = 2 ^ (8 * j) := by rw [Nat.pow_mul]
  refine BitVec.eq_of_toNat_eq ?_
  rw [BitVec.toNat_ofNat, BitVec.toNat_ofNat, hpow, hsplit, Nat.mod_mul_right_div_self, Nat.mod_mod_of_dvd _ hdvd]

theorem Scratch.read_write_leBytes {x : Scratch} {a n j v : Nat} (hs : Table.sorted x.bytes = true) (hj : j < n) : (x.write a (leBytes n v)).read (a + j) = BitVec.ofNat 8 (v / 256 ^ j) := by
  have hbytes := congrArg (fun bs : List Byte => bs[j]?) (Scratch.read_write_same (a := a) (bs := leBytes n v) hs)
  simp only [length_leBytes, getElem?_leBytes v hj, List.getElem?_map, List.getElem?_range hj, Option.map_some, Option.some.injEq] at hbytes
  exact hbytes

section
variable {s : State} {core slot p : Nat} {t : Train} {x : Acc} {e : Elem} {a : Nat}

theorem State.perform_padStore (ht : s.train core slot = some t) (hop : x.op = .store) (hkind : rKind x.brec = 1) (lanes : W32) :
    (s.perform core slot p x [(e, a)] lanes).2 = s.setScratch core t.task ((s.scratch core t.task).write a (leBytes x.size e.val)) := by
  simp only [State.perform, ht, hop, hkind, if_true, State.storeScratch, List.foldl_cons, List.foldl_nil]

end

section
variable {s : State} {c : Cur} {d : BitVec 6} {b : BitVec 4} {z : BitVec 2} {i : BitVec 14} {a : Nat}

/-- SST at an offset of the scratchpad writes the low bytes of S(d) there. -/
theorem execSst_pad (hr : s.ready c ((ScalarAccess.sst i).req s c d b z)) (h : usable c b z (fun _ => true)) (hkind : rKind (c.t.getB b.toNat) = 1) (hro : rRdonly (c.t.getB b.toNat) = false)
    (hform : formElem (c.t.getB b.toNat) (rE (c.t.getB b.toNat)) (2 ^ z.toNat) (s.scratch c.core c.t.task).size i.toInt = .ok (some a)) :
    exec (.sst d b z i) s = .next ((s.leaves c ((ScalarAccess.sst i).req s c d b z) keep keep).setScratch c.core c.t.task
      ((s.scratch c.core c.t.task).write a (leBytes (2 ^ z.toNat) ((c.t.getS d.toNat).toNat % 2 ^ (8 * 2 ^ z.toNat))))) := by
  have hformed := State.formScalar_ok hform
  have helems : (storeAcc s c d b z i.toInt).elems = [{ scalarElem a with val := (c.t.getS d.toNat).toNat % 2 ^ (8 * 2 ^ z.toNat) }] := by
    simp only [storeAcc, hformed, List.map_cons, List.map_nil]
  have hpad : ((storeAcc s c d b z i.toInt).issue c ((ScalarAccess.sst i).req s c d b z)).OnPad _ a :=
    ⟨helems, rfl, rfl, hkind, (congrArg _ hro).trans (Bool.and_false _), .inl rfl, rfl, rfl⟩
  rw [execSst_performs hr h, hformed]
  exact congrArg _ ((State.access_onPad State.train_leaves hpad).trans (State.perform_padStore State.train_leaves rfl hkind _))

end

/-! ### A load from the scratchpad, and its landing (R171, R401) -/

section
variable {s : State} {core slot p : Nat} {t : Train} {x : Acc} {e : Elem} {a : Nat}

/-- The operation of a load of one element, answered with `v`, that began at `n`. -/
def Acc.loaded (x : Acc) (p : Nat) (e : Elem) (a v n : Nat) : Pend := { x.pend p [(e, a)] x.lanes with out := [(e.lane, e.j, v)], began := n }

theorem Acc.answer_load (hop : x.op = .load) (a v : Nat) : (x.pend p [(e, a)] x.lanes).answer e v none none = x.loaded p e a v 0 := by
  simp [Pend.answer, Acc.pend, Acc.loaded, hop]

theorem State.perform_padLoad (ht : s.train core slot = some t) (hop : x.op = .load) (hkind : rKind x.brec = 1) (hgood : (s.scratch core t.task).isBad a x.size = false) :
    (s.perform core slot p x [(e, a)] x.lanes).2 = s.setTrain core slot
      { t with pend := Table.put t.pend t.nextPend (x.loaded p e a ((s.scratch core t.task).readLe a x.size) s.time), nextPend := t.nextPend + 1 } := by
  simp only [State.perform, ht, hop, hkind, if_true, List.foldl_cons, List.foldl_nil, hgood, Bool.false_eq_true, if_false, Acc.answer_load hop, State.addPend]
  rfl

theorem Acc.missing_loaded (hop : x.op = .load) (helems : x.elems = [e]) (p a v n : Nat) : (x.loaded p e a v n).missing = [] := by
  simp [Acc.loaded, Pend.missing, Acc.pend, hop, helems]

/-- One element's value is the operation's. -/
theorem Acc.value_loaded {v : Nat} (hlane : e.lane = 0) (hj : e.j = 0) (hwidth : x.width = 1) (hv : v < 2 ^ (8 * x.size)) (p a n : Nat) : (x.loaded p e a v n).value 0 = v := by
  simp [Acc.loaded, Pend.value, Acc.pend, hlane, hj, hwidth, Nat.mod_eq_of_lt hv]

theorem Train.mayLand_loaded {v n : Nat} (id : Nat) (hh : t.handler = none) (hop : x.op = .load) (helems : x.elems = [e]) : t.mayLand id (x.loaded p e a v n) = true := by
  rw [Train.mayLand, Acc.missing_loaded hop helems, hh]
  simp [Acc.loaded, Acc.pend, hop]

/-- A train in which the operation `q` has been answered and taken off. -/
def Train.settled (t : Train) (id : Nat) (q : Pend) : Train := { t with logWait := t.logWait && !q.appends, pend := Table.drop t.pend id, xflags := t.xflags ||| q.xflags }

/-- A scalar load of one element lands in its register (R401). -/
theorem State.land_loaded {id d v n : Nat} (ht : s.train core slot = some t) (hh : t.handler = none) (hq : Table.find t.pend id = some (x.loaded p e a v n)) (hop : x.op = .load) (hscalar : x.scalar = true)
    (helems : x.elems = [e]) (hdest : x.dest = .scalar d) :
    s.land core slot id = s.setTrain core slot (((t.settled id (x.loaded p e a v n)).setS d (BitVec.ofNat 64 ((x.loaded p e a v n).value 0))).replied id .none) := by
  have happends : (x.loaded p e a v n).appends = false := by simp [Pend.appends, Acc.loaded, Acc.pend, hop]
  have hwait : s.entriesWait core slot t (x.loaded p e a v n) = false := by rw [State.entriesWait, happends, Bool.false_and]
  simp only [State.land, ht, hq, Train.mayLand_loaded id hh hop helems, hwait, Bool.not_true, Bool.false_eq_true, if_false, Train.settled]
  simp [Acc.loaded, Acc.pend, hop, hscalar, hdest]

end

section
variable {s : State} {c : Cur} {d : BitVec 6} {b : BitVec 4} {z : BitVec 2} {i : BitVec 14} {a : Nat}

/-- What SLD performs once issued. -/
def sldAcc (s : State) (c : Cur) (d : BitVec 6) (b : BitVec 4) (z : BitVec 2) (i : BitVec 14) : Acc := (loadAcc s c .load d b z i.toInt).issue c ((ScalarAccess.sld i).req s c d b z)

/-- Its operation at offset `a` of the scratchpad, with the value there. -/
def padLoad (s : State) (c : Cur) (d : BitVec 6) (b : BitVec 4) (z : BitVec 2) (i : BitVec 14) (a : Nat) : Pend :=
  (sldAcc s c d b z i).loaded c.p (scalarElem a) a ((s.scratch c.core c.t.task).readLe a (2 ^ z.toNat)) s.time

/-- The train with that operation outstanding. -/
def loading (s : State) (c : Cur) (d : BitVec 6) (b : BitVec 4) (z : BitVec 2) (i : BitVec 14) (a : Nat) : Train :=
  { c.after ((ScalarAccess.sld i).req s c d b z) keep with pend := Table.put c.t.pend c.t.nextPend (padLoad s c d b z i a), nextPend := c.t.nextPend + 1 }

theorem find_loading : Table.find (loading s c d b z i a).pend c.t.nextPend = some (padLoad s c d b z i a) := Table.find_put_same _ _ _

theorem value_padLoad : (padLoad s c d b z i a).value 0 = (s.scratch c.core c.t.task).readLe a (2 ^ z.toNat) := by
  have hlt : (s.scratch c.core c.t.task).readLe a (2 ^ z.toNat) < 2 ^ (8 * 2 ^ z.toNat) := by
    rw [Nat.pow_mul]
    exact Scratch.readLe_lt _ _ _
  exact Acc.value_loaded rfl rfl rfl hlt _ _ _

section
variable (hform : formElem (c.t.getB b.toNat) (rE (c.t.getB b.toNat)) (2 ^ z.toNat) (s.scratch c.core c.t.task).size i.toInt = .ok (some a))
include hform

theorem sldAcc_elems : (sldAcc s c d b z i).elems = [scalarElem a] := congrArg Prod.fst (State.formScalar_ok hform)

theorem missing_padLoad : (padLoad s c d b z i a).missing = [] := Acc.missing_loaded rfl (sldAcc_elems hform) _ _ _ _

/-- SLD at an offset of the scratchpad leaves its operation outstanding. -/
theorem execSld_pad (hr : s.ready c ((ScalarAccess.sld i).req s c d b z)) (h : usable c b z (fun _ => true)) (hkind : rKind (c.t.getB b.toNat) = 1)
    (hgood : (s.scratch c.core c.t.task).isBad a (2 ^ z.toNat) = false) :
    exec (.sld d b z i) s = .next ((s.leaves c ((ScalarAccess.sld i).req s c d b z) keep keep).setTrain c.core c.slot (loading s c d b z i a)) := by
  rw [execSld_performs hr h, State.formScalar_ok hform]
  have hpad : (sldAcc s c d b z i).OnPad (scalarElem a) a := ⟨sldAcc_elems hform, rfl, rfl, hkind, rfl, .inr rfl, rfl, rfl⟩
  exact congrArg _ ((State.access_onPad State.train_leaves hpad).trans (State.perform_padLoad (x := sldAcc s c d b z i) State.train_leaves rfl hkind hgood))

/-- The operation lands in its register. -/
theorem land_loading (hh : c.t.handler = none) {u : State} (hu : u.train c.core c.slot = some (loading s c d b z i a)) :
    u.land c.core c.slot c.t.nextPend = u.setTrain c.core c.slot ((((loading s c d b z i a).settled c.t.nextPend (padLoad s c d b z i a)).setS d.toNat
      (BitVec.ofNat 64 ((s.scratch c.core c.t.task).readLe a (2 ^ z.toNat)))).replied c.t.nextPend .none) := by
  rw [← value_padLoad (d := d) (b := b) (i := i)]
  exact State.land_loaded hu hh find_loading rfl rfl (sldAcc_elems hform) rfl

end

end

end Sys2Proof.Machine

namespace Sys2Proof.Proofs

open Sys2Proof.Machine Sys2Proof.Claims

/-- Settles O15: an element's address by the cases of R187; a store performed at once (`execSst_pad`); a load outstanding (`execSld_pad`), then landed (`land_loading`). -/
theorem scratchpadAccesses : Obligations.ScratchpadAccesses := by
  unfold Obligations.ScratchpadAccesses
  refine ⟨fun r e n size i => ⟨fun h0 hi => ⟨_, rfl, ?inside⟩, fun hout => ?outside⟩, fun s c d b z i a hr h hkind hro hform hs => ⟨_, execSst_pad hr h hkind hro hform, ?store⟩,
    fun s c d b z i a hr h hkind hh _ _ hd hs hpend hform hgood => ?load⟩
  case inside =>
    rw [formElem_inside h0 hi]
    refine ⟨fun hmis => if_pos hmis, fun hal hpad hin => ?_, fun hal hpad hlong => ?_, fun hal hglobal hcanon => ?_, fun hal hglobal hcanon => ?_⟩
    all_goals rw [judgeAddr, if_neg (not_not.2 hal)]
    · rw [if_pos hpad, if_pos hin]
    · rw [if_pos hpad, if_neg (Nat.not_le.2 hlong)]
    · rw [if_neg hglobal, if_pos hcanon]
    · rw [if_neg hglobal, if_neg (Bool.eq_false_iff.1 hcanon)]
  case outside =>
    exact ⟨fun h => formElem_dropped (boundOf_drops hout (.inl h)), fun h => ⟨_, formElem_fault (boundOf_faults hout h)⟩,
      fun h hextent => formElem_dropped (boundOf_drops hout (.inr ⟨h, hextent⟩)), formElem_clamps hout⟩
  case store =>
    rw [State.scratch_setScratch]
    refine ⟨fun j hj => ?written, fun x hx => ?others, fun x => rfl, rfl, rfl, rfl, rfl⟩
    case written => rw [Scratch.read_write_leBytes hs hj, byte_of_low _ hj]
    case others => exact Scratch.read_write_other (by rwa [length_leBytes])
  case load =>
    have hd0 : d.toNat ≠ 0 := fun h => hd (BitVec.eq_of_toNat_eq h)
    refine ⟨_, _, _, _, execSld_pad hform hr h hkind hgood, State.train_setTrain _ _ _ _, ⟨_, find_loading, rfl, missing_padLoad hform⟩, rfl, rfl,
      land_loading hform hh (State.train_setTrain _ _ _ _), State.train_setTrain _ _ _ _, ?gone, ?lands, fun n hn => ?others, rfl⟩
    case gone =>
      refine (congrArg (Table.find · c.t.nextPend) (Train.setS_pend _ _ _)).trans ?_
      exact Table.find_drop_same _ _ (Table.risesFrom_put _ _ hpend (Nat.zero_le _))
    case lands => exact Train.getS_setS _ _ _ hd0 hs
    case others => exact Train.getS_setS_other _ _ _ _ hn

end Sys2Proof.Proofs
end

section
/-! ### Building records (R184, R405) -/

set_option Elab.async false

namespace Sys2Proof.Machine

open Sys2Proof.Claims

/-! ### A field of a record (R184) -/

/-- Bit by bit: a number in which a field has been replaced holds the value there, and its own bits elsewhere. -/
theorem testBit_replaced (x lo n v i : Nat) :
    (x - x / 2 ^ lo % 2 ^ n * 2 ^ lo + v % 2 ^ n * 2 ^ lo).testBit i = if lo ≤ i ∧ i < lo + n then v.testBit (i - lo) else x.testBit i := by
  have hv : v % 2 ^ n < 2 ^ n := Nat.mod_lt _ (Nat.two_pow_pos n)
  have hx : x % 2 ^ lo < 2 ^ lo := Nat.mod_lt _ (Nat.two_pow_pos lo)
  rw [field_replaced, Nat.testBit_two_pow_mul_add _ hx, Nat.testBit_two_pow_mul_add _ hv]
  rcases Nat.lt_or_ge i lo with hbelow | hlo
  · simp [hbelow, Nat.not_le.2 hbelow]
  rcases Nat.lt_or_ge i (lo + n) with hhi | habove
  · simp [hlo, hhi, Nat.not_lt.2 hlo, show i - lo < n by omega]
  · have hidx : i - lo - n + (lo + n) = i := by omega
    simp [Nat.not_lt.2 hlo, Nat.not_lt.2 habove, show ¬ i - lo < n by omega, Nat.testBit_div_two_pow, hidx]

section
variable {lo n : Nat} (h : lo + n ≤ 256) (r : BitVec 256) (v : Nat)
include h

theorem getLsbD_setField (i : Nat) : (setField r lo n v).getLsbD i = if lo ≤ i ∧ i < lo + n then v.testBit (i - lo) else r.getLsbD i := by
  have hbit : r.getLsbD i = r.toNat.testBit i := rfl
  rw [setField, rfield, BitVec.getLsbD_ofNat, testBit_replaced, ← hbit]
  rcases Nat.lt_or_ge i 256 with hin | hout
  · rw [decide_eq_true hin, Bool.true_and]
  · rw [if_neg (by omega), BitVec.getLsbD_of_ge r i hout, Bool.and_false]

/-- A field written reads back. -/
theorem rfield_setField : rfield (setField r lo n v) lo n = v % 2 ^ n := by
  refine Nat.eq_of_testBit_eq fun i => ?_
  have hbit : (setField r lo n v).toNat.testBit (i + lo) = (setField r lo n v).getLsbD (i + lo) := rfl
  rw [rfield, Nat.testBit_mod_two_pow, Nat.testBit_div_two_pow, Nat.testBit_mod_two_pow, hbit, getLsbD_setField h]
  rcases Nat.lt_or_ge i n with hi | hi
  · rw [if_pos (by omega), Nat.add_sub_cancel]
  · rw [decide_eq_false (Nat.not_lt.2 hi), Bool.false_and, Bool.false_and]

/-- Every bit outside it stays. -/
theorem getLsbD_setField_other {i : Nat} (hi : i < lo ∨ lo + n ≤ i) : (setField r lo n v).getLsbD i = r.getLsbD i := by
  rw [getLsbD_setField h, if_neg (by omega)]

end

/-! ### A record-building form (R405) -/

/-- A form of BROP: its instruction, the values of S(a) that it takes, and the record that it writes. -/
abbrev RecordForm := (BitVec 4 → BitVec 6 → BitVec 4 → Instr) × (W64 → Bool) × (BitVec 256 → W64 → BitVec 256)

/-- It writes its record for a value that it takes, and faults ILLOP for another. -/
def RecordForm.builds (op : RecordForm) : Prop :=
  ∀ (s : State) (c : Cur) (d : BitVec 4) (a : BitVec 6) (b : BitVec 4), s.ready c (recReq d b a.toNat) →
    (op.2.1 (c.t.getS a.toNat) = true → exec (op.1 d a b) s = .next (s.leaves c (recReq d b a.toNat) (fun t => t.setB d.toNat (op.2.2 (c.t.getB b.toNat) (c.t.getS a.toNat))) keep)) ∧
    (op.2.1 (c.t.getS a.toNat) = false → exec (op.1 d a b) s = .next (s.scalarFault c fILLOP 0 false))

section
variable {s : State} {c : Cur} {d : BitVec 4} {a : BitVec 6} {b : BitVec 4} {bad : W64 → Bool} {f : BitVec 256 → W64 → BitVec 256}

theorem State.brop_writes (hr : s.ready c (recReq d b a.toNat)) (hgood : bad (c.t.getS a.toNat) = false) :
    s.brop d a b bad f = .next (s.leaves c (recReq d b a.toNat) (fun t => t.setB d.toNat (f (c.t.getB b.toNat) (c.t.getS a.toNat))) keep) :=
  State.scalarGo_changes (q := fun _ => recReq d b a.toNat) hr hgood rfl

theorem State.brop_ill (hr : s.ready c (recReq d b a.toNat)) (hbad : bad (c.t.getS a.toNat) = true) : s.brop d a b bad f = .next (s.scalarFault c fILLOP 0 false) :=
  State.scalarGo_ill s c (fun _ => recReq d b a.toNat) _ _ _ hr hbad

end

/-- An instruction that is a BROP builds its record when BROP refuses just the values that the form does not take. -/
theorem RecordForm.builds_of_brop {op : RecordForm} (bad : W64 → Bool) (hexec : ∀ d a b s, exec (op.1 d a b) s = s.brop d a b bad op.2.2) (hbad : ∀ x, bad x = !op.2.1 x) : op.builds := by
  intro s c d a b hr
  rw [hexec]
  exact ⟨fun htaken => State.brop_writes hr ((hbad _).trans (by rw [htaken]; rfl)), fun hrefused => State.brop_ill hr ((hbad _).trans (by rw [hrefused]; rfl))⟩

/-- A value refused from `n` on is one not below `n`. -/
theorem decide_le_eq_not_lt (n m : Nat) : decide (n ≤ m) = !decide (m < n) := by
  rw [← decide_not, decide_eq_decide, Nat.not_lt]

/-- BRFLG refuses a value past its 16 bits, or with one of bits 7 to 3. -/
theorem flags_refused (x : Nat) : (decide (2 ^ 16 ≤ x) || decide (x / 8 % 32 ≠ 0)) = !(decide (x < 2 ^ 16) && decide (x / 8 % 32 = 0)) := by
  rw [Bool.not_and, decide_le_eq_not_lt, decide_not]

end Sys2Proof.Machine

namespace Sys2Proof.Proofs

open Sys2Proof.Machine Sys2Proof.Claims

/-- Settles O13: each form is a BROP that refuses just the values it does not take (`RecordForm.builds_of_brop`); a field by its bits (`getLsbD_setField`). -/
theorem recordBuilding : Obligations.RecordBuilding := by
  unfold Obligations.RecordBuilding
  refine ⟨⟨?forms, fun s c d b hr => ?copy⟩, fun r lo n v h => ⟨rfield_setField h r v, fun i => getLsbD_setField_other h r v⟩⟩
  case copy => exact State.brop_writes (a := 0) (bad := fun _ => false) (f := fun r _ => r) hr rfl
  case forms =>
    refine List.forall_mem_cons.2 ⟨?base, List.forall_mem_cons.2 ⟨?offset, List.forall_mem_cons.2 ⟨?extent, List.forall_mem_cons.2 ⟨?stride, List.forall_mem_cons.2 ⟨?swizzle,
      List.forall_mem_singleton.2 ?flags⟩⟩⟩⟩⟩
    case base => exact RecordForm.builds_of_brop _ (fun _ _ _ _ => rfl) fun x => decide_le_eq_not_lt _ x.toNat
    case offset => exact RecordForm.builds_of_brop _ (fun _ _ _ _ => rfl) fun _ => rfl
    case extent => exact RecordForm.builds_of_brop _ (fun _ _ _ _ => rfl) fun x => decide_le_eq_not_lt _ x.toNat
    case stride => exact RecordForm.builds_of_brop _ (fun _ _ _ _ => rfl) fun _ => rfl
    case swizzle => exact RecordForm.builds_of_brop _ (fun _ _ _ _ => rfl) fun x => decide_le_eq_not_lt _ x.toNat
    case flags => exact RecordForm.builds_of_brop _ (fun _ _ _ _ => rfl) fun x => flags_refused x.toNat

end Sys2Proof.Proofs
end

section
/-! ### Scalar accesses and BRLD issued (R185, R401, R404, R406) -/

set_option Elab.async false

namespace Sys2Proof.Machine

open Sys2Proof.Claims

section
variable {s : State} {c : Cur}

/-- A scalar access that is ready but ill-formed faults ILLOP. -/
theorem State.scalarAccess_ill {q : Cur → SReq} {ill : Cur → Bool} {acc : Cur → Acc × List (Nat × LaneFault)} (hr : s.ready c (accessReq s q acc c)) (hi : ill c = true) :
    s.scalarAccess q ill acc = .next (s.scalarFault c fILLOP 0 false) :=
  State.scalarGo_ill s c (accessReq s q acc) _ _ _ hr hi

variable {b : BitVec 4} {z : BitVec 2} {kind : BitVec 256 → Bool}

theorem scalarIll_iff : scalarIll c b.toNat z.toNat kind = true ↔ ¬ usable c b z kind := by
  simp only [scalarIll, usable, Bool.or_eq_true, Bool.not_eq_true', decide_eq_true_eq, not_and_or, Bool.not_eq_true, Nat.not_le, or_assoc]

/-- The one element of a form, or the fault of forming it. -/
def formElement (s : State) (f : ScalarAccess) (b : BitVec 4) (z : BitVec 2) (c : Cur) : List Elem × List (Nat × LaneFault) :=
  s.formScalar c (c.t.getB b.toNat) (rE (c.t.getB b.toNat)) (2 ^ z.toNat) (f.index c)

/-- Each scalar load and store is the access of its form, for the records that it takes (R406). -/
theorem execForm_eq (f : ScalarAccess) (s : State) (d : BitVec 6) (b : BitVec 4) (z : BitVec 2) :
    exec (f.instr d b z) s = s.scalarAccess (fun c => plainReq c f.op d b f.reads f.loads) (fun c => scalarIll c b.toNat z.toNat f.kinds) (fun c => (f.acc s c d b z, (formElement s f b z c).2)) := by
  cases f with
  | sld i => rfl
  | sldh i => rfl
  | sldx a i => rfl
  | sst i => rfl
  | sstx a i => rfl

theorem execForm_performs (f : ScalarAccess) {d : BitVec 6} (hr : s.ready c (f.req s c d b z)) (h : usable c b z f.kinds) :
    exec (f.instr d b z) s = .next ((s.leaves c (f.req s c d b z) keep keep).access c.core c.slot c.p ((f.acc s c d b z).issue c (f.req s c d b z)) (formElement s f b z c).2) :=
  (execForm_eq f s d b z).trans (State.scalarAccess_performs hr (scalarIll_usable h))

theorem execForm_refused (f : ScalarAccess) {d : BitVec 6} (hr : s.ready c (f.req s c d b z)) (h : ¬ usable c b z f.kinds) :
    exec (f.instr d b z) s = .next (s.scalarFault c fILLOP 0 false) :=
  (execForm_eq f s d b z).trans (State.scalarAccess_ill hr (scalarIll_iff.2 h))

end

/-! ### BRLD (R404) -/

/-- Whether BRLD refuses the record in Bb. -/
def brldIll (b : BitVec 4) (c : Cur) : Bool := !recOk (c.t.getB b.toNat) || decide (2 < rKind (c.t.getB b.toNat))

/-- The record that BRLD loads, one element of 32 bytes, with the faults of forming it. -/
def brldAcc (s : State) (d b : BitVec 4) (i : BitVec 14) (c : Cur) : Acc × List (Nat × LaneFault) :=
  let f := s.formScalar c (c.t.getB b.toNat) 32 32 i.toInt
  ({ op := .load, scalar := true, brec := c.t.getB b.toNat, dest := .buffer d.toNat, size := 32, width := 1, elems := f.1 }, f.2)

theorem execBrld_eq (s : State) (d b : BitVec 4) (i : BitVec 14) : exec (.brld d b i) s = s.scalarAccess (fun _ => brldNeeds d b) (brldIll b) (brldAcc s d b i) := rfl

theorem brldIll_iff {b : BitVec 4} {c : Cur} : brldIll b c = true ↔ ¬ (recOk (c.t.getB b.toNat) = true ∧ rKind (c.t.getB b.toNat) ≤ 2) := by
  simp only [brldIll, Bool.or_eq_true, Bool.not_eq_true', decide_eq_true_eq, not_and_or, Bool.not_eq_true, Nat.not_le]

end Sys2Proof.Machine

namespace Sys2Proof.Proofs

open Sys2Proof.Machine Sys2Proof.Claims

/-- Settles O14: a scalar load or store is the access of its form (`execForm_eq`), BRLD that of 32 bytes (`execBrld_eq`), each by whether its record allows it. -/
theorem scalarAccesses : Obligations.ScalarAccesses := by
  unfold Obligations.ScalarAccesses
  refine ⟨fun f s c d b z hr => ⟨execForm_performs f hr, execForm_refused f hr⟩, fun s c d b i x hx hr => ?brld⟩
  case brld =>
    subst hx
    rw [execBrld_eq]
    refine ⟨fun hrefused => State.scalarAccess_ill hr (brldIll_iff.2 hrefused), fun hok hkind => ?_⟩
    have hwell : brldIll b c = false := Bool.eq_false_iff.2 fun hill => brldIll_iff.1 hill ⟨hok, hkind⟩
    exact State.scalarAccess_performs (acc := brldAcc s d b i) hr hwell

end Sys2Proof.Proofs
end

section
/-! ### Decode of encode (R302, R441) -/

set_option Elab.async false

namespace Sys2Proof

/-! The field laws of a scalar word: a word is its fixed bits and its placed fields, so a bit range
of it is read past every field that lies beside the range, and off the field that fills it. -/

theorem fld_wordOf_nil (f lo n : Nat) : fld (wordOf f []) lo n = f / 2 ^ lo % 2 ^ n := rfl

/-- A range below a placed field does not see it. -/
theorem fld_wordOf_below {m lo' lo n f : Nat} {x : BitVec m} {xs : List Nat} (h : lo + n ≤ lo') :
    fld (wordOf f (pl x lo' :: xs)) lo n = fld (wordOf f xs) lo n := by
  obtain ⟨k, rfl⟩ := Nat.exists_eq_add_of_le h
  have hx : pl x (lo + n + k) = 2 ^ lo * (2 ^ n * (2 ^ k * x.toNat)) := by
    simp only [pl, pow_add]; ring
  simp only [fld, wordOf, hx]
  rw [Nat.mul_add_div (by positivity), Nat.mul_add_mod]

/-- Bits that are free in a word, split from the bits above and below them. -/
theorem split_of_fld_eq_zero {r lo' m : Nat} (h : fld r lo' m = 0) :
    r = 2 ^ (lo' + m) * (r / 2 ^ (lo' + m)) + r % 2 ^ lo' := by
  have h1 := Nat.div_add_mod r (2 ^ (lo' + m))
  have h2 : r % 2 ^ (lo' + m) = r % 2 ^ lo' := by
    rw [pow_add, Nat.mod_mul, show r / 2 ^ lo' % 2 ^ m = 0 from h]; simp
  omega

theorem wordOf_cons_split {m lo' f : Nat} {x : BitVec m} {xs : List Nat} (h : fld (wordOf f xs) lo' m = 0) :
    wordOf f (pl x lo' :: xs) =
      2 ^ lo' * (2 ^ m * (wordOf f xs / 2 ^ (lo' + m)) + x.toNat) + wordOf f xs % 2 ^ lo' := by
  have := split_of_fld_eq_zero h
  simp only [wordOf, pl]
  conv_lhs => rw [this]
  rw [pow_add]; ring

/-- The range that a placed field fills reads as the field. -/
theorem fld_wordOf_same {m lo f : Nat} {x : BitVec m} {xs : List Nat} (h : fld (wordOf f xs) lo m = 0) :
    fld (wordOf f (pl x lo :: xs)) lo m = x.toNat := by
  rw [fld, wordOf_cons_split h, Nat.mul_add_div (by positivity), Nat.div_eq_of_lt (Nat.mod_lt _ (by positivity)),
    Nat.add_zero, Nat.mul_add_mod, Nat.mod_eq_of_lt x.isLt]

/-- A range above a placed field does not see it. -/
theorem fld_wordOf_above {m lo' lo n f : Nat} {x : BitVec m} {xs : List Nat} (h : lo' + m ≤ lo)
    (h0 : fld (wordOf f xs) lo' m = 0) : fld (wordOf f (pl x lo' :: xs)) lo n = fld (wordOf f xs) lo n := by
  obtain ⟨k, rfl⟩ := Nat.exists_eq_add_of_le h
  have hd : wordOf f (pl x lo' :: xs) / 2 ^ (lo' + m) = wordOf f xs / 2 ^ (lo' + m) := by
    rw [wordOf_cons_split h0, pow_add, ← Nat.div_div_eq_div_mul, Nat.mul_add_div (by positivity),
      Nat.div_eq_of_lt (Nat.mod_lt _ (by positivity)), Nat.add_zero, Nat.mul_add_div (by positivity),
      Nat.div_eq_of_lt x.isLt, Nat.add_zero]
  rw [fld, fld, pow_add, ← Nat.div_div_eq_div_mul, ← Nat.div_div_eq_div_mul, hd]

/-- A range of a word, read at its first field: below it, above it, the field itself, or a range that
no encoding reads. Stated without hypotheses, so that `simp` evaluates the places and goes on. -/
theorem fld_wordOf_cons {m lo' lo n f : Nat} {x : BitVec m} {xs : List Nat} :
    fld (wordOf f (pl x lo' :: xs)) lo n =
      if lo + n ≤ lo' then fld (wordOf f xs) lo n
      else if fld (wordOf f xs) lo' m = 0 then
        if lo' + m ≤ lo then fld (wordOf f xs) lo n
        else if lo' = lo ∧ m = n then x.toNat
        else wordOf f (pl x lo' :: xs) / 2 ^ lo % 2 ^ n
      else wordOf f (pl x lo' :: xs) / 2 ^ lo % 2 ^ n := by
  split_ifs with below free above same
  · exact fld_wordOf_below below
  · exact fld_wordOf_above above free
  · obtain ⟨rfl, rfl⟩ := same
    exact fld_wordOf_same free
  · rfl
  · rfl

theorem bv_eq (n w lo : Nat) : bv n w lo = BitVec.ofNat n (fld w lo n) := rfl

/-! ### Scalar words -/

/-- `RET` of a register other than `S0` has a bit in the range that `RET S0` leaves zero. -/
theorem decodeScalar_ret {a : BitVec 6} (ha : a ≠ 0) :
    decodeScalar (wordOf 0x70000002 [pl a 14]) = some (.ret a) := by
  have hne : wordOf 0x70000002 [pl a 14] / 256 % 262144 ≠ 0 := by
    have := BitVec.toNat_ne.mp ha
    simp only [wordOf, pl, BitVec.ofNat_eq_ofNat, BitVec.toNat_ofNat] at *
    omega
  simp [decodeScalar, decodeMajor, decodeOp1C, hne, fld_wordOf_nil, fld_wordOf_cons, bv_eq]

/-- `JOIN` of a child has a bit in the range that `JOIN` of the task's own children leaves zero. -/
theorem decodeScalar_joinChild {d a : BitVec 6} (h : ¬ (d = 0 ∧ a = 0)) :
    decodeScalar (wordOf 0xAC000000 [pl d 20, pl a 14]) = some (.joinChild d a) := by
  have hne : wordOf 0xAC000000 [pl d 20, pl a 14] / 256 % 262144 ≠ 0 := by
    simp only [wordOf, pl, ← BitVec.toNat_inj, BitVec.ofNat_eq_ofNat, BitVec.toNat_ofNat] at *
    omega
  simp [decodeScalar, decodeMajor, decodeOp2B, hne, fld_wordOf_nil, fld_wordOf_cons, bv_eq]

/-- The forms of three scalar registers. -/
theorem decodeScalar_three_registers {d a b : BitVec 6} {i : Instr} {w : Nat}
    (hi : i ∈ [.sadd d a b, .ssub d a b, .sand d a b, .sor d a b, .sxor d a b, .sshl d a b, .sshr d a b, .ssra d a b,
      .smul d a b, .smulh d a b, .smulhu d a b, .smin d a b, .smax d a b, .sminu d a b, .smaxu d a b, .sslt d a b,
      .ssltu d a b, .sseq d a b, .sdiv d a b, .sdivu d a b, .srem d a b, .sremu d a b, .spawnf d a b, .grant d a b,
      .waita d a b, .waitm d a b, .resize d a b, .mappg d a b])
    (h : encodeScalar i = some w) : decodeScalar w = some i := by
  fin_cases hi
  all_goals cases h
  all_goals
    simp [decodeScalar, decodeMajor, decodeOp00, decodeOp2A, decodeOp2B, decodeOp2D, decodeOp33, fld_wordOf_nil,
      fld_wordOf_cons, bv_eq]

/-- The forms of two scalar registers or of one. -/
theorem decodeScalar_two_registers {d a : BitVec 6} {i : Instr} {w : Nat}
    (hi : i ∈ [.spopc d a, .sclz d a, .sctz d a, .sbrev d a, .spawn d a, .joinany d a, .cut d a, .tstat d a, .ivpg d a,
      .coll d a, .jr d, .callr d, .clsr d, .getfmt d, .putfmt d, .mxfork d, .rdv d])
    (h : encodeScalar i = some w) : decodeScalar w = some i := by
  fin_cases hi
  all_goals cases h
  all_goals
    simp [decodeScalar, decodeMajor, decodeOp00, decodeOp1C, decodeOp25, decodeOp2A, decodeOp2B, decodeOp33,
      fld_wordOf_nil, fld_wordOf_cons, bv_eq]

/-- The forms of mask registers alone. -/
theorem decodeScalar_mask_registers {d a b : BitVec 4} {i : Instr} {w : Nat}
    (hi : i ∈ [.kand d a b, .kor d a b, .kxor d a b, .kandn d a b, .knot d a, .kmov d a, .ksetexm d, .kgetexm d, .klive d,
      .kclr d, .kones d])
    (h : encodeScalar i = some w) : decodeScalar w = some i := by
  fin_cases hi
  all_goals cases h
  all_goals simp [decodeScalar, decodeMajor, decodeOp22, fld_wordOf_nil, fld_wordOf_cons, bv_eq]

/-- The conditional branches, on a scalar register and on a mask register. -/
theorem decodeScalar_branches {a : BitVec 6} {o : BitVec 16} {k : BitVec 4} {p : BitVec 20} {i : Instr} {w : Nat}
    (hi : i ∈ [.bz a o, .bnz a o, .bltz a o, .bgez a o, .blez a o, .bgtz a o, .bkany k p, .bkall k p, .bknone k p])
    (h : encodeScalar i = some w) : decodeScalar w = some i := by
  fin_cases hi
  all_goals cases h
  all_goals simp [decodeScalar, decodeMajor, decodeOp18, decodeOp19, fld_wordOf_nil, fld_wordOf_cons, bv_eq]

/-- The forms with an immediate of 14 or 20 bits. -/
theorem decodeScalar_immediates {d a : BitVec 6} {b : BitVec 4} {z : BitVec 2} {n : BitVec 14} {m : BitVec 20}
    {i : Instr} {w : Nat}
    (hi : i ∈ [.saddi d a n, .sandi d a n, .sori d a n, .sxori d a n, .sslti d a n, .sld d b z n, .sst d b z n,
      .sldh d b z n, .smovi d m, .shori d m])
    (h : encodeScalar i = some w) : decodeScalar w = some i := by
  fin_cases hi
  all_goals cases h
  all_goals simp [decodeScalar, decodeMajor, fld_wordOf_nil, fld_wordOf_cons, bv_eq]

/-- The forms that write a field of a base register. -/
theorem decodeScalar_base_registers {d : BitVec 4} {a : BitVec 6} {p : BitVec 4} {i : Instr} {w : Nat}
    (hi : i ∈ [.brbase d a p, .broff d a p, .brext d a p, .brstr d a p, .brswz d a p, .brflg d a p, .brcpy d p])
    (h : encodeScalar i = some w) : decodeScalar w = some i := by
  fin_cases hi
  all_goals cases h
  all_goals simp [decodeScalar, decodeMajor, decodeOp17, fld_wordOf_nil, fld_wordOf_cons, bv_eq]

/-- Every word is read field by field. -/
theorem decodeScalar_encodeScalar {i : Instr} {w : Nat} (hwf : i.wf = true) (h : encodeScalar i = some w) :
    decodeScalar w = some i := by
  cases i
  case udf => cases h; rfl
  case ret a => cases h; exact decodeScalar_ret (by simpa [Instr.wf] using hwf)
  case joinChild d a => cases h; exact decodeScalar_joinChild (by simpa [Instr.wf, -not_and, not_and_or] using hwf)
  case sadd d a b | ssub d a b | sand d a b | sor d a b | sxor d a b | sshl d a b | sshr d a b | ssra d a b
      | smul d a b | smulh d a b | smulhu d a b | smin d a b | smax d a b | sminu d a b | smaxu d a b | sslt d a b
      | ssltu d a b | sseq d a b | sdiv d a b | sdivu d a b | srem d a b | sremu d a b | spawnf d a b | grant d a b
      | waita d a b | waitm d a b | resize d a b | mappg d a b =>
    exact decodeScalar_three_registers (d := d) (a := a) (b := b) (by simp) h
  case spopc d a | sclz d a | sctz d a | sbrev d a | spawn d a | joinany d a | cut d a | tstat d a | ivpg d a
      | coll d a =>
    exact decodeScalar_two_registers (d := d) (a := a) (by simp) h
  case jr d | callr d | clsr d | getfmt d | putfmt d | mxfork d | rdv d =>
    exact decodeScalar_two_registers (d := d) (a := 0) (by simp) h
  case kand d a b | kor d a b | kxor d a b | kandn d a b =>
    exact decodeScalar_mask_registers (d := d) (a := a) (b := b) (by simp) h
  case knot d a | kmov d a => exact decodeScalar_mask_registers (d := d) (a := a) (b := 0) (by simp) h
  case ksetexm d | kgetexm d | klive d | kclr d | kones d =>
    exact decodeScalar_mask_registers (d := d) (a := 0) (b := 0) (by simp) h
  case bz a o | bnz a o | bltz a o | bgez a o | blez a o | bgtz a o =>
    exact decodeScalar_branches (a := a) (o := o) (k := 0) (p := 0) (by simp) h
  case bkany k p | bkall k p | bknone k p =>
    exact decodeScalar_branches (a := 0) (o := 0) (k := k) (p := p) (by simp) h
  case saddi d a n | sandi d a n | sori d a n | sxori d a n | sslti d a n =>
    exact decodeScalar_immediates (d := d) (a := a) (b := 0) (z := 0) (n := n) (m := 0) (by simp) h
  case sld d b z n | sst d b z n | sldh d b z n =>
    exact decodeScalar_immediates (d := d) (a := 0) (b := b) (z := z) (n := n) (m := 0) (by simp) h
  case smovi d m | shori d m =>
    exact decodeScalar_immediates (d := d) (a := 0) (b := 0) (z := 0) (n := 0) (m := m) (by simp) h
  case brbase d a p | broff d a p | brext d a p | brstr d a p | brswz d a p | brflg d a p =>
    exact decodeScalar_base_registers (d := d) (a := a) (p := p) (by simp) h
  case brcpy d p => exact decodeScalar_base_registers (d := d) (a := 0) (p := p) (by simp) h
  all_goals cases h
  all_goals
    simp [decodeScalar, decodeMajor, decodeOp1C, decodeOp23, decodeOp26, decodeOp28, decodeOp2B, decodeOp2C,
      decodeOp2E, decodeOp33, fld_wordOf_nil, fld_wordOf_cons, bv_eq]

/-! ### Lane words and matrix commands -/

theorem toNat_beq_one (b : Bool) : (b.toNat == 1) = b := by cases b <;> rfl

theorem lrOf_lrWord (op : Nat) (o : LR) : lrOf (lrWord op o) = o := by
  have hs := Bool.toNat_lt o.sat
  have hf := Bool.toNat_lt o.ftz
  have hq := Bool.toNat_lt o.fs
  have fields (n lo : Nat) (x : BitVec n) (h : fld (lrWord op o) lo n = x.toNat) : bv n (lrWord op o) lo = x := by
    rw [bv, h, BitVec.ofNat_toNat, BitVec.setWidth_eq]
  have hd := fields 8 78 o.d (by simp only [fld, lrWord]; omega)
  have ha := fields 9 69 o.a (by simp only [fld, lrWord]; omega)
  have hb := fields 9 60 o.b (by simp only [fld, lrWord]; omega)
  have hc := fields 9 51 o.c (by simp only [fld, lrWord]; omega)
  have hkd := fields 4 47 o.kd (by simp only [fld, lrWord]; omega)
  have htyp := fields 4 43 o.typ (by simp only [fld, lrWord]; omega)
  have hrnd := fields 3 40 o.rnd (by simp only [fld, lrWord]; omega)
  have hneg := fields 3 35 o.neg (by simp only [fld, lrWord]; omega)
  have habs := fields 2 33 o.abs (by simp only [fld, lrWord]; omega)
  have himm := fields 32 0 o.imm (by simp only [fld, lrWord]; omega)
  have hsat : fld (lrWord op o) 39 1 = o.sat.toNat := by simp only [fld, lrWord]; omega
  have hftz : fld (lrWord op o) 38 1 = o.ftz.toNat := by simp only [fld, lrWord]; omega
  have hfs : fld (lrWord op o) 32 1 = o.fs.toNat := by simp only [fld, lrWord]; omega
  simp only [lrOf, hd, ha, hb, hc, hkd, htyp, hrnd, hneg, habs, himm, hsat, hftz, hfs, toNat_beq_one]

theorem fld_lrWord_op {op : Nat} (o : LR) (h : op < 1024) : fld (lrWord op o) 86 10 = op := by
  have hs := Bool.toNat_lt o.sat
  have hf := Bool.toNat_lt o.ftz
  have hq := Bool.toNat_lt o.fs
  simp only [fld, lrWord]
  omega

theorem lmOf_lmWord (op : Nat) (o : LM) : lmOf (lmWord op o) = o := by
  have hq := Bool.toNat_lt o.fs
  have fields (n lo : Nat) (x : BitVec n) (h : fld (lmWord op o) lo n = x.toNat) : bv n (lmWord op o) lo = x := by
    rw [bv, h, BitVec.ofNat_toNat, BitVec.setWidth_eq]
  have hd := fields 8 78 o.d (by simp only [fld, lmWord]; omega)
  have hb := fields 4 74 o.b (by simp only [fld, lmWord]; omega)
  have hi := fields 9 65 o.i (by simp only [fld, lmWord]; omega)
  have hw := fields 3 62 o.w (by simp only [fld, lmWord]; omega)
  have hscope := fields 3 59 o.scope (by simp only [fld, lmWord]; omega)
  have hhint := fields 2 57 o.hint (by simp only [fld, lmWord]; omega)
  have hkd := fields 4 52 o.kd (by simp only [fld, lmWord]; omega)
  have haux := fields 20 32 o.aux (by simp only [fld, lmWord]; omega)
  have hoff := fields 32 0 o.off (by simp only [fld, lmWord]; omega)
  have hfs : fld (lmWord op o) 56 1 = o.fs.toNat := by simp only [fld, lmWord]; omega
  simp only [lmOf, hd, hb, hi, hw, hscope, hhint, hkd, haux, hoff, hfs, toNat_beq_one]

theorem fld_lmWord_op {op : Nat} (o : LM) (h : op < 1024) : fld (lmWord op o) 86 10 = op := by
  have hq := Bool.toNat_lt o.fs
  simp only [fld, lmWord]
  omega

theorem mxFieldsOf_mxWord (op : Nat) (f : MxFields) : mxFieldsOf (mxWord op f) = f := by
  have fields (n lo : Nat) (x : BitVec n) (h : fld (mxWord op f) lo n = x.toNat) : bv n (mxWord op f) lo = x := by
    rw [bv, h, BitVec.ofNat_toNat, BitVec.setWidth_eq]
  have hres := fields 16 104 f.res (by simp only [fld, mxWord]; omega)
  have ha := fields 8 96 f.a (by simp only [fld, mxWord]; omega)
  have hx := fields 32 64 f.x (by simp only [fld, mxWord]; omega)
  have hy := fields 32 32 f.y (by simp only [fld, mxWord]; omega)
  have hres0 := fields 32 0 f.res0 (by simp only [fld, mxWord]; omega)
  simp only [mxFieldsOf, hres, ha, hx, hy, hres0]

theorem fld_mxWord_op {op : Nat} (f : MxFields) (h : op < 256) : fld (mxWord op f) 120 8 = op := by
  simp only [fld, mxWord]
  omega

/-- A row of the lane table whose format is LR reads the operands back. -/
theorem decodeLane_lrWord {op : Nat} {o : LR} {row : LR → Instr} (h : op < 1024)
    (hrow : ∀ w, laneOf op w = some (row (lrOf w))) : decodeLane (lrWord op o) = some (row o) := by
  rw [decodeLane, fld_lrWord_op o h, hrow, lrOf_lrWord]

/-- A row of the lane table whose format is LM reads the operands back. -/
theorem decodeLane_lmWord {op : Nat} {o : LM} {row : LM → Instr} (h : op < 1024)
    (hrow : ∀ w, laneOf op w = some (row (lmOf w))) : decodeLane (lmWord op o) = some (row o) := by
  rw [decodeLane, fld_lmWord_op o h, hrow, lmOf_lmWord]

/-- A row of the matrix table reads the operands back. -/
theorem decodeMx_mxWord {op : Nat} {f : MxFields} {row : MxFields → Instr} (h : op < 256)
    (hrow : ∀ w, mxOf op w = some (row (mxFieldsOf w))) : decodeMx (mxWord op f) = some (row f) := by
  rw [decodeMx, fld_mxWord_op f h, hrow, mxFieldsOf_mxWord]

theorem decodeLane_encodeLane {i : Instr} {w : Nat} (h : encodeLane i = some w) : decodeLane w = some i := by
  cases i
  case outl o | ld o | st o | ldc o | stc o | ldh o | pref o | atom o =>
    cases h
    exact decodeLane_lmWord (by decide) (fun _ => rfl)
  all_goals cases h
  all_goals exact decodeLane_lrWord (by decide) (fun _ => rfl)

theorem decodeMx_encodeMx {i : Instr} {w : Nat} (h : encodeMx i = some w) : decodeMx w = some i := by
  cases i
  all_goals cases h
  all_goals exact decodeMx_mxWord (by decide) (fun _ => rfl)

end Sys2Proof

namespace Sys2Proof.Proofs
open Sys2Proof.Machine Sys2Proof.Claims

/-- Settles O55, by the format: each field of a word is read back from its place, and no other field or fixed bit reaches it. -/
theorem roundTrip : Obligations.RoundTrip := by
  unfold Obligations.RoundTrip
  intro i n w hwf h
  rw [encode] at h
  cases hs : encodeScalar i with
  | some v =>
    rw [hs] at h
    cases h
    simp [decodeTableWord, decodeScalar_encodeScalar hwf hs]
  | none =>
    rw [hs] at h
    cases hl : encodeLane i with
    | some v =>
      rw [hl] at h
      cases h
      simp [decodeTableWord, decodeLane_encodeLane hl]
    | none =>
      rw [hl] at h
      simp only [Option.map_eq_some_iff, Prod.mk.injEq] at h
      obtain ⟨v, hm, rfl, rfl⟩ := h
      simp [decodeTableWord, decodeMx_encodeMx hm]

/-- Settles O56, by evaluating the decoder on the words. -/
theorem decodeWords : Obligations.DecodeWords := by
  unfold Obligations.DecodeWords
  decide +kernel

end Sys2Proof.Proofs
end

section
/-! ### Scalar arithmetic (R327-R330) -/

set_option Elab.async false

namespace Sys2Proof.Machine
open Sys2Proof.Claims

/-- A register-to-register operation that is ready writes its value and leaves the rest to the issue. -/
theorem State.salu_ready {s : State} {c : Cur} {op n : Nat} {d a b : BitVec 6} (f : W64 → W64 → W64)
    (h : s.ready c (sreq op (d.toNat :: [a.toNat, b.toNat].take n) [d.toNat])) :
    s.salu op n d a b f = .next (s.leaves c (sreq op (d.toNat :: [a.toNat, b.toNat].take n) [d.toNat])
      (fun t => t.setS d.toNat (f (c.t.getS a.toNat) (c.t.getS b.toNat))) keep) := by
  rw [State.salu]
  refine (State.scalarGo_ready s c _ never noFault _ h rfl rfl).trans (congrArg _ ?_)
  exact State.leaves_modCur s c _ keep _ keep h.1

/-- A division that is ready raises DZ for a zero divisor and writes its value. -/
theorem State.sdivide_ready {s : State} {c : Cur} {d a b : BitVec 6} (f : W64 → W64 → W64)
    (h : s.ready c (sreq 0 [d.toNat, a.toNat, b.toNat] [d.toNat])) :
    s.sdivide d a b f = .next (s.leaves c (sreq 0 [d.toNat, a.toNat, b.toNat] [d.toNat])
      (fun t => (if c.t.getS b.toNat = 0 then t.flagUp xDZ else t).setS d.toNat (f (c.t.getS a.toNat) (c.t.getS b.toNat))) keep) := by
  rw [State.sdivide]
  refine (State.scalarGo_ready s c _ never noFault _ h rfl rfl).trans (congrArg _ ?_)
  by_cases hz : c.t.getS b.toNat = 0
  · simp only [hz, if_true, State.putS, State.flagUp]
    rw [State.leaves_modCur s c _ keep _ keep h.1]
    exact State.leaves_modCur s c _ _ _ keep h.1
  · simp only [hz, if_false, State.putS]
    exact State.leaves_modCur s c _ keep _ keep h.1

/-! The operations that the model writes with the word comparisons of `BitVec`, as Table 18-1 writes them. -/

theorem slt_iff (x y : W64) : x.slt y = true ↔ x.toInt < y.toInt := by rw [BitVec.slt_iff_toInt_lt]
theorem ult_iff (x y : W64) : x.ult y = true ↔ x.toNat < y.toNat := by simp [BitVec.ult]

theorem ofNat_toNat_mul (x y : W64) : BitVec.ofNat 64 (x.toNat * y.toNat) = x * y :=
  BitVec.eq_of_toNat_eq (by rw [BitVec.toNat_mul, BitVec.toNat_ofNat])

theorem exec_smin (d a b : BitVec 6) (s : State) :
    exec (.smin d a b) s = s.salu 0 2 d a b (fun x y => if x.toInt < y.toInt then x else y) :=
  by simp only [← slt_iff]; rfl
theorem exec_smax (d a b : BitVec 6) (s : State) :
    exec (.smax d a b) s = s.salu 0 2 d a b (fun x y => if x.toInt < y.toInt then y else x) :=
  by simp only [← slt_iff]; rfl
theorem exec_sminu (d a b : BitVec 6) (s : State) :
    exec (.sminu d a b) s = s.salu 0 2 d a b (fun x y => if x.toNat < y.toNat then x else y) :=
  by simp only [← ult_iff]; rfl
theorem exec_smaxu (d a b : BitVec 6) (s : State) :
    exec (.smaxu d a b) s = s.salu 0 2 d a b (fun x y => if x.toNat < y.toNat then y else x) :=
  by simp only [← ult_iff]; rfl
theorem exec_sslt (d a b : BitVec 6) (s : State) :
    exec (.sslt d a b) s = s.salu 0 2 d a b (fun x y => if x.toInt < y.toInt then 1 else 0) :=
  by simp only [← slt_iff]; rfl
theorem exec_ssltu (d a b : BitVec 6) (s : State) :
    exec (.ssltu d a b) s = s.salu 0 2 d a b (fun x y => if x.toNat < y.toNat then 1 else 0) :=
  by simp only [← ult_iff]; rfl
theorem exec_sseq (d a b : BitVec 6) (s : State) :
    exec (.sseq d a b) s = s.salu 0 2 d a b (fun x y => if x = y then 1 else 0) :=
  by simp only [← beq_iff_eq (α := W64)]; rfl
theorem exec_smul (d a b : BitVec 6) (s : State) :
    exec (.smul d a b) s = s.salu 0 2 d a b (fun x y => BitVec.ofNat 64 (x.toNat * y.toNat)) :=
  by simp only [ofNat_toNat_mul]; rfl

/-- The three-register operations of Table 18-1. -/
theorem exec_aluOps : ∀ op ∈ aluOps, ∀ (d a b : BitVec 6) (s : State), exec (op.1 d a b) s = s.salu 0 2 d a b op.2 := by
  simp only [aluOps, List.forall_mem_cons, List.not_mem_nil, false_implies, implies_true, and_true]
  refine ⟨fun _ _ _ _ => rfl, fun _ _ _ _ => rfl, fun _ _ _ _ => rfl, fun _ _ _ _ => rfl, fun _ _ _ _ => rfl,
    fun _ _ _ _ => rfl, fun _ _ _ _ => rfl, fun _ _ _ _ => rfl, exec_smul, fun _ _ _ _ => rfl, fun _ _ _ _ => rfl,
    exec_smin, exec_smax, exec_sminu, exec_smaxu, exec_sslt, exec_ssltu, exec_sseq⟩

/-- The bit counts of Table 18-1. -/
theorem exec_unaryOps : ∀ op ∈ unaryOps, ∀ (d a : BitVec 6) (s : State),
    exec (op.1 d a) s = s.salu 0 1 d a 0 (fun x _ => op.2 x) := by
  simp only [unaryOps, List.forall_mem_cons, List.not_mem_nil, false_implies, implies_true, and_true]
  exact ⟨fun _ _ _ => rfl, fun _ _ _ => rfl, fun _ _ _ => rfl, fun _ _ _ => rfl⟩

theorem exec_sslti (d a : BitVec 6) (i : BitVec 14) (s : State) :
    exec (.sslti d a i) s = s.salu 8 1 d a 0 (fun x _ => if x.toInt < i.toInt then 1 else 0) :=
  by
  simp only [← BitVec.toInt_signExtend_of_le (show 14 ≤ 64 by decide) (x := i), ← slt_iff]
  rfl

/-- The operations with an immediate (R329). -/
theorem exec_immOps : ∀ op ∈ immOps, ∀ (d a : BitVec 6) (i : BitVec 14) (s : State),
    exec (op.1 d a i) s = s.salu op.2.1 1 d a 0 (fun x _ => op.2.2 x i) := by
  simp only [immOps, List.forall_mem_cons, List.not_mem_nil, false_implies, implies_true, and_true]
  exact ⟨fun _ _ _ _ => rfl, fun _ _ _ _ => rfl, fun _ _ _ _ => rfl, fun _ _ _ _ => rfl, exec_sslti⟩

/-- The shifts by an immediate (R329). -/
theorem exec_shiftImmOps : ∀ op ∈ shiftImmOps, ∀ (d a n : BitVec 6) (s : State),
    exec (op.1 d a n) s = s.salu op.2.1 1 d a 0 (fun x _ => op.2.2 x n.toNat) := by
  simp only [shiftImmOps, List.forall_mem_cons, List.not_mem_nil, false_implies, implies_true, and_true]
  exact ⟨fun _ _ _ _ => rfl, fun _ _ _ _ => rfl, fun _ _ _ _ => rfl⟩

/-- The divisions (R328). -/
theorem exec_divOps : ∀ op ∈ divOps, ∀ (d a b : BitVec 6) (s : State), exec (op.1 d a b) s = s.sdivide d a b op.2 := by
  simp only [divOps, List.forall_mem_cons, List.not_mem_nil, false_implies, implies_true, and_true]
  exact ⟨fun _ _ _ _ => rfl, fun _ _ _ _ => rfl, fun _ _ _ _ => rfl, fun _ _ _ _ => rfl⟩

end Sys2Proof.Machine

namespace Sys2Proof.Proofs
open Sys2Proof.Machine Sys2Proof.Claims

/-- Settles O1: each operation is the arithmetic unit's one form with its own function. -/
theorem scalarArithmetic : Obligations.ScalarArithmetic := by
  unfold Obligations.ScalarArithmetic
  refine ⟨?alu, ⟨?unary, ?imm, ?shift, ?smovi, ?shori⟩, ?div⟩
  case alu =>
    intro op hop s c d a b h
    rw [exec_aluOps op hop]
    exact State.salu_ready (n := 2) op.2 h
  case unary =>
    intro op hop s c d a h
    rw [exec_unaryOps op hop]
    exact State.salu_ready (n := 1) (fun x _ => op.2 x) h
  case imm =>
    intro op hop s c d a i h
    rw [exec_immOps op hop]
    exact State.salu_ready (n := 1) (fun x _ => op.2.2 x i) h
  case shift =>
    intro op hop s c d a n h
    rw [exec_shiftImmOps op hop]
    exact State.salu_ready (n := 1) (fun x _ => op.2.2 x n.toNat) h
  case smovi =>
    intro s c d i h
    exact State.salu_ready (n := 0) (a := 0) (b := 0) (fun _ _ => i.signExtend 64) h
  case shori =>
    intro s c d i h
    exact State.salu_ready (n := 1) (b := 0) (fun x _ => (x <<< 20) ||| i.setWidth 64) h
  case div =>
    intro op hop s c d a b h
    rw [exec_divOps op hop]
    exact State.sdivide_ready op.2 h

end Sys2Proof.Proofs
end

section
/-! ### Branches and jumps (R307, R331-R334) -/

set_option Elab.async false

namespace Sys2Proof.Machine
open Sys2Proof.Claims

/-- A taken branch changes the portion once more, an untaken one leaves the next word's address. -/
theorem State.leaves_jump_if {s : State} {c : Cur} (q : SReq) (b : Bool) (pc : W64) (hc : s.cur = some c) :
    (if b then (s.leaves c q keep keep).jump pc else s.leaves c q keep keep) =
      s.leaves c q keep (fun r => { r with pc := if b then pc else c.o.pc + 4 }) := by
  cases b
  · rfl
  · exact State.leaves_keep_modPortion s c q keep _ hc

theorem State.branchS_ready {s : State} {c : Cur} {a : BitVec 6} {o : BitVec 16} (taken : W64 → Bool)
    (h : s.ready c (sreq 0x18 [a.toNat] [])) :
    s.branchS a o taken = .next (s.leaves c (sreq 0x18 [a.toNat] []) keep
      (fun r => { r with pc := if taken (c.t.getS a.toNat) then c.o.pc + 4 * o.signExtend 64 else c.o.pc + 4 })) := by
  rw [State.branchS]
  exact (State.scalarGo_ready s c _ never noFault _ h rfl rfl).trans (congrArg _ (State.leaves_jump_if _ _ _ h.1))

theorem State.branchK_ready {s : State} {c : Cur} {k : BitVec 4} {o : BitVec 20} (taken : W32 → W32 → Bool)
    (h : s.ready c (kreq 0x19 [] [] [k.toNat] [])) :
    s.branchK k o taken = .next (s.leaves c (kreq 0x19 [] [] [k.toNat] []) keep
      (fun r => { r with pc := if taken (c.t.getK k.toNat &&& live c.o.exm c.t.deadm) (live c.o.exm c.t.deadm)
        then c.o.pc + 4 * o.signExtend 64 else c.o.pc + 4 })) := by
  rw [State.branchK]
  exact (State.scalarGo_ready s c _ never noFault _ h rfl rfl).trans (congrArg _ (State.leaves_jump_if _ _ _ h.1))

/-- The signed comparisons with zero, as the model decides them. -/
theorem slt_zero_eq (x : W64) : x.slt 0 = decide (x.toInt < 0) := by
  rw [Bool.eq_iff_iff, BitVec.slt_iff_toInt_lt, decide_eq_true_iff, BitVec.toInt_ofNat]; rfl
theorem sle_zero_eq (x : W64) : x.sle 0 = decide (x.toInt ≤ 0) := by
  rw [Bool.eq_iff_iff, BitVec.sle_iff_toInt_le, decide_eq_true_iff, BitVec.toInt_ofNat]; rfl

/-- The branches on a scalar register (R331). -/
theorem exec_branchOps : ∀ op ∈ branchOps, ∀ (a : BitVec 6) (o : BitVec 16) (s : State),
    exec (op.1 a o) s = s.branchS a o op.2 := by
  simp only [branchOps, List.forall_mem_cons, List.not_mem_nil, false_implies, implies_true, and_true]
  refine ⟨?bz, ?bnz, ?bltz, ?bgez, ?blez, ?bgtz⟩
  case bz => exact fun _ _ _ => rfl
  case bnz => simp only [ne_eq, decide_not]; exact fun _ _ _ => rfl
  case bltz => simp only [← slt_zero_eq]; exact fun _ _ _ => rfl
  case blez => simp only [← sle_zero_eq]; exact fun _ _ _ => rfl
  case bgez => simp only [← not_lt, decide_not, ← slt_zero_eq]; exact fun _ _ _ => rfl
  case bgtz => simp only [← not_le, decide_not, ← sle_zero_eq]; exact fun _ _ _ => rfl

/-- The branches on a mask register (R332): the condition sees K through the live active lanes. -/
theorem branchK_maskBranchOps : ∀ op ∈ maskBranchOps, ∀ (k : BitVec 4) (o : BitVec 20) (s : State),
    ∃ taken : W32 → W32 → Bool, (∀ x l, taken (x &&& l) l = op.2 x l) ∧ exec (op.1 k o) s = s.branchK k o taken := by
  simp only [maskBranchOps, List.forall_mem_cons, List.not_mem_nil, false_implies, implies_true, and_true]
  exact ⟨fun _ _ _ => ⟨fun m _ => m != 0, fun _ _ => (decide_not ..).symm, rfl⟩,
    fun _ _ _ => ⟨fun m l => m == l, fun _ _ => rfl, rfl⟩, fun _ _ _ => ⟨fun m _ => m == 0, fun _ _ => rfl, rfl⟩⟩

theorem badTarget_eq_none {x : W64} (h : goodTarget x) : badTarget x = none := by
  obtain ⟨haligned, hcanonical⟩ := h
  simp [badTarget, haligned, hcanonical]

theorem badTarget_eq_some {x : W64} (h : ¬ goodTarget x) : badTarget x = some (fADDRRANGE, x.toNat) := by
  simpa [badTarget, goodTarget] using h

/-- A jump to a good target, without the link. -/
theorem State.jumpS_good {s : State} {c : Cur} {a : BitVec 6} (h : s.ready c (sreq 0x1C [a.toNat] []))
    (ht : goodTarget (c.t.getS a.toNat)) :
    s.jumpS a false = .next (s.leaves c (sreq 0x1C [a.toNat] []) keep (fun r => { r with pc := c.t.getS a.toNat })) := by
  rw [State.jumpS]
  exact (State.scalarGo_ready s c _ never _ _ h rfl (badTarget_eq_none ht)).trans
    (congrArg _ (State.leaves_keep_modPortion s c _ keep _ h.1))

/-- And with it. -/
theorem State.jumpS_good_link {s : State} {c : Cur} {a : BitVec 6} (h : s.ready c (sreq 0x1C [a.toNat, 63] [63]))
    (ht : goodTarget (c.t.getS a.toNat)) :
    s.jumpS a true = .next (s.leaves c (sreq 0x1C [a.toNat, 63] [63]) (fun t => t.setS 63 (c.o.pc + 4))
      (fun r => { r with pc := c.t.getS a.toNat })) := by
  rw [State.jumpS]
  refine (State.scalarGo_ready s c _ never _ _ h rfl (badTarget_eq_none ht)).trans (congrArg _ ?_)
  simp only [if_true, State.putS, State.jump]
  rw [State.leaves_modCur s c _ keep _ keep h.1]
  exact State.leaves_setS_modPortion s c _ 63 _ keep _ h.1

/-- A jump to a bad target faults before anything of it. -/
theorem State.jumpS_bad {s : State} {c : Cur} {a : BitVec 6} (link : Bool)
    (h : s.ready c (sreq 0x1C (if link then [a.toNat, 63] else [a.toNat]) (if link then [63] else [])))
    (ht : ¬ goodTarget (c.t.getS a.toNat)) :
    s.jumpS a link = .next (s.scalarFault c fADDRRANGE (c.t.getS a.toNat).toNat false) := by
  rw [State.jumpS]
  exact State.scalarGo_fault s c _ never (fun c => badTarget (c.t.getS a.toNat)) _
    (fADDRRANGE, (c.t.getS a.toNat).toNat) h rfl (badTarget_eq_some ht)

/-- A word of one field at bit 0. -/
theorem wordOf_low_field {n : Nat} (f : Nat) (x : BitVec n) : wordOf f [pl x 0] = f + x.toNat := by
  rw [wordOf, wordOf, pl, pow_zero, mul_one, Nat.add_comm]

theorem decodeTableWord_scalar (w : Nat) : decodeTableWord 32 w = decodeScalar w := if_pos (by decide)

theorem State.bra_ready {s : State} {c : Cur} {o : BitVec 26} (h : s.ready c (sreq 0x1A [] [])) :
    exec (.bra o) s = .next (s.leaves c (sreq 0x1A [] []) keep (fun r => { r with pc := c.o.pc + 4 * o.signExtend 64 })) := by
  change execBra o s = _
  rw [execBra]
  exact (State.scalarGo_ready s c _ never noFault _ h rfl rfl).trans
    (congrArg _ (State.leaves_keep_modPortion s c _ keep _ h.1))

theorem State.call_ready {s : State} {c : Cur} {o : BitVec 26} (h : s.ready c (sreq 0x1B [63] [63])) :
    exec (.call o) s = .next (s.leaves c (sreq 0x1B [63] [63]) (fun t => t.setS 63 (c.o.pc + 4))
      (fun r => { r with pc := c.o.pc + 4 * o.signExtend 64 })) := by
  change execCall o s = _
  rw [execCall]
  refine (State.scalarGo_ready s c _ never noFault _ h rfl rfl).trans (congrArg _ ?_)
  simp only [State.putS, State.jump]
  rw [State.leaves_modCur s c _ keep _ keep h.1]
  exact State.leaves_setS_modPortion s c _ 63 _ keep _ h.1

end Sys2Proof.Machine

namespace Sys2Proof.Proofs
open Sys2Proof.Machine Sys2Proof.Claims

/-- Settles O2: a branch is one change of the PC after the issue, and a register jump checks its target before it. -/
theorem branchesAndJumps : Obligations.BranchesAndJumps := by
  unfold Obligations.BranchesAndJumps
  refine ⟨⟨?scalar, ?mask, ?words, fun s c o => State.bra_ready, fun s c o => State.call_ready⟩, ?jump, ?callr⟩
  case scalar =>
    intro op hop s c a o h
    rw [exec_branchOps op hop]
    exact State.branchS_ready op.2 h
  case mask =>
    intro op hop s c k o h
    obtain ⟨taken, htaken, hexec⟩ := branchK_maskBranchOps op hop k o s
    rw [hexec, State.branchK_ready taken h, htaken]
    rfl
  case words =>
    intro o
    have hbra : decodeScalar (0x68000000 + o.toNat) = some (.bra o) :=
      decodeScalar_encodeScalar rfl (congrArg some (wordOf_low_field _ o))
    have hcall : decodeScalar (0x6C000000 + o.toNat) = some (.call o) :=
      decodeScalar_encodeScalar rfl (congrArg some (wordOf_low_field _ o))
    norm_num only [decodeTableWord_scalar]
    exact ⟨hbra, hcall⟩
  case jump =>
    intro op hop s c a h
    have hexec : exec (op a) s = s.jumpS a false := by
      simp only [List.mem_cons, List.not_mem_nil, or_false] at hop
      rcases hop with rfl | rfl
      · rfl
      · rfl
    rw [hexec]
    exact ⟨State.jumpS_good h, State.jumpS_bad false h⟩
  case callr =>
    intro s c a h
    exact ⟨State.jumpS_good_link h, State.jumpS_bad true h⟩

end Sys2Proof.Proofs
end

section
/-! ### Mask registers and FMT (R257, R345-R349) -/

set_option Elab.async false

namespace Sys2Proof.Machine
open Sys2Proof.Claims

/-- A mask operation that is ready writes its value to K(d). -/
theorem State.kop_ready {s : State} {c : Cur} {d : BitVec 4} {reads : List (BitVec 4)} (f : Cur → W32)
    (h : s.ready c (kreq 0x22 [] [] (d.toNat :: reads.map BitVec.toNat) [d.toNat])) :
    s.kop d reads f = .next (s.leaves c (kreq 0x22 [] [] (d.toNat :: reads.map BitVec.toNat) [d.toNat])
      (fun t => t.setK d.toNat (f c)) keep) := by
  rw [State.kop]
  exact (State.scalarGo_ready s c _ never noFault _ h rfl rfl).trans
    (congrArg _ (State.leaves_modCur s c _ keep _ keep h.1))

/-- A move of a mask register's value to S(d). -/
theorem State.ktoS_ready {s : State} {c : Cur} {d : BitVec 6} {a : BitVec 4} (f : W32 → W64)
    (h : s.ready c (kreq 0x23 [d.toNat] [d.toNat] [a.toNat] [])) :
    s.ktoS d a f = .next (s.leaves c (kreq 0x23 [d.toNat] [d.toNat] [a.toNat] [])
      (fun t => t.setS d.toNat (f (c.t.getK a.toNat))) keep) := by
  rw [State.ktoS]
  exact (State.scalarGo_ready s c _ never noFault _ h rfl rfl).trans
    (congrArg _ (State.leaves_modCur s c _ keep _ keep h.1))

/-- The mask operations of two registers, of one and of none (R345). -/
theorem exec_maskOps : ∀ op ∈ maskOps, ∀ (d a b : BitVec 4) (s : State),
    exec (op.1 d a b) s = s.kop d [a, b] (fun c => op.2 (c.t.getK a.toNat) (c.t.getK b.toNat)) := by
  simp only [maskOps, List.forall_mem_cons, List.not_mem_nil, false_implies, implies_true, and_true]
  exact ⟨fun _ _ _ _ => rfl, fun _ _ _ _ => rfl, fun _ _ _ _ => rfl, fun _ _ _ _ => rfl⟩

theorem exec_maskUnary : ∀ op ∈ maskUnary, ∀ (d a : BitVec 4) (s : State),
    exec (op.1 d a) s = s.kop d [a] (fun c => op.2 (c.t.getK a.toNat)) := by
  simp only [maskUnary, List.forall_mem_cons, List.not_mem_nil, false_implies, implies_true, and_true]
  exact ⟨fun _ _ _ => rfl, fun _ _ _ => rfl⟩

theorem exec_maskSources : ∀ op ∈ maskSources, ∀ (d : BitVec 4) (s : State),
    exec (op.1 d) s = s.kop d [] (fun c => op.2 c.o.exm c.t.deadm) := by
  simp only [maskSources, List.forall_mem_cons, List.not_mem_nil, false_implies, implies_true, and_true]
  exact ⟨fun _ _ => rfl, fun _ _ => rfl, fun _ _ => rfl, fun _ _ => rfl⟩

/-- The moves from a mask register (R347). -/
theorem exec_maskReads : ∀ op ∈ maskReads, ∀ (d : BitVec 6) (a : BitVec 4) (s : State),
    exec (op.1 d a) s = s.ktoS d a op.2 := by
  simp only [maskReads, List.forall_mem_cons, List.not_mem_nil, false_implies, implies_true, and_true]
  exact ⟨fun _ _ _ => rfl, fun _ _ _ => rfl, fun _ _ _ => rfl⟩

theorem State.stok_ready {s : State} {c : Cur} {d : BitVec 4} {a : BitVec 6}
    (h : s.ready c (kreq 0x23 [a.toNat] [] [d.toNat] [d.toNat])) :
    exec (.stok d a) s = .next (s.leaves c (kreq 0x23 [a.toNat] [] [d.toNat] [d.toNat])
      (fun t => t.setK d.toNat ((c.t.getS a.toNat).setWidth 32)) keep) := by
  change execStok d a s = _
  rw [execStok]
  exact (State.scalarGo_ready s c _ never noFault _ h rfl rfl).trans
    (congrArg _ (State.leaves_modCur s c _ keep _ keep h.1))

theorem State.ksetexm_ready {s : State} {c : Cur} {a : BitVec 4}
    (h : s.ready c { kreq 0x22 [] [] [a.toNat] [] with exm := true }) :
    exec (.ksetexm a) s = .next (s.leaves c { kreq 0x22 [] [] [a.toNat] [] with exm := true } keep
      (fun o => { o with exm := c.t.getK a.toNat &&& c.o.pm &&& ~~~ c.t.deadm })) := by
  change execKsetexm a s = _
  rw [execKsetexm]
  exact (State.scalarGo_ready s c _ never noFault _ h rfl rfl).trans
    (congrArg _ (State.leaves_keep_modPortion s c _ keep _ h.1))

/-! ### FMT -/

/-- A write of FMT after an issue. -/
theorem State.leaves_putFmt {s : State} {c : Cur} (q : SReq) (v : W64) (hc : s.cur = some c) :
    (s.leaves c q keep keep).putFmt v = s.leaves c q keep (fun o => { o with fmt := v &&& 0x37FFF }) :=
  State.leaves_keep_modPortion s c q keep _ hc

theorem State.setfmt_ready {s : State} {c : Cur} {f : BitVec 18} (h : s.ready c { sreq 0x24 [] [] with fmt := true })
    (hf : f.getLsbD 15 = false ∧ fmtOk (f.setWidth 64) = true) :
    exec (.setfmt f) s = .next (s.leaves c { sreq 0x24 [] [] with fmt := true } keep
      (fun o => { o with fmt := f.setWidth 64 &&& 0x37FFF })) := by
  obtain ⟨hzero, hok⟩ := hf
  change execSetfmt f s = _
  rw [execSetfmt]
  exact (State.scalarGo_ready s c _ _ noFault _ h (by rw [hzero, hok]; rfl) rfl).trans
    (congrArg _ (State.leaves_putFmt _ _ h.1))

theorem State.setfmt_ill {s : State} {c : Cur} {f : BitVec 18} (h : s.ready c { sreq 0x24 [] [] with fmt := true })
    (hf : ¬ (f.getLsbD 15 = false ∧ fmtOk (f.setWidth 64) = true)) :
    exec (.setfmt f) s = .next (s.scalarFault c fILLOP 0 false) := by
  change execSetfmt f s = _
  rw [execSetfmt]
  refine State.scalarGo_ill s c _ _ noFault _ h ?_
  simpa [← Bool.not_eq_true, imp_iff_not_or] using hf

theorem State.putfmt_ready {s : State} {c : Cur} {a : BitVec 6} (h : s.ready c { sreq 0x25 [a.toNat] [] with fmt := true })
    (hf : fmtOk (c.t.getS a.toNat) = true) :
    exec (.putfmt a) s = .next (s.leaves c { sreq 0x25 [a.toNat] [] with fmt := true } keep
      (fun o => { o with fmt := c.t.getS a.toNat &&& 0x37FFF })) := by
  change execPutfmt a s = _
  rw [execPutfmt]
  exact (State.scalarGo_ready s c _ _ noFault _ h (by rw [hf]; rfl) rfl).trans
    (congrArg _ (State.leaves_putFmt _ _ h.1))

theorem State.putfmt_ill {s : State} {c : Cur} {a : BitVec 6} (h : s.ready c { sreq 0x25 [a.toNat] [] with fmt := true })
    (hf : fmtOk (c.t.getS a.toNat) = false) :
    exec (.putfmt a) s = .next (s.scalarFault c fILLOP 0 false) := by
  change execPutfmt a s = _
  rw [execPutfmt]
  exact State.scalarGo_ill s c _ _ noFault _ h (by rw [hf]; rfl)

theorem State.getfmt_ready {s : State} {c : Cur} {d : BitVec 6} (h : s.ready c (sreq 0x25 [d.toNat] [d.toNat])) :
    exec (.getfmt d) s = .next (s.leaves c (sreq 0x25 [d.toNat] [d.toNat]) (fun t => t.setS d.toNat c.o.fmt) keep) := by
  change execGetfmt d s = _
  rw [execGetfmt]
  exact (State.scalarGo_ready s c _ never noFault _ h rfl rfl).trans
    (congrArg _ (State.leaves_modCur s c _ keep _ keep h.1))

end Sys2Proof.Machine

namespace Sys2Proof.Proofs
open Sys2Proof.Machine Sys2Proof.Claims

/-- Settles O3: each instruction is one register write, or one change of the portion, after its issue. -/
theorem maskAndFormatRegisters : Obligations.MaskAndFormatRegisters := by
  unfold Obligations.MaskAndFormatRegisters
  refine ⟨⟨?ops, ?unary, ?sources, ?reads, fun s c d a => State.stok_ready, fun s c a => State.ksetexm_ready⟩,
    fun s c f h => ⟨State.setfmt_ready h, State.setfmt_ill h⟩,
    fun s c a h => ⟨State.putfmt_ready h, State.putfmt_ill h⟩, fun s c d => State.getfmt_ready⟩
  case ops =>
    intro op hop s c d a b h
    rw [exec_maskOps op hop]
    exact State.kop_ready (reads := [a, b]) _ h
  case unary =>
    intro op hop s c d a h
    rw [exec_maskUnary op hop]
    exact State.kop_ready (reads := [a]) _ h
  case sources =>
    intro op hop s c d h
    rw [exec_maskSources op hop]
    exact State.kop_ready (reads := []) _ h
  case reads =>
    intro op hop s c d a h
    rw [exec_maskReads op hop]
    exact State.ktoS_ready op.2 h

end Sys2Proof.Proofs
end

section
/-! ### Special registers (R350, R351) -/

set_option Elab.async false

namespace Sys2Proof.Machine
open Sys2Proof.Claims

theorem State.mfs_ill {s : State} {c : Cur} {d : BitVec 6} {r : BitVec 8} (h : s.ready c (mfsReq c d r))
    (hr : 0x12 ≤ r.toNat) : exec (.mfs d r) s = .next (s.scalarFault c fILLOP 0 false) := by
  change execMfs d r s = _
  rw [execMfs]
  exact State.scalarGo_ill s c _ _ noFault _ h (decide_eq_true hr)

/-- MFS that is ready writes the special register's value after the issue. -/
theorem State.mfs_ready {s : State} {c : Cur} {d : BitVec 6} {r : BitVec 8} (h : s.ready c (mfsReq c d r))
    (hr : r.toNat < 0x12) :
    exec (.mfs d r) s = .next (s.leaves c (mfsReq c d r)
      (fun t => t.setS d.toNat ((s.leaves c (mfsReq c d r) keep keep).special c r.toNat)) keep) := by
  change execMfs d r s = _
  rw [execMfs]
  exact (State.scalarGo_ready s c _ _ noFault _ h (decide_eq_false (by omega)) rfl).trans
    (congrArg _ (State.leaves_modCur s c _ keep _ keep h.1))

/-- The task id is read after the charge, which keeps the generation. -/
theorem State.special_task {s : State} {c : Cur} (q : SReq) {k : Task} (hk : s.task c.t.task = some k) :
    (s.leaves c q keep keep).special c 0 = BitVec.ofNat 64 (k.gen * 65536 + c.t.task) := by
  have hpaid : (s.leaves c q keep keep).task c.t.task = some (k.charged (c.fee q)) := State.task_leaves_same hk
  simp only [State.special, hpaid]
  rfl

/-- The allowance is read after the charge. -/
theorem State.special_alw {s : State} {c : Cur} (q : SReq) {k : Task} (hk : Table.find (s.paid c q) c.t.task = some k) :
    (s.leaves c q keep keep).special c 5 = BitVec.ofNat 64 k.alw := by
  have : (s.leaves c q keep keep).task c.t.task = some k := hk
  simp [State.special, this]

/-- MTS of a number the table leaves out, or of a value that its register refuses. -/
theorem State.mts_ill {s : State} {c : Cur} {d : BitVec 6} {r : BitVec 8} (h : s.ready c (mtsReq c d r))
    (hr : 0x12 ≤ r.toNat ∨ mtsBad r.toNat (c.t.getS d.toNat) = true) :
    exec (.mts d r) s = .next (s.scalarFault c fILLOP 0 false) := by
  change execMts d r s = _
  rw [execMts]
  exact State.scalarGo_ill s c _ _ noFault _ h (by simpa using hr)

/-- MTS that is ready writes the special register after the issue. -/
theorem State.mts_ready {s : State} {c : Cur} {d : BitVec 6} {r : BitVec 8} (h : s.ready c (mtsReq c d r))
    (hr : r.toNat < 0x12) (hgood : mtsBad r.toNat (c.t.getS d.toNat) = false) :
    exec (.mts d r) s = .next ((s.leaves c (mtsReq c d r) keep keep).putSpecial c r.toNat (c.t.getS d.toNat)) := by
  change execMts d r s = _
  rw [execMts]
  exact State.scalarGo_ready s c _ _ noFault _ h (by simpa [hgood] using hr) rfl

theorem State.putSpecial_readOnly {n : Nat} (h : n ∈ readOnlySpecials) (s : State) (c : Cur) (v : W64) :
    s.putSpecial c n v = s := by
  simp only [readOnlySpecials, List.mem_cons, List.not_mem_nil, or_false] at h
  rcases h with rfl | rfl | rfl | rfl | rfl | rfl | rfl | rfl | rfl | rfl | rfl | rfl | rfl
  all_goals rfl

/-- Only FMT and LCB refuse a value. -/
theorem mtsBad_readOnly {n : Nat} (h : n ∈ readOnlySpecials) (v : W64) : mtsBad n v = false := by
  have hne : n ≠ 0x06 ∧ n ≠ 0x0C := by
    constructor
    · rintro rfl
      exact absurd h (by decide)
    · rintro rfl
      exact absurd h (by decide)
  simp [mtsBad, hne]

theorem readOnly_lt {n : Nat} (h : n ∈ readOnlySpecials) : n < 0x12 := by
  revert n
  decide

end Sys2Proof.Machine

namespace Sys2Proof.Proofs
open Sys2Proof.Machine Sys2Proof.Claims

/-- Settles O4: MFS reads the register in the issued state, and MTS writes it there. -/
theorem specialRegisters : Obligations.SpecialRegisters := by
  unfold Obligations.SpecialRegisters
  refine ⟨fun s c d r h => ⟨State.mfs_ill h, fun hr => ⟨_, State.mfs_ready h hr, ?reads⟩⟩,
    fun s c d r h => ⟨fun hr => State.mts_ill h (.inl hr), ?readOnly, ?fmt, ?exm, ?sig, ?xflags, ?lcb⟩⟩
  case reads =>
    refine ⟨?_, ?_, ?_, ?_, ?_, ?_, ?_, ?_, ?_, ?_, ?_, ?_, ?_, ?_, ?_, ?_, ?_, ?_⟩
    · rintro rfl k hk
      exact State.special_task _ hk
    case refine_6 =>
      rintro rfl k hk
      exact State.special_alw _ hk
    all_goals
      rintro rfl
      rfl
  case readOnly =>
    intro hr
    rw [State.mts_ready h (readOnly_lt hr) (mtsBad_readOnly hr _), State.putSpecial_readOnly hr]
  case fmt =>
    rintro rfl
    constructor
    · intro hv
      rw [State.mts_ready h (by decide) (by simpa [mtsBad] using hv)]
      exact congrArg _ (State.leaves_putFmt _ _ h.1)
    · intro hv
      exact State.mts_ill h (.inr (by simpa [mtsBad] using hv))
  case exm =>
    rintro rfl
    rw [State.mts_ready h (by decide) (by simp [mtsBad])]
    exact congrArg _ (State.leaves_keep_modPortion s c _ keep _ h.1)
  case sig =>
    rintro rfl
    rw [State.mts_ready h (by decide) (by simp [mtsBad])]
    exact congrArg _ (State.leaves_keep_modPortion s c _ keep _ h.1)
  case xflags =>
    rintro rfl
    rw [State.mts_ready h (by decide) (by simp [mtsBad])]
    exact congrArg _ (State.leaves_modCur s c _ keep _ keep h.1)
  case lcb =>
    rintro rfl
    constructor
    · rintro ⟨haligned, hcanonical⟩
      rw [State.mts_ready h (by decide) (by simp [mtsBad, haligned, hcanonical])]
      exact congrArg _ (State.leaves_modCur s c _ keep _ keep h.1)
    · intro hv
      exact State.mts_ill h (.inr (by simpa [mtsBad, imp_iff_not_or] using hv))

end Sys2Proof.Proofs
end

section
/-! ### WAITF, NOP, SIGC, SIGR and illegal words (R302, R304, R352-R355) -/

set_option Elab.async false

namespace Sys2Proof.Machine
open Sys2Proof.Claims

/-- The flags of a mask are clear when each flag that it names is. -/
theorem Train.flagsClear_eq (t : Train) (m : BitVec 12) :
    t.flagsClear m.toNat = (List.range 12).all (fun f => !m.getLsbD f || !t.flag f) := by
  simp only [Train.flagsClear, setBitsOf, List.all_filter, BitVec.getLsbD, Nat.testBit_eq_decide_div_mod_eq]

theorem State.waitf_ready {s : State} {c : Cur} {m : BitVec 12} (h : s.ready c (sreq 0x27 [] [])) :
    exec (.waitf m) s = .next (s.leaves c (sreq 0x27 [] []) keep
      (fun o => if (List.range 12).all (fun f => !m.getLsbD f || !c.t.flag f) then o else { o with wait := .flags m.toNat })) := by
  change execWaitf m s = _
  rw [execWaitf]
  refine (State.scalarGo_ready s c _ never noFault _ h rfl rfl).trans (congrArg _ ?_)
  rw [← Train.flagsClear_eq]
  cases c.t.flagsClear m.toNat with
  | true => rfl
  | false => exact State.leaves_keep_modPortion s c _ keep _ h.1

theorem State.nop_ready {s : State} {c : Cur} (h : s.ready c (sreq 0x29 [] [])) :
    exec .nop s = .next (s.leaves c (sreq 0x29 [] []) keep keep) := by
  change execNop s = _
  rw [execNop]
  exact State.scalarGo_ready s c _ never noFault _ h rfl rfl

/-- The pool word of a SIGC whose messages have been answered. -/
theorem State.poolWord_ok {s : State} {c : Cur} {p : BitVec 16} {w : Nat}
    (hlost : s.codeLost c.core (portionOwner c.core c.slot c.p) (c.pslot s) (c.t.lcb.toNat + 4 * p.toNat) = false)
    (hw : s.codeAt c.core (c.pslot s) (c.t.lcb.toNat + 4 * p.toNat) 4 = .ok w) : s.poolWord c p = .ok w := by
  simp only [State.poolWord, poolVa, hlost, hw]
  rfl

theorem State.sigc_match {s : State} {c : Cur} {p : BitVec 16} {w : Nat} (h : s.ready c (sigcReq s p c))
    (hw : s.poolWord c p = .ok w) (hsig : c.o.sig.toNat = w ∧ c.t.lineage = false) :
    exec (.sigc p) s = .next (s.leaves c (sigcReq s p c) keep (fun o => { o with sig := 0 })) := by
  change execSigc p s = _
  rw [execSigc]
  refine (State.scalarGo_ready s c _ never _ _ h rfl (by simp [hw, hsig])).trans (congrArg _ ?_)
  rw [hw]
  exact State.leaves_keep_modPortion s c _ keep _ h.1

theorem State.sigc_mismatch {s : State} {c : Cur} {p : BitVec 16} {w : Nat} (h : s.ready c (sigcReq s p c))
    (hw : s.poolWord c p = .ok w) (hsig : ¬ (c.o.sig.toNat = w ∧ c.t.lineage = false)) :
    exec (.sigc p) s = .next (s.scalarFault c fSIGMIS 0 false) := by
  change execSigc p s = _
  rw [execSigc]
  refine State.scalarGo_fault s c _ never _ _ (fSIGMIS, 0) h rfl ?_
  simpa [hw, ← imp_iff_not_or] using hsig

theorem State.sigr_ready {s : State} {c : Cur} (h : s.ready c sigReq) :
    exec .sigr s = .next (s.leaves c sigReq keep (fun o => { o with sig := 0 })) := by
  change execSigr s = _
  rw [execSigr]
  exact (State.scalarGo_ready s c _ never noFault _ h rfl rfl).trans
    (congrArg _ (State.leaves_keep_modPortion s c _ keep _ h.1))

/-! ### Words that name no instruction -/

theorem Cur.mustWait_bare (c : Cur) (op : Nat) : c.mustWait { op := op } = false := by
  have hawaits : c.t.awaits { op := op } = false := by
    rw [Train.awaits, List.any_eq_false]
    intro e _
    cases e.2.dest <;> simp
  have hclauses : c.o.clauses.any (fun cl => cl.holdsBack { op := op }) = false := by
    rw [List.any_eq_false]
    intro cl _
    cases hu : cl.uses <;> simp [Clause.holdsBack, hu]
  simp [Cur.mustWait, hawaits, hclauses]

/-- A scalar word that names no register and is ill-formed faults ILLOP whatever the task can pay: the order of R303 asks
for the allowance after the form. -/
theorem State.scalarGo_illegal {s : State} {c : Cur} (op : Nat) (pre : Cur → Option (Nat × Nat)) (eff : Cur → State → State)
    (hc : s.cur = some c) (hm : s.scalarMay c = true) :
    s.scalarGo (fun _ => { op := op }) (fun _ => true) pre eff = .next (s.scalarFault c fILLOP 0 false) := by
  unfold State.scalarGo
  rw [hc]
  simp [hm, Cur.mustWait_bare, SReq.breach]

theorem Train.awaitsLane_bare (t : Train) (p op : Nat) : t.awaitsLane p { op := op } = false := by
  rw [Train.awaitsLane, List.any_eq_false]
  intro e _
  cases e.2.dest <;> simp

/-- And a lane word. -/
theorem State.laneGo_illegal {s : State} {x : LCtx} (op : Nat) (eff : LCtx → State → State) (hc : s.cur = some x.c)
    (hcl : x.c.clause = some x.cl) (hact : x.act = live x.cl.exm x.c.t.deadm) (hm : s.laneMay x.c = true) :
    s.laneGo (fun _ => { op := op }) (fun _ => true) eff = .next (s.laneFault x fILLOP 0) := by
  obtain ⟨c, cl, act⟩ := x
  simp only at *
  subst hact
  unfold State.laneGo State.laneTry
  rw [hc]
  simp only [hcl]
  simp [hm, Train.awaitsLane_bare, LReq.breach]

end Sys2Proof.Machine

namespace Sys2Proof.Proofs
open Sys2Proof.Machine Sys2Proof.Claims

/-- Settles O5: WAITF, SIGC and SIGR are one change of the portion after the issue, and an illegal word faults before the charge. -/
theorem waitsSignaturesAndIllegalWords : Obligations.WaitsSignaturesAndIllegalWords := by
  unfold Obligations.WaitsSignaturesAndIllegalWords
  refine ⟨⟨fun s c m => State.waitf_ready, by decide +kernel, fun s c => State.nop_ready⟩,
    ⟨fun s c p w h hlost hw => ?sigc, fun s c => State.sigr_ready⟩, by decide +kernel, by decide +kernel, ?scalar, ?lane⟩
  case sigc =>
    have hword := State.poolWord_ok hlost hw
    exact ⟨State.sigc_match h hword, State.sigc_mismatch h hword⟩
  case scalar =>
    intro s c hc hm
    refine ⟨State.scalarGo_illegal 0x3F noFault (fun _ s => s) hc hm, fun hev => ?_⟩
    change execIllegalEncoding s = _
    rw [execIllegalEncoding, hev]
    exact State.scalarGo_illegal 0 noFault (fun _ s => s) hc hm
  case lane =>
    intro s x hev hc hcl hact hm
    change execIllegalEncoding s = _
    rw [execIllegalEncoding, hev]
    exact State.laneGo_illegal 0 (fun _ s => s) hc hcl hact hm

end Sys2Proof.Proofs
end

section
/-! ### Lane results: the forms that lane instructions share (R252, R316, R356, R361-R364) -/

set_option Elab.async false

namespace Sys2Proof.Machine
open Sys2Proof.Claims

section
variable {s : State} {x : LCtx} {sp : LRSpec} {op cost : Nat} {o : LR} {bad : Bool} {eff : LCtx → State → State}

/-- An LR word that is ready and well formed has its effect on the issued state. -/
theorem State.laneLr_ready (h : s.readyLane x (lrNeeds sp op cost o x)) (hgood : bad = false) :
    s.laneLr sp op cost o bad eff = .next (eff x (s.leavesLane x (lrNeeds sp op cost o x) keep)) := by
  rw [State.laneLr, State.laneGo]
  exact State.laneTry_ready s x _ _ noPre eff h hgood rfl

/-- One that is not well formed faults ILLOP. -/
theorem State.laneLr_ill (h : s.readyLane x (lrNeeds sp op cost o x)) (hbad : bad = true) :
    s.laneLr sp op cost o bad eff = .next (s.laneFault x fILLOP 0) := by
  rw [State.laneLr, State.laneGo]
  exact State.laneTry_ill s x _ _ noPre eff h hbad

end

section
variable {s : State} {x : LCtx} {q : LReq}

/-- A change of the train right after the issue. -/
theorem State.leavesLane_keep_modCur (hc : s.cur = some x.c) (f : Train → Train) :
    (s.leavesLane x q keep).modCur f = s.leavesLane x q f :=
  State.leavesLane_modCur s x q keep f hc

/-- Typed results after an issue. -/
theorem State.leavesLane_putTyped (hc : s.cur = some x.c) (d typ : Nat) (f : Nat → FRes) :
    (s.leavesLane x q keep).putTyped x d typ f = s.leavesLane x q (typed x d typ f) := by
  have hvalues : ((lanesOf x.act).map (fun l => (l, f l))).map (fun r => (r.1, resultWords typ r.2.1)) =
      (lanesOf x.act).map (fun l => (l, resultWords typ (f l).1)) := by
    rw [List.map_map]
    rfl
  rw [State.putTyped, hvalues, List.foldl_map, State.putLanes, State.leavesLane_keep_modCur hc]
  rfl

/-- The bits of a mask register after an issue. -/
theorem State.leavesLane_putMaskIn (hc : s.cur = some x.c) (k : BitVec 4) (f : Nat → Bool) :
    (s.leavesLane x q keep).putMaskIn x k f = s.leavesLane x q (maskIn x k f) :=
  State.leavesLane_keep_modCur hc _

/-- A whole mask register after an issue. -/
theorem State.leavesLane_putMask (hc : s.cur = some x.c) (k : BitVec 4) (v : W32) :
    (s.leavesLane x q keep).putMask x k v = s.leavesLane x q (fun t => t.laneK x.c.p k.toNat v) :=
  State.leavesLane_keep_modCur hc _

end

section
variable {s : State} {x : LCtx} {sp : LRSpec} {op : Nat} {o : LR} {bad : Bool}

theorem State.laneInt_ready {f : Int → Int → Int → Int} (h : s.readyLane x (lrNeeds sp op 1 o x)) (hgood : bad = false) :
    s.laneInt sp op o bad f = .next (s.leavesLane x (lrNeeds sp op 1 o x) (typed x o.d.toNat o.typ.toNat
      (fun l => intFinal o.typ.toNat o.sat (f (x.int o.a o.imm o.typ.toNat l) (x.int o.b o.imm o.typ.toNat l)
        (x.int o.c o.imm o.typ.toNat l))))) := by
  rw [State.laneInt, State.laneLr_ready h hgood]
  exact congrArg _ (State.leavesLane_putTyped h.1 _ _ _)

theorem State.laneInt_ill {f : Int → Int → Int → Int} (h : s.readyLane x (lrNeeds sp op 1 o x)) (hbad : bad = true) :
    s.laneInt sp op o bad f = .next (s.laneFault x fILLOP 0) := by
  rw [State.laneInt, State.laneLr_ill h hbad]

theorem State.laneBits_ready {f : Nat → Nat → Nat → Nat → Nat} (h : s.readyLane x (lrNeeds sp op 1 o x)) (hgood : bad = false) :
    s.laneBits sp op o bad f = .next (s.leavesLane x (lrNeeds sp op 1 o x) (typed x o.d.toNat o.typ.toNat
      (fun l => (f (typWidth o.typ.toNat) (x.src o.a.toNat o.imm o.typ.toNat l)
        (if sp.b = .w32 then x.u32 o.b o.imm l else x.src o.b.toNat o.imm o.typ.toNat l)
        (x.src o.c.toNat o.imm o.typ.toNat l), 0)))) := by
  rw [State.laneBits, State.laneLr_ready h hgood]
  exact congrArg _ (State.leavesLane_putTyped h.1 _ _ _)

theorem State.laneBits_ill {f : Nat → Nat → Nat → Nat → Nat} (h : s.readyLane x (lrNeeds sp op 1 o x)) (hbad : bad = true) :
    s.laneBits sp op o bad f = .next (s.laneFault x fILLOP 0) := by
  rw [State.laneBits, State.laneLr_ill h hbad]

end

/-! The instructions as the forms' functions. -/

theorem exec_imulh (o : LR) (s : State) :
    exec (.imulh o) s = s.laneInt Row.int2 0x004 o (!(Instr.imulh o).wf) (fun x y _ => Int.fdiv (x * y) (2 ^ typWidth o.typ.toNat : Nat)) := by
  simp only [Int.fdiv_eq_ediv_of_nonneg _ (Int.natCast_nonneg _)]
  rfl

theorem exec_iabs (o : LR) (s : State) :
    exec (.iabs o) s = s.laneInt Row.iabs 0x006 o (!(Instr.iabs o).wf) (fun x _ _ => if x < 0 then -x else x) := by
  have habs (x : Int) : (if x < 0 then -x else x) = (x.natAbs : Int) := by split <;> omega
  simp only [habs]
  rfl

theorem exec_exactOps : ∀ op ∈ exactOps, ∀ (o : LR) (s : State),
    exec (op.1 o) s = s.laneInt op.2.2.1 op.2.1 o (!(op.1 o).wf) (op.2.2.2 o) := by
  simp only [exactOps, List.forall_mem_cons, List.not_mem_nil, false_implies, implies_true, and_true]
  exact ⟨fun _ _ => rfl, fun _ _ => rfl, fun _ _ => rfl, exec_imulh, fun _ _ => rfl, exec_iabs, fun _ _ => rfl,
    fun _ _ => rfl, fun _ _ => rfl⟩

theorem exec_bitOps : ∀ op ∈ bitOps, ∀ (o : LR) (s : State),
    exec (op.1 o) s = s.laneBits op.2.2.1 op.2.1 o (!(op.1 o).wf) (op.2.2.2 o) := by
  simp only [bitOps, List.forall_mem_cons, List.not_mem_nil, false_implies, implies_true, and_true]
  exact ⟨fun _ _ => rfl, fun _ _ => rfl, fun _ _ => rfl, fun _ _ => rfl, fun _ _ => rfl, fun _ _ => rfl, fun _ _ => rfl,
    fun _ _ => rfl, fun _ _ => rfl, fun _ _ => rfl, fun _ _ => rfl, fun _ _ => rfl, fun _ _ => rfl, fun _ _ => rfl,
    fun _ _ => rfl⟩

theorem State.lnop_ready {s : State} {x : LCtx} {o : LR} (h : s.readyLane x { op := 0x000 }) (hwf : (Instr.lnop o).wf = true) :
    exec (.lnop o) s = .next (s.leavesLane x { op := 0x000 } keep) := by
  change execLnop o s = _
  rw [execLnop, State.laneGo]
  exact State.laneTry_ready s x _ _ noPre _ h (by rw [hwf]; rfl) rfl

theorem State.lnop_ill {s : State} {x : LCtx} {o : LR} (h : s.readyLane x { op := 0x000 }) (hwf : (Instr.lnop o).wf = false) :
    exec (.lnop o) s = .next (s.laneFault x fILLOP 0) := by
  change execLnop o s = _
  rw [execLnop, State.laneGo]
  exact State.laneTry_ill s x _ _ noPre _ h (by rw [hwf]; rfl)

end Sys2Proof.Machine

namespace Sys2Proof.Proofs
open Sys2Proof.Machine Sys2Proof.Claims

/-- Settles O27: each instruction is one of the two shared forms with its own function. -/
theorem laneIntegerResults : Obligations.LaneIntegerResults := by
  unfold Obligations.LaneIntegerResults
  refine ⟨?exact, ?bits, fun s x o h => ⟨State.lnop_ready h, State.lnop_ill h⟩⟩
  case exact =>
    intro op hop s x o h
    rw [exec_exactOps op hop]
    exact ⟨fun hwf => State.laneInt_ready h (by rw [hwf]; rfl), fun hwf => State.laneInt_ill h (by rw [hwf]; rfl)⟩
  case bits =>
    intro op hop s x o h
    rw [exec_bitOps op hop]
    exact ⟨fun hwf => State.laneBits_ill h (by rw [hwf]; rfl), fun hwf => State.laneBits_ready h (by rw [hwf]; rfl)⟩

end Sys2Proof.Proofs
end

section
/-! ### How an integer result is finished (R252) -/

set_option Elab.async false

namespace Sys2Proof.Machine
open Sys2Proof.Claims

/-! The rows of integer instructions take neither a rounding mode nor FTZ. -/

theorem LR.ok_eq_false {sp : LRSpec} {o : LR} (hrnd : sp.rnd = false) (hftz : sp.ftz = false) (h : o.rnd ≠ 0 ∨ o.ftz = true) :
    LR.ok sp o = false := by
  rcases h with hr | hf
  · have hr : (o.rnd == 0) = false := by simpa using hr
    simp only [LR.ok, hrnd, hr, Bool.false_eq_true, if_false, Bool.and_false, Bool.false_and]
  · simp [LR.ok, hftz, hf]

theorem exactOps_row : ∀ op ∈ exactOps, (∀ o, (op.1 o).wf = LR.ok op.2.2.1 o) ∧ op.2.2.1.rnd = false ∧ op.2.2.1.ftz = false := by
  simp only [exactOps, List.forall_mem_cons, List.not_mem_nil, false_implies, implies_true, and_true]
  exact ⟨⟨fun _ => rfl, rfl, rfl⟩, ⟨fun _ => rfl, rfl, rfl⟩, ⟨fun _ => rfl, rfl, rfl⟩, ⟨fun _ => rfl, rfl, rfl⟩,
    ⟨fun _ => rfl, rfl, rfl⟩, ⟨fun _ => rfl, rfl, rfl⟩, ⟨fun _ => rfl, rfl, rfl⟩, ⟨fun _ => rfl, rfl, rfl⟩,
    ⟨fun _ => rfl, rfl, rfl⟩⟩

theorem bitOps_row : ∀ op ∈ bitOps, (∀ o, (op.1 o).wf = LR.ok op.2.2.1 o) ∧ op.2.2.1.rnd = false ∧ op.2.2.1.ftz = false := by
  simp only [bitOps, List.forall_mem_cons, List.not_mem_nil, false_implies, implies_true, and_true]
  exact ⟨⟨fun _ => rfl, rfl, rfl⟩, ⟨fun _ => rfl, rfl, rfl⟩, ⟨fun _ => rfl, rfl, rfl⟩, ⟨fun _ => rfl, rfl, rfl⟩,
    ⟨fun _ => rfl, rfl, rfl⟩, ⟨fun _ => rfl, rfl, rfl⟩, ⟨fun _ => rfl, rfl, rfl⟩, ⟨fun _ => rfl, rfl, rfl⟩,
    ⟨fun _ => rfl, rfl, rfl⟩, ⟨fun _ => rfl, rfl, rfl⟩, ⟨fun _ => rfl, rfl, rfl⟩, ⟨fun _ => rfl, rfl, rfl⟩,
    ⟨fun _ => rfl, rfl, rfl⟩, ⟨fun _ => rfl, rfl, rfl⟩, ⟨fun _ => rfl, rfl, rfl⟩⟩

/-- The instructions that are an LR word of their row and no more. -/
theorem State.laneLr_row_ill {s : State} {x : LCtx} {sp : LRSpec} {op cost : Nat} {o : LR} {wf : Bool} {eff : LCtx → State → State}
    (hwf : wf = LR.ok sp o) (hrnd : sp.rnd = false) (hftz : sp.ftz = false) (ho : o.rnd ≠ 0 ∨ o.ftz = true)
    (h : s.readyLane x (lrNeeds sp op cost o x)) : s.laneLr sp op cost o (!wf) eff = .next (s.laneFault x fILLOP 0) :=
  State.laneLr_ill h (by rw [hwf, LR.ok_eq_false hrnd hftz ho]; rfl)

/-- An integer instruction with a rounding mode or FTZ faults ILLOP. -/
theorem integerOps_ill : ∀ op ∈ integerOps, ∀ (s : State) (x : LCtx) (o : LR), (o.rnd ≠ 0 ∨ o.ftz = true) →
    s.readyLane x (lrNeeds op.2.2.1 op.2.1 op.2.2.2 o x) → exec (op.1 o) s = .next (s.laneFault x fILLOP 0) := by
  simp only [integerOps, List.forall_mem_append, List.forall_mem_map, List.forall_mem_cons, List.not_mem_nil, false_implies,
    implies_true, and_true, and_assoc]
  refine ⟨?exact, ?bits, ?permb, ?icmp, ?sel, ?idiv, ?irem⟩
  case exact =>
    intro op hop s x o ho h
    obtain ⟨hwf, hrnd, hftz⟩ := exactOps_row op hop
    rw [exec_exactOps op hop]
    exact State.laneInt_ill h (by rw [hwf, LR.ok_eq_false hrnd hftz ho]; rfl)
  case bits =>
    intro op hop s x o ho h
    obtain ⟨hwf, hrnd, hftz⟩ := bitOps_row op hop
    rw [exec_bitOps op hop]
    exact State.laneBits_ill h (by rw [hwf, LR.ok_eq_false hrnd hftz ho]; rfl)

  case permb =>
    intro s x o ho h
    change execPermb o s = _
    exact State.laneLr_row_ill rfl rfl rfl ho h
  case icmp =>
    intro s x o ho h
    change execIcmp o s = _
    exact State.laneLr_row_ill rfl rfl rfl ho h
  case sel =>
    intro s x o ho h
    change execSel o s = _
    exact State.laneLr_row_ill rfl rfl rfl ho h
  case idiv =>
    intro s x o ho h
    change execIdiv o s = _
    exact State.laneLr_row_ill rfl rfl rfl ho h
  case irem =>
    intro s x o ho h
    change execIrem o s = _
    exact State.laneLr_row_ill rfl rfl rfl ho h

/-! The finished result. -/

theorem two_pow_typWidth (t : Nat) : 2 ^ typWidth t = 2 * 2 ^ (typWidth t - 1) := by
  have hpos : 0 < typWidth t := by
    unfold typWidth
    split_ifs
    all_goals decide
  rw [← pow_succ', Nat.sub_add_cancel hpos]

/-- A value in the range of its type reads back from its pattern. -/
theorem intOf_wrapped {t : Nat} {v : Int} (hlo : intLo t ≤ v) (hhi : v ≤ intHi t) :
    intOf t (v % (2 ^ typWidth t : Nat)).toNat = v := by
  have hm := two_pow_typWidth t
  have hhalf : 0 < 2 ^ (typWidth t - 1) := by positivity
  unfold intLo at hlo
  unfold intHi at hhi
  unfold intOf toSigned
  generalize 2 ^ (typWidth t - 1) = half at *
  generalize 2 ^ typWidth t = m at *
  have hnonneg (h : 0 ≤ v) (hv : v < m) : (v % (m : Int)).toNat % m = v.toNat := by
    rw [Int.emod_eq_of_lt h hv, Nat.mod_eq_of_lt (by omega)]
  cases hs : typSigned t
  · simp only [hs, Bool.false_eq_true, if_false] at *
    rw [hnonneg hlo (by omega)]
    omega
  · simp only [hs, if_true] at *
    by_cases hv : 0 ≤ v
    · rw [hnonneg hv (by omega), if_pos (by omega)]
      omega
    · have hneg : v % (m : Int) = v + m := by
        rw [← Int.add_emod_right, Int.emod_eq_of_lt (by omega) (by omega)]
      rw [hneg, Nat.mod_eq_of_lt (by omega), if_neg (by omega)]
      omega

theorem intLo_le_intHi (t : Nat) : intLo t ≤ intHi t := by
  have hm := two_pow_typWidth t
  have hhalf : 0 < 2 ^ (typWidth t - 1) := by positivity
  unfold intLo intHi
  split
  · omega
  · omega

theorem toNat_emod_lt (r : Int) (w : Nat) : (r % (2 ^ w : Nat)).toNat < 2 ^ w := by
  have hpos : 0 < (2 ^ w : Nat) := by positivity
  have := Int.emod_lt_of_pos r (Int.natCast_pos.mpr hpos)
  omega

/-- The clamp of R252, by where the exact value lies. -/
theorem intFinal_sat_mid {t : Nat} {r : Int} (hlo : intLo t ≤ r) (hhi : r ≤ intHi t) :
    intFinal t true r = ((r % (2 ^ typWidth t : Nat)).toNat, 0) := by
  simp [intFinal, min_eq_right hhi, max_eq_right hlo]

theorem intFinal_sat_low {t : Nat} {r : Int} (hlo : r < intLo t) :
    intFinal t true r = ((intLo t % (2 ^ typWidth t : Nat)).toNat, gSAT) := by
  have hhi := intLo_le_intHi t
  simp [intFinal, min_eq_right (show r ≤ intHi t by omega), max_eq_left hlo.le, hlo.ne']

theorem intFinal_sat_high {t : Nat} {r : Int} (hhi : intHi t < r) :
    intFinal t true r = ((intHi t % (2 ^ typWidth t : Nat)).toNat, gSAT) := by
  have hlo := intLo_le_intHi t
  simp [intFinal, min_eq_left hhi.le, max_eq_right hlo, hhi.ne]

theorem intFinal_sat_lt (t : Nat) (r : Int) : (intFinal t true r).1 < 2 ^ typWidth t := toNat_emod_lt _ _
theorem intFinal_wrap (t : Nat) (r : Int) : intFinal t false r = ((r % (2 ^ typWidth t : Nat)).toNat, 0) := rfl

theorem intFinal_wrap_emod (t : Nat) (r : Int) :
    ((intFinal t false r).1 : Int) % (2 ^ typWidth t : Nat) = r % (2 ^ typWidth t : Nat) := by
  have hpos : ((2 ^ typWidth t : Nat) : Int) ≠ 0 := by positivity
  rw [intFinal_wrap, Int.toNat_of_nonneg (Int.emod_nonneg _ hpos), Int.emod_emod_of_dvd _ (dvd_refl _)]

end Sys2Proof.Machine

namespace Sys2Proof.Proofs
open Sys2Proof.Machine Sys2Proof.Claims

/-- Settles O29: the rows allow no rounding mode, and the finished value is the exact one, wrapped or clamped. -/
theorem integerFinish : Obligations.IntegerFinish := by
  unfold Obligations.IntegerFinish
  refine ⟨integerOps_ill, fun t r _ => ⟨intFinal_sat_lt t r, toNat_emod_lt r _, intFinal_wrap_emod t r, rfl, ?mid, ?low, ?high⟩⟩
  case mid =>
    intro hlo hhi
    rw [intFinal_sat_mid hlo hhi, intFinal_wrap]
    exact ⟨intOf_wrapped hlo hhi, rfl, intOf_wrapped hlo hhi⟩
  case low =>
    intro hlo
    rw [intFinal_sat_low hlo]
    exact ⟨intOf_wrapped le_rfl (intLo_le_intHi t), rfl⟩
  case high =>
    intro hhi
    rw [intFinal_sat_high hhi]
    exact ⟨intOf_wrapped (intLo_le_intHi t) le_rfl, rfl⟩

end Sys2Proof.Proofs
end

section
/-! ### Select, compare, division and the cross-lane instructions (R365-R375) -/

set_option Elab.async false

namespace Sys2Proof.Machine
open Sys2Proof.Claims

section
variable {s : State} {x : LCtx} {sp : LRSpec} {op cost : Nat} {o : LR} {bad : Bool}

/-- An LR word whose effect is a typed result. -/
theorem State.laneLr_typed {d typ : LCtx → Nat} {f : LCtx → Nat → FRes} (h : s.readyLane x (lrNeeds sp op cost o x))
    (hgood : bad = false) :
    s.laneLr sp op cost o bad (fun x s => s.putTyped x (d x) (typ x) (f x)) =
      .next (s.leavesLane x (lrNeeds sp op cost o x) (typed x (d x) (typ x) (f x))) := by
  rw [State.laneLr_ready h hgood]
  exact congrArg _ (State.leavesLane_putTyped h.1 _ _ _)

/-- An LR word whose effect is a mask register written whole. -/
theorem State.laneLr_mask {k : BitVec 4} {v : LCtx → W32} (h : s.readyLane x (lrNeeds sp op cost o x)) (hgood : bad = false) :
    s.laneLr sp op cost o bad (fun x s => s.putMask x k (v x)) =
      .next (s.leavesLane x (lrNeeds sp op cost o x) (fun t => t.laneK x.c.p k.toNat (v x))) := by
  rw [State.laneLr_ready h hgood]
  exact congrArg _ (State.leavesLane_putMask h.1 _ _)

end

section
variable {s : State} {x : LCtx} {o : LR}

theorem State.permb_ready (h : s.readyLane x (lrNeeds Row.permb 0x018 1 o x)) (hwf : (Instr.permb o).wf = true) :
    exec (.permb o) s = .next (s.leavesLane x (lrNeeds Row.permb 0x018 1 o x) (typed x o.d.toNat 5 (fun l =>
      ((List.range 4).foldl (fun v i => v + permByte (x.u32 o.a o.imm l) (x.u32 o.b o.imm l) (x.u32 o.c o.imm l) i * 2 ^ (8 * i)) 0, 0)))) := by
  change execPermb o s = _
  rw [execPermb, hwf]
  exact State.laneLr_typed h rfl

theorem State.icmp_ready (h : s.readyLane x (lrNeeds Row.icmp 0x019 1 o x)) (hwf : (Instr.icmp o).wf = true) :
    exec (.icmp o) s = .next (s.leavesLane x (lrNeeds Row.icmp 0x019 1 o x) (maskIn x o.kd (fun l =>
      intCond o.d.toNat (x.int o.a o.imm o.typ.toNat l) (x.int o.b o.imm o.typ.toNat l)))) := by
  change execIcmp o s = _
  rw [execIcmp, State.laneLr_ready h (by rw [hwf]; rfl)]
  exact congrArg _ (State.leavesLane_putMaskIn h.1 _ _)

/-- SEL chooses the selector, which is the same as choosing the operand. -/
theorem State.sel_ready (h : s.readyLane x (lrNeeds Row.sel 0x01A 1 o x)) (hwf : (Instr.sel o).wf = true) :
    exec (.sel o) s = .next (s.leavesLane x (lrNeeds Row.sel 0x01A 1 o x) (typed x o.d.toNat o.typ.toNat (fun l =>
      (if (x.getK o.kd.toNat).getLsbD l then x.src o.a.toNat o.imm o.typ.toNat l else x.src o.b.toNat o.imm o.typ.toNat l, 0)))) := by
  change execSel o s = _
  have hpick (l : Nat) := apply_ite (fun sel => x.src sel o.imm o.typ.toNat l) ((x.getK o.kd.toNat).getLsbD l = true) o.a.toNat o.b.toNat
  simp only [← hpick]
  rw [execSel, hwf]
  exact State.laneLr_typed h rfl

theorem State.idiv_ready (h : s.readyLane x (lrNeeds Row.idiv 0x01C 4 o x)) (hwf : (Instr.idiv o).wf = true) :
    exec (.idiv o) s = .next ((s.leavesLane x (lrNeeds Row.idiv 0x01C 4 o x) keep).putLate x o.d.toNat o.typ.toNat o.fs (fun l =>
      divide o.typ.toNat o.sat (x.int o.a o.imm o.typ.toNat l) (x.int o.b o.imm o.typ.toNat l))) := by
  change execIdiv o s = _
  rw [execIdiv, State.laneLr_ready h (by rw [hwf]; rfl)]

theorem State.irem_ready (h : s.readyLane x (lrNeeds Row.irem 0x01D 4 o x)) (hwf : (Instr.irem o).wf = true) :
    exec (.irem o) s = .next ((s.leavesLane x (lrNeeds Row.irem 0x01D 4 o x) keep).putLate x o.d.toNat o.typ.toNat o.fs (fun l =>
      remainder o.typ.toNat (x.int o.a o.imm o.typ.toNat l) (x.int o.b o.imm o.typ.toNat l))) := by
  change execIrem o s = _
  rw [execIrem, State.laneLr_ready h (by rw [hwf]; rfl)]

theorem State.vote_ready (h : s.readyLane x (lrNeeds Row.vote 0x084 1 o x)) (hwf : (Instr.vote o).wf = true) :
    exec (.vote o) s = .next (s.leavesLane x (lrNeeds Row.vote 0x084 1 o x) (fun t =>
      t.laneK x.c.p o.kd.toNat (maskOf ((lanesOf x.act).filter (fun l => decide (x.u32 o.a o.imm l ≠ 0)))))) := by
  change execVote o s = _
  rw [execVote, hwf]
  exact State.laneLr_mask h rfl

/-- The lowest live active lane as a mask (R372). -/
theorem State.elect_ready (h : s.readyLane x (lrNeeds Row.elect 0x087 1 o x)) (hwf : (Instr.elect o).wf = true) :
    exec (.elect o) s = .next (s.leavesLane x (lrNeeds Row.elect 0x087 1 o x) (fun t =>
      t.laneK x.c.p o.kd.toNat (match lanesOf x.act with
        | [] => 0
        | l :: _ => 1#32 <<< l))) := by
  change execElect o s = _
  rw [execElect, hwf]
  exact State.laneLr_mask h rfl

theorem State.redu_ready (h : s.readyLane x (lrNeeds foldRow 0x085 (if o.typ.toNat = 11 then 2 else 1) o x))
    (hwf : (Instr.redu o).wf = true) :
    exec (.redu o) s = .next (s.leavesLane x (lrNeeds foldRow 0x085 (if o.typ.toNat = 11 then 2 else 1) o x)
      (typed x o.d.toNat o.typ.toNat (fun _ => x.fold o (lanesOf x.act)))) := by
  change execRedu o s = _
  rw [execRedu, hwf]
  exact State.laneLr_typed h rfl

theorem State.scan_ready (h : s.readyLane x (lrNeeds foldRow 0x086 (if o.typ.toNat = 11 then 2 else 1) o x))
    (hwf : (Instr.scan o).wf = true) :
    exec (.scan o) s = .next (s.leavesLane x (lrNeeds foldRow 0x086 (if o.typ.toNat = 11 then 2 else 1) o x)
      (typed x o.d.toNat o.typ.toNat (fun l =>
        x.fold o ((lanesOf x.act).filter (fun k => if o.kd.getLsbD 3 then decide (k < l) else decide (k ≤ l)))))) := by
  change execScan o s = _
  rw [execScan, hwf]
  exact State.laneLr_typed h rfl

end

/-- The shuffles with their source lanes. -/
theorem exec_shuffles : ∀ op ∈ shuffles, ∀ (o : LR) (s : State), exec (op.1 o) s = s.shuffle op.2.1 o (!(op.1 o).wf) op.2.2 := by
  simp only [shuffles, List.forall_mem_cons, List.not_mem_nil, false_implies, implies_true, and_true]
  exact ⟨fun _ _ => rfl, fun _ _ => rfl, fun _ _ => rfl, fun _ _ => rfl⟩

theorem State.shuffle_ready {s : State} {x : LCtx} {op : Nat} {o : LR} {bad : Bool} {src : Nat → Nat → Nat → Nat → Nat}
    (h : s.readyLane x (lrNeeds Row.shfl op 1 o x)) (hgood : bad = false) :
    s.shuffle op o bad src = .next (s.leavesLane x (lrNeeds Row.shfl op 1 o x) (typed x o.d.toNat o.typ.toNat (fun l =>
      (fun (w : Nat) => (fun (k : Nat) => if x.c.t.deadm.getLsbD k then (0, 0x100) else (x.src o.a.toNat o.imm o.typ.toNat k, 0))
        (src l w (l / w * w) (x.u32 o.b o.imm l))) (32 / 2 ^ min (x.u32 o.c o.imm l % 8) 5)))) := by
  rw [State.shuffle]
  exact State.laneLr_typed h hgood

end Sys2Proof.Machine

namespace Sys2Proof.Proofs
open Sys2Proof.Machine Sys2Proof.Claims

/-- Settles O28: each instruction is one typed result, one mask register or one late result after the issue. -/
theorem laneSelectAndCrossLane : Obligations.LaneSelectAndCrossLane := by
  unfold Obligations.LaneSelectAndCrossLane
  refine ⟨⟨fun s x o => State.permb_ready, fun s x o => State.icmp_ready, fun s x o => State.sel_ready,
    fun s x o => State.idiv_ready, fun s x o => State.irem_ready⟩, ?shuffles, fun s x o => State.vote_ready,
    fun s x o => State.elect_ready, fun s x o => State.redu_ready, fun s x o => State.scan_ready⟩
  intro op hop s x o h hwf
  rw [exec_shuffles op hop]
  exact State.shuffle_ready h (by rw [hwf]; rfl)

end Sys2Proof.Proofs
end

section
/-! ### Lane floating point and conversions (R377-R396) -/

set_option Elab.async false

namespace Sys2Proof.Machine
open Sys2Proof.Claims

theorem fcost_eq (o : LR) (n : Nat) : fcost o n = f64Cost o.typ.toNat n := rfl

section
variable {s : State} {x : LCtx} {sp : LRSpec} {op : Nat} {o : LR} {bad : Bool}

theorem State.laneFloat_ready {f : FFmt → Nat → Nat → Nat → Nat → FRes} (h : s.readyLane x (lrNeeds sp op (fcost o 1) o x))
    (hgood : bad = false) :
    s.laneFloat sp op o bad f = .next (s.leavesLane x (lrNeeds sp op (fcost o 1) o x) (typed x o.d.toNat o.typ.toNat (x.float o f))) := by
  rw [State.laneFloat]
  exact State.laneLr_typed h hgood

theorem State.laneLong_ready {f : FFmt → Nat → Nat → Nat → Nat → FRes} (h : s.readyLane x (lrNeeds sp op (fcost o 4) o x))
    (hgood : bad = false) :
    s.laneLong sp op o bad f = .next ((s.leavesLane x (lrNeeds sp op (fcost o 4) o x) keep).putLate x o.d.toNat o.typ.toNat o.fs (x.float o f)) := by
  rw [State.laneLong]
  exact State.laneLr_ready h hgood

end

theorem exec_floatOps : ∀ op ∈ floatOps, ∀ (o : LR) (s : State),
    exec (op.1 o) s = s.laneFloat op.2.2.1 op.2.1 o (!(op.1 o).wf) (op.2.2.2 o) := by
  simp only [floatOps, List.forall_mem_cons, List.not_mem_nil, false_implies, implies_true, and_true]
  exact ⟨fun _ _ => rfl, fun _ _ => rfl, fun _ _ => rfl, fun _ _ => rfl, fun _ _ => rfl, fun _ _ => rfl, fun _ _ => rfl⟩

theorem exec_longOps : ∀ op ∈ longOps, ∀ (o : LR) (s : State),
    exec (op.1 o) s = s.laneLong op.2.2.1 op.2.1 o (!(op.1 o).wf) (op.2.2.2 o) := by
  simp only [longOps, List.forall_mem_cons, List.not_mem_nil, false_implies, implies_true, and_true]
  exact ⟨fun _ _ => rfl, fun _ _ => rfl, fun _ _ => rfl, fun _ _ => rfl, fun _ _ => rfl, fun _ _ => rfl, fun _ _ => rfl,
    fun _ _ => rfl⟩

section
variable {s : State} {x : LCtx} {o : LR}

/-- FCMP writes its mask bits, then raises the flags of all lanes. -/
theorem State.fcmp_ready (h : s.readyLane x (lrNeeds Row.fcmp 0x106 (fcost o 1) o x)) (hwf : (Instr.fcmp o).wf = true) :
    exec (.fcmp o) s = .next (s.leavesLane x (lrNeeds Row.fcmp 0x106 (fcost o 1) o x) (fun t =>
      (maskIn x o.kd (fun l => ((fmtOfTyp o.typ.toNat).compare o.d.toNat (x.fop o o.a 0 0 l) (x.fop o o.b 1 0 l)).1) t).flagUp
        (BitVec.ofNat 32 ((lanesOf x.act).foldl (fun g l => g ||| ((fmtOfTyp o.typ.toNat).compare o.d.toNat (x.fop o o.a 0 0 l) (x.fop o o.b 1 0 l)).2) 0)))) := by
  change execFcmp o s = _
  rw [execFcmp, ← fcost_eq, State.laneLr_ready h (by rw [hwf]; rfl)]
  refine congrArg _ ?_
  dsimp only
  rw [State.leavesLane_putMaskIn h.1]
  exact State.leavesLane_modCur s x _ _ _ h.1

theorem State.fclass_ready (h : s.readyLane x (lrNeeds Row.fclass 0x107 (fcost o 1) o x)) (hwf : (Instr.fclass o).wf = true) :
    exec (.fclass o) s = .next (s.leavesLane x (lrNeeds Row.fclass 0x107 (fcost o 1) o x)
      (typed x o.d.toNat 5 (fun l => ((fmtOfTyp o.typ.toNat).classify (x.src o.a.toNat o.imm o.typ.toNat l), 0)))) := by
  change execFclass o s = _
  rw [execFclass, hwf]
  exact State.laneLr_typed h rfl

theorem State.fscale_ready (h : s.readyLane x (lrNeeds Row.fscale 0x111 (fcost o 1) o x)) (hwf : (Instr.fscale o).wf = true) :
    exec (.fscale o) s = .next (s.leavesLane x (lrNeeds Row.fscale 0x111 (fcost o 1) o x)
      (typed x o.d.toNat o.typ.toNat (fun l => x.float o (fun f m a _ _ => f.scale m o.ftz (x.src32 o.b.toNat o.imm l).toInt (f.decode a)) l))) := by
  change execFscale o s = _
  rw [execFscale, hwf]
  exact State.laneLr_typed h rfl

/-! ### Conversions and shared exponents -/

theorem State.cvt_ready {q : LReq} (hq : q = lrReq (cvtRow o) 0x200 (if o.typ.toNat = 11 ∨ o.kd.toNat = 11 then 2 else 1) o.kd.toNat o x)
    (h : s.readyLane x q) (hwf : (Instr.cvt o).wf = true) :
    exec (.cvt o) s = .next (s.leavesLane x q (typed x o.d.toNat o.typ.toNat (x.cvt o))) := by
  subst hq
  change execCvt o s = _
  rw [execCvt, State.laneGo]
  exact (State.laneTry_ready s x _ _ noPre _ h (by rw [hwf]; rfl) rfl).trans
    (congrArg _ (State.leavesLane_putTyped h.1 _ _ _))

theorem State.qsx_none (h : s.readyLane x (lrNeeds Row.qsx 0x201 1 o x)) (hwf : (Instr.qsx o).wf = true) (hact : x.act = 0) :
    exec (.qsx o) s = .next (s.leavesLane x (lrNeeds Row.qsx 0x201 1 o x) (fun t => t.laneK x.c.p o.kd.toNat 0)) := by
  change execQsx o s = _
  rw [execQsx, State.laneLr_ready h (by rw [hwf]; rfl)]
  dsimp only
  rw [if_pos hact]
  exact congrArg _ (State.leavesLane_putMask h.1 _ _)

theorem State.qsx_some {q : Quantised} (h : s.readyLane x (lrNeeds Row.qsx 0x201 1 o x)) (hwf : (Instr.qsx o).wf = true) (hact : x.act ≠ 0)
    (hq : q = quantise (x.sxk o) (fmtExpm x.cl.fmt) (fmtOvp x.cl.fmt) ((x.src32 o.b.toNat o.imm (lowLane x.act)).toNat % 256)
        ((List.range 32).map (fun j => if x.act.getLsbD j then (fmtOfTyp o.typ.toNat).decode ((x.src32 o.a.toNat o.imm j).toNat % 2 ^ (fmtOfTyp o.typ.toNat).width) else .zero false))) :
    exec (.qsx o) s = .next (s.leavesLane x (lrNeeds Row.qsx 0x201 1 o x) (fun t =>
      ((t.writeLanes o.d.toNat ((lanesOf x.act).map (fun l => (l, [BitVec.ofNat 32 (Machine.laneCode (x.sxk o) q.block l)])))).flagUp (BitVec.ofNat 32 q.flags)).laneK x.c.p o.kd.toNat
        (maskOf ((lanesOf x.act).filter (fun l => q.lost[l]?.getD false))))) := by
  subst hq
  change execQsx o s = _
  rw [execQsx, State.laneLr_ready h (by rw [hwf]; rfl)]
  dsimp only
  rw [if_neg hact, State.putLanes, State.leavesLane_keep_modCur h.1]
  exact congrArg _ (State.leavesLane_modCur s x _ _ _ h.1)

/-- An instruction that writes whole words where a lane is live and active, and nothing where none is. -/
theorem State.laneLr_putLanes {op : Nat} {bad : Bool} {d : Nat} {rs : LCtx → List (Nat × List W32)} {g : LCtx → Nat}
    (h : s.readyLane x (lrNeeds Row.sx1 op 1 o x)) (hgood : bad = false) :
    (x.act = 0 → s.laneLr Row.sx1 op 1 o bad (fun x s => if x.act = 0 then s else s.putLanes d (rs x) (g x)) =
      .next (s.leavesLane x (lrNeeds Row.sx1 op 1 o x) keep)) ∧
    (x.act ≠ 0 → s.laneLr Row.sx1 op 1 o bad (fun x s => if x.act = 0 then s else s.putLanes d (rs x) (g x)) =
      .next (s.leavesLane x (lrNeeds Row.sx1 op 1 o x) (fun t => (t.writeLanes d (rs x)).flagUp (BitVec.ofNat 32 (g x))))) := by
  rw [State.laneLr_ready h hgood]
  constructor
  · intro hact
    rw [if_pos hact]
  · intro hact
    rw [if_neg hact]
    exact congrArg _ (State.leavesLane_keep_modCur h.1 _)

theorem State.dqsx_ready (h : s.readyLane x (lrNeeds Row.sx1 0x204 1 o x)) (hwf : (Instr.dqsx o).wf = true) :
    exec (.dqsx o) s = .next (s.leavesLane x (lrNeeds Row.sx1 0x204 1 o x)
      (typed x o.d.toNat 5 (fun l => (decodeCode (x.sxk o) (x.src32 o.a.toNat o.imm l).toNat, 0)))) := by
  change execDqsx o s = _
  rw [execDqsx, hwf]
  exact State.laneLr_typed h rfl

end

end Sys2Proof.Machine

namespace Sys2Proof.Proofs
open Sys2Proof.Machine Sys2Proof.Claims

/-- Settles O31: each instruction is the arithmetic form at once or of long latency, or one typed result of its own. -/
theorem laneFloatResults : Obligations.LaneFloatResults := by
  unfold Obligations.LaneFloatResults
  refine ⟨?now, ?late, fun s x o => State.fcmp_ready, fun s x o => State.fclass_ready, fun s x o => State.fscale_ready⟩
  case now =>
    intro op hop s x o h hwf
    rw [exec_floatOps op hop]
    exact State.laneFloat_ready h (by rw [hwf]; rfl)
  case late =>
    intro op hop s x o h hwf
    rw [exec_longOps op hop]
    exact State.laneLong_ready h (by rw [hwf]; rfl)

/-- Settles O33: each instruction's lane words, flags and mask are written after the issue, where a lane is live and active. -/
theorem conversionsAndSharedExponents : Obligations.ConversionsAndSharedExponents := by
  unfold Obligations.ConversionsAndSharedExponents
  refine ⟨fun s x o q => State.cvt_ready,
    fun s x o h hwf => ⟨State.qsx_none h hwf, fun hact q => State.qsx_some h hwf hact⟩, ?pksx, ?upsx,
    fun s x o => State.dqsx_ready⟩
  case pksx =>
    intro s x o h hwf
    change (_ → execPksx o s = _) ∧ (_ → execPksx o s = _)
    rw [execPksx]
    exact State.laneLr_putLanes h (by rw [hwf]; rfl)
  case upsx =>
    intro s x o h hwf
    change (_ → execUpsx o s = _) ∧ (_ → ∀ b, _ → execUpsx o s = _)
    rw [execUpsx]
    refine ⟨(State.laneLr_putLanes h (by rw [hwf]; rfl)).1, fun hact b hb => ?_⟩
    subst hb
    exact (State.laneLr_putLanes h (by rw [hwf]; rfl)).2 hact

end Sys2Proof.Proofs
end

section
/-! ### Lane loads, stores, atomics and OUTL (R397-R399, R409-R414) -/

set_option Elab.async false

namespace Sys2Proof.Machine
open Sys2Proof.Claims

/-- What the model checks of the record of a form. -/
def refusesAccess (x : LCtx) (o : LM) : LaneAccess → Bool
  | .ld => x.badRec o anyKind
  | .ldh => x.badRec o homeKinds
  | .ldc => x.badRec o countedKind
  | .st => x.badRec o anyKind
  | .stc => x.badRec o countedKind || decide (x.stcCount o = 0)
  | .pref => x.badRec o homeKinds
  | .atom => x.badAtom o

/-- Each form is one issue with its needs, its check and its access. -/
theorem exec_laneAccess (f : LaneAccess) (o : LM) (s : State) :
    exec (f.instr o) s = s.laneGo (fun x => f.req s x o) (fun x => !(f.instr o).wf || refusesAccess x o f)
      (fun x s' => s'.access x.c.core x.c.slot x.c.p (f.acc s x o) (s.formLm x o).2) := by
  cases f with
  | ld | ldh | ldc | st | pref | atom => rfl
  | stc =>
    simp only [refusesAccess, ← Bool.or_assoc]
    rfl

/-- A record of a kind that the form takes. -/
theorem LCtx.badRec_eq (x : LCtx) (o : LM) (kind : Nat → Bool) :
    x.badRec o kind = !(recOk (laneRec x o) && decide (2 ^ o.w.toNat * rE (laneRec x o) ≤ 64) && kind (rKind (laneRec x o))) := by
  have hsize : decide (64 < lmWidth o * rE (x.brec o)) = !decide (2 ^ o.w.toNat * rE (laneRec x o) ≤ 64) := by
    simp only [← decide_not, not_le]
    rfl
  rw [LCtx.badRec, hsize]
  change (!recOk (laneRec x o) || !kind (rKind (laneRec x o)) || _) = _
  rw [Bool.not_and, Bool.not_and, Bool.or_right_comm]

/-- The record is refused where the statement says that it is not allowed. -/
theorem refusesAccess_eq (x : LCtx) (o : LM) (f : LaneAccess) : refusesAccess x o f = !f.allows x o := by
  cases f with
  | ld | st | ldh | pref | ldc => exact x.badRec_eq o _
  | stc =>
    rw [refusesAccess, x.badRec_eq]
    simp [LaneAccess.allows, countedKind, Bool.not_and, Bool.or_assoc]
  | atom =>
    have hrec : x.badRec o atomKinds = true ∨ x.badRec o atomKinds = false := by cases x.badRec o atomKinds <;> simp
    rw [refusesAccess, LaneAccess.allows]
    rcases hrec with h | h
    · simp [LCtx.badAtom, h]
    · rw [x.badRec_eq] at h
      simp only [Bool.not_eq_false', Bool.and_eq_true] at h
      simp [h]

theorem State.laneAccess_performs {f : LaneAccess} {s : State} {x : LCtx} {o : LM} (h : s.readyLane x (f.req s x o))
    (hwf : (f.instr o).wf = true) (hrec : f.allows x o = true) :
    exec (f.instr o) s =
      .next ((s.leavesLane x (f.req s x o) keep).access x.c.core x.c.slot x.c.p (f.acc s x o) (s.formLm x o).2) := by
  rw [exec_laneAccess, State.laneGo]
  exact State.laneTry_ready s x _ _ noPre _ h (by simp [hwf, refusesAccess_eq, hrec]) rfl

theorem State.laneAccess_ill {f : LaneAccess} {s : State} {x : LCtx} {o : LM} (h : s.readyLane x (f.req s x o))
    (hbad : (f.instr o).wf = false ∨ f.allows x o = false) : exec (f.instr o) s = .next (s.laneFault x fILLOP 0) := by
  rw [exec_laneAccess, State.laneGo]
  exact State.laneTry_ill s x _ _ noPre _ h (by simpa [refusesAccess_eq] using hbad)

/-! ### OUTL -/

/-- What OUTL needs: it reads its index and its entry, and its access may stall. -/
def outlReq (s : State) (o : LM) (x : LCtx) : LReq :=
  { op := 0x205, reads := selRegs o.i.toNat false ++ [o.d.toNat], kregs := [o.kd.toNat], sregs := selScalars o.i.toNat, memory := true
    stall := s.memStall x.c (State.outlAcc x o).1 }

theorem State.outl_ready {s : State} {x : LCtx} {o : LM} (h : s.readyLane x (outlReq s o x)) (hwf : (Instr.outl o).wf = true)
    (hrec : x.badOutl o = false) :
    exec (.outl o) s = .next (if (x.appending o).isEmpty then s.leavesLane x (outlReq s o x) keep
      else (s.leavesLane x (outlReq s o x) keep).access x.c.core x.c.slot x.c.p (State.outlAcc x o).1 (State.outlAcc x o).2) := by
  change execOutl o s = _
  rw [execOutl, State.laneGo]
  exact State.laneTry_ready s x (outlReq s o) _ noPre _ h (by simp [hwf, hrec]) rfl

theorem State.outl_ill {s : State} {x : LCtx} {o : LM} (h : s.readyLane x (outlReq s o x))
    (hbad : (Instr.outl o).wf = false ∨ x.badOutl o = true) : exec (.outl o) s = .next (s.laneFault x fILLOP 0) := by
  change execOutl o s = _
  rw [execOutl, State.laneGo]
  exact State.laneTry_ill s x (outlReq s o) _ noPre _ h (by simpa using hbad)

theorem LCtx.mem_appending {x : LCtx} {o : LM} {l : Nat} :
    l ∈ x.appending o ↔ l < 32 ∧ x.act.getLsbD l = true ∧ (x.getK o.kd.toNat).getLsbD l = true := by
  rw [LCtx.appending, List.mem_filter, mem_lanesOf, and_assoc]

theorem LCtx.appending_isEmpty {x : LCtx} {o : LM}
    (h : ∀ l < 32, x.act.getLsbD l = true → (x.getK o.kd.toNat).getLsbD l = false) : (x.appending o).isEmpty = true := by
  rw [List.isEmpty_iff, List.eq_nil_iff_forall_not_mem]
  intro l hl
  obtain ⟨hlt, hact, hk⟩ := LCtx.mem_appending.1 hl
  rw [h l hlt hact] at hk
  exact absurd hk (by decide)

theorem LCtx.appending_not_isEmpty {x : LCtx} {o : LM}
    (h : ∃ l < 32, x.act.getLsbD l = true ∧ (x.getK o.kd.toNat).getLsbD l = true) : (x.appending o).isEmpty = false := by
  obtain ⟨l, hl⟩ := h
  exact List.isEmpty_eq_false_iff_exists_mem.2 ⟨l, LCtx.mem_appending.2 hl⟩

end Sys2Proof.Machine

namespace Sys2Proof.Proofs
open Sys2Proof.Machine Sys2Proof.Claims

/-- Settles O34: the seven forms are one issue with its own needs, check and access; OUTL's access is done when a lane appends. -/
theorem laneAccesses : Obligations.LaneAccesses := by
  unfold Obligations.LaneAccesses
  refine ⟨fun f s x o h => ⟨State.laneAccess_performs h, State.laneAccess_ill h⟩, ?outl⟩
  intro s x o q hq h
  subst hq
  refine ⟨fun hwf hrec => ⟨fun hnone => ?none, fun hsome => ?some⟩, fun hbad => State.outl_ill h hbad⟩
  case none =>
    rw [State.outl_ready h hwf hrec, LCtx.appending_isEmpty hnone]
    rfl
  case some =>
    rw [State.outl_ready h hwf hrec, LCtx.appending_not_isEmpty hsome]
    rfl

end Sys2Proof.Proofs
end

section
/-! ### Publications and folds by stamp (R212, R213, R217, R236) -/

set_option Elab.async false

namespace Sys2Proof.Machine
open Sys2Proof.Claims

/-! A publication. -/

theorem State.last_lt_nextStamp (s : State) (l : Nat) : (s.log l).last < s.nextStamp l := by
  unfold State.nextStamp
  dsimp only
  split <;> omega

theorem State.clock_le_nextStamp (s : State) (l : Nat) : s.clock ≤ s.nextStamp l := by
  unfold State.nextStamp
  dsimp only
  split <;> omega

/-- A record as a publication leaves it (R212). -/
def Rec.published (st id now : Nat) (r : Rec) : Rec :=
  if r.stamp.isSome then r else { r with stamp := some st, msg := id, sent := now }

/-- One record of a publication: stamped and listed, or dropped when its new translation faults. -/
def publishStep (st id now : Nat) (x : List Rec × List Rec × State) (r : Rec) : List Rec × List Rec × State :=
  match x.2.2.publishRec r with
  | (.fault _, s) => (x.1, x.2.1 ++ [r], s)
  | (.ok pa, s) =>
    (x.1 ++ [if r.stamp.isSome then r else { r with stamp := some st, pa := some (r.pa.getD pa), msg := id, sent := now }], x.2.1, s)

theorem publishStep_translated {r : Rec} (h : r.pa.isSome = true) (st id now : Nat) (rs ds : List Rec) (u : State) :
    publishStep st id now (rs, ds, u) r = (rs ++ [r.published st id now], ds, u) := by
  obtain ⟨pa, hpa⟩ := Option.isSome_iff_exists.1 h
  unfold publishStep State.publishRec Rec.published
  cases hst : r.stamp with
  | some v => simp
  | none => simp [hpa]

/-- While no record waits for a new translation, none is dropped. -/
theorem foldl_publishStep {recs : List Rec} (h : ∀ r ∈ recs, r.pa.isSome = true) (st id now : Nat) (rs : List Rec) (u : State) :
    recs.foldl (publishStep st id now) (rs, [], u) = (rs ++ recs.map (Rec.published st id now), [], u) := by
  induction recs generalizing rs with
  | nil => simp
  | cons r recs ih =>
    rw [List.foldl_cons, publishStep_translated (h r List.mem_cons_self), ih (fun x hx => h x (List.mem_cons_of_mem r hx))]
    simp

/-- What such a publication leaves: the log's records published, and the next identifier taken. -/
theorem State.publish_eq {s : State} {l : Nat} (h : ∀ r ∈ (s.log l).recs, r.pa.isSome = true) :
    s.publish l = ({ s with nextId := s.nextId + 1 } : State).setLog l
      { s.log l with
        recs := (s.log l).recs.map (Rec.published (s.nextStamp l) s.nextId s.time), pub := (s.log l).tail, last := s.nextStamp l
        pubs := (s.nextStamp l, (s.log l).tail) :: (s.log l).pubs } := by
  have hfold := foldl_publishStep h (s.nextStamp l) s.nextId s.time [] { s with nextId := s.nextId + 1 }
  have hunfold : s.publish l =
      (fun r : List Rec × List Rec × State => r.2.1.foldl (fun s r => s.dropReport l r 2)
        (r.2.2.setLog l { s.log l with recs := r.1, pub := (s.log l).tail, last := s.nextStamp l, pubs := (s.nextStamp l, (s.log l).tail) :: (s.log l).pubs }))
        ((s.log l).recs.foldl (publishStep (s.nextStamp l) s.nextId s.time) ([], [], { s with nextId := s.nextId + 1 })) := rfl
  rw [hunfold, hfold]
  rfl

/-! The order of stamps. -/

theorem stampLt_trans {x y z : Nat × Nat} (hxy : stampLt x y = true) (hyz : stampLt y z = true) : stampLt x z = true := by
  simp only [stampLt, Bool.or_eq_true, Bool.and_eq_true, decide_eq_true_eq] at *
  omega

theorem stampLt_asymm {x y : Nat × Nat} (h : stampLt x y = true) : stampLt y x = false := by
  simp only [stampLt, Bool.or_eq_true, Bool.and_eq_true, Bool.or_eq_false_iff, Bool.and_eq_false_iff, decide_eq_true_eq,
    decide_eq_false_iff_not] at *
  omega

/-! One byte of a fold. -/

section
variable {s : State} {a : Nat} {b : Byte} {st : Nat × Nat}

theorem State.foldByte_kept (h : stampLt st (s.stampOf a) = true) : s.foldByte a b st = s := by
  rw [State.foldByte, State.yields, h]
  rfl

theorem State.foldByte_taken (h : stampLt st (s.stampOf a) = false) :
    s.foldByte a b st = { s with mem := Memory.write s.mem a b, stamps := Sparse.set (0, 0) s.stamps a st } := by
  rw [State.foldByte, State.yields, h]
  rfl

theorem State.foldByte_read (hmem : Memory.wf s.mem = true) (h : stampLt st (s.stampOf a) = false) :
    Memory.read (s.foldByte a b st).mem a = b := by
  rw [State.foldByte_taken h]
  exact Memory.read_write_same _ _ _ hmem

theorem State.foldByte_stampOf (hst : Table.sorted s.stamps = true) (h : stampLt st (s.stampOf a) = false) :
    (s.foldByte a b st).stampOf a = st := by
  rw [State.foldByte_taken h]
  exact Sparse.get_set_same _ _ _ _ hst

theorem State.foldByte_stamps_sorted (hst : Table.sorted s.stamps = true) : Table.sorted (s.foldByte a b st).stamps = true := by
  rcases s.foldByte_cases a b st with ⟨-, h⟩ | ⟨-, h⟩
  · rwa [h]
  · rw [h]
    exact Sparse.sorted_set _ _ _ _ hst

/-- No other byte changes. -/
theorem State.foldByte_other {x : Nat} (hx : x ≠ a) :
    Memory.read (s.foldByte a b st).mem x = Memory.read s.mem x ∧ (s.foldByte a b st).stampOf x = s.stampOf x := by
  rcases s.foldByte_cases a b st with ⟨-, h⟩ | ⟨-, h⟩
  · rw [h]
    exact ⟨rfl, rfl⟩
  · rw [h]
    exact ⟨Memory.read_write_other _ _ _ _ hx, Sparse.get_set_other _ _ _ _ _ hx⟩

/-- The later stamp wins after an earlier one. -/
theorem State.foldByte_later {b' : Byte} {x y : Nat × Nat} (hmem : Memory.wf s.mem = true) (hst : Table.sorted s.stamps = true)
    (hxy : stampLt x y = true) (hy : stampLt y (s.stampOf a) = false) :
    Memory.read ((s.foldByte a b x).foldByte a b' y).mem a = b' ∧ ((s.foldByte a b x).foldByte a b' y).stampOf a = y := by
  have hy' : stampLt y ((s.foldByte a b x).stampOf a) = false := by
    cases hx : stampLt x (s.stampOf a) with
    | true => rwa [State.foldByte_kept hx]
    | false => rw [State.foldByte_stampOf hst hx]; exact stampLt_asymm hxy
  exact ⟨State.foldByte_read (s.foldByte_wf a b x hmem) hy', State.foldByte_stampOf (State.foldByte_stamps_sorted hst) hy'⟩

/-- The earlier stamp is kept out after the later one. -/
theorem State.foldByte_earlier {b' : Byte} {x y : Nat × Nat} (hmem : Memory.wf s.mem = true) (hst : Table.sorted s.stamps = true)
    (hxy : stampLt x y = true) (hy : stampLt y (s.stampOf a) = false) :
    Memory.read ((s.foldByte a b' y).foldByte a b x).mem a = b' ∧ ((s.foldByte a b' y).foldByte a b x).stampOf a = y := by
  have hstamp := State.foldByte_stampOf (b := b') hst hy
  have hx : stampLt x ((s.foldByte a b' y).stampOf a) = true := by rwa [hstamp]
  rw [State.foldByte_kept hx]
  exact ⟨State.foldByte_read hmem hy, hstamp⟩

/-- Two writes of a byte leave the same, whichever folds first. -/
theorem State.foldByte_comm {b' : Byte} {x y : Nat × Nat} (hmem : Memory.wf s.mem = true) (hst : Table.sorted s.stamps = true)
    (hxy : stampLt x y = true) :
    Memory.read ((s.foldByte a b x).foldByte a b' y).mem a = Memory.read ((s.foldByte a b' y).foldByte a b x).mem a ∧
      ((s.foldByte a b x).foldByte a b' y).stampOf a = ((s.foldByte a b' y).foldByte a b x).stampOf a := by
  cases hy : stampLt y (s.stampOf a) with
  | true =>
    have hx := stampLt_trans hxy hy
    rw [State.foldByte_kept hx, State.foldByte_kept hy, State.foldByte_kept hx]
    exact ⟨rfl, rfl⟩
  | false =>
    obtain ⟨hread, hstamp⟩ := State.foldByte_later (b := b) (b' := b') hmem hst hxy hy
    obtain ⟨hread', hstamp'⟩ := State.foldByte_earlier (b := b) (b' := b') hmem hst hxy hy
    exact ⟨hread.trans hread'.symm, hstamp.trans hstamp'.symm⟩

end

end Sys2Proof.Machine

namespace Sys2Proof.Proofs
open Sys2Proof.Machine Sys2Proof.Claims

/-- Settles O18: a publication is one step per record of the log, and the order of stamps is strict, so the greater stamp stays. -/
theorem foldsByStamp : Obligations.FoldsByStamp := by
  unfold Obligations.FoldsByStamp
  refine ⟨?publish, ?byte, ?order⟩
  case publish =>
    intro s l h
    refine ⟨s.nextStamp l, s.last_lt_nextStamp l, s.clock_le_nextStamp l, ?_⟩
    rw [State.publish_eq h, State.log_setLog]
    exact ⟨rfl, rfl, rfl, rfl, rfl, fun m hm => State.log_setLog_other _ _ _ _ hm⟩
  case byte =>
    intro s a b st hmem hst
    exact ⟨fun h => ⟨State.foldByte_read hmem h, State.foldByte_stampOf hst h⟩, State.foldByte_kept, fun x => State.foldByte_other⟩
  case order =>
    intro s a b b' x y hmem hst
    exact State.foldByte_comm hmem (Sparse.sorted_of_wf hst)

end Sys2Proof.Proofs
end

section
/-! ### Scalar atomics (R223, R408, R415, R418) -/

set_option Elab.async false

namespace Sys2Proof.Machine
open Sys2Proof.Claims

/-! The issue. -/

section
variable {s : State} {c : Cur} {d a : BitVec 6} {b o : BitVec 4} {sc : BitVec 2} {q r : BitVec 1} {i : BitVec 5}

theorem State.satom_performs (h : s.ready c (satomReq s c d b a o sc q r)) (hwf : (Instr.satom d b a o sc q r).wf = true)
    (hrec : recOk (c.t.getB b.toNat) = true) (hkind : rKind (c.t.getB b.toNat) ≠ 3)
    (hsize : rEsz (c.t.getB b.toNat) = 2 ∨ rEsz (c.t.getB b.toNat) = 3) :
    exec (.satom d b a o sc q r) s = .next ((s.leaves c (satomReq s c d b a o sc q r) keep keep).access c.core c.slot c.p
      ((satomAcc s c d b a o sc q r).issue c (satomReq s c d b a o sc q r)) (s.formScalar c (c.t.getB b.toNat) (rE (c.t.getB b.toNat)) (rE (c.t.getB b.toNat)) 0).2) := by
  change execSatom d b a o sc q r s = _
  rw [execSatom]
  exact State.scalarAccess_performs
    (q := fun _ => { op := 0x15, cost := 2, sregs := [d.toNat, a.toNat], swrites := [d.toNat], bregs := [b.toNat], boundary := true, clauses := q = 1 || r = 1, orders := q = 1 || r = 1 })
    (acc := fun c => (satomAcc s c d b a o sc q r, (s.formScalar c (c.t.getB b.toNat) (rE (c.t.getB b.toNat)) (rE (c.t.getB b.toNat)) 0).2))
    h (by simpa [hwf, hrec, atomKind, hkind, or_iff_not_imp_left] using hsize)

theorem tokenIll_eq_false (hrec : recOk (c.t.getB b.toNat) = true) (hkind : rKind (c.t.getB b.toNat) ≠ 3)
    (hsize : rEsz (c.t.getB b.toNat) = 3) : tokenIll c b = false := by
  simp [tokenIll, hrec, atomKind, hkind, hsize]

theorem State.strel_performs (h : s.ready c (tokenReq s c d b sc i true)) (hgood : tokenIll c b = false) :
    exec (.strel d b sc i) s = .next ((s.leaves c (tokenReq s c d b sc i true) keep keep).access c.core c.slot c.p
      ((tokenAcc s c d b sc i true).issue c (tokenReq s c d b sc i true)) (s.formScalar c (c.t.getB b.toNat) 8 8 i.toInt).2) := by
  change execStrel d b sc i s = _
  rw [execStrel]
  exact State.scalarAccess_performs
    (q := fun c => { orderReq c [d.toNat] [d.toNat] true with cost := 2, bregs := [b.toNat], boundary := true })
    (acc := fun c => (tokenAcc s c d b sc i true, (s.formScalar c (c.t.getB b.toNat) 8 8 i.toInt).2)) h hgood

theorem State.ldacq_performs (h : s.ready c (tokenReq s c d b sc i false)) (hgood : tokenIll c b = false) :
    exec (.ldacq d b sc i) s = .next ((s.leaves c (tokenReq s c d b sc i false) keep keep).access c.core c.slot c.p
      ((tokenAcc s c d b sc i false).issue c (tokenReq s c d b sc i false)) (s.formScalar c (c.t.getB b.toNat) 8 8 i.toInt).2) := by
  change execLdacq d b sc i s = _
  rw [execLdacq]
  exact State.scalarAccess_performs
    (q := fun c => { orderReq c [d.toNat] [d.toNat] false with cost := 2, bregs := [b.toNat], boundary := true })
    (acc := fun c => (tokenAcc s c d b sc i false, (s.formScalar c (c.t.getB b.toNat) 8 8 i.toInt).2)) h hgood

end

/-! The home. While no line is counted, an access only gives its line a place in the slice. -/

/-- Only the choices drawn and the lines of the slices differ. -/
def State.onlyLines (s u : State) : Prop := ∃ f x, u = { s with fresh := f, sets := x }

theorem State.onlyLines_putLines (s : State) (k : Nat) (xs : Table SLine) : s.onlyLines (s.putLines k xs) := ⟨s.fresh, _, rfl⟩

theorem State.evictOne_of_uncounted {s : State} (h : s.counted = []) (vs : List (Nat × SLine)) : (s.evictOne vs).2 = s := by
  cases vs with
  | nil => rfl
  | cons v vs => simp [State.evictOne, h]

theorem State.allot_onlyLines {s : State} (h : s.counted = []) (line : Nat) : s.onlyLines (s.allot line) := by
  unfold State.allot
  extract_lets k xs ways vs n
  split
  · exact ⟨_, _, rfl⟩
  · split
    · exact State.onlyLines_putLines s k _
    · split
      · exact ⟨_, _, rfl⟩
      · have hsame := State.evictOne_of_uncounted (s := { s with fresh := s.fresh + 1 }) h (vs.drop n ++ vs.take n)
        split
        next w u hu =>
          rw [hu] at hsame
          subst hsame
          exact ⟨_, _, rfl⟩
        next u hu =>
          rw [hu] at hsame
          subst hsame
          exact ⟨_, _, rfl⟩

theorem State.clearCount_onlyLines {s : State} (h : s.counted = []) (pa : Nat) : s.onlyLines (s.clearCount pa) := by
  have hback : s.lineBack (pa / 256) = s.allot (pa / 256) := by simp [State.lineBack, h]
  obtain ⟨f, x, hallot⟩ := State.allot_onlyLines h (pa / 256)
  refine ⟨f, x, ?_⟩
  rw [State.clearCount, hback, hallot]
  simp [h]

/-- The bytes of an atomic are written in place, with their stamps. -/
theorem State.atomicWrite_eq (bs : List Byte) (s : State) (log a : Nat) :
    ∃ st, s.atomicWrite log a bs = { s with mem := Memory.writeBytes s.mem a bs, stamps := st } := by
  induction bs generalizing s a with
  | nil => exact ⟨s.stamps, rfl⟩
  | cons b bs ih =>
    obtain ⟨st, h⟩ := ih { s with mem := Memory.write s.mem a b, stamps := Sparse.set (0, 0) s.stamps a (max s.clock ((s.stampOf a).1 + 1), log) } (a + 1)
    exact ⟨st, h⟩

theorem readBytes_writeBytes {m : List Host.Cell} (h : Memory.wf m = true) (a : Nat) (bs : List Byte) :
    (List.range bs.length).map (fun i => Memory.read (Memory.writeBytes m a bs) (a + i)) = bs := by
  refine List.ext_getElem (by simp) (fun i hi hi' => ?_)
  rw [List.getElem_map, List.getElem_range, Memory.read_writeBytes_same bs m a i h hi']

theorem State.atomicWrite_readLe {s : State} (h : Memory.wf s.mem = true) (log a n v : Nat) :
    (s.atomicWrite log a (leBytes n v)).readLe a n = v % 256 ^ n := by
  obtain ⟨st, hw⟩ := s.atomicWrite_eq (leBytes n v) log a
  have hbytes := readBytes_writeBytes h a (leBytes n v)
  rw [length_leBytes] at hbytes
  rw [hw, State.readLe, State.readBytes, hbytes, leNat_leBytes]

/-- One atomic at its home: the old value is answered, the result is written over exactly the element's bytes, where the
operation writes, and nothing of a train or a task changes. -/
theorem State.atomicAt_spec {s : State} (hcounted : s.counted = []) (hmem : Memory.wf s.mem = true) {op : Nat} (hop : op ≠ aopPut)
    (log size pa v x : Nat) :
    (s.atomicAt log op size pa v x).2.1 = s.readLe pa size ∧
    (s.atomicAt log op size pa v x).1.readLe pa size =
      (if atomicWrites op (8 * size) (s.readLe pa size) x then (atomicNew op (8 * size) (s.readLe pa size) v x).1 % 256 ^ size else s.readLe pa size) ∧
    (∀ a, a < pa ∨ pa + size ≤ a → Memory.read (s.atomicAt log op size pa v x).1.mem a = Memory.read s.mem a) ∧
    (s.atomicAt log op size pa v x).1.trains = s.trains ∧ (s.atomicAt log op size pa v x).1.tasks = s.tasks := by
  obtain ⟨f, y, hclear⟩ := State.clearCount_onlyLines hcounted pa
  have hread : ({ s with fresh := f, sets := y } : State).readLe pa size = s.readLe pa size := rfl
  simp only [State.atomicAt, hclear, hread, atomicAnswer, hop, if_false]
  refine ⟨trivial, ?_⟩
  cases atomicWrites op (8 * size) (s.readLe pa size) x with
  | false => exact ⟨rfl, fun _ _ => rfl, rfl, rfl⟩
  | true =>
    simp only [if_true]
    refine ⟨State.atomicWrite_readLe (s := { s with fresh := f, sets := y }) hmem log pa size _, ?_⟩
    obtain ⟨st, hw⟩ := State.atomicWrite_eq (leBytes size (atomicNew op (8 * size) (s.readLe pa size) v x).1) { s with fresh := f, sets := y } log pa
    rw [hw]
    exact ⟨fun a ha => Memory.read_writeBytes_other _ _ _ _ (by rwa [length_leBytes]), rfl, rfl⟩

/-- The value that 32-bit add, swap and cas leave. -/
theorem atomicNew_word {m v x op new : Nat} (hv : v < 2 ^ 32) (hx : x < 2 ^ 32)
    (h : (op, new) ∈ [(0, (m + v) % 2 ^ 32), (9, v), (10, if m = x then v else m)]) :
    op ≠ aopPut ∧ (if atomicWrites op (8 * 4) m x then (atomicNew op (8 * 4) m v x).1 % 256 ^ 4 else m) = new := by
  have hv' : v % 4294967296 = v := Nat.mod_eq_of_lt hv
  have hx' : x % 4294967296 = x := Nat.mod_eq_of_lt hx
  simp only [List.mem_cons, List.not_mem_nil, or_false, Prod.mk.injEq] at h
  rcases h with ⟨rfl, rfl⟩ | ⟨rfl, rfl⟩ | ⟨rfl, rfl⟩
  · exact ⟨by decide, by simp [atomicWrites, atomicNew, aopLoad, hv']⟩
  · exact ⟨by decide, by simp [atomicWrites, atomicNew, aopLoad, hv']⟩
  · refine ⟨by decide, ?_⟩
    by_cases hmx : m = x
    · simp [atomicWrites, atomicNew, aopLoad, hmx, hv', hx']
    · simp [atomicWrites, aopLoad, hmx, hx']

end Sys2Proof.Machine

namespace Sys2Proof.Proofs
open Sys2Proof.Machine Sys2Proof.Claims

/-- Settles O16: the three instructions are one scalar access each, and an atomic at its home reads, then writes in place. -/
theorem scalarAtomics : Obligations.ScalarAtomics := by
  unfold Obligations.ScalarAtomics
  refine ⟨⟨fun s c d b a o sc q r => State.satom_performs, ?token⟩, ?home⟩
  case token =>
    intro s c d b sc i store h hrec hkind hsize
    have hgood := tokenIll_eq_false hrec hkind hsize
    cases store with
    | true => exact State.strel_performs h hgood
    | false => exact State.ldacq_performs h hgood
  case home =>
    intro s log pa v x hcounted hmem hv hx op new hnew
    obtain ⟨hop, hval⟩ := atomicNew_word hv hx hnew
    obtain ⟨hanswer, hread, hframe⟩ := State.atomicAt_spec hcounted hmem hop log 4 pa v x
    exact ⟨hanswer, hread.trans hval, hframe⟩

end Sys2Proof.Proofs
end

section
/-! ### CONT, WQRY and the words of a query (R283-R285, R436, R439) -/

set_option Elab.async false

namespace Sys2Proof.Machine
open Sys2Proof.Claims

theorem State.padOk_eq_true {s : State} {c : Cur} {x : W64} {n : Nat} (halign : x.toNat % 8 = 0)
    (hin : x.toNat + n ≤ (s.scratch c.core c.t.task).ways * 32768) : s.padOk c x n = true := by
  simp [State.padOk, halign, Scratch.size, hin]

/-! CONT. -/

section
variable {s : State} {c : Cur} {d a b e : BitVec 6} {q : SReq}

/-- The continuation that a CONT registers. -/
def Cur.contOf (c : Cur) (d a b e : BitVec 6) : Cont :=
  { task := c.t.task, off := (c.t.getS a.toNat).toNat, mask := c.t.getS b.toNat, entry := c.t.getS e.toNat, arg := c.t.getS d.toNat
    index := c.t.index, b := c.t.b }

/-- A continuation registered, and counted as outstanding. -/
def State.contAdd (s : State) (c : Cur) (x : Cont) : State :=
  (s.setCore c.core { s.core c.core with conts := (s.core c.core).conts ++ [x] }).modTask c.t.task (fun k => { k with outstanding := k.outstanding + 1 })

theorem State.core_contAdd (s : State) (c : Cur) (x : Cont) : ((s.contAdd c x).core c.core).conts = (s.core c.core).conts ++ [x] :=
  congrArg Core.conts (State.core_setCore s c.core _)

theorem State.task_contAdd {x : Cont} {k : Task} (hk : s.task c.t.task = some k) :
    (s.contAdd c x).task c.t.task = some { k with outstanding := k.outstanding + 1 } :=
  (Table.find_modify_same s.tasks c.t.task _).trans (congrArg (Option.map _) hk)

/-- What CONT does once it issues, by whether there is room for one more. -/
theorem execCont_ready (hq : q = { op := 0x30, cost := 2, sregs := [d.toNat, a.toNat, b.toNat, e.toNat], swrites := [d.toNat], clauses := true, boundary := true })
    (h : s.ready c q) (hpad : s.padOk c (c.t.getS a.toNat) 8 = true) (ht : goodTarget (c.t.getS e.toNat)) :
    exec (.cont d a b e) s = .next (if 64 ≤ (s.core c.core).conts.length then (s.leaves c q keep keep).putS d 1
      else ((s.leaves c q keep keep).contAdd c (c.contOf d a b e)).putS d 0) := by
  subst hq
  change execCont d a b e s = _
  rw [execCont]
  exact State.scalarGo_ready s c _ never _ _ h rfl (by simp [hpad, badTarget_eq_none ht])

/-- The train after CONT registered: only S(d) tells. -/
theorem State.trains_contAdd_putS (hc : s.cur = some c) (x : Cont) :
    (((s.leaves c q keep keep).contAdd c x).putS d 0).trains = (s.leaves c q (fun t => t.setS d.toNat 0) keep).trains := by
  change ((s.leaves c q keep keep).putS d 0).trains = _
  rw [State.putS_leaves hc]
  rfl

end

/-! WQRY. -/

theorem execWqry_ready {s : State} {c : Cur} {a b : BitVec 6} {f : BitVec 4} {pa : Nat} (h : s.ready c (wqryReq s a b c))
    (hwf : (Instr.wqry a b f).wf = true) (halign : (c.t.getS a.toNat).toNat % 32 = 0) (hcan : canonical (c.t.getS a.toNat).toNat = true)
    (hpad : s.padOk c (c.t.getS b.toNat) 8 = true) (hown : s.slotBit (c.pslot s) 0xA0 (c.core / 192) = true)
    (hstop : s.coreStops c.core (portionOwner c.core c.slot c.p) (c.pslot s) (c.t.getS a.toNat).toNat = none)
    (hgrid : (s.leaves c (wqryReq s a b c) keep keep).gridAt c (c.t.getS a.toNat).toNat = .ok pa) :
    exec (.wqry a b f) s = .next ((s.leaves c (wqryReq s a b c) keep keep).sendQuery c (c.t.getS a.toNat).toNat pa (c.t.getS b.toNat).toNat f.toNat) := by
  change execWqry a b f s = _
  rw [execWqry]
  refine (State.scalarGo_ready s c (wqryReq s a b) _ _ _ h (by simp [hwf]) (by simp [halign, hcan, hpad])).trans (congrArg _ ?_)
  simp only [hown, hstop, hgrid]
  rfl

/-- The train after its query was sent: one flag more is set. -/
theorem State.trains_sendQuery {s : State} {c : Cur} {q : SReq} (hc : s.cur = some c) (va pa off f : Nat) :
    ((s.leaves c q keep keep).sendQuery c va pa off f).trains = (s.leaves c q (fun t => { t with wqry := t.wqry ++ [(f, s.nextId)] }) keep).trains := by
  change ((s.leaves c q keep keep).modCur (fun t => { t with wqry := t.wqry ++ [(f, s.nextId)] })).trains = _
  rw [State.leaves_modCur s c q keep _ keep hc]
  rfl

/-- The generation of a task that an issue has charged. -/
theorem State.gen_leaves (s : State) (c : Cur) (q : SReq) (i : Nat) :
    ((s.leaves c q keep keep).task i).map Task.gen = (s.task i).map Task.gen := by
  obtain ⟨n, hn⟩ := State.task_leaves (s := s) (c := c) (q := q) (f := keep) (g := keep) i
  rw [hn, Option.map_map]
  rfl

/-! The words of a query: mixed-radix digits of the tile's number. -/

theorem gridWord_fields {x y z : Nat} (hx : x < 2 ^ 12) (hy : y < 2 ^ 12) :
    (x + y * 2 ^ 12 + z * 2 ^ 24) % 2 ^ 12 = x ∧ (x + y * 2 ^ 12 + z * 2 ^ 24) / 2 ^ 12 % 2 ^ 12 = y ∧ (x + y * 2 ^ 12 + z * 2 ^ 24) / 2 ^ 24 = z := by
  omega

theorem mixed_radix (i x y : Nat) : (i / (x * y) * y + i / x % y) * x + i % x = i := by
  rw [← Nat.div_div_eq_div_mul, Nat.div_add_mod', Nat.div_add_mod']

theorem gridWords_past {bs : List Byte} {i : Nat} (h : le bs 4 2 * le bs 6 2 * le bs 8 1 ≤ i) : gridWords bs i = (0xFFFFFFFF, i) := by
  simp [gridWords, Nat.not_lt.mpr h]

theorem gridWords_tile (bs : List Byte) (i : Nat) : (gridWords bs i).2 = i := by
  unfold gridWords
  extract_lets x y n
  split <;> rfl

/-- The word of a tile, as its three coordinates. -/
theorem gridWords_row {bs : List Byte} {i : Nat} (h : i < le bs 4 2 * le bs 6 2 * le bs 8 1) (hrow : le bs 9 1 = 0) :
    (gridWords bs i).1 = i % le bs 4 2 + i / le bs 4 2 % le bs 6 2 * 2 ^ 12 + i / (le bs 4 2 * le bs 6 2) * 2 ^ 24 := by
  simp [gridWords, h, hrow]

theorem gridWords_column {bs : List Byte} {i : Nat} (h : i < le bs 4 2 * le bs 6 2 * le bs 8 1) (hcol : le bs 9 1 = 1) :
    (gridWords bs i).1 = i / le bs 6 2 % le bs 4 2 + i % le bs 6 2 * 2 ^ 12 + i / (le bs 4 2 * le bs 6 2) * 2 ^ 24 := by
  simp [gridWords, h, hcol]

/-- The bounds that a well-formed grid keeps. -/
theorem gridOk_bounds {bs : List Byte} (h : gridOk bs = true) :
    0 < le bs 4 2 ∧ le bs 4 2 ≤ 2 ^ 12 ∧ 0 < le bs 6 2 ∧ le bs 6 2 ≤ 2 ^ 12 ∧ (le bs 9 1 = 0 ∨ le bs 9 1 = 1) := by
  simp only [gridOk, Bool.and_eq_true, decide_eq_true_eq] at h
  obtain ⟨⟨⟨⟨⟨⟨hx, hx'⟩, hy⟩, hy'⟩, -⟩, horder⟩, -⟩ := h
  omega

/-- The fields of a tile's word lie in the grid and give its number back, in either order. -/
theorem gridWords_spec {bs : List Byte} {i : Nat} (hok : gridOk bs = true) (h : i < le bs 4 2 * le bs 6 2 * le bs 8 1) :
    (gridWords bs i).1 % 2 ^ 12 < le bs 4 2 ∧ (gridWords bs i).1 / 2 ^ 12 % 2 ^ 12 < le bs 6 2 ∧ (gridWords bs i).1 / 2 ^ 24 < le bs 8 1 ∧
      (le bs 9 1 = 0 → ((gridWords bs i).1 / 2 ^ 24 * le bs 6 2 + (gridWords bs i).1 / 2 ^ 12 % 2 ^ 12) * le bs 4 2 + (gridWords bs i).1 % 2 ^ 12 = i) ∧
      (le bs 9 1 = 1 → ((gridWords bs i).1 / 2 ^ 24 * le bs 4 2 + (gridWords bs i).1 % 2 ^ 12) * le bs 6 2 + (gridWords bs i).1 / 2 ^ 12 % 2 ^ 12 = i) := by
  obtain ⟨hx, hx', hy, hy', horder⟩ := gridOk_bounds hok
  have hplane : i / (le bs 4 2 * le bs 6 2) < le bs 8 1 := Nat.div_lt_of_lt_mul h
  have mod_lt {n m : Nat} (hm : 0 < m) : n % m < m := Nat.mod_lt n hm
  rcases horder with hrow | hcol
  · obtain ⟨h0, h1, h2⟩ := gridWord_fields (z := i / (le bs 4 2 * le bs 6 2)) ((mod_lt (n := i) hx).trans_le hx') ((mod_lt (n := i / le bs 4 2) hy).trans_le hy')
    rw [gridWords_row h hrow, h0, h1, h2]
    exact ⟨mod_lt hx, mod_lt hy, hplane, fun _ => mixed_radix i _ _, fun hcol => absurd (hrow.symm.trans hcol) (by decide)⟩
  · obtain ⟨h0, h1, h2⟩ := gridWord_fields (z := i / (le bs 4 2 * le bs 6 2)) ((mod_lt (n := i / le bs 6 2) hx).trans_le hx') ((mod_lt (n := i) hy).trans_le hy')
    rw [gridWords_column h hcol, h0, h1, h2]
    refine ⟨mod_lt hx, mod_lt hy, hplane, fun hrow => absurd (hrow.symm.trans hcol) (by decide), fun _ => ?_⟩
    rw [Nat.mul_comm (le bs 4 2)]
    exact mixed_radix i _ _

end Sys2Proof.Machine

namespace Sys2Proof.Proofs
open Sys2Proof.Machine Sys2Proof.Claims

/-- Settles O25: CONT by whether the core has room for one more continuation, WQRY by the query it sends, and the words of a
query as mixed-radix digits of the tile's number. -/
theorem continuationsAndQueries : Obligations.ContinuationsAndQueries := by
  unfold Obligations.ContinuationsAndQueries
  refine ⟨⟨?cont, ?wqry⟩, ?words⟩
  case cont =>
    intro s c d a b e q hq h halign hin ht
    have hrun := execCont_ready hq h (State.padOk_eq_true halign hin) ht
    refine ⟨fun hfull => ?_, fun hroom => ?_⟩
    · rw [hrun, if_pos hfull, State.putS_leaves h.1]
      rfl
    · rw [if_neg (Nat.not_le.mpr hroom)] at hrun
      refine ⟨_, c.contOf d a b e, hrun, State.core_contAdd _ c _, rfl, rfl, rfl, rfl, rfl, rfl, rfl, State.trains_contAdd_putS h.1 _, rfl, fun k hk => ?_⟩
      exact ⟨_, State.task_contAdd (State.task_leaves_same hk), rfl⟩
  case wqry =>
    intro s c a b f pa q hq h hwf halign hcan hbalign hin hown hstop hgrid
    subst hq
    refine ⟨_, _, execWqry_ready h hwf halign hcan (State.padOk_eq_true hbalign hin) hown hstop hgrid, Table.find_put_same _ _ _, rfl, rfl, ?_, State.pslot_leaves, rfl, rfl, rfl, rfl, ?_, rfl⟩
    · exact congrArg (Option.getD · 0) (State.gen_leaves s c _ _)
    · exact State.trains_sendQuery h.1 _ pa _ f.toNat
  case words =>
    exact fun bs i hok => ⟨gridWords_spec hok, fun hpast => congrArg Prod.fst (gridWords_past hpast), gridWords_tile bs i⟩

end Sys2Proof.Proofs
end

section
/-! ### MXFORK, RDV, COLL and TCP submit and reserve (R269, R278, R435, R437, R438, R440) -/

set_option Elab.async false

namespace Sys2Proof.Machine
open Sys2Proof.Claims

/-! MXFORK. -/

section
variable {s : State} {c : Cur} {a : BitVec 6} {bs : List Byte}

/-- The program that an acceptance queues. -/
def Cur.forked (c : Cur) (seq : Nat) (a : BitVec 6) (bs : List Byte) : MxProg :=
  { seq := seq, task := c.t.task, trainSlot := c.slot, trainIndex := c.t.index, va := (c.t.getS a.toNat).toNat, fmt := c.o.fmt, nc := 128 * (le bs 2 1 + 1), bound := mxBound bs }

theorem State.progs_forkAccept : ((s.forkAccept c a bs).pairOf c.core).progs = (s.pairOf c.core).progs ++ [c.forked s.nextId a bs] :=
  congrArg Pair.progs (State.pairOf_setPair_same _ _ _)

/-- The task of an accepted program: its bound reserved, one thing more outstanding. -/
theorem State.task_forkAccept {k : Task} (hk : s.task c.t.task = some k) :
    (s.forkAccept c a bs).task c.t.task = some { k with alw := k.alw - mxBound bs, rsv := k.rsv + mxBound bs, outstanding := k.outstanding + 1 } := by
  change Table.find (Table.modify (Table.modify s.tasks c.t.task _) c.t.task _) c.t.task = _
  rw [Table.find_modify_same, Table.find_modify_same]
  rw [State.task] at hk
  rw [hk]
  rfl

end

/-! RDV. -/

section
variable {s : State} {c : Cur} {d : BitVec 6} {q : SReq}

theorem execRdv_ready (hq : q = { op := 0x35, sregs := [d.toNat], swrites := [d.toNat], clauses := true, boundary := true }) (h : s.ready c q) :
    exec (.rdv d) s = .next (if c.core % 2 = 1 || (s.toCollect c.core c.t.task).isNone then (s.leaves c q keep keep).putS d 0xFFFFFFFF
      else (s.leaves c q keep keep).waitFor (.rdv d.toNat)) := by
  subst hq
  change execRdv d s = _
  rw [execRdv]
  exact State.scalarGo_ready s c _ never noFault _ h rfl rfl

end

/-! COLL. -/

section
variable {s : State} {c : Cur} {a b : BitVec 6} {bs : List Byte}

theorem collReq_eq (hread : s.collRead c a = some (.ok bs)) (hown : s.collOwn c = true) :
    collReq s a b c = { op := 0x37, cost := 0, extra := 2 + (coBytes bs + 31) / 32, sregs := [a.toNat, b.toNat], clauses := true, boundary := true } := by
  simp [collReq, hread, hown, copyCost, DRead.stall]

theorem execColl_ready (hread : s.collRead c a = some (.ok bs)) (hok : collOk bs = true) (hown : s.collOwn c = true)
    (hpad : s.padOk c (c.t.getS b.toNat) 8 = true) (h : s.ready c (collReq s a b c)) :
    exec (.coll a b) s = .next ((s.leaves c (collReq s a b c) keep keep).collQueue c b bs) := by
  change execColl a b s = _
  rw [execColl]
  refine (State.scalarGo_ready s c (collReq s a b) _ _ _ h (by simp [hread, hok]) (by simp [hpad, hread, hown])).trans (congrArg _ ?_)
  simp [hread]

end

/-! TCP. -/

section
variable {s : State} {x : LCtx} {o : LR} {bs : List Byte}

theorem tcpRec_idle (hidle : x.act = 0) : tcpRec s x o = none := by
  unfold tcpRec
  split <;> simp [hidle]

theorem tcpRec_read (hact : x.act ≠ 0) (hread : tcpRead s x o = .ok bs) : tcpRec s x o = some bs := by
  simp only [tcpRec, hread]
  exact if_neg hact

/-- A TCP of no live active lane only issues. -/
theorem execTcp_idle (hwf : (Instr.tcp o).wf = true) (hidle : x.act = 0) (h : s.readyLane x (tcpReq s o x)) :
    exec (.tcp o) s = .next (s.leavesLane x (tcpReq s o x) keep) := by
  change execTcp o s = _
  rw [execTcp]
  refine (State.laneTry_ready s x (tcpReq s o) _ (tcpPre s o) _ h (by simp [hwf, tcpRec_idle hidle]) (by simp [tcpPre, hidle])).trans (congrArg _ ?_)
  simp [tcpRec_idle hidle]

/-- One that has its record and finds no fault submits its copy. -/
theorem execTcp_submits (hwf : (Instr.tcp o).wf = true) (hrec : tcpRec s x o = some bs) (hlayout : layoutOk bs = true) (hpre : tcpPre s o x = [])
    (h : s.readyLane x (tcpReq s o x)) : exec (.tcp o) s = .next ((s.leavesLane x (tcpReq s o x) keep).tcpQueue x o bs) := by
  change execTcp o s = _
  rw [execTcp]
  refine (State.laneTry_ready s x (tcpReq s o) _ (tcpPre s o) _ h (by simp [hwf, hrec, hlayout]) hpre).trans (congrArg _ ?_)
  simp [hrec]

end

end Sys2Proof.Machine

namespace Sys2Proof.Proofs
open Sys2Proof.Machine Sys2Proof.Claims

/-- Settles O26: each submission by the state that its issue leaves, with the bound of MXFORK's program or the cost of the
copy reserved. -/
theorem engineSubmissions : Obligations.EngineSubmissions := by
  unfold Obligations.EngineSubmissions
  refine ⟨?mxfork, ?rdv, ?coll, ?idle, ?tcp⟩
  case mxfork =>
    intro s c a bs q hcore ha hb hlevel hfree hresize hread hq h hagain
    obtain rfl : q = forkNeeds a (mxBound bs) := hq
    have hhandler := h.handler_eq rfl
    refine ⟨_, c.forked s.nextId a bs, execMxfork_accepts hcore ha hb hread hlevel hresize hfree h hagain, State.progs_forkAccept, rfl, rfl, rfl, rfl, rfl, rfl, rfl, State.forkAccept_mem _ c a bs, fun k hk => ?_⟩
    have hpaid := h.affords hk hhandler hagain rfl
    have hfee := Cur.fee_eq (q := forkNeeds a (mxBound bs)) hhandler hagain rfl
    refine ⟨_, State.task_forkAccept (State.task_leaves_same hk), rfl, ?_, ?_, rfl⟩
    · rw [hfee]
      rfl
    · rw [hfee]
      simp only [Task.charged, mxBound, forkNeeds] at hpaid ⊢
      omega
  case rdv =>
    intro s c d q hq h
    refine ⟨fun hnone => ?_, fun hcore hsome => ?_⟩
    · rw [execRdv_ready hq h, if_pos (by simpa using hnone), State.putS_leaves h.1]
      rfl
    · rw [execRdv_ready hq h, if_neg (by simpa [hcore] using hsome), State.waitFor_leaves h.1]
  case coll =>
    intro s c a b bs q hread hok hown hq h halign hin
    have hreq := collReq_eq (b := b) hread hown
    rw [hq, ← hreq] at h ⊢
    exact execColl_ready hread hok hown (State.padOk_eq_true halign hin) h
  case idle => exact fun s x o hwf hidle h => execTcp_idle hwf hidle h
  case tcp => exact fun s x o bs hwf hact hread hlayout hpre h => execTcp_submits hwf (tcpRec_read hact hread) hlayout hpre h

end Sys2Proof.Proofs
end

section
/-! ### Exact rounding, and sums and products of the special values (R254, R381) -/

set_option Elab.async false

namespace Sys2Proof.Machine
open Sys2Proof.Claims

/-! A value at its own exponent is rounded by no bit. -/

theorem blen_eq {m k : Nat} (hlo : 2 ^ k ≤ m) (hhi : m < 2 ^ (k + 1)) : blen m = k + 1 := by
  have hm : m ≠ 0 := (Nat.pos_of_ne_zero (by simp)).trans_le hlo |>.ne'
  rw [blen, if_neg hm, (Nat.log2_eq_iff hm).mpr ⟨hlo, hhi⟩]

theorem blen_le {m k : Nat} (h : m < 2 ^ k) : blen m ≤ k := by
  unfold blen
  split
  · exact Nat.zero_le k
  next hm => exact (Nat.log2_lt hm).mpr h

theorem roundShift_zero (mode : Nat) (neg : Bool) (m : Nat) : roundShift mode neg m 0 false = (m, false) := by
  simp [roundShift]

section
variable {f : FFmt} {mode : Nat} {neg : Bool} {m : Nat} {e : Int}

/-- A significand that lies in the format's precision, at the exponent that rounding would give it, stays as it is. -/
theorem FFmt.round_fits (hm : m ≠ 0) (hhi : m < 2 ^ (f.fb + 1)) (hq : max ((blen m : Int) - 1 + e - f.fb) (f.emin - f.fb) = e)
    (hmax : 2 ^ f.fb ≤ m → e + f.fb ≤ f.emax) :
    f.round mode false neg m e false =
      if m < 2 ^ f.fb then (f.signBit neg + m, 0) else (f.signBit neg + (e + f.fb + f.bias).toNat * 2 ^ f.fb + (m - 2 ^ f.fb), 0) := by
  have hover : ¬ (f.emax < e + f.fb ∧ 2 ^ f.fb ≤ m) := fun h => absurd (hmax h.2) (by omega)
  simp only [FFmt.round, hm, hq, sub_self, roundShift_zero, hhi.ne, hover, false_and, and_false, Bool.false_eq_true, if_false, Nat.add_zero]

theorem FFmt.round_subnormal (hm : m ≠ 0) (hhi : m < 2 ^ f.fb) : f.round mode false neg m (f.emin - f.fb) false = (f.signBit neg + m, 0) := by
  have hlen := blen_le hhi
  have hwide : m < 2 ^ (f.fb + 1) := hhi.trans (Nat.pow_lt_pow_right (by decide) (Nat.lt_succ_self _))
  rw [FFmt.round_fits hm hwide (by omega) (fun h => absurd hhi (by omega)), if_pos hhi]

theorem FFmt.round_normal {ex fr : Nat} (hfr : fr < 2 ^ f.fb) (hlo : 1 ≤ ex) (hmax : ex ≤ 2 * f.bias) :
    f.round mode false neg (fr + 2 ^ f.fb) ((ex : Int) - f.bias - f.fb) false = (f.signBit neg + ex * 2 ^ f.fb + fr, 0) := by
  have hpow : 2 ^ (f.fb + 1) = 2 * 2 ^ f.fb := by omega
  have hlen : blen (fr + 2 ^ f.fb) = f.fb + 1 := blen_eq (by omega) (by omega)
  have hexp : ((ex : Int) - f.bias - f.fb + f.fb + f.bias).toNat = ex := by omega
  rw [FFmt.round_fits (by omega) (by omega) (by simp only [hlen, FFmt.emin]; omega) (fun _ => by simp only [FFmt.emax]; omega), if_neg (by omega), hexp, Nat.add_sub_cancel]

end

/-! The fields of a pattern. -/

/-- A pattern is its sign, exponent and fraction fields put together. -/
theorem FFmt.fields (f : FFmt) {x : Nat} (h : x < 2 ^ f.width) :
    f.signBit (decide (x / 2 ^ (f.eb + f.fb) % 2 = 1)) + x / 2 ^ f.fb % 2 ^ f.eb * 2 ^ f.fb + x % 2 ^ f.fb = x := by
  have hsplit : x / 2 ^ (f.eb + f.fb) = x / 2 ^ f.fb / 2 ^ f.eb := by rw [Nat.add_comm, Nat.pow_add, Nat.div_div_eq_div_mul]
  have htop : x / 2 ^ (f.eb + f.fb) < 2 := Nat.div_lt_of_lt_mul (by rw [FFmt.width, Nat.add_assoc, Nat.pow_add, Nat.mul_comm] at h; exact h)
  have hsign : f.signBit (decide (x / 2 ^ (f.eb + f.fb) % 2 = 1)) = x / 2 ^ (f.eb + f.fb) * 2 ^ (f.eb + f.fb) := by
    obtain h0 | h1 := Nat.le_one_iff_eq_zero_or_eq_one.mp (Nat.lt_succ_iff.mp htop)
    · simp [FFmt.signBit, h0]
    · simp [FFmt.signBit, h1]
  calc _ = (x / 2 ^ f.fb / 2 ^ f.eb * 2 ^ f.eb + x / 2 ^ f.fb % 2 ^ f.eb) * 2 ^ f.fb + x % 2 ^ f.fb := by rw [hsign, hsplit, Nat.pow_add]; ring
    _ = x := by rw [Nat.div_add_mod', Nat.div_add_mod']

/-- A value of a pattern rounds to that pattern, by the three kinds of exponent field. -/
theorem FFmt.ofVal_decode {f : FFmt} (heb : 1 ≤ f.eb) (mode : Nat) {x : Nat} (h : x < 2 ^ f.width) (hnan : (f.decode x).isNan = false) :
    f.ofVal mode false (f.decode x) = (x, 0) := by
  have hfields := f.fields h
  have hfr : x % 2 ^ f.fb < 2 ^ f.fb := Nat.mod_lt _ (by positivity)
  have hex : x / 2 ^ f.fb % 2 ^ f.eb < 2 ^ f.eb := Nat.mod_lt _ (by positivity)
  have hbias : 2 ^ f.eb = 2 * (f.bias + 1) := by
    obtain ⟨k, hk⟩ := Nat.exists_eq_add_of_le' heb
    have hpos : 1 ≤ 2 ^ k := Nat.one_le_two_pow
    rw [FFmt.bias, hk, Nat.add_sub_cancel, Nat.pow_succ]
    omega
  unfold FFmt.decode at hnan ⊢
  generalize decide (x / 2 ^ (f.eb + f.fb) % 2 = 1) = neg, x / 2 ^ f.fb % 2 ^ f.eb = ex, x % 2 ^ f.fb = fr at hfields hfr hex hnan ⊢
  rw [← hfields]
  by_cases hmax : ex = 2 ^ f.eb - 1
  · by_cases hzero : fr = 0
    · simp [hmax, hzero, FFmt.ofVal, FFmt.infinity]
    · simp [hmax, hzero, FVal.isNan] at hnan
  · by_cases hmin : ex = 0
    · by_cases hzero : fr = 0
      · simp [hmin, hzero, hmin ▸ hmax, FFmt.ofVal]
      · simp [hmin, hzero, hmin ▸ hmax, FFmt.ofVal, FFmt.round_subnormal hzero hfr]
    · simp [hmax, hmin, FFmt.ofVal, FFmt.round_normal hfr (Nat.one_le_iff_ne_zero.mpr hmin) (by omega : ex ≤ 2 * f.bias)]

/-! Sums and products. -/

section
variable (f : FFmt) (mode : Nat) (ftz : Bool)

theorem FFmt.add_nan {a b : FVal} (h : (a.isNan || b.isNan) = true) : f.add mode ftz a b = (f.nan, if a.isSig || b.isSig then 1 else 0) := by
  unfold FFmt.add
  exact if_pos h

theorem FFmt.mul_nan {a b : FVal} (h : (a.isNan || b.isNan) = true) : f.mul mode ftz a b = (f.nan, if a.isSig || b.isSig then 1 else 0) := by
  unfold FFmt.mul
  exact if_pos h

theorem FFmt.add_comm (a b : FVal) : f.add mode ftz a b = f.add mode ftz b a := by
  by_cases hnan : (a.isNan || b.isNan) = true
  · rw [f.add_nan mode ftz hnan, f.add_nan mode ftz (Bool.or_comm _ _ ▸ hnan), Bool.or_comm]
  · match a, b with
    | .nan _, _ | _, .nan _ => simp [FVal.isNan] at hnan
    | .inf x, .inf y => cases x <;> cases y <;> rfl
    | .zero x, .zero y => cases x <;> cases y <;> rfl
    | .fin x m e, .fin y n g => simp only [FFmt.add, FVal.isNan, min_comm g e, Int.add_comm (scaled y n g _), Bool.or_self, Bool.false_eq_true, if_false]
    | .inf _, .zero _ | .inf _, .fin _ _ _ | .zero _, .inf _ | .fin _ _ _, .inf _ | .zero _, .fin _ _ _ | .fin _ _ _, .zero _ => rfl

theorem FFmt.mul_comm (a b : FVal) : f.mul mode ftz a b = f.mul mode ftz b a := by
  by_cases hnan : (a.isNan || b.isNan) = true
  · rw [f.mul_nan mode ftz hnan, f.mul_nan mode ftz (Bool.or_comm _ _ ▸ hnan), Bool.or_comm]
  · match a, b with
    | .nan _, _ | _, .nan _ => simp [FVal.isNan] at hnan
    | .fin x m e, .fin y n g => simp only [FFmt.mul, FVal.isNan, bne_comm (a := y), Nat.mul_comm n, Int.add_comm g, Bool.or_self, Bool.false_eq_true, if_false]
    | .inf _, .zero _ | .zero _, .inf _ => rfl
    | .inf x, .inf y | .zero x, .zero y | .inf x, .fin y _ _ | .fin x _ _, .inf y | .zero x, .fin y _ _ | .fin x _ _, .zero y =>
      simp only [FFmt.mul, FVal.isNan, FVal.neg, bne_comm (a := y), Bool.or_self, Bool.false_eq_true, if_false]

theorem FFmt.add_opposite (n : Bool) : f.add mode ftz (.inf n) (.inf (!n)) = (f.nan, 1) := by cases n <;> rfl

/-- Infinity and anything but a NaN and the opposite infinity. -/
theorem FFmt.add_infinite (n : Bool) {b : FVal} (hnan : b.isNan = false) (hb : b ≠ .inf (!n)) : f.add mode ftz (.inf n) b = (f.infinity n, 0) := by
  match b with
  | .nan _ => simp [FVal.isNan] at hnan
  | .zero _ | .fin _ _ _ => rfl
  | .inf y =>
    have hsame : n = y := by simpa [eq_comm] using hb
    simp [FFmt.add, FVal.isNan, hsame]

end

end Sys2Proof.Machine

namespace Sys2Proof.Proofs
open Sys2Proof.Machine Sys2Proof.Claims

/-- Settles O32: a pattern is its fields put together, and a value at its own exponent is rounded by no bit; sums and products
by the kinds of their operands. -/
theorem floatRounding : Obligations.FloatRounding := by
  unfold Obligations.FloatRounding
  refine ⟨fun f hf mode x _ hx hnan => ?_, fun f _ mode ftz a b => ⟨f.add_comm mode ftz a b, f.mul_comm mode ftz a b, fun ha => ?_, ?_, ?_, ?_, ?_⟩⟩
  · have heb : ∀ g ∈ [f16, bf16, f32, f64], 1 ≤ g.eb := by decide
    exact FFmt.ofVal_decode (heb f hf) mode hx hnan
  · exact ⟨f.add_nan mode ftz (by simp [ha]), f.mul_nan mode ftz (by simp [ha])⟩
  · rintro n rfl rfl
    exact f.add_opposite mode ftz n
  · rintro n rfl hnan hb
    exact f.add_infinite mode ftz n hnan hb
  · rintro n m rfl rfl
    rfl
  · rintro n x m e rfl (rfl | rfl) <;> rfl

end Sys2Proof.Proofs
end

section
/-! ### REL, FENCE, ACQ and ACQALL: issue, waits, ends (R215, R219, R222, R226, R227, R402, R417) -/

set_option Elab.async false

namespace Sys2Proof.Machine
open Sys2Proof.Claims

/-! The issue. -/

section
variable {s : State} {c : Cur} {d a : BitVec 6} {sc : BitVec 2} {n : BitVec 5}

/-- The tail and the token that a release answers are those of the log it leaves. -/
theorem State.beginRelease_eq (u : State) (c : Cur) :
    u.beginRelease c.core c.slot c.p = (((releasing u c).log c.core).tail, tokenOf (releasing u c) c.core, releasing u c) := by
  simp only [State.beginRelease, releasing, tokenOf, State.token, State.log_setLog]

theorem execRel_ill (h : s.ready c (relNeeds c d)) (hwf : (Instr.rel d sc).wf = false) : exec (.rel d sc) s = .next (s.scalarFault c fILLOP 0 false) := by
  change execRel d sc s = _
  rw [execRel]
  exact State.scalarGo_ill s c (fun c => relNeeds c d) _ noFault _ h (by simp [hwf])

theorem execRel_ready (h : s.ready c (relNeeds c d)) (hwf : (Instr.rel d sc).wf = true) :
    exec (.rel d sc) s = .next (if sc = 0 then (s.leaves c (relNeeds c d) keep keep).waitFor (.settle d.toNat)
      else (releasing (s.leaves c (relNeeds c d) keep keep) c).waitFor (.release ((releasing (s.leaves c (relNeeds c d) keep keep) c).log c.core).tail (decide (sc = 2)) d.toNat
        (tokenOf (releasing (s.leaves c (relNeeds c d) keep keep) c) c.core))) := by
  change execRel d sc s = _
  rw [execRel]
  refine (State.scalarGo_ready s c (fun c => relNeeds c d) _ noFault _ h (by simp [hwf]) rfl).trans ?_
  simp only [State.beginRelease_eq]

theorem execFence_ill (h : s.ready c (fenceNeeds c d)) (hwf : (Instr.fence d sc).wf = false) : exec (.fence d sc) s = .next (s.scalarFault c fILLOP 0 false) := by
  change execFence d sc s = _
  rw [execFence]
  exact State.scalarGo_ill s c (fun c => fenceNeeds c d) _ noFault _ h (by simp [hwf])

theorem execFence_ready (h : s.ready c (fenceNeeds c d)) (hwf : (Instr.fence d sc).wf = true) :
    exec (.fence d sc) s = .next (if sc = 0 then (s.leaves c (fenceNeeds c d) keep keep).waitFor (.fence none false d.toNat)
      else (releasing (s.leaves c (fenceNeeds c d) keep keep) c).waitFor (.fence (some ((releasing (s.leaves c (fenceNeeds c d) keep keep) c).log c.core).tail) (decide (sc = 2)) d.toNat)) := by
  change execFence d sc s = _
  rw [execFence]
  refine (State.scalarGo_ready s c (fun c => fenceNeeds c d) _ noFault _ h (by simp [hwf]) rfl).trans ?_
  simp only [State.beginRelease_eq]

theorem execAcq_ill (h : s.ready c (acqNeeds c a sc n)) (hwf : (Instr.acq a sc n).wf = false) : exec (.acq a sc n) s = .next (s.scalarFault c fILLOP 0 false) := by
  change execAcq a sc n s = _
  rw [execAcq]
  exact State.scalarGo_ill s c (fun c => acqNeeds c a sc n) _ noFault _ h (by simp [hwf])

theorem execAcq_ready (h : s.ready c (acqNeeds c a sc n)) (hwf : (Instr.acq a sc n).wf = true) :
    exec (.acq a sc n) s = .next (s.leaves c (acqNeeds c a sc n) keep (fun o => { o with wait := acqWait c a sc n })) := by
  change execAcq a sc n s = _
  rw [execAcq]
  refine (State.scalarGo_ready s c (fun c => acqNeeds c a sc n) _ noFault _ h (by simp [hwf]) rfl).trans (congrArg _ ?_)
  rw [← State.waitFor_leaves h.1]
  unfold acqWait
  split
  · rfl
  · simp [acqRegs, Function.comp_def]

theorem execAcqall_ill (h : s.ready c (orderNeeds c [] [] false)) (hwf : (Instr.acqall sc).wf = false) :
    exec (.acqall sc) s = .next (s.scalarFault c fILLOP 0 false) := by
  change execAcqall sc s = _
  rw [execAcqall]
  exact State.scalarGo_ill s c (fun c => orderNeeds c [] [] false) _ noFault _ h (by simp [hwf])

/-- The state in which an ACQALL has taken the stamp `a` of its core's log. -/
def State.stamped (v : State) (core a : Nat) : State := v.setLog core { v.log core with last := a }

theorem execAcqall_ready {v : State} {x : Nat} (h : s.ready c (orderNeeds c [] [] false)) (hwf : (Instr.acqall sc).wf = true)
    (hv : v = s.leaves c (orderNeeds c [] [] false) keep keep) (hx : x = v.nextStamp c.core) :
    exec (.acqall sc) s = .next ((v.stamped c.core x).waitFor (.acqAll ((v.stamped c.core x).acqAllTails c.core x (decide (sc = 2))) (decide (sc = 2)))) := by
  subst hx hv
  change execAcqall sc s = _
  rw [execAcqall]
  exact State.scalarGo_ready s c (fun c => orderNeeds c [] [] false) _ noFault _ h (by simp [hwf]) rfl

end

/-! The publications that an ACQALL waits for. -/

section
variable {u : State} {core a : Nat} {sys : Bool} {l : Nat}

theorem State.mem_acqAllTails {tail : Nat} : (l, tail) ∈ u.acqAllTails core a sys ↔
    (l < 1728 ∨ sys = true) ∧ ∃ g x, (l, g) ∈ u.logs ∧ g.pubs.find? (fun x => stampLt (x.1, l) (a, core)) = some x ∧ x.2 = tail := by
  simp only [State.acqAllTails, List.mem_filterMap, List.mem_filter, Option.map_eq_some_iff, Bool.or_eq_true, decide_eq_true_eq, Prod.mk.injEq]
  constructor
  · rintro ⟨⟨l, g⟩, ⟨hmem, hscope⟩, x, hx, rfl, rfl⟩
    exact ⟨hscope, g, x, hmem, hx, rfl⟩
  · rintro ⟨hscope, g, x, hmem, hx, rfl⟩
    exact ⟨(l, g), ⟨hmem, hscope⟩, x, hx, rfl, rfl⟩

/-- Each is the newest of its log before the stamp: none newer is before it. -/
theorem State.acqAllTails_newest {tail : Nat} (h : (l, tail) ∈ u.acqAllTails core a sys) :
    (l < 1728 ∨ sys = true) ∧ ∃ g x older newer, (l, g) ∈ u.logs ∧ g.pubs = newer ++ x :: older ∧ x.2 = tail ∧ stampLt (x.1, l) (a, core) = true ∧
      ∀ y ∈ newer, stampLt (y.1, l) (a, core) = false := by
  obtain ⟨hscope, g, x, hmem, hx, htail⟩ := State.mem_acqAllTails.mp h
  obtain ⟨hbefore, newer, older, hpubs, hnewer⟩ := List.find?_eq_some_iff_append.mp hx
  exact ⟨hscope, g, x, older, newer, hmem, hpubs, htail, hbefore, fun y hy => by simpa using hnewer y hy⟩

/-- A log with a publication before the stamp is waited for. -/
theorem State.acqAllTails_of_pub {g : Log} (hmem : (l, g) ∈ u.logs) (hscope : l < 1728 ∨ sys = true) (h : ∃ x ∈ g.pubs, stampLt (x.1, l) (a, core) = true) :
    ∃ tail, (l, tail) ∈ u.acqAllTails core a sys := by
  obtain ⟨x, hx⟩ := Option.isSome_iff_exists.mp (List.find?_isSome.mpr h)
  exact ⟨x.2, State.mem_acqAllTails.mpr ⟨hscope, g, x, hmem, hx, rfl⟩⟩

end

/-! The ends of the waits. -/

section
variable {s : State} {core slot p : Nat} {t : Train} {o : Portion}

/-- The turn of a portion whose wait asks nothing of the host port. -/
theorem State.resume_eq (ht : s.train core slot = some t) (ho : t.portion p = some o) (hmay : s.waitMay core p t = true) {w : Wait} (hw : o.wait = w)
    (hsys : w.sysTails core = []) : s.resume core slot p = s.resumeWait core slot p t w := by
  simp only [State.resume, ht, ho, hmay, if_true, hw, hsys, List.foldl_nil]

variable (ht : s.train core slot = some t) (ho : t.portion p = some o) (hmay : s.waitMay core p t = true)
include ht ho hmay

theorem State.resume_settle {d : Nat} (hw : o.wait = .fence none false d ∨ o.wait = .settle d) (hperf : t.performed = true) :
    s.resume core slot p = (s.putReg core slot d 0).endWait core slot p true := by
  rcases hw with hw | hw
  all_goals
    rw [State.resume_eq ht ho hmay hw rfl]
    simp only [State.resumeWait, State.endFence, hperf, if_true]

theorem State.resume_release {tail d : Nat} {tok : W64} (hw : o.wait = .release tail false d tok) (hperf : t.performed = true) (hrel : s.released core slot p tail false = true) :
    s.resume core slot p = (((s.endRelease core slot p false).2).putReg core slot d tok).endWait core slot p true := by
  rw [State.resume_eq ht ho hmay hw rfl]
  simp only [State.resumeWait, State.endRel, hperf, hrel, Bool.and_self, if_true]

theorem State.resume_fence {tail d : Nat} (hw : o.wait = .fence (some tail) false d) (hperf : t.performed = true) (hrel : s.released core slot p tail false = true) :
    s.resume core slot p = (((s.endRelease core slot p false).2).putReg core slot d (BitVec.ofNat 64 (s.endRelease core slot p false).1)).endWait core slot p true := by
  rw [State.resume_eq ht ho hmay hw rfl]
  simp only [State.resumeWait, State.endFence, hperf, hrel, Bool.and_self, if_true]

theorem State.resume_acquire {toks : List Nat} (hw : o.wait = .acquire toks false) (hperf : t.performed = true) (hall : (s.acquireList core false toks).1 = []) :
    s.resume core slot p = (s.acquireList core false toks).2.endWait core slot p true := by
  rw [State.resume_eq ht ho hmay hw rfl]
  simp only [State.resumeWait, State.endAcquire, hperf, hall, List.isEmpty_nil, Bool.and_self, if_true, State.endWait]

theorem State.resume_acqAll {tails : List (Nat × Nat)} (hw : o.wait = .acqAll tails false) (hall : s.allFolded tails false = true) :
    s.resume core slot p = (s.acqAllDone core tails).endWait core slot p true := by
  rw [State.resume_eq ht ho hmay hw rfl]
  simp only [State.resumeWait, State.endAcqAll, hall, if_true]

end

end Sys2Proof.Machine

namespace Sys2Proof.Proofs
open Sys2Proof.Machine Sys2Proof.Claims

/-- Settles O17: the issue of each by its scope, the tails of an ACQALL as the first publication of each log's list that is
before its stamp, and each wait's end as the turn of a portion that finds what it waits for. -/
theorem orderingInstructions : Obligations.OrderingInstructions := by
  unfold Obligations.OrderingInstructions
  refine ⟨⟨?rel, ?fence, ?acq, ?acqall⟩, ?ends, ?both⟩
  case rel =>
    refine fun s c d sc h => ⟨execRel_ill h, fun hwf hcor => ?_, fun hwf hsc u hu => ?_⟩
    · rw [execRel_ready h hwf, if_pos hcor, State.waitFor_leaves h.1]
    · rw [execRel_ready h hwf, if_neg hsc, ← hu]
  case fence =>
    refine fun s c d sc h => ⟨execFence_ill h, fun hwf hcor => ?_, fun hwf hsc u hu => ?_⟩
    · rw [execFence_ready h hwf, if_pos hcor, State.waitFor_leaves h.1]
    · rw [execFence_ready h hwf, if_neg hsc, ← hu]
  case acq => exact fun s c a sc n h => ⟨execAcq_ill h, execAcq_ready h⟩
  case acqall =>
    refine fun s c sc h => ⟨execAcqall_ill h, fun hwf a v u hv ha hu => ⟨?_, ?_, ?_⟩, ?_, ?_⟩
    · subst hu
      exact execAcqall_ready h hwf hv ha
    · rw [ha, hv]
      exact State.last_lt_nextStamp _ _
    · rw [ha, hv]
      exact State.clock_le_nextStamp _ _
    · exact fun u core a sys l tail hmem => State.acqAllTails_newest hmem
    · exact fun u core a sys l g hmem hscope hpub => State.acqAllTails_of_pub hmem hscope hpub
  case ends =>
    intro s core slot p t o ht ho hmay
    exact ⟨fun d => State.resume_settle ht ho hmay, fun tail d tok => State.resume_release ht ho hmay, fun tail d => State.resume_fence ht ho hmay,
      fun toks => State.resume_acquire ht ho hmay, fun tails => State.resume_acqAll ht ho hmay⟩
  case both =>
    rintro s u w z now c d a n t o - ht ho hmay hperf
    refine ⟨fun h hu hw => ⟨?_, ?_⟩, fun tail h hw htail hu hwait hrel => ⟨?_, ?_⟩, fun h hu hw => ⟨?_, ?_⟩, fun tail h hw htail hu hwait hrel => ⟨?_, ?_⟩,
      fun toks h hwf hacq hu hw hall => ⟨?_, ?_⟩, fun v x tails h hv hx hw htails hu hwait hall => ⟨?_, ?_⟩⟩
    · rw [execRel_ready h rfl, if_pos rfl, State.waitFor_leaves h.1, hu]
    · exact State.resume_settle ht ho hmay (.inr hw) hperf
    · rw [execRel_ready h rfl, if_neg (by decide), ← hw, hu, htail]
      rfl
    · exact State.resume_release ht ho hmay hwait hperf hrel
    · rw [execFence_ready h rfl, if_pos rfl, State.waitFor_leaves h.1, hu]
    · exact State.resume_settle ht ho hmay (.inl hw) hperf
    · rw [execFence_ready h rfl, if_neg (by decide), ← hw, hu, htail]
      rfl
    · exact State.resume_fence ht ho hmay hwait hperf hrel
    · rw [execAcq_ready h hwf, hacq, hu]
    · exact State.resume_acquire ht ho hmay hw hperf hall
    · subst hw
      rw [hu, htails]
      exact execAcqall_ready h rfl hv hx
    · exact State.resume_acqAll ht ho hmay hwait hall

end Sys2Proof.Proofs
end

section
/-! ### WAITM on a train slot past the core's last (R421) -/

set_option Elab.async false

namespace Sys2Proof.Machine
open Sys2Proof.Claims

/-- The train of the counterexample: S1 holds the offset 0, S2 the mask 1. -/
def parkTrain : Train := { placedTrain false with s := [(2, 1)] }

/-- The state of the counterexample: the train in focus has slot 32 of core 0, one past the core's last, so its key is that of
slot 0 of core 1. The watched word is 0 in the scratchpad of core 0 and 1 in that of core 1. -/
def parkState : State :=
  let s := (State.reset.withTrain false).setTrain 0 32 parkTrain
  let s := (s.setScratch 0 0 { ways := 1 }).setScratch 1 0 { ways := 1, bytes := [(0, 1)] }
  { s with focus := { core := 0, slot := 32, portion := 0 }, agenda := [] }

/-- Its focus. -/
def parkCur : Cur := { core := 0, slot := 32, p := 0, t := parkTrain, o := { pc := 0 } }

/-- The wait of the portion in focus after a step that goes on. -/
def waitAfter (c : Cur) : Out → Option Wait
  | .next t => ((t.train c.core c.slot).bind (fun tr => tr.portion c.p)).map Portion.wait
  | _ => none

theorem cur_parkState : parkState.cur = some parkCur := rfl

/-- WAITM issues there. -/
theorem ready_parkState : parkState.ready parkCur (waitmReq parkCur 3 1 2) := by
  refine ⟨cur_parkState, ?_, ?_, ?_, ?_, ?_⟩ <;> decide +kernel

/-- Its offset is good, its word unharmed, and the word does not cover the mask. -/
theorem word_parkState :
    ((parkCur.t.getS 1).toNat % 8 = 0 ∧ (parkCur.t.getS 1).toNat + 8 ≤ (parkState.scratch parkCur.core parkCur.t.task).ways * 32768) ∧
      (parkState.scratch parkCur.core parkCur.t.task).isBad (parkCur.t.getS 1).toNat 8 = false ∧
      (parkState.scratch parkCur.core parkCur.t.task).readLe (parkCur.t.getS 1).toNat 8 % 2 ^ 64 &&& (parkCur.t.getS 2).toNat ≠ (parkCur.t.getS 2).toNat := by
  decide +kernel

/-- The step ends the wait all the same. -/
theorem waitAfter_parkState : waitAfter parkCur (exec (.waitm 3 1 2) parkState) = some .none := by decide +kernel

end Sys2Proof.Machine

namespace Sys2Proof.Proofs
open Sys2Proof.Machine Sys2Proof.Claims

/-- Refutes O19: a parked waiter looks at the scratchpad of the core that its train's key names. The statement holds no bound on
the slot of the focus; for slot 32 of core 0 the key names core 1, whose word covers the mask, so WAITM ends its wait at once
although the word in the task's scratchpad on core 0 does not cover it. -/
theorem not_waitsOnMemory : ¬ Obligations.WaitsOnMemory := by
  rintro ⟨⟨hwaitm, -⟩, -⟩
  obtain ⟨hoffset, hclean, hshort⟩ := word_parkState
  obtain ⟨hgood, -⟩ := hwaitm parkState parkCur 3 1 2 ready_parkState
  obtain ⟨t, tr, o, v, hexec, htrain, hportion, rfl, -, hparks, -⟩ := hgood hoffset hclean
  obtain ⟨hwaits, -⟩ := hparks hshort
  have hafter := waitAfter_parkState
  rw [hexec] at hafter
  simp only [waitAfter, htrain, hportion, Option.bind_some, Option.map_some, Option.some.injEq] at hafter
  exact hwaits hafter

end Sys2Proof.Proofs
end
